-- ==== Sys2Proof/Word.lean ====
section
/-!
DEFINITION. The word types of the part and the shapes of what crosses its edges (packets, frames, control messages).
Indices of fixed structures are `Fin`; everything the spec numbers by bits is a bit vector; counts and times are `Nat`.
-/
namespace Sys2Proof

/-- A byte of any memory (00 R9). -/
abbrev Byte := BitVec 8
/-- A 32-bit register, counter or lane word (00 R10). -/
abbrev Word := BitVec 32
/-- A 64 B granule, byte 0 in the low bits (05 R148, 00 R9). -/
abbrev Granule := BitVec 512
/-- A 32 B descriptor (06 R185). -/
abbrev Desc := BitVec 256

/-- Sparse data by key: keys strictly rising, no entry equal to what an unlisted key reads as. -/
abbrev Tbl (α : Type) := List (Nat × α)
/-- A byte memory: an unlisted address reads as zero. -/
abbrev Mem := Tbl Byte

/-- Physical seat: crew × 24 + physical index, crew = half × 48 + crew (00 R3, 01 R15, 13 R407). -/
abbrev SeatIx := Fin 2304
/-- Crew q = half × 48 + crew (11 R362, 12 R375). -/
abbrev CrewIx := Fin 96
/-- Half 0 (west) or 1 (east). -/
abbrev HalfIx := Fin 2
/-- Clock domain number (12 R375). -/
abbrev DomIx := Fin 100
/-- Submission ring 0-15; 16 is the I3C port's own session (13 R410, 14 R451). -/
abbrev SrcIx := Fin 17
/-- Ring number 0-15 (13 R410). -/
abbrev RingIx := Fin 16
/-- Feed ring 0-7 (13 R410). -/
abbrev FeedIx := Fin 8
/-- Fabric port F0-F11 (10 R303). -/
abbrev PortIx := Fin 12
/-- Pool segment 0-19 (05 R179). -/
abbrev SegIx := Fin 20
/-- Weight-store bank 0-31 (05 R149). -/
abbrev BankIx := Fin 32
/-- A node of the network: routers 0-2303 by physical seat, the seam's row switches 2304-2327, the edge ports of the host complex
2328-2423 and of the fabric complex 2424-2519 by column, and the pool links 2520-2539 (09 R270-R272, R298). -/
abbrev NodeIx := Fin 2540
/-- An input or output of a node. -/
abbrev NodePort := Fin 16
/-- A virtual channel: 0 CTL, 1 REQ, 2 RSP (09 R272). -/
abbrev VcIx := Fin 3
/-- The DMA engine (0) and the send engine (1) of a seat (09 R286). -/
abbrev EngIx := Fin 2
/-- The MX units: 0 weight loader, 1 activation loader, 2 array, 3 drainer (03 R79). -/
abbrev UnitIx := Fin 4

/-- A packet: one header slot and its data granules (09 R274 on the die, 10 R330 on the fabric). -/
structure Pkt where
  hdr  : BitVec 512
  data : List Granule
  deriving DecidableEq, Repr

/-- A fabric frame: 256-byte flit and 14-byte envelope (10 R308). -/
structure Frame where
  flit : BitVec 2048
  env  : BitVec 112
  deriving DecidableEq, Repr

/-- What one CONTROL packet carries (09 R272, R275): the spec names the four kinds and gives them no layout. -/
inductive CtlOp where
  /-- A live-epoch update reaching one table: seat 0-2303, 2304 and 2305 the pools, 2306 the fabric complex (07 R234). -/
  | liveEpoch (table : Nat) (cls : Fin 64)
  /-- A seat-map write reaching the copy of one node for one crew (09 R282). -/
  | seatMap (copy : NodeIx) (crew : CrewIx)
  /-- A wake request for a half (09 R299). -/
  | wake (half : HalfIx)
  /-- A counter reset at dispatch for one seat (07 R228). -/
  | counterReset (seat : SeatIx)
  deriving DecidableEq, Repr

/-- A ring of the CQ block: kind 0 submission, 1 completion, 2 feed (13 R410). -/
structure RingRef where
  kind : Fin 3
  n    : Fin 16
  deriving DecidableEq, Repr

/-- One dependence entry, 16 B (07 R223). -/
abbrev DepRaw := BitVec 128

/-- A TAP instruction (16 R489). -/
inductive TapIr where
  | bypass | idcode | samplePreload | extest | extestPulse | extestTrain | clamp | highz
  /-- Any other instruction, by its own code. -/
  | other (code : Nat)
  deriving DecidableEq, Repr

/-- The device state record (14 R438). -/
structure StateRec where
  /-- SEQUENCE; reset 0. -/
  seq : Nat := 0
  /-- ACTIVE_SLOT; reset 0. -/
  active : Fin 2 := 0
  /-- TRIAL; reset false. -/
  trial : Bool := false
  /-- MIN_SVN, 32 bits (GLB_MIN_SVN); reset 0. -/
  minSvn : Nat := 0
  /-- LMS tree number, 8 bits (GLB_LMS_TREE); reset 0. -/
  tree : Nat := 0
  /-- Next LMS index (GLB_LMS_LEFT); reset 0. -/
  index : Nat := 0
  /-- Publisher slots 0-7: ECDSA key 776 bits, LMS key 448 bits (11 R346); reset empty. -/
  pubs : Tbl (BitVec 776 × BitVec 448) := []
  deriving DecidableEq, Repr

/-- A fence log entry (14 R441). -/
structure FenceEnt where
  /-- SEQ, 16 bits; reset 0. -/
  seq : Nat := 0
  /-- UNIT, 32 bits; reset 0. -/
  unit : Word := 0
  /-- CAUSE, 8 bits; reset 0. -/
  cause : Nat := 0
  /-- TIME, 64 bits; reset 0. -/
  time : BitVec 64 := 0
  /-- Signature, 768 bits; reset 0. -/
  sig : BitVec 768 := 0
  deriving DecidableEq, Repr

/-- The board flash (14 R427). It keeps its contents through every reset. -/
structure Flash where
  /-- Firmware slot A, 2 MiB; reset erased (5). -/
  slotA : Mem := []
  /-- Firmware slot B, 2 MiB; reset erased (5). -/
  slotB : Mem := []
  /-- Grade record, bytes 0x000-0xFFF (14 R439); reset erased (5). -/
  grade : Mem := []
  /-- Fence log, at most 256 entries (14 R441); reset empty (5). -/
  fences : List FenceEnt := []
  /-- Device state record, copy 0, none where its tag is not valid (14 R438); reset none (5). -/
  rec0 : Option StateRec := none
  /-- Copy 1 (14 R438); reset none (5). -/
  rec1 : Option StateRec := none
  /-- Certificates, 48 KiB (14 R437); reset erased (5). -/
  certs : Mem := []
  deriving DecidableEq, Repr

end Sys2Proof
end

