-- ==== Sys2Proof/Syntax.lean ====
section
/-!
DEFINITION. The commands of the part: one constructor for each row of spec/opcode_table.json (the operations and events of the
chapters), with what the step needs from outside. The operands are the model's own: the table gives its rows no bits.
-/
namespace Sys2Proof

/-- A command that the block takes: an operation of the host or the board, an event on a pin, or a step of the part itself. -/
inductive Instr where
  /-- OPEN_SESSION (R417). Opens a session on a submission ring, agreeing the lower common command-set minor or refusing with VERSION. -/
  | openSession (src : SrcIx)
  /-- CLOSE_SESSION (R421). Closes the ring's session, replying after the ring's earlier commands have replied. -/
  | closeSession (src : SrcIx)
  /-- CONTEXT_CREATE (R346). Binds a FREE context number to a publisher slot, making it CREATED. -/
  | contextCreate (src : SrcIx)
  /-- SHARD_LOAD (R370). Checks a signed shard image, allocates blocks, recovers the content key and queues the segments of a new generation for the load engine. -/
  | shardLoad (src : SrcIx) (img : Option Mem)
  /-- TILE_REPAIR (R374). Re-verifies the generation's image and reprocesses the named segments into the generation's existing blocks. -/
  | tileRepair (src : SrcIx) (img : Option Mem)
  /-- GENERATION_SWITCH (R358). Makes a complete READY generation CURRENT and the old CURRENT generation RETIRING. -/
  | generationSwitch (src : SrcIx)
  /-- EVICT (R347). Returns a context to FREE, releasing the blocks of both generations and clearing its faulted mark. -/
  | evict (src : SrcIx)
  /-- GRAPH_SUBMIT (R219). Checks a heat graph in a pool region in order and gives it a graph number, or refuses it. -/
  | graphSubmit (src : SrcIx)
  /-- GRAPH_RELEASE (R218). Releases a submitted graph whose region no live run uses. -/
  | graphRelease (src : SrcIx)
  /-- RUN (R220). Admits a run of a graph, binding each named context's CURRENT generation and making its heats pending. -/
  | run (src : SrcIx)
  /-- CANCEL (R421). Cancels a live run, aborting its dispatched heats and abandoning the rest, and replies when the run has ended. -/
  | cancel (src : SrcIx)
  /-- WEIGH_ENOUGH (R466). Puts the chip, or at fleet level the fleet along the chain, into weigh-enough. -/
  | weighEnough (src : SrcIx)
  /-- FAULT_CLEAR_CONTEXT (R469). FAULT_CLEAR with what = 0 clears a context's faulted mark. -/
  | faultClearContext (src : SrcIx)
  /-- FAULT_CLEAR_WEIGH_ENOUGH (R467). FAULT_CLEAR with what = 1 clears the chip's weigh-enough, unless a refusal case of R467 applies. -/
  | faultClearWeighEnough (src : SrcIx)
  /-- FENCE_SEAT (R470). Fences every enabled, unfenced seat of the unit, aborts heats on them with FENCED, and may record the fences in the fence log. -/
  | fenceSeat (src : SrcIx)
  /-- POWER_STATE (R389). Requests a power state for a unit; a lower state stays pending until its conditions hold, and a higher state wakes the unit. -/
  | powerState (src : SrcIx)
  /-- SET_STEP (R378). Sets the host step ceiling of a crew, half or chip. -/
  | setStep (src : SrcIx)
  /-- TIME_ROLE (R340). Sets the part's time role and upstream port. -/
  | timeRole (src : SrcIx)
  /-- TELEMETRY (R421). Copies the selected register blocks into a host buffer. -/
  | telemetry (src : SrcIx) (ok : Bool)
  /-- LOG_READ (R459). Copies chip-log records from a given sequence number into a host buffer. -/
  | logRead (src : SrcIx) (ok : Bool)
  /-- ATTEST (R444). Writes a report signed with ECDSA and LMS, advancing the LMS index in the state record before signing. -/
  | attest (src : SrcIx) (ok : Bool) (fl : Bool)
  /-- FW_UPDATE (R433). Verifies a TYPE 1 Snivan image and writes it to the slot that is not running. -/
  | fwUpdate (src : SrcIx) (img : Option Mem) (fl : Bool)
  /-- PUBLISHER_ENROLMENT (R442). A FW_UPDATE with a TYPE 2 image sets the publisher slots in one state-record write. -/
  | publisherEnrolment (src : SrcIx) (img : Option Mem) (fl : Bool)
  /-- DEBUG_TOKEN (R443). A FW_UPDATE with a TYPE 3 image evicts every context and unlocks debug until RESET_N. -/
  | debugToken (src : SrcIx) (img : Option Mem)
  /-- CERTIFICATE_RENEWAL (R445). A FW_UPDATE with a TYPE 4 image moves attestation to the next LMS tree. -/
  | certificateRenewal (src : SrcIx) (img : Option Mem) (fl : Bool)
  /-- FW_ACTIVATE (R434). After the FW_UPDATE reply is posted, Snivan writes the new slot as active in trial and stops so that the ROM starts it. -/
  | fwActivate (puf : Bool)
  /-- SNIVAN_READY (R27). A started or restarted Snivan reports ready, then serves the latched doorbells and the waiting records in log order. -/
  | snivanReady
  /-- SUBMISSION_DOORBELL (R411). A write of CQ_SQ_TAIL makes new commands available, which Snivan reads in round robin. -/
  | submissionDoorbell (r : RingIx) (val : Word)
  /-- COMMAND_READ (R411). Snivan reads the next command of a ring, subject to ORDER; an unreadable entry is answered HOST_ACCESS. -/
  | commandRead (r : RingIx) (entry : Option (BitVec 512))
  /-- COMPLETION_DOORBELL (R412). A write of CQ_CQ_HEAD frees slots of a completion ring. -/
  | completionDoorbell (r : RingIx) (val : Word)
  /-- FEED_DOORBELL (R423). A write of CQ_FEED_TAIL hands new feed descriptors to the input-feed engine. -/
  | feedDoorbell (f : FeedIx) (val : Word)
  /-- CQ_FEED_RESUME (R426). Writing 1 restarts a stopped feed ring at the descriptor after the failed one. -/
  | feedResume (f : FeedIx) (val : Word)
  /-- RING_ENABLE (R410). Setting a ring's ENABLE clears its head and tail and, for a completion ring, sets phase 1. -/
  | ringEnable (r : RingRef)
  /-- RING_DISABLE (R410). ENABLE written 0 takes effect once the ring is unused. -/
  | ringDisable (r : RingRef)
  /-- CLK_TIME_LOAD (R385). Writing 1 loads CLK_TIME_SET into the master time base at the next sync, unless the load is refused. -/
  | clkTimeLoad (val : Word)
  /-- CLK_TIME_LO_READ (R386). A read of CLK_TIME_LO latches the master time base for the reads of CLK_TIME_HI and CLK_TIME_FRAC. -/
  | clkTimeLoRead
  /-- WST_DIAG_GO (R183). Writing 1 requests a diagnostic read of one weight-store granule in a rest slot. -/
  | wstDiagGo (w : SeatIx) (val : Word)
  /-- FAB_PORT_RETRAIN (R323). Writing 1 schedules a fast retrain of the port. -/
  | fabPortRetrain (p : PortIx) (val : Word)
  /-- FAB_PORT_RETRAIN_FULL (R316). Writing 1 starts a full retrain of the port from DETECT. -/
  | fabPortRetrainFull (p : PortIx) (val : Word)
  /-- FAB_PORT_EN_WRITE (R313). Writing FAB_PORT_EN turns a port OFF or lets it start at DETECT. -/
  | fabPortEnWrite (p : PortIx) (val : Word)
  /-- GLB_RECOVERY_GO (R431). Writing 1 makes the ROM verify the image in the recovery window and start Snivan from it if it passes. -/
  | recoveryGo (val : Word)
  /-- GLB_EVENTS_CLEAR (R406). A W1C write clears event bits of GLB_EVENTS. -/
  | eventsClear (val : Word)
  /-- FLT_ACK_SEQ_WRITE (R459). The host reports the highest log sequence number it has consumed. -/
  | ackSeqWrite (val : Word)
  /-- REGISTER_WRITE (R405). Any other BAR0 write: it sets RW fields, and a write of a bad size, alignment or offset is dropped and counted. -/
  | registerWrite (off : Nat) (size : Nat) (val : Option (BitVec 64))
  /-- SEAT_WINDOW_ACCESS (R407). An access through a seat's data window to core or descriptor memory, made as an unscheduled access. -/
  | seatWindowAccess (w : SeatIx) (off : Nat) (wr : Option Word)
  /-- BAR2_ACCESS (R408). A host access to a half pool through BAR2, carrying epoch 0; a counter-window write takes effect after earlier BAR2 writes to the pool. -/
  | bar2Access (off : Nat) (len : Nat) (wr : Option Mem) (prot : Bool)
  /-- FUNCTION_LEVEL_RESET (R401). Disables all rings, cancels runs, releases graphs, stops feeds and resets configuration space. -/
  | functionLevelReset
  /-- PERST_N_ASSERT (R401). The host's fundamental reset acts as a Function Level Reset and retrains the link. -/
  | perstAssert
  /-- PERST_N_DEASSERT (R484). Link training begins once PERST_N is deasserted and the host complex generator has locked. -/
  | perstDeassert
  /-- CONFIGURATION_REQUEST (R401). A PCI Express configuration request, answered with Configuration Request Retry Status until Snivan has started. -/
  | configurationRequest (off : Nat) (wr : Option Word)
  /-- RESET_N_ASSERT (R487). A taken assertion of at least 10 µs resets everything except the alert code. -/
  | resetAssert (ns : Nat)
  /-- RESET_N_RELEASE (R487). Release takes effect once power is good and REFCLK has been stable; the time base starts and the ROM begins. -/
  | resetRelease (flash : Option Flash) (puf : Bool) (head : Bool)
  /-- PWRGD_DEASSERT (R482). A power-good deassertion of at least 1 µs is treated as RESET_N. -/
  | pwrgdDeassert (g : Fin 4) (ns : Nat)
  /-- PWRGD_ASSERT (R480). The board signals that a rail group is within tolerance. -/
  | pwrgdAssert (g : Fin 4)
  /-- HALT_N_ASSERT (R397). A qualified assertion of HALT_N is a chip weigh-enough, and a fleet weigh-enough if PWR_HALT_FLEET is set. -/
  | haltAssert (ns : Nat)
  /-- HALT_N_DEASSERT (R395). After 100 µs deasserted, HALT_N is treated as deasserted. -/
  | haltDeassert (ns : Nat)
  /-- PWR_LIMIT_N_ASSERT (R396). A qualified assertion moves every crew to CLK_LIMIT_STEP in hardware. -/
  | limitAssert (ns : Nat)
  /-- PWR_LIMIT_N_DEASSERT (R396). After 100 µs deasserted, Snivan restores each crew to its step. -/
  | limitDeassert (ns : Nat)
  /-- THERMTRIP (R394). A junction sensor at 110 °C or above asserts THERMTRIP_N and stops every domain except management. -/
  | thermtrip (q : CrewIx) (tj : Byte)
  /-- CLK_REFLOST (R376). Loss of the reference clock stops every domain except management and leads to weigh-enough. -/
  | clkReflost
  /-- CLK_UNLOCK (R376). A generator losing lock stops its domain and leads to weigh-enough. -/
  | clkUnlock (d : DomIx)
  /-- MGMT_WATCHDOG (R432). Expiry of the management watchdog places the chip in weigh-enough and restarts Snivan from the ROM. -/
  | mgmtWatchdog (puf : Bool)
  /-- RAILS_AND_CLOCKS (R490). Stage 2: the core rails are set and the crew, seam and fabric generators are locked. -/
  | railsAndClocks (bad : List Nat)
  /-- CROSSING_CALIBRATION (R490). Stage 3: the crossing FIFO latencies and the sync-network delay are fixed. -/
  | crossingCalibration (base : Nat) (lats : Tbl Nat) (d : DomIx)
  /-- DRAM_TRAINING (R490). Stage 4: every weight-store bank and pool segment is trained. -/
  | dramTraining (bad : List Nat)
  /-- SEAT_SELF_TEST (R490). Stage 5: every enabled seat tests its units and zeroes its memories. -/
  | seatSelfTest (bad : List Nat)
  /-- FILL_AND_GRADE (R490). Stage 6: zero fills, grade record and fence log check, seat map write, and Snivan ready. -/
  | fillAndGrade
  /-- FABRIC_TRAINING_END (R490). Stage 8 ends when each enabled port is ACTIVE or DOWN or has timed out in DETECT, and the device becomes Ready. -/
  | fabricTrainingEnd
  /-- ENUM_TIMER (R448). Every 10 ms the chain head sends ENUM with VALUE 1. -/
  | enumTimer
  /-- ENUM (R448). A valid ENUM frame at the bow assigns the node number if none is held, and an ENUM with the node number plus one is sent on. -/
  | enumFrame (frame : Nat)
  /-- HALT_SYMBOL (R450). A HALT symbol received while not in a fleet weigh-enough starts a chip weigh-enough and forwards HALT sternwards. -/
  | haltSymbol
  /-- I3C_PRIVATE_WRITE (R451). The board controller writes a command through the I3C port. -/
  | i3cWrite (data : List Byte)
  /-- I3C_PRIVATE_READ (R451). The board controller reads a reply and its buffer data through the I3C port. -/
  | i3cRead
  /-- DESCRIPTOR_PRESENT (R190). The beat counter reaches the next descriptor's effective beat; the descriptor is checked and issues unless held. -/
  | descriptorPresent (w : SeatIx)
  /-- QUEUE_HOLD_END (R191). A descriptor held for a full queue issues in the first core cycle in which the queue has room. -/
  | queueHoldEnd (w : SeatIx)
  /-- LOOP_ITERATION (R202). A loop's next iteration begins, setting the beat base and writing its index counter. -/
  | loopIteration (w : SeatIx)
  /-- BLOAD (R98). Loads one weight tile into a nibble of the shadow blade, checking its tag and CRC. -/
  | bload (w : SeatIx)
  /-- ALOAD (R99). Loads a narrow activation tile from core memory into a slot. -/
  | aload (w : SeatIx)
  /-- DIAG (R93). Places a slot row on the diagonal of shadow nibble N0. -/
  | diag (w : SeatIx)
  /-- PRODUCT (R101). Runs a pass-code table over a row range into the accumulator banks. -/
  | product (w : SeatIx)
  /-- DRAIN (R102). Copies accumulator rows to the operand cache, or a full tile to core memory. -/
  | drain (w : SeatIx)
  /-- MX_UNIT_START (R80). An MX unit starts its next queued descriptor once it is idle. -/
  | mxUnitStart (w : SeatIx) (u : UnitIx)
  /-- PASS_START (R92). A pass of a PRODUCT starts, swapping blades where SWAP is set and checking its operand formats. -/
  | passStart (w : SeatIx)
  /-- MOV (R117). Vector copy, or rounding to BF16. -/
  | mov (w : SeatIx)
  /-- ADD (R118). Vector addition. -/
  | vadd (w : SeatIx)
  /-- SUB (R118). Vector subtraction. -/
  | vsub (w : SeatIx)
  /-- MUL (R118). Vector multiplication. -/
  | vmul (w : SeatIx)
  /-- FMA (R118). Vector fused multiply-add. -/
  | fma (w : SeatIx)
  /-- MIN (R117). Vector minimum. -/
  | vmin (w : SeatIx)
  /-- MAX (R117). Vector maximum. -/
  | vmax (w : SeatIx)
  /-- ABS (R117). Vector absolute value. -/
  | vabs (w : SeatIx)
  /-- NEG (R117). Vector negation. -/
  | vneg (w : SeatIx)
  /-- CMP (R117). Vector comparison, writing I32 1 or 0. -/
  | cmp (w : SeatIx)
  /-- SEL (R117). Vector select by the S3 word. -/
  | sel (w : SeatIx)
  /-- AND (R118). Vector bitwise and. -/
  | vand (w : SeatIx)
  /-- OR (R118). Vector bitwise or. -/
  | vor (w : SeatIx)
  /-- XOR (R118). Vector bitwise exclusive or. -/
  | vxor (w : SeatIx)
  /-- SHIFT (R117). Vector shift. -/
  | shift (w : SeatIx)
  /-- CVT (R117). Vector conversion between FP32 and I32. -/
  | cvt (w : SeatIx)
  /-- CURVE (R130). Evaluates a curve table for each element. -/
  | curve (w : SeatIx)
  /-- CTLOAD (R128). Loads a curve image into a slot after checking its CRC and header. -/
  | ctload (w : SeatIx)
  /-- REDUCE (R136). Reduces groups of entries in a fixed order. -/
  | reduce (w : SeatIx)
  /-- TOPK (R137). Writes the K highest values and their indices per group. -/
  | topk (w : SeatIx)
  /-- COMPRESS (R133). Packs the active elements and writes their count to a counter. -/
  | compress (w : SeatIx)
  /-- EXPAND (R134). Scatters dense elements back to their active positions. -/
  | expand (w : SeatIx)
  /-- GATHER (R135). Gathers elements from a window by index. -/
  | gather (w : SeatIx)
  /-- RAND (R143). Writes stochastic generator values. -/
  | rand (w : SeatIx)
  /-- QUANTIZE (R140). Quantises FP32 entries into a narrow activation tile in core memory. -/
  | quantize (w : SeatIx)
  /-- DEQUANTIZE (R141). Reads and checks a narrow tile, then writes its values as FP32 or BF16. -/
  | dequantize (w : SeatIx)
  /-- VLOAD (R141). Reads and checks a full tile, then copies its words into the operand cache. -/
  | vload (w : SeatIx)
  /-- VSTORE (R142). Writes 128 entries as a full tile to core memory. -/
  | vstore (w : SeatIx)
  /-- VE_START (R124). The vector engine starts its next queued descriptor at the first vector cycle allowed. -/
  | veStart (w : SeatIx)
  /-- SEND (R288). Writes local granules to a destination, unicast or multicast. -/
  | send (w : SeatIx) (e : EngIx)
  /-- GET (R288). Reads remote granules into local core memory. -/
  | get (w : SeatIx) (e : EngIx)
  /-- WORD (R289). Writes one 32-bit word to a destination. -/
  | word (w : SeatIx) (e : EngIx)
  /-- FINISH (R290). Sends a finish to a seat or pool counter. -/
  | finish (w : SeatIx) (e : EngIx)
  /-- RSET (R287). Loads a route register of the engine. -/
  | rset (w : SeatIx) (e : EngIx)
  /-- ENGINE_START (R292). A DMA or send engine starts its next queued descriptor. -/
  | engineStart (w : SeatIx) (e : EngIx)
  /-- CATCH (R241). Holds the beat counter until a landing counter or flag satisfies its target. -/
  | catchCond (w : SeatIx)
  /-- CATCH_SATISFIED (R241). The condition of a presented CATCH is found satisfied and the CATCH issues. -/
  | catchSatisfied (w : SeatIx) (held : Nat)
  /-- ACQUIRE (R247). Discards the fetch window so that later reads and fetches follow it. -/
  | acquire (w : SeatIx)
  /-- RELEASE (R246). Enters an engine queue and waits for acknowledgements of earlier writes inside its scope. -/
  | release (w : SeatIx) (e : EngIx)
  /-- RELEASE_COMPLETE (R246). Every earlier write inside the scope has been acknowledged. -/
  | releaseComplete (w : SeatIx) (e : EngIx)
  /-- LOOP (R202). Latches a count and starts a hardware loop over a body. -/
  | loop (w : SeatIx)
  /-- NOP (R200). No action. -/
  | nop (w : SeatIx)
  /-- CSET (R200). Sets a counter. -/
  | cset (w : SeatIx)
  /-- CADD (R200). Adds to a counter. -/
  | cadd (w : SeatIx)
  /-- CSUB (R200). Subtracts from a counter. -/
  | csub (w : SeatIx)
  /-- CMUL (R200). Multiplies a counter. -/
  | cmul (w : SeatIx)
  /-- CAND (R200). Ands a counter with an operand. -/
  | cand (w : SeatIx)
  /-- CSHR (R200). Shifts a counter right. -/
  | cshr (w : SeatIx)
  /-- CID (R200). Writes an identity field to a counter. -/
  | cid (w : SeatIx)
  /-- CMPSET (R196). Sets a comparator. -/
  | cmpset (w : SeatIx)
  /-- END (R214). Ends the plan; the seat finishes once earlier descriptors have completed. -/
  | endPlan (w : SeatIx)
  /-- DESCRIPTOR_COMPLETE (R205). A descriptor completes, its completion bit is set and its final writes take effect. -/
  | descriptorComplete (w : SeatIx) (idx : Nat)
  /-- PLAN_FINISHED (R214). The seat's plan has finished after END and reports to the starter. -/
  | planFinished (w : SeatIx)
  /-- REFRESH_ACCRUAL (R169). At each accrual instant every bank's refresh debt rises by 16. -/
  | refreshAccrual (w : SeatIx)
  /-- REFRESH_OPERATION (R172). A refresh operation starts in a rest slot with enough known rest. -/
  | refreshOperation (w : SeatIx) (b : BankIx) (ahead : Nat)
  /-- FORCED_REFRESH (R174). A forced refresh begins at a vector-cycle boundary once a debt reaches 128, halting the beat counter and the engines. -/
  | forcedRefresh (w : SeatIx) (c : Nat)
  /-- FORCED_REFRESH_END (R174). A forced refresh ends and the seat resumes. -/
  | forcedRefreshEnd (w : SeatIx)
  /-- SIDE_PORT_TRANSFER (R173). A load or repair write, diagnostic read or scrub read starts on the side port in a rest slot. -/
  | sidePortTransfer (w : SeatIx) (ahead : Nat)
  /-- SCRUB_TILE (R176). The scrubber starts reading the next resident tile, at most one tile per 64 µs. -/
  | scrubTile (w : SeatIx)
  /-- DRAM_SENSOR_SAMPLE (R168). The 1 ms DRAM temperature sample sets the refresh interval. -/
  | dramSample (q : CrewIx) (t : Byte)
  /-- JUNCTION_SENSOR_SAMPLE (R393). The 1 ms junction sample adjusts the protection index and the thermal clamp. -/
  | junctionSample (q : CrewIx) (tj : Byte)
  /-- SUSTAINED_DROOP (R382). More than 5 % of core cycles in a 100 µs window at maximum stretch raises a status event. -/
  | sustainedDroop (q : CrewIx)
  /-- POWER_CAP_MEASURE (R392). Every 100 µs Snivan measures package power and adjusts the cap index. -/
  | powerCapMeasure (mvW : Nat) (maW : Nat) (mvE : Nat) (maE : Nat)
  /-- STEP_CHANGE (R379). A domain's root stops for 1.2 µs to change step. -/
  | stepChange (d : DomIx)
  /-- STEP_CHANGE_END (R379). The 1.2 µs stop ends and the domain runs at its new step. -/
  | stepChangeEnd (d : DomIx)
  /-- RAIL_SETTLED (R380). AVSBus reports a rail settled, after which a faster step may be applied. -/
  | railSettled (h : HalfIx)
  /-- TIME_SYNC (R384). Every 100 ticks the master time base is sent to every domain's copy. -/
  | timeSync
  /-- POWER_STATE_ENTRY (R389). A pending request for a lower state is entered once its conditions hold. -/
  | powerStateEntry (k : Nat)
  /-- POWER_REQUEST_TIMEOUT (R389). A request not met within 100 ms is withdrawn and answered BUSY. -/
  | powerRequestTimeout (k : Nat)
  /-- AUTO_PADDLE (R389). A crew idle for PWR_PADDLE_IDLE_US enters Paddle without a request. -/
  | autoPaddle (q : CrewIx)
  /-- WAKE_REQUEST (R390). A wake event starts the return of a unit to Row. -/
  | wakeRequest (unit : Word)
  /-- WAKE_COMPLETE (R391). A unit returns to Row after its exit time; a half leaving Boated is reset and refilled. -/
  | wakeComplete (unit : Word)
  /-- SEGMENT_POWER_DOWN (R180). Snivan starts closing a pool segment. -/
  | segmentPowerDown (h : HalfIx) (g : SegIx)
  /-- SEGMENT_CLOSE (R180). The segment closes after 2 µs idle or 100 µs, and becomes asleep. -/
  | segmentClose (h : HalfIx) (g : SegIx)
  /-- SEGMENT_WAKE (R182). Snivan powers a segment and its zero fill starts. -/
  | segmentWake (h : HalfIx) (g : SegIx)
  /-- SEGMENT_READY (R182). The segment's zero fill ends and it serves requests. -/
  | segmentReady (h : HalfIx) (g : SegIx)
  /-- PRELOAD (R227). The starter loads a heat's page image into a seat's inactive page once it is free, checking its CRC. -/
  | preload (r : Nat) (h : Nat) (w : SeatIx)
  /-- HEAT_READY (R226). Every dependence of a heat is met and the dispatch arbiter numbers it. -/
  | heatReady (r : Nat) (h : Nat)
  /-- TIME_DEPENDENCE_MET (R224). The starter's time base reaches a heat's time condition. -/
  | timeDependence (r : Nat) (h : Nat) (d : Nat)
  /-- HEAT_DISPATCH (R228). The starter checks the heat, assigns a class and epoch, installs it, resets counters and sends start messages. -/
  | heatDispatch (r : Nat) (h : Nat)
  /-- CORE_MEMORY_FILL (R155). A seat whose previous heat was of another context zero-fills its core memory before starting. -/
  | coreFill (w : SeatIx)
  /-- HEAT_START (R211). The seat makes the page active, resets its state, fills the fetch window and begins core cycle 0. -/
  | heatStart (w : SeatIx)
  /-- HEAT_COMPLETE (R230). All seats have finished and all transfers are acknowledged; the epoch retires, the entry is handed over and the guard successor is decided. -/
  | heatComplete (r : Nat) (h : Nat)
  /-- HEAT_ABORT (R232). A dispatched heat is stopped, its epoch retired and an abort entry posted. -/
  | heatAbort (r : Nat) (h : Nat)
  /-- HEAT_ABANDON (R231). A heat that will not run is abandoned with its cause and its entry posted. -/
  | heatAbandon (r : Nat) (h : Nat)
  /-- HEAT_WATCHDOG (R237). A heat's watchdog expires and the heat is aborted with WATCHDOG or LATE_LANDING. -/
  | heatWatchdog (r : Nat) (h : Nat)
  /-- CLASS_FREE (R235). A draining class has every table acknowledged and every outstanding count at 0, and becomes free. -/
  | classFree (k : Fin 64)
  /-- SEAT_LAST_LOGGED (R457). When the class of a seat's aborted heat has drained, the seat logs its LAST record and returns to having no heat. -/
  | seatLastLogged (w : SeatIx)
  /-- COMPLETION_ENTRY_POST (R412). The completion arbiter accepts an entry when its ring has room and writes it with the ring's phase. -/
  | completionPost (r : RingIx)
  /-- MSI_X_INTERRUPT (R413). A ring's vector is raised by its entry count or its delay. -/
  | msixInterrupt (r : RingIx)
  /-- WRITE (R276). A WRITE packet arrives at its destination, is checked, written and counted, and answered. -/
  | writePkt (k : Nat) (g : Nat)
  /-- WORD_PACKET (R276). A WORD packet sets a word at its destination and is answered. -/
  | wordPkt (k : Nat)
  /-- FINISH_PACKET (R242). A finish arrives; its flag is written at once or the finish is held, or it is refused when full. -/
  | finishPkt (k : Nat)
  /-- FINISH_RELEASE (R243). A held finish's counter reaches its expected count; the flag is written and over-landing is checked. -/
  | finishRelease (pool : Bool) (n : Nat) (k : Nat)
  /-- READ (R276). A READ is served at its destination and answered with RDATA. -/
  | readPkt (k : Nat)
  /-- RDATA (R276). Read data arrives at the requester and is written and counted. -/
  | rdataPkt (k : Nat) (g : Nat)
  /-- ACK (R276). An acknowledgement arrives at its sender and lowers its outstanding count. -/
  | ackPkt (k : Nat)
  /-- NACK (R295). A refusal arrives at its sender; an engine records a fault, or a record outside its heat under R495. -/
  | nackPkt (k : Nat)
  /-- START (R229). A start message reaches a seat. -/
  | startMsg (k : Nat)
  /-- CONTROL (R272). A CONTROL packet carries a live-epoch update, seat-map write, wake request or counter reset. -/
  | controlMsg (op : CtlOp)
  /-- ROUTER_FORWARD (R277). A router forwards a packet along its legs, replicating multicasts and discarding uncorrectable flits. -/
  | routerForward (n : NodeIx) (p : NodePort) (v : VcIx) (o : NodePort) (ecc : Nat)
  /-- CROSSING_RECENTRE (R297). A crossing FIFO empty for 16 cycles re-centres at its calibrated latency. -/
  | crossingRecentre (n : NodeIx) (p : NodePort)
  /-- SEAT_MAP_REASSIGN (R283). When no heat is dispatched on the crew, logical numbers are reassigned and preloads redone. -/
  | seatMapReassign (q : CrewIx)
  /-- FAULT_RECORD_LOGGED (R458). The fault-log arbiter accepts a record and gives it the next log sequence number. -/
  | recordLogged (k : Nat)
  /-- RECORD_HANDLING (R463). Snivan handles a record in log order, marking contexts, fencing and releasing holds. -/
  | recordHandling
  /-- SNIVAN_HANDLER (R464). The handler traps or exceeds 100 ms: weigh-enough, ALERT_N and a restart of Snivan. -/
  | snivanHandler (puf : Bool)
  /-- LOAD_SEGMENT (R372). The load engine reads, hashes, authenticates and decrypts one segment and writes its records. -/
  | loadSegment (img : Option Mem)
  /-- LOAD_COMPLETE (R370). Snivan completes a load: the generation leaves LOADING, MODEL_ID and version are fixed and the reply is posted. -/
  | loadComplete
  /-- BLOCK_ZERO_FILL (R352). The zero fill of released blocks completes and they return to the free set. -/
  | blockZeroFill (k : Nat)
  /-- FEED_DESCRIPTOR_START (R425). The input-feed engine starts a feed descriptor. -/
  | feedStart (f : FeedIx) (desc : Option (BitVec 256)) (data : List Granule)
  /-- FEED_DESCRIPTOR_END (R426). A feed descriptor ends or fails; on failure the ring stops. -/
  | feedEnd (f : FeedIx)
  /-- PORT_SIGNAL_DETECT (R313). A port in DETECT finds its partner's signal and moves to EQUALISE. -/
  | portSignalDetect (p : PortIx)
  /-- PORT_TRAINING_STEP (R313). A training stage completes or times out and the port moves to its next state. -/
  | portTrainingStep (p : PortIx) (lanes : Byte) (named : Bool)
  /-- PORT_RETRAIN (R316). An ACTIVE port retrains for a lane, full or credit cause. -/
  | portRetrain (p : PortIx) (cause : Nat)
  /-- SEQUENCED_FRAME (R317). A sequenced frame is received, accepted in order or discarded with a NAK. -/
  | sequencedFrame (p : PortIx)
  /-- CONTROL_FRAME (R311). A control frame brings credit returns, training fields and time samples. -/
  | controlFrame (p : PortIx)
  /-- CONTROL_FRAME_TIMER (R312). A port sends a control frame when one is due. -/
  | controlFrameTimer (p : PortIx)
  /-- REPLAY_TIMEOUT (R318). With no ACK advance for 2 µs the sender replays from the oldest unacknowledged frame. -/
  | replayTimeout (p : PortIx)
  /-- PAIR_HOLD_TIMEOUT (R326). A packet held 20 µs for a pair with no ACTIVE port is refused PORT_DOWN. -/
  | pairHoldTimeout (pr : Fin 6)
  /-- FABRIC_EGRESS (R329). A packet for another node is given an FTAG and queued on its route's first pair. -/
  | fabricEgress (k : Nat)
  /-- FABRIC_PACKET_ARRIVAL (R331). A fabric packet arrives at a chip, is aged, and is forwarded in transit or delivered at the last chip. -/
  | fabricArrival (k : Nat)
  /-- FABRIC_ANSWER (R333). An answer reaches the source complex and is handed to the engine. -/
  | fabricAnswer (k : Nat)
  /-- FABRIC_GIVE_UP (R334). With no answer 200 µs after the request, the complex answers NACK FAB_TIMEOUT. -/
  | fabricGiveUp (t : Nat)
  /-- READ_REISSUE (R335). A READ without RDATA is reissued at 100 µs and 200 µs and given up at 400 µs. -/
  | readReissue (t : Nat)
  /-- TIME_SAMPLE_LOSS (R342). No time sample for 100 µs clears FAB_TIME_LOCKED and the part runs freely. -/
  | timeSampleLoss
  /-- RS_CODEWORD (R307). A 544-symbol RS codeword is received and decoded; an uncorrectable codeword discards the frames that overlap it, and the receiver resumes at the frame the next codeword's header points to. -/
  | rsCodeword (p : PortIx) (word : List (BitVec 10))
  /-- IDLE_FRAME (R308). An idle frame is received; its ACK and NAK fields are acted on. -/
  | idleFrame (p : PortIx)
  /-- DROOP_STRETCHING (R382). A crew's supply falls below the level for its step and the oscillator stretches core-cycle periods, restoring them as the supply recovers. -/
  | droopStretching (q : CrewIx) (mv : Nat)
  /-- FTAG_RELEASE (R335). A reissued READ's FTAG is freed 200 µs after its last issue, even once complete. -/
  | ftagRelease (t : Nat)
  /-- IDE_KM (R403). An IDE_KM message over SPDM through the DOE mailbox sets up the selective IDE stream, after which unprotected BAR2 requests are discarded. -/
  | ideKm
  /-- TAP_INSTRUCTION (R489). A JTAG instruction is loaded into the TAP, replaced by BYPASS where it is not available. -/
  | tapInstruction (ir : TapIr)
  /-- DYNAMIC_ADDRESS_ASSIGNMENT (R451). The board's I3C controller assigns the device a dynamic address by SETDASA or dynamic address assignment. -/
  | dynamicAddress (addr : BitVec 7)
  deriving DecidableEq, Repr

end Sys2Proof
end

