-- ==== Sys2Proof/Decode.lean ====
section
/-!
DEFINITION. The table of commands gives its rows no bits: no word spells a command.
-/
namespace Sys2Proof

/-- The command that a word spells by the bits of spec/opcode_table.json, which gives none for any row. -/
def decodeTableWord (_nbits _w : Nat) : Option Instr := none

end Sys2Proof
end

