-- ==== Sys2Proof/Config.lean ====
section
/-!
DEFINITION. What the spec leaves open or fixes for one part only: constants without a body, so that no proof can use a value of
them. Each is applied to the operands it depends on, or to `State.free`, the counter of free values (log entry 1).
-/
namespace Sys2Proof.Config

/-- The class that a dispatch takes: "not specified, and it may differ from run to run" (07 R228). -/
opaque freeClass : Nat → Nat

/-- Core cycles for which a DMA or send engine's local phase waits on its outbound buffer, banks or the network (09 R292, R293). -/
opaque engineWait : Nat → Nat

/-- Fraction, in 2^-16 reference tick, of the instant at which a frame is stamped (10 R341). -/
opaque stampFrac : Nat → BitVec 16

/-- The last acknowledgement round trip of a port, in units of 4 ns (FAB_PORT_RTT, 10 R344). -/
opaque roundTrip : Nat → BitVec 8

/-- Offset of a crossing FIFO, by its key, from its calibrated point, in receiver network cycles, once its two sides have moved apart (09
R297). -/
opaque crossing : Nat → Nat → Nat

/-- The link between a complex and a pool by which a packet goes (09 R271). -/
opaque poolLink : Nat → Nat

/-- What a diagnostic read returns for a granule number beyond the weight store: 17 bits name 131,072, and 98,304 exist (05 R183). -/
opaque absentGranule : Nat → BitVec 512

/-- Whether a stretched domain's copy of the time base loses a tick, by domain (12 R384: it stays within 10 ticks behind). -/
opaque stretchLag : Nat → Nat → Bool

/-- The supply, in mV, at which the stretch reaches its maximum, for the level that a step requires (12 R382, 16 R478): a value of
the part that the spec does not give. -/
opaque maxStretchMv : Nat → Nat

/-! ## Cryptography

The standards of 11 R369 and 14 R428-R445 are named by the spec and not given: each primitive is a function of its operands, of
which nothing more is known (log entry 27). Byte strings are lists; a hash or key is the number of its bytes, byte 0 lowest. -/

/-- SHA-384 (FIPS 180-4). -/
opaque sha384 : List (BitVec 8) → BitVec 384

/-- ECDSA P-384 with SHA-384 verifies (FIPS 186-5): key, hash, signature. -/
opaque ecdsaVerify : BitVec 776 → BitVec 384 → BitVec 768 → Bool

/-- An LMS signature verifies (RFC 8554): key, hash, the bytes that begin with the signature. -/
opaque lmsVerify : BitVec 448 → BitVec 384 → List (BitVec 8) → Bool

/-- Length in bytes of the LMS signature that a byte string begins with (RFC 8554). -/
opaque lmsLength : List (BitVec 8) → Nat

/-- Quophor's image keys, held by the ROM (14 R428). -/
opaque imageEcdsa : BitVec 776
opaque imageLms : BitVec 448

/-- The device secret that the PUF of this part gives (14 R435). -/
opaque pufSecret : BitVec 256

/-- Attestation ECDSA public key of a device secret, uncompressed (14 R435, R436). -/
opaque attestKey : BitVec 256 → BitVec 776

/-- Attestation LMS public key of a device secret and tree number (14 R435, R436). -/
opaque attestLms : BitVec 256 → Nat → BitVec 448

/-- A signature under the attestation ECDSA key: secret, hash, and the counter of free values, since ECDSA is randomised (14 R435). -/
opaque ecdsaSign : BitVec 256 → BitVec 384 → Nat → BitVec 768

/-- A signature under the attestation LMS key: secret, tree, index, hash (14 R445). -/
opaque lmsSign : BitVec 256 → Nat → Nat → BitVec 384 → List (BitVec 8)

/-- The key-agreement certificate's bytes, in the certificate area of the flash (14 R437), whose layout is not given. -/
opaque kexCertificate : List (Nat × BitVec 8) → List (BitVec 8)

/-- The attestation LMS key that a certificate-renewal image carries (14 R445): the body's layout is not given. -/
opaque renewalKey : List (BitVec 8) → BitVec 448

/-- x-coordinate of ECDH P-384 between the device's static key and an ephemeral key (11 R365): secret, public key. -/
opaque ecdh : BitVec 256 → BitVec 776 → BitVec 384

/-- ML-KEM-1024 decapsulation with the device's key (11 R365): secret, ciphertext. -/
opaque kemOpen : BitVec 256 → List (BitVec 8) → BitVec 256

/-- HKDF with SHA-384, 32 bytes of output (11 R365): input key material, salt, info. -/
opaque hkdf : List (BitVec 8) → BitVec 384 → List (BitVec 8) → BitVec 256

/-- AES Key Unwrap with a 256-bit key (11 R365): none where the check fails. -/
opaque keyUnwrap : BitVec 256 → BitVec 320 → Option (BitVec 256)

/-- AES-256-GCM decryption (11 R366): key, nonce bytes, additional data, ciphertext, tag; none where the tag fails. -/
opaque gcmOpen : BitVec 256 → List (BitVec 8) → BitVec 384 → List (BitVec 8) → BitVec 128 → Option (List (BitVec 8))

/-- The boot nonce that the ROM draws (14 R443). -/
opaque bootNonce : Nat → BitVec 64

/-- STATUS of a refusal to which the spec gives no code: 0, a debug token with another BOOT_NONCE (14 R443); 1, a certificate renewal
whose LMS key is not the next tree's (14 R445). -/
opaque refusalStatus : Nat → BitVec 16

/-- ROM_VERSION of the attestation report (14 R444): its value is not given. -/
opaque romVersion : BitVec 32

/-- Where the capability structures of the configuration space lie, as byte offsets: power management, PCI Express, MSI-X, and L1 PM substates
(13 R400 names the features, the base specification gives their layout, and nothing gives their places). -/
opaque pmCap : Nat
opaque expressCap : Nat
opaque msixCap : Nat
opaque l1ssCap : Nat

/-- Reset value and writable bits of a configuration word that neither the spec nor the header of the base specification gives (13 R400). -/
opaque configReset : Nat → BitVec 32
opaque configMask : Nat → BitVec 32

/-- GLB_STEPPING (13 R406): its value is not given. -/
opaque stepping : BitVec 8

/-- The stepping field of IDCODE (16 R489): its value is not given. -/
opaque idStepping : BitVec 4

/-- Quophor's JEDEC manufacturer code, in IDCODE (16 R489): its value is not given. -/
opaque jedecCode : BitVec 11

end Sys2Proof.Config
end

