-- ==== Sys2Proof/Machine/State.lean ====
section
/-!
DEFINITION. The state of the part as plain data: every register, memory, queue, counter, mode and pin the spec gives it, and
the queue of commands that wait. Each field's comment gives its width, the rule and file that name it, and its reset value
(00 R13: the Reset column holds once start-up completes; `State.reset` is the part with RESET_N asserted, before start-up).
A field marked MODEL is the model's own; a value marked (n) is named in notes/assumptions/n.md.
-/
namespace Sys2Proof.Machine

/-! ## Fault records -/

/-- A 64 B fault record (15 R453). -/
structure Record where
  /-- SEQ, 32 bits (15 R453); reset 0. -/
  seq : Word := 0
  /-- TIME_LO, 32 bits (15 R453); reset 0. -/
  time : Word := 0
  /-- CODE, 16 bits (15 R460); reset 0. -/
  code : BitVec 16 := 0
  /-- KIND, 8 bits (15 R496); reset 0. -/
  kind : Byte := 0
  /-- FLAGS, 8 bits: MORE, PHYS_VALID, fenced (15 R453); reset 0. -/
  flags : Byte := 0
  /-- UNIT, 32 bits (01 R18); reset 0. -/
  unit : Word := 0
  /-- PHYS, 8 bits, 0xFF none (15 R453); reset 0. -/
  phys : Byte := 0
  /-- CONTEXT, 8 bits, 0xFF none (15 R453); reset 0. -/
  ctx : Byte := 0
  /-- HEAT, 16 bits, 0xFFFF none (15 R453); reset 0. -/
  heat : BitVec 16 := 0
  /-- EPOCH, 16 bits (15 R453); reset 0. -/
  epoch : BitVec 16 := 0
  /-- RUN_ID, 16 bits (15 R453); reset 0. -/
  run : BitVec 16 := 0
  /-- DESC, 16 bits, 0xFFFF none (15 R453); reset 0. -/
  desc : BitVec 16 := 0
  /-- BEAT, 48 bits (15 R453); reset 0. -/
  beat : BitVec 48 := 0
  /-- CYCLE, 48 bits (15 R453); reset 0. -/
  cycle : BitVec 48 := 0
  /-- COUNT, 16 bits, saturating (15 R453); reset 0. -/
  count : BitVec 16 := 0
  /-- LOOPS, four iteration numbers of 16 bits (15 R453); reset 0. -/
  loops : BitVec 64 := 0
  /-- DETAIL, 16 bytes (15 R454); reset 0. -/
  detail : BitVec 128 := 0
  deriving DecidableEq, Repr

/-! ## The seat -/

/-- A descriptor that has been presented, queued or started. -/
structure Job where
  /-- The 256 descriptor bits (06 R185); reset 0. -/
  raw : Desc := 0
  /-- Page index, 10 bits (06 R187); reset 0. -/
  idx : Nat := 0
  /-- Effective beat (06 R190); reset 0. -/
  beat : Nat := 0
  /-- Issue core cycle (06 R190); reset 0. -/
  issued : Nat := 0
  /-- Start: core cycle of an MX or engine job, vector cycle of a VE job (03 R80, 04 R124, 09 R292); reset 0. -/
  start : Nat := 0
  /-- Value of the address counter at issue, 0 without one (03 R97, 06 R194); reset 0. -/
  c : Nat := 0
  /-- Value of the tail counter at issue (04 R121); reset 0. -/
  tail : Nat := 0
  /-- The predicate was true at issue (06 R197); reset true. -/
  pred : Bool := true
  /-- Core cycle at whose end the job completes, once known (03 R104, 04 R125, 09 R293); reset 0. -/
  doneAt : Nat := 0
  /-- Loop iteration numbers at issue (06 R207); reset 0. -/
  loops : BitVec 64 := 0
  /-- Clips of a QUANTIZE, counted when it completes (02 R67); reset 0. -/
  clips : Nat := 0
  /-- Flushes of a QUANTIZE, counted when it completes (02 R67); reset 0. -/
  flushes : Nat := 0
  /-- A write to the tile that it reads has been accepted since it started (07 R249); reset false. -/
  torn : Bool := false
  /-- The same for the second tile, the low plane, of an I8 DEQUANTIZE (07 R249, 04 R141); reset false. -/
  tornLow : Bool := false
  deriving DecidableEq, Repr

/-- An active hardware loop (06 R203). -/
structure LoopFrame where
  /-- First page index of the body (06 R203); reset 0. -/
  first : Nat := 0
  /-- Last page index of the body (06 R203); reset 0. -/
  last : Nat := 0
  /-- Start beat S (06 R202); reset 0. -/
  start : Nat := 0
  /-- PERIOD (06 R201); reset 0. -/
  period : Nat := 0
  /-- Latched count, 16 bits (06 R202, COX_LOOP_COUNT of R215); reset 0. -/
  count : Nat := 0
  /-- Iteration number, 16 bits (06 R203, COX_LOOP_ITER of R215); reset 0. -/
  iter : Nat := 0
  /-- Index counter where IEN is set (06 R201); reset none. -/
  isel : Option Nat := none
  deriving DecidableEq, Repr

/-- A comparator (06 R196). -/
structure Cmpr where
  /-- Counter SA, 4 bits (06 R196); reset 0. -/
  sa : Nat := 0
  /-- REL, 4 bits (06 R196); reset 0 (FALSE). -/
  rel : Nat := 0
  /-- X is a counter (06 R196); reset false. -/
  useb : Bool := false
  /-- Counter SB or immediate, 32 bits (06 R196); reset 0. -/
  x : Word := 0
  deriving DecidableEq, Repr

/-- COX_STATE (06 R215). -/
inductive CoxState where
  | noHeat | walking | pastEnd | halted
  deriving DecidableEq, Repr

/-- COX_HALT_CAUSE with COX_HALT_QUEUE, but for a forced refresh, which `Wst.forcing` shows (06 R215). -/
inductive Hold where
  | none | queue (q : Fin 4) | catch
  deriving DecidableEq, Repr

/-- The cox and the umpire of one seat (06). -/
structure Cox where
  /-- COX_STATE, 2 bits (06 R215); reset 0 (no heat). -/
  state : CoxState := .noHeat
  /-- COX_HALT_CAUSE and COX_HALT_QUEUE, 3 and 2 bits (06 R191, R215); reset 0. -/
  hold : Hold := .none
  /-- COX_ACTIVE_PAGE, 1 bit (06 R209, R215); reset 0. -/
  page : Fin 2 := 0
  /-- Page p in use, with the run and heat that use it (06 R209, COX_PAGE_IN_USE); reset not in use. -/
  use0 : Option (Nat × Nat) := none
  /-- The same for page 1 (06 R209); reset not in use. -/
  use1 : Option (Nat × Nat) := none
  /-- COX_NEXT_INDEX, 10 bits (06 R203, R215); reset 0. -/
  next : Nat := 0
  /-- Beat base (06 R203); reset 0. -/
  base : Nat := 0
  /-- Effective beat of the last presented descriptor, prev of R203 plus 1; 0 for none; reset 0. -/
  prev : Nat := 0
  /-- Page index of the last descriptor that issued plus 1, for the walk faults of R203 and R213; reset 0. -/
  lastIdx : Nat := 0
  /-- Beat counter, 48 bits (06 R189, COX_BEAT); reset 0. -/
  beat : Nat := 0
  /-- Heat core cycles, 48 bits (06 R189, COX_CYCLE); reset 0. -/
  cycle : Nat := 0
  /-- Active loops, outermost first, at most 4 (06 R203, COX_LOOP_DEPTH); reset none. -/
  loops : List LoopFrame := []
  /-- Counters C0-C15, 32 bits each (06 R194, COX_CTR); reset 0. -/
  ctr : Tbl Word := []
  /-- Core cycle plus 1 in which each counter was last written, and the writer's rank (06 R195); reset none. -/
  ctrAt : Tbl (Nat × Nat) := []
  /-- Counter writes of COMPRESS still to take effect: core cycle at whose end, counter, value (04 R133); reset none. -/
  due : List (Nat × Nat × Word) := []
  /-- Comparators CMP0-CMP7 (06 R196); reset REL 0. -/
  cmp : Tbl Cmpr := []
  /-- The descriptor presented and held, or presented as a CATCH (06 R190, R191); reset none. -/
  held : Option Job := none
  /-- MODEL: core cycle from which the queue of the hold in force has room (06 R191, R192); reset none. -/
  roomAt : Option Nat := none
  /-- The descriptor issued to the cox itself and not yet carried out (06 R186); reset none. -/
  cur : Option Job := none
  /-- Completion bits: core cycle plus 1 at whose end the latest issue completed (06 R205); reset clear. -/
  done : Tbl Nat := []
  /-- Issue core cycle plus 1 of the latest issue of each page index (06 R205); reset none. -/
  issuedAt : Tbl Nat := []
  /-- Descriptors that have run and whose completion is still to come (06 R205); reset none. -/
  fin : List Job := []
  /-- The fetch window holds descriptors (06 R212); reset empty. -/
  winValid : Bool := false
  /-- Effective beat plus 1 of an ACQUIRE that issued last (06 R213); reset 0. -/
  acq : Nat := 0
  /-- WREST of the rest window in force, 32 bits (05 R170, WST_REST_BANKS); reset 0xFFFF_FFFF. -/
  rest : Word := 0xFFFFFFFF
  /-- Forced refreshes of the heat that have ended: first core cycle and core cycles of halt (06 R191, 05 R174); reset none. -/
  gaps : List (Nat × Nat) := []
  /-- COX_HELD_QUEUE, 32 bits (06 R215); reset 0. -/
  heldQueue : Word := 0
  /-- COX_HELD_CATCH, 32 bits (06 R215); reset 0. -/
  heldCatch : Word := 0
  /-- COX_HELD_REFRESH, 32 bits (06 R215); reset 0. -/
  heldRefresh : Word := 0
  /-- COX_ISSUED, 32 bits (06 R215); reset 0. -/
  issued : Word := 0
  /-- COX_PRED_FALSE, 32 bits (06 R215); reset 0. -/
  predFalse : Word := 0
  /-- COX_PAGE_IN_USE_COUNT, 32 bits, since reset (06 R210, R215); reset 0. -/
  pageRefused : Word := 0
  /-- COX_CTR_COLLIDE, 32 bits (06 R195, R215); reset 0. -/
  collide : Word := 0
  /-- Guard counters CLIP, FLUSH, NONFINITE, WRAP at keys 0-3, 32 bits each (02 R66, COX_GUARD); reset 0. -/
  guard : Tbl Word := []
  /-- COX_GUARD_TRIPPED, 4 bits (02 R68, 06 R215); reset 0. -/
  tripped : BitVec 4 := 0
  /-- Thresholds of the heat, four of 32 bits (02 R67, 07 R221); reset 0. -/
  thresholds : List Word := []
  /-- COX_EPOCH, 16 bits (06 R215, 07 R233); reset 0. -/
  epoch : BitVec 16 := 0
  /-- COX_HEAT_INDEX, 12 bits (06 R215); reset 0. -/
  heat : Nat := 0
  /-- RUN_ID of the heat (07 R220, 15 R453); reset 0. -/
  run : Nat := 0
  /-- COX_CONTEXT, 8 bits (06 R215); reset 0. -/
  ctx : Nat := 0
  /-- Weight generation bound to the run (11 R357); reset 0. -/
  gen : Nat := 0
  /-- Block map of the bound generation for this seat: plan block to physical block (11 R349); reset empty. -/
  blocks : Tbl Nat := []
  /-- Seed of the heat, 64 bits (07 R225); reset 0. -/
  seed : BitVec 64 := 0
  /-- Ordinal of the seat within its role (07 R222); reset 0. -/
  ordinal : Nat := 0
  /-- Logical seat number the seat runs the heat as (07 R222); reset 0. -/
  logical : Nat := 0
  /-- Context of the last heat, none since core memory was cleared (05 R155); reset none. -/
  lastCtx : Option Nat := none
  /-- A core-memory fill is due or under way (05 R155); reset false. -/
  filling : Bool := false
  /-- Heat core cycle in which the seat halted, where it is halted (06 R193); reset 0. -/
  haltAt : Nat := 0
  /-- The heat is dispatched to the seat and has not begun: run and heat (07 R228, R243); reset none. -/
  dispatched : Option (Nat × Nat) := none
  /-- The start message has reached the seat (07 R229); reset false. -/
  started : Bool := false
  deriving DecidableEq, Repr

/-- One nibble of a blade, or an activation slot: the tile that it holds (03 R76). -/
structure Tile where
  /-- TAG, 64 bits (05 R163); reset 0. -/
  tag : BitVec 64 := 0
  /-- Payload bytes 0x000-0x7FF (05 R159, R160); reset 0. -/
  payload : Mem := []
  /-- Scale block, 128 bytes (05 R159, R160); reset 0. -/
  scales : Mem := []
  /-- Codebook register of a Q4 tile, 16 bytes (02 R41, 03 R76); reset 0. -/
  book : Mem := []
  deriving DecidableEq, Repr

/-- The matrix array (03). -/
structure Mxa where
  /-- Active blade, nibble N0 (03 R76); reset empty. -/
  act0 : Option Tile := none
  /-- Active blade, nibble N1 (03 R76); reset empty. -/
  act1 : Option Tile := none
  /-- Shadow blade, nibble N0 (03 R76); reset empty. -/
  sh0 : Option Tile := none
  /-- Shadow blade, nibble N1 (03 R76); reset empty. -/
  sh1 : Option Tile := none
  /-- Core cycle from which shadow N0 is ready (03 R103); reset 0. -/
  shAt0 : Nat := 0
  /-- Core cycle from which shadow N1 is ready (03 R103); reset 0. -/
  shAt1 : Nat := 0
  /-- Activation slots A0-A3 (03 R76); reset empty. -/
  slots : Tbl Tile := []
  /-- Core cycle from which each slot is ready (03 R103); reset 0. -/
  slotAt : Tbl Nat := []
  /-- Core cycle of the last broadcast of each slot by a started PRODUCT, plus 1 (03 R108); reset 0. -/
  slotUse : Tbl Nat := []
  /-- Accumulators: bank × 4096 + row × 64 + column, 32 bits (03 R76); reset +0. -/
  acc : Tbl Word := []
  /-- MX queue, at most 8 unstarted descriptors (06 R186, R192); reset empty. -/
  queue : List Job := []
  /-- Job each unit runs: weight loader, activation loader, array, drainer (03 R79); reset idle. -/
  cur : Tbl Job := []
  /-- First core cycle in which each unit is free (03 R80); reset 0. -/
  freeAt : Tbl Nat := []
  /-- Core cycle in which each unit last started a descriptor (03 R80, R110); reset 0. -/
  startAt : Tbl Nat := []
  /-- Passes of the running PRODUCT that have started (03 R103); reset 0. -/
  pass : Nat := 0
  /-- The pass that has started still has its sums to be formed (03 R101); reset false. -/
  passDue : Bool := false
  /-- The slot's tile that the started pass broadcasts (03 R84); reset none. -/
  passSlot : Option Tile := none
  /-- The nibble of the active blade with which it computes (03 R84); reset none. -/
  passNib : Option Tile := none
  /-- Contents that accumulator rows held before their last updates, for the reads of DRAIN: core cycle of the update, bank, row and
  64 words (03 R103, R109); reset none. -/
  past : List (Nat × Nat × Nat × List Word) := []
  /-- Broadcasts of started passes: first core cycle, and the core cycle after the last (03 R103, R110); reset none. -/
  rowRuns : List (Nat × Nat) := []
  /-- MXA_PASS_COUNT, 32 bits (03 R110); reset 0. -/
  passCount : Word := 0
  /-- MXA_ROW_COUNT, 64 bits (03 R110); reset 0. -/
  rowCount : BitVec 64 := 0
  /-- Rows broadcast that lie in core cycles of the heat, for MXA_ARRAY_IDLE, 32 bits (03 R110); reset 0. -/
  busyRows : Nat := 0
  /-- MXA_BLOAD_COUNT, 32 bits (03 R110); reset 0. -/
  bloads : Word := 0
  deriving DecidableEq, Repr

/-- A span of core cycles in which a scheduled access holds the core-memory banks (05 R153). -/
structure Span where
  /-- First core cycle; reset 0. -/
  lo : Nat := 0
  /-- Number of cycles in the span; reset 0. -/
  n : Nat := 0
  /-- Distance between them; reset 1. -/
  step : Nat := 1
  /-- The descriptor that makes the accesses. -/
  job : Job := {}
  deriving DecidableEq, Repr

/-- A run of operand-cache writes through W0 or W1, for the collisions of 04 R114. -/
structure WPort where
  /-- First vector cycle; reset 0. -/
  v : Nat := 0
  /-- First entry; reset 0. -/
  e : Nat := 0
  /-- Entries written; reset 0. -/
  n : Nat := 0
  /-- Entries written in each vector cycle; reset 1. -/
  per : Nat := 1
  deriving DecidableEq, Repr

/-- The vector engine (04). -/
structure Vec where
  /-- Operand cache: entry × 32 + lane, 32 bits (04 R112); reset 0. -/
  opc : Tbl Word := []
  /-- Entries written in the heat: vector cycle from which the first write can be read (04 R113, R114); reset none. -/
  written : Tbl Nat := []
  /-- Curve slots 0-7: the image bytes, none where empty (04 R128, VEC_CURVE_LOADED); reset empty. -/
  curves : Tbl Mem := []
  /-- VE queue, at most 16 unstarted descriptors (06 R186, VEC_QUEUE); reset empty. -/
  queue : List Job := []
  /-- The descriptor that has started and still has its effect to come (04 R124); reset none. -/
  cur : Option Job := none
  /-- First vector cycle after the last operand-cache read of the previous descriptor (04 R124); reset 0. -/
  readEnd : Nat := 0
  /-- First vector cycle after its last W0 write (04 R124); reset 0. -/
  w0End : Nat := 0
  /-- First core cycle after its last core-memory cycle (04 R124); reset 0. -/
  coreEnd : Nat := 0
  /-- First vector cycle after the completion of every started descriptor (04 R124, VEC_BUSY); reset 0. -/
  doneEnd : Nat := 0
  /-- Vector cycle in which the previous descriptor started (04 R124); reset 0. -/
  startFrom : Nat := 0
  /-- Started descriptors' spans without overlaps: first vector cycle, and the one after the last (04 R146); reset none. -/
  busyRuns : List (Nat × Nat) := []
  /-- Their operand-cache read phases, in the same form (04 R146); reset none. -/
  readRuns : List (Nat × Nat) := []
  /-- The previous descriptor was a CTLOAD (04 R124); reset false. -/
  prevCt : Bool := false
  /-- W0 writes kept for collisions (04 R114); reset none. -/
  w0 : List WPort := []
  /-- W1 writes kept for collisions (04 R114); reset none. -/
  w1 : List WPort := []
  /-- Operand-cache writes that later reads are still to see: vector cycle, entry, lanes (04 R114); reset none. -/
  pend : List (Nat × Nat × List (Option Word)) := []
  /-- Core-memory spans of the MX units and the vector engine (05 R153); reset none. -/
  spans : List Span := []
  /-- VEC_DESC_COUNT, 32 bits (04 R146); reset 0. -/
  descs : Word := 0
  /-- VEC_ENTRY_READS, 32 bits (04 R146); reset 0. -/
  reads : Word := 0
  /-- Vector cycles that lie between a start and a completion, for VEC_IDLE, 32 bits (04 R146); reset 0. -/
  busy : Nat := 0
  /-- VEC_GATHER_OOR, 32 bits (04 R135, R146); reset 0. -/
  oor : Word := 0
  /-- VEC_W_COLLIDE, 32 bits (04 R114, R146); reset 0. -/
  collide : Word := 0
  /-- VEC_CURVE_OUT, 32 bits (04 R131, R146); reset 0. -/
  curveOut : Word := 0
  /-- VEC_LAST_COUNT, 32 bits (04 R133, R146); reset 0. -/
  lastCount : Word := 0
  deriving DecidableEq, Repr

/-! ## Packets on the network -/

/-- Where the final leg of a packet leads (09 R278, R279, R284). -/
inductive Goal where
  /-- The router of physical seat `w`. -/
  | seat (w : Nat)
  /-- The pool of half `h`, through the seam. -/
  | pool (h : Nat)
  /-- The fabric complex, along the current column: a packet for another node. -/
  | away
  /-- Edge port `n` of a complex: an answer to what entered there. -/
  | edge (n : Nat)
  /-- Every router of crew `q`, from the router of replication. -/
  | crew (q : Nat)
  /-- Every router of half `h`, from the router of replication. -/
  | half (h : Nat)
  deriving DecidableEq, Repr

/-- What the network keeps with a packet's header: its way, and to whom its answer goes. -/
structure Trip where
  /-- Waypoints still ahead: X and Y (09 R277); reset none. -/
  legs : List (Nat × Nat) := []
  /-- The end of the final leg (09 R278); reset away. -/
  goal : Goal := .away
  /-- The router at which it enters the mesh has resolved it (09 R282); reset true. -/
  entered : Bool := true
  /-- A multicast that has reached its router of replication (09 R284); reset false. -/
  spread : Bool := false
  /-- Physical seat that sent it, none for a complex; reset none. -/
  sender : Option Nat := none
  /-- Node at which it entered, for the answer to a complex (09 R279); reset 0. -/
  entry : Nat := 0
  /-- Gathering that the answers of a multicast go to (09 R285); reset none. -/
  group : Option Nat := none
  deriving DecidableEq, Repr

/-- A flit: a header, or one granule of data (09 R274). -/
structure Flit where
  /-- For a header, its way; reset none. -/
  head : Option Trip := none
  /-- The 512 bits; reset 0. -/
  data : BitVec 512 := 0
  /-- The last flit of its packet; reset false. -/
  last : Bool := false
  /-- MODEL: it stands for the rest of a packet that was discarded (09 R273); reset false. -/
  cut : Bool := false
  deriving DecidableEq, Repr

/-- The buffer of one channel of one port, with the packet at its front (09 R272). -/
structure Buf where
  /-- Its flits, oldest first; reset empty. -/
  flits : List Flit := []
  /-- Outputs of the packet whose flits are leaving, once its header has been routed; reset none. -/
  outs : List Nat := []
  /-- Those that the first flit is still to take (09 R284); reset none. -/
  left : List Nat := []
  /-- The header of that packet, for a record of its loss (09 R273); reset 0. -/
  hdr : BitVec 512 := 0
  /-- Its sender, physical seat or none for a complex; reset none. -/
  sender : Option Nat := none
  /-- What follows of a discarded packet is discarded (09 R273); reset false. -/
  eating : Bool := false
  /-- The packet at the front has been counted as held (09 R299, R302); reset false. -/
  noted : Bool := false
  deriving DecidableEq, Repr

/-- A route register of an engine (09 R287). -/
structure Route where
  /-- WPN, 4 bits (09 R287); reset 0. -/
  wpn : Nat := 0
  /-- WP0-WP7, 96 bits (09 R287); reset 0. -/
  wps : BitVec 96 := 0
  /-- MASK, 48 bits (09 R287); reset 0. -/
  mask : BitVec 48 := 0
  deriving DecidableEq, Repr

/-- A packet that awaits its answer (07 R235, 09 R292). -/
structure Outst where
  /-- Request tag, 12 bits (09 R274); reset 0. -/
  tag : Nat := 0
  /-- Epoch, 16 bits (07 R235); reset 0. -/
  epoch : BitVec 16 := 0
  /-- It is a write of R246, not a READ; reset false. -/
  isWrite : Bool := false
  /-- Smallest scope that holds the destination, 0-4 (07 R245); reset 0. -/
  scope : Nat := 0
  /-- Page index and beat of the descriptor (09 R295); reset 0. -/
  idx : Nat := 0
  /-- Effective beat of the descriptor (09 R295); reset 0. -/
  beat : Nat := 0
  deriving DecidableEq, Repr

/-- A DMA or send engine (09). -/
structure Eng where
  /-- Route registers 0-7 (09 R286); reset empty, WPN 0 and MASK 0. -/
  routes : Tbl Route := []
  /-- The cox's copy of the route registers at issue (09 R291); reset empty. -/
  issueRoutes : Tbl Route := []
  /-- Queue, at most 8 unstarted descriptors (06 R186, COX_QUEUE_DMA, COX_QUEUE_NET); reset empty. -/
  queue : List Job := []
  /-- The descriptor that has started and still has its effect to come (09 R292); reset none. -/
  cur : Option Job := none
  /-- First core cycle in which the local phase is over (09 R292); reset 0. -/
  freeAt : Nat := 0
  /-- A RELEASE that has started and waits: its scope (07 R246); reset none. -/
  releasing : Option Job := none
  /-- Packets placed in the outbound buffer that await an answer, oldest first; at most 128 of them have left the buffer (09 R292);
  reset none. -/
  out : List Outst := []
  /-- Packets of the running descriptor that have been placed in the outbound buffer (09 R292); reset 0. -/
  sent : Nat := 0
  /-- Heat core cycle plus 1 of its last granule read or header (09 R292, R293); reset 0. -/
  lastAt : Nat := 0
  /-- Outbound buffer: 64 granules and 16 headers (09 R292); reset empty. -/
  outbox : List Flit := []
  /-- Next request tag, 12 bits (09 R274); reset 0. -/
  tag : Nat := 0
  deriving DecidableEq, Repr

/-- A held finish (07 R242). -/
structure Finish where
  /-- Landing counter, 8 bits (07 R242); reset 0. -/
  ctr : Nat := 0
  /-- Expected count E, 32 bits (07 R242); reset 0. -/
  expect : Word := 0
  /-- Slack A, 8 bits (07 R242); reset 0. -/
  slack : Nat := 0
  /-- Flag value V, 32 bits (07 R242); reset 0. -/
  value : Word := 0
  /-- Epoch it carries, 16 bits (07 R243); reset 0. -/
  epoch : BitVec 16 := 0
  /-- RUN_TAG it arrived with, for epoch 0 (07 R243); reset 0. -/
  tag : BitVec 16 := 0
  /-- Destination heat index it arrived with, 12 bits (07 R243); reset 0. -/
  heat : Nat := 0
  /-- Counter value at which E was first satisfied; the flag is due (07 R242, R243); reset none. -/
  hit : Option Word := none
  deriving DecidableEq, Repr

/-- A landing block: of a seat (64 counters) or of a pool (256 counters) (07 R238). -/
structure Lnd where
  /-- Landing counters, 32 bits each (07 R238); reset 0. -/
  ctr : Tbl Word := []
  /-- Flag words, 32 bits each (07 R238); reset 0. -/
  flag : Tbl Word := []
  /-- Held finishes, at most 8 at a seat and 32 at a pool (07 R242, LND_FINISH_HELD); reset none. -/
  held : List Finish := []
  /-- LND_STALE_COUNT, 32 bits (07 R252); reset 0. -/
  stale : Word := 0
  /-- LND_FINISH_DROPPED, 32 bits (07 R252); reset 0. -/
  dropped : Word := 0
  /-- LND_GRANULES, 32 bits (07 R252); reset 0. -/
  granules : Word := 0
  /-- LND_FINISH_NACKS, 32 bits (07 R252); reset 0. -/
  nacks : Word := 0
  deriving DecidableEq, Repr

/-- A side-port transfer that waits for a rest slot (05 R173). -/
inductive SideWork where
  /-- A load or repair write of one granule (05 R151). -/
  | write (granule : Nat) (data : Granule)
  /-- Zero-fill writes of `left` granules from granule `first` on (11 R351, R352). -/
  | fill (first : Nat) (left : Nat)
  /-- A diagnostic read (05 R183). -/
  | diag (granule : Nat)
  /-- The scrub reads of a tile from granule `first`, of which `done` granules have been read (05 R176). -/
  | scrub (first : Nat) (done : Nat)
  deriving DecidableEq, Repr

/-- The weight-store controller of one seat (05). -/
structure Wst where
  /-- Refresh debt of each bank, 0-143 (05 R169, WST_DEBT_MAX); reset 0. -/
  debt : Tbl Nat := []
  /-- WST_HOT: the 16 ms interval is in force (05 R168); reset 0. -/
  hot : Bool := false
  /-- WST_FORCED_COUNT, 32 bits (05 R183); reset 0. -/
  forced : Word := 0
  /-- WST_REFRESH_OPS, 32 bits (05 R183); reset 0. -/
  ops : Word := 0
  /-- A forced refresh is in progress since this heat core cycle (05 R174); reset none. -/
  forcing : Option Nat := none
  /-- WST_SCRUB_PASSES, 32 bits (05 R183); reset 0. -/
  passes : Word := 0
  /-- WST_SCRUB_GRANULE, 17 bits (05 R183); reset 0. -/
  scrubAt : Nat := 0
  /-- Extents of resident tiles that Snivan gave the scrubber: first granules, rising (05 R176); reset none. -/
  extents : List Nat := []
  /-- WST_WEAK_COUNT, 32 bits (05 R183); reset 0. -/
  weak : Word := 0
  /-- WST_WEAK_LAST, 17 bits (05 R183); reset 0. -/
  weakLast : Nat := 0
  /-- WST_WRITE_REFUSED, 32 bits (05 R183); reset 0. -/
  refused : Word := 0
  /-- WST_SCRUB_EN, 1 bit (05 R183); reset 1. -/
  scrubEn : Bool := true
  /-- WST_DIAG_GRANULE, 17 bits (05 R183); reset 0. -/
  diagG : BitVec 17 := 0
  /-- WST_DIAG_DONE, 1 bit (05 R183); reset 0. -/
  diagDone : Bool := false
  /-- WST_DIAG_REFUSED, 32 bits (05 R183); reset 0. -/
  diagRefused : Word := 0
  /-- WST_DIAG_DATA0-15, 512 bits (05 R183); reset 0. -/
  diagData : Granule := 0
  /-- Reference ticks plus 1 up to which the accrual instants have been taken (05 R169); reset 0. -/
  accrued : Nat := 0
  /-- Side-port work that waits (05 R173); reset none. -/
  work : List SideWork := []
  /-- Last start of a scrub in reference ticks plus 1 (05 R176); reset 0. -/
  scrubTick : Nat := 0
  deriving DecidableEq, Repr

/-- One physical seat (01, 05, 13 R407). -/
structure Seat where
  /-- SEAT_DISABLED, 1 bit (00 R1, 13 R407); reset load: 0 before the grade record is applied (3). -/
  disabled : Bool := false
  /-- The seat or its banks failed self-test or training (16 R491); reset false. -/
  failed : Bool := false
  /-- SEAT_WIN_SPACE, 2 bits (13 R407); reset 1. -/
  winSpace : BitVec 2 := 1
  /-- SEAT_WIN_BASE, 9 bits (13 R407); reset 0. -/
  winBase : BitVec 9 := 0
  /-- Data-window accesses that wait for the banks of core memory during a fill, oldest first: byte address, and the word of a write
  (05 R154, R155, 13 R407); reset none. -/
  winWait : List (Nat × Option Word) := []
  /-- The cox and umpire (06). -/
  cox : Cox := {}
  /-- The matrix array (03). -/
  mxa : Mxa := {}
  /-- The vector engine (04). -/
  vec : Vec := {}
  /-- The DMA engine (09). -/
  dma : Eng := {}
  /-- The send engine (09). -/
  net : Eng := {}
  /-- The landing block (07). -/
  lnd : Lnd := {}
  /-- The weight-store controller (05). -/
  wst : Wst := {}
  /-- Weight store, 6 MiB (05 R149); reset 0 (2). -/
  store : Mem := []
  /-- Core memory, 384 KiB (05 R152); reset 0 (2). -/
  core : Mem := []
  /-- Descriptor memory, 64 KiB in two pages (05 R157); reset 0 (2). -/
  desc : Mem := []
  /-- FIRST fault record (15 R455); reset 0. -/
  first : Record := {}
  /-- LAST fault record (15 R455); reset 0. -/
  last : Record := {}
  deriving DecidableEq, Repr

/-! ## The starter -/

/-- A heat descriptor as GRAPH_SUBMIT read it (07 R221). -/
structure HeatDesc where
  /-- FLAGS, 16 bits; reset 0. -/
  flags : Nat := 0
  /-- SUCCESSOR, 12 bits; reset 0. -/
  succ : Nat := 0
  /-- CONTEXT, 4 bits; reset 0. -/
  ctx : Nat := 0
  /-- Roles: seat mask (24 bits), image index, crews; reset none. -/
  roles : List (Nat × Nat × List Nat) := []
  /-- WATCHDOG, 32 bits; reset 0. -/
  watchdog : Nat := 0
  /-- SEED, 64 bits; reset 0. -/
  seed : BitVec 64 := 0
  /-- THRESHOLDS, four of 32 bits; reset none. -/
  thresholds : List Word := []
  /-- Eight dependence entries of 16 B (07 R223); reset none. -/
  deps : List DepRaw := []
  /-- DIGEST_LIST entries in use (07 R250); reset none. -/
  digest : List (BitVec 64) := []
  deriving DecidableEq, Repr

/-- An image table entry (07 R217). -/
structure ImageRef where
  /-- OFFSET, 32 bits; reset 0. -/
  off : Nat := 0
  /-- DESC_COUNT, 1-1024; reset 0. -/
  count : Nat := 0
  /-- CRC, 32 bits; reset 0. -/
  crc : Word := 0
  deriving DecidableEq, Repr

/-- A fabric route table entry (10 R327). -/
structure RouteEnt where
  /-- KEY, 12 bits; reset 0. -/
  key : Nat := 0
  /-- TYPE: a multicast set; reset false. -/
  isSet : Bool := false
  /-- COUNT, 8 bits; reset 0. -/
  count : Nat := 0
  /-- HOPS, 64 bits; reset 0. -/
  hops : BitVec 64 := 0
  /-- Members of a set; reset none. -/
  members : List Nat := []
  deriving DecidableEq, Repr

/-- A submitted graph (07 R216). -/
structure Graph where
  /-- Half whose pool holds it; reset 0. -/
  half : Nat := 0
  /-- Pool offset of the region; reset 0. -/
  off : Nat := 0
  /-- GRAPH_BYTES; reset 0. -/
  bytes : Nat := 0
  /-- Heat descriptors (07 R221); reset none. -/
  heats : List HeatDesc := []
  /-- Image table (07 R217); reset none. -/
  images : List ImageRef := []
  /-- Fabric route table (10 R327); reset none. -/
  routes : List RouteEnt := []
  deriving DecidableEq, Repr

/-- The states of a heat (07 R226); preloading is kept beside them. -/
inductive Phase where
  | pending | ready | dispatched | completed | skipped | aborted | abandoned
  deriving DecidableEq, Repr

/-- One heat of a live run (07 R226). -/
structure Heat where
  /-- State (07 R226); reset pending. -/
  phase : Phase := .pending
  /-- Seats that hold its page image (07 R227); reset none. -/
  pre : List Nat := []
  /-- Dependences met, one bit each (07 R224); reset 0. -/
  met : BitVec 8 := 0
  /-- Counter targets fixed at admission (07 R224); reset none. -/
  targets : List Word := []
  /-- Dispatch sequence number, 32 bits (01 R33); reset 0. -/
  dsn : Word := 0
  /-- Class, 6 bits (07 R233); reset 0. -/
  cls : Nat := 0
  /-- Epoch, 16 bits (07 R233); reset 0. -/
  epoch : BitVec 16 := 0
  /-- Physical seats it was dispatched to (07 R228); reset none. -/
  seats : List Nat := []
  /-- Seats that have finished their plan (07 R230); reset none. -/
  finished : List Nat := []
  /-- Reference ticks at the start message (07 R237); reset 0. -/
  startTick : Nat := 0
  /-- Abort cause the starter accepted first, and its log sequence number (15 R468); reset none. -/
  abortReq : Option (Nat × Word) := none
  /-- Guard flag of the entry (02 R69); reset false. -/
  gflag : Bool := false
  /-- Counters tripped in any seat, 4 bits (02 R69); reset 0. -/
  gmask : BitVec 4 := 0
  /-- Heat-wide totals, four of 32 bits (02 R69); reset none. -/
  totals : List Word := []
  /-- Digest once formed, 64 bits (07 R250); reset none. -/
  digest : Option (BitVec 64) := none
  /-- Its seats are free while its ring's full hold queue holds its completion back (13 R412); reset false. -/
  freed : Bool := false
  /-- The dispatch has been counted as waiting for a class (07 R253); reset false. -/
  waited : Bool := false
  deriving DecidableEq, Repr

/-- A live run (07 R220). -/
structure Run where
  /-- Graph number (13 R421); reset 0. -/
  graph : Nat := 0
  /-- RUN_TAG, 16 bits; reset 0. -/
  tag : BitVec 16 := 0
  /-- T0, 64 bits; reset 0. -/
  t0 : BitVec 64 := 0
  /-- RUN_SEED, 64 bits; reset 0. -/
  seed : BitVec 64 := 0
  /-- Completion ring; reset 0. -/
  ring : Nat := 0
  /-- An entry for every heat (13 R421); reset false. -/
  every : Bool := false
  /-- Generation bound for each context named (11 R357); reset none. -/
  gens : Tbl Nat := []
  /-- Heats in index order; reset none. -/
  heats : List Heat := []
  /-- Admission order (07 R220); reset 0. -/
  admitted : Nat := 0
  /-- CANCEL that waits: source and CID (13 R421); reset none. -/
  cancel : Option (Nat × Nat) := none
  /-- Heats the CANCEL aborted (13 R421); reset 0. -/
  nAbort : Nat := 0
  /-- Heats the CANCEL abandoned (13 R421); reset 0. -/
  nAbandon : Nat := 0
  deriving DecidableEq, Repr

/-- A class (07 R233, R235). -/
structure ClassSt where
  /-- STR_CLASS_STATE, 2 bits: 0 free, 1 held, 2 draining (07 R253); reset 0. -/
  state : Nat := 0
  /-- STR_CLASS_EPOCH, 16 bits (07 R253); reset 0. -/
  epoch : BitVec 16 := 0
  /-- Class sequence, 10 bits (07 R233); reset 0. -/
  seq : Nat := 0
  /-- RUN_ID of the heat that holds it; reset 0. -/
  run : Nat := 0
  /-- Heat index of the heat that holds it; reset 0. -/
  heat : Nat := 0
  deriving DecidableEq, Repr

/-- The starter (07, STR block). -/
structure Str where
  /-- Submitted graphs 0-15 (07 R219); reset none. -/
  graphs : Tbl Graph := []
  /-- Live runs by RUN_ID, at most 16 (07 R220, STR_RUNS); reset none. -/
  runs : Tbl Run := []
  /-- Classes 0-63 (07 R233, STR_FREE_CLASSES, STR_CLASS_STATE); reset free. -/
  classes : Tbl ClassSt := []
  /-- Live-epoch tables that still hold a retired entry: table, class, epoch (07 R234); reset none. -/
  lag : List (Nat × Nat × BitVec 16) := []
  /-- STR_LAST_DSN, 32 bits (07 R253); reset 0. -/
  dsn : Word := 0
  /-- STR_STALE_TOTAL, 32 bits (07 R253); reset 0. -/
  stale : Word := 0
  /-- STR_FINISH_DROPPED, 32 bits (07 R253); reset 0. -/
  dropped : Word := 0
  /-- STR_CLASS_WAITS, 32 bits (07 R253); reset 0. -/
  waits : Word := 0
  /-- STR_ABORTS, 32 bits (07 R253); reset 0. -/
  aborts : Word := 0
  /-- STR_ABANDONED, 32 bits (07 R253); reset 0. -/
  abandons : Word := 0
  /-- Last RUN_ID given, 16 bits (13 R421); reset 0. -/
  runId : Nat := 0
  /-- Runs admitted since reset, for the admission order (07 R220) and 12 R383; reset 0. -/
  admits : Nat := 0
  deriving DecidableEq, Repr

/-! ## Contexts and loads -/

/-- State of a context (11 R345). -/
inductive CtxState where
  | free | created | resident
  deriving DecidableEq, Repr

/-- State of a generation slot (11 R355). -/
inductive GenState where
  | empty | loading | ready | current | retiring
  deriving DecidableEq, Repr

/-- A generation slot (11 R355). -/
structure Gen where
  /-- State (11 R355); reset EMPTY. -/
  state : GenState := .empty
  /-- Generation number, 1-255 (11 R356); reset 0. -/
  num : Nat := 0
  /-- Failed segments: index and cause (11 R372, 15 R454); reset none. -/
  failed : List (Nat × Nat) := []
  /-- Incomplete by SEAT_MAP (11 R354); reset false. -/
  lostMap : Bool := false
  /-- Blocks: seat × 96 + plan block to physical block (11 R349, R354); reset none. -/
  alloc : Tbl Nat := []
  /-- Manifest hash, 384 bits (11 R360); reset 0. -/
  hash : BitVec 384 := 0
  /-- MODEL_ID, 128 bits (11 R361); reset 0. -/
  model : BitVec 128 := 0
  /-- MODEL_VERSION, 32 bits (11 R361); reset 0. -/
  version : Nat := 0
  /-- SEGMENT_COUNT (11 R361); reset 0. -/
  segs : Nat := 0
  /-- TILE_COUNT (11 R361); reset 0. -/
  tiles : Nat := 0
  /-- Records written from each segment that has passed (11 R367); reset none. -/
  recs : Tbl Nat := []
  deriving DecidableEq, Repr

/-- A context (11 R345). The faulted mark is FLT_CTX_FAULTED. -/
structure Ctx where
  /-- State (11 R345); reset FREE. -/
  state : CtxState := .free
  /-- Publisher slot, 0-7 (11 R346); reset 0. -/
  slot : Nat := 0
  /-- MODEL_ID once fixed (11 R346); reset none. -/
  model : Option (BitVec 128) := none
  /-- Highest MODEL_VERSION loaded (11 R346); reset 0. -/
  version : Nat := 0
  /-- Last generation number given, 0 none (11 R356); reset 0. -/
  lastGen : Nat := 0
  /-- Generation slot 0 (11 R355); reset EMPTY. -/
  g0 : Gen := {}
  /-- Generation slot 1 (11 R355); reset EMPTY. -/
  g1 : Gen := {}
  /-- Time base of the last dispatch, or of creation (11 R371); reset 0. -/
  used : Nat := 0
  deriving DecidableEq, Repr

/-- A load or repair that is queued or running (11 R370, R374). -/
structure LoadJob where
  /-- It is a TILE_REPAIR; reset false. -/
  repair : Bool := false
  /-- The command, while its load waits for its turn at the load engine and none of R370's steps has been taken; reset none. -/
  waiting : Option Nat := none
  /-- Context; reset 0. -/
  ctx : Nat := 0
  /-- Generation number; reset 0. -/
  gen : Nat := 0
  /-- Command source and CID (13 R421); reset 0. -/
  src : Nat := 0
  /-- CID of the command; reset 0. -/
  cid : Nat := 0
  /-- Segments still to be processed, in order (11 R370); reset none. -/
  todo : List Nat := []
  /-- Content key, 256 bits (11 R365); reset 0. -/
  key : BitVec 256 := 0
  /-- NONCE_PREFIX, 32 bits (11 R361); reset 0. -/
  nonce : Word := 0
  /-- STREAM_BYTES (11 R361); reset 0. -/
  stream : Nat := 0
  /-- Segment table: SHA-384 and GCM tag (11 R363); reset none. -/
  table : List (BitVec 384 × BitVec 128) := []
  /-- Evicted-context mask, 16 bits (11 R371); reset 0. -/
  evicted : Nat := 0
  /-- The image lies in a half pool (11 R370): the half and the pool offset of its stream; reset none. -/
  pool : Option (Nat × Nat) := none
  /-- Tiles written: seat and first physical granule, for the scrubber (05 R176); reset none. -/
  tiles : List (Nat × Nat) := []
  /-- A weigh-enough stopped it (11 R372); reset false. -/
  stopped : Bool := false
  deriving DecidableEq, Repr

/-- Contexts, generations and the load engine (11). -/
structure Ctxs where
  /-- Contexts 0-15 (11 R345); reset FREE. -/
  ctx : Tbl Ctx := []
  /-- Loads and repairs, first one running (11 R370); reset none. -/
  loads : List LoadJob := []
  /-- Released blocks whose zero fill is not complete: seat × 96 + block (11 R352); reset none. -/
  zeroing : List Nat := []
  deriving DecidableEq, Repr

/-! ## Rings and completions -/

/-- A submission ring (13 R410), or the I3C port's session (14 R451). -/
structure Sq where
  /-- CQ_SQ_BASE_LO, 20 bits (13 R410); reset 0. -/
  baseLo : BitVec 20 := 0
  /-- CQ_SQ_BASE_HI, 32 bits (13 R410); reset 0. -/
  baseHi : Word := 0
  /-- CQ_SQ_ENABLE, 1 bit (13 R410); reset 0. -/
  enable : Bool := false
  /-- ENABLE has been written 0 and waits (13 R410); reset false. -/
  closing : Bool := false
  /-- CQ_SQ_CQ, 4 bits (13 R410); reset 0. -/
  cq : BitVec 4 := 0
  /-- CQ_SQ_SIZE_LOG2, 4 bits (13 R410); reset 4. -/
  size : BitVec 4 := 4
  /-- CQ_SQ_TAIL, 12 bits (13 R410); reset 0. -/
  tail : BitVec 12 := 0
  /-- CQ_SQ_HEAD, 12 bits (13 R410); reset 0. -/
  head : BitVec 12 := 0
  /-- CQ_SQ_OPEN, 1 bit (13 R410, R417); reset 0. -/
  opened : Bool := false
  /-- CQ_SQ_VERSION, 16 bits (13 R410); reset 0. -/
  version : BitVec 16 := 0
  /-- The command Snivan has read and not begun (13 R411); reset none. -/
  cur : Option (BitVec 512) := none
  /-- Commands read and not yet replied (13 R411); reset 0. -/
  waiting : Nat := 0
  /-- The command at HEAD has ORDER and waits for the ring's earlier commands (13 R411); reset false. -/
  ordered : Bool := false
  deriving DecidableEq, Repr

/-- A completion entry: one or two 32 B slots without PHASE and SEQ (13 R412, R415, R422, R425). -/
structure CEntry where
  /-- First slot, 256 bits; reset 0. -/
  first : BitVec 256 := 0
  /-- Second slot where the entry has one; reset none. -/
  second : Option (BitVec 256) := none
  deriving DecidableEq, Repr

/-- A completion ring (13 R410). -/
structure Cqr where
  /-- CQ_CQ_BASE_LO, 20 bits (13 R410); reset 0. -/
  baseLo : BitVec 20 := 0
  /-- CQ_CQ_BASE_HI, 32 bits (13 R410); reset 0. -/
  baseHi : Word := 0
  /-- CQ_CQ_ENABLE, 1 bit (13 R410); reset 0. -/
  enable : Bool := false
  /-- ENABLE has been written 0 and waits (13 R410); reset false. -/
  closing : Bool := false
  /-- CQ_CQ_VECTOR, 6 bits (13 R410); reset 1. -/
  vector : BitVec 6 := 1
  /-- CQ_CQ_SIZE_LOG2, 4 bits (13 R410); reset 4. -/
  size : BitVec 4 := 4
  /-- CQ_CQ_HEAD, 12 bits (13 R410); reset 0. -/
  head : BitVec 12 := 0
  /-- CQ_CQ_TAIL, 12 bits (13 R410); reset 0. -/
  tail : BitVec 12 := 0
  /-- Current phase, 1 bit (13 R410, R412); reset 1. -/
  phase : Bool := true
  /-- CQ_CQ_COAL_US, 16 bits (13 R410); reset 0. -/
  coalUs : BitVec 16 := 0
  /-- CQ_CQ_COAL_COUNT, 16 bits (13 R410); reset 0. -/
  coalCount : BitVec 16 := 0
  /-- CQ_CQ_STALLS, 32 bits (13 R412); reset 0. -/
  stalls : Word := 0
  /-- Hold queue of at most 256 unaccepted entries (13 R412); reset none. -/
  hold : List CEntry := []
  /-- Entries whose poster waits for a place in the hold queue, oldest first (13 R412); reset none. -/
  wait : List CEntry := []
  /-- Entries accepted since the last interrupt (13 R413); reset 0. -/
  since : Nat := 0
  /-- Reference ticks at which the first of those entries was accepted (13 R413); reset 0. -/
  sinceAt : Nat := 0
  deriving DecidableEq, Repr

/-- A feed descriptor in progress (13 R425). -/
structure FeedJob where
  /-- The descriptor, 256 bits (13 R424); reset 0. -/
  raw : BitVec 256 := 0
  /-- Its place in the ring (13 R426); reset 0. -/
  at_ : Nat := 0
  /-- Granules completed (13 R425); reset 0. -/
  moved : Nat := 0
  /-- STATUS of its first failure, 0 none (13 R426); reset 0. -/
  status : Nat := 0
  deriving DecidableEq, Repr

/-- A feed ring (13 R410). -/
structure Feed where
  /-- CQ_FEED_BASE_LO, 20 bits (13 R410); reset 0. -/
  baseLo : BitVec 20 := 0
  /-- CQ_FEED_BASE_HI, 32 bits (13 R410); reset 0. -/
  baseHi : Word := 0
  /-- CQ_FEED_ENABLE, 1 bit (13 R410); reset 0. -/
  enable : Bool := false
  /-- ENABLE has been written 0 and waits (13 R410); reset false. -/
  closing : Bool := false
  /-- CQ_FEED_CQ, 4 bits (13 R410); reset 0. -/
  cq : BitVec 4 := 0
  /-- CQ_FEED_SIZE_LOG2, 4 bits (13 R410); reset 4. -/
  size : BitVec 4 := 4
  /-- CQ_FEED_TAIL, 12 bits (13 R410); reset 0. -/
  tail : BitVec 12 := 0
  /-- CQ_FEED_HEAD, 12 bits (13 R410); reset 0. -/
  head : BitVec 12 := 0
  /-- CQ_FEED_STATE 2: the ring is stopped (13 R410, R426); reset false. -/
  stopped : Bool := false
  /-- A descriptor has failed and the ring will stop (13 R426): its place in the ring; reset none. -/
  failedAt : Option Nat := none
  /-- CQ_FEED_GRANULES, 32 bits, wraps (13 R410); reset 0. -/
  granules : Word := 0
  /-- The next descriptor has been counted as held (09 R299); reset false. -/
  noted : Bool := false
  /-- Descriptors in progress, at most four (13 R425); reset none. -/
  prog : List FeedJob := []
  deriving DecidableEq, Repr

/-- The CQ block, the completion arbiter and MSI-X (13). -/
structure Cq where
  /-- Submission rings 0-15 and the I3C session at key 16 (13 R410); reset as Sq. -/
  sq : Tbl Sq := []
  /-- Completion rings 0-15 (13 R410); reset as Cqr. -/
  cq : Tbl Cqr := []
  /-- Feed rings 0-7 (13 R410); reset as Feed. -/
  feed : Tbl Feed := []
  /-- Completion sequence number last given, 32 bits (01 R33); reset 0. -/
  seq : Word := 0
  /-- Next submission ring of the round robin (13 R411); reset 0. -/
  turn : Nat := 0
  /-- ATTEST, FW_UPDATE and FENCE_SEAT commands that run in the background, oldest first: source and command (13 R411, R421); reset none. -/
  bg : List (Nat × Nat) := []
  /-- MSI-X table mask bits, 64 (13 R413, R406); reset 0xFFFF_FFFF_FFFF_FFFF, every vector masked (4). -/
  masked : BitVec 64 := 0xFFFFFFFFFFFFFFFF
  /-- MSI-X table words but for the vector control: address low and high and message data of each vector (13 R406); reset 0 (4). -/
  msix : Tbl Word := []
  /-- MSI-X pending bits, 64 (13 R413); reset 0. -/
  pba : BitVec 64 := 0
  /-- MODEL: messages sent for each vector (13 R413); reset 0. -/
  sent : Tbl Nat := []
  /-- The I3C reply and buffer data that wait to be read (14 R451); reset none. -/
  i3cReply : Option (BitVec 512) := none
  /-- Buffer data of the I3C reply (14 R451); reset empty. -/
  i3cData : Mem := []
  /-- MODEL: what the last private read on the I3C port returned, at most 4,096 bytes (14 R451); reset empty. -/
  i3cOut : List Byte := []
  deriving DecidableEq, Repr

/-! ## Clocks and power -/

/-- Why a domain's clocks are stopped (12 R376, R379). -/
inductive Stop where
  | none | step | generator
  deriving DecidableEq, Repr

/-- A clock domain (12 R375, fields of CLK_DOM). -/
structure Dom where
  /-- CLK_DOM_LOCKED, 1 bit (12 R398); reset load: 0 until stage 1 or 2 (3). -/
  locked : Bool := false
  /-- CLK_DOM_STOPPED, 1 bit, with its cause (12 R376, R379, R398); reset 0. -/
  stop : Stop := .none
  /-- CLK_DOM_STEP, 3 bits (12 R398); reset 0. -/
  step : Nat := 0
  /-- Step a stop in progress leads to (12 R379, R396); reset 0. -/
  target : Nat := 0
  /-- CLK_DOM_CEILING, 3 bits (12 R378, R398); reset 0. -/
  ceiling : Nat := 0
  /-- CLK_DOM_PROT, 3 bits (12 R393, R398); reset 0. -/
  prot : Nat := 0
  /-- CLK_DOM_CLAMPED, 1 bit (12 R393, R398); reset 0. -/
  clamped : Bool := false
  /-- CLK_DOM_DROOP, 32 bits (12 R382, R398); reset 0. -/
  droop : Word := 0
  /-- The oscillator stretches periods now (12 R382); reset false. -/
  stretched : Bool := false
  /-- The 100 µs window of the last core cycle stretched to the maximum: its number since the release (12 R382); reset 0. -/
  sagWindow : Nat := 0
  /-- Core cycles of that window stretched to the maximum (12 R382); reset 0. -/
  sagged : Nat := 0
  /-- That window's sustained-droop event has been raised (12 R382); reset false. -/
  sagDone : Bool := false
  /-- Reference ticks at which the crew last met the Paddle conditions anew (12 R389); reset 0. -/
  idleAt : Nat := 0
  /-- Reference ticks of one accrual instant of the crew, which fixes its phase, once Snivan has set it (05 R169); reset none. -/
  accrual : Option Nat := none
  /-- CLK_DOM_STEPS, 32 bits (12 R398); reset 0. -/
  steps : Word := 0
  /-- CLK_DOM_TJ, 8 bits signed (12 R398); reset load: 0 (3). -/
  tj : BitVec 8 := 0
  /-- CLK_DOM_TDRAM, 8 bits signed (12 R398); reset load: 0 (3). -/
  tdram : BitVec 8 := 0
  /-- Reference ticks at which the step stop began or was retargeted (12 R379, R396); reset 0. -/
  stopTick : Nat := 0
  /-- Reference ticks plus 1 at which its last step change began (12 R379); reset 0. -/
  changeTick : Nat := 0
  /-- Consecutive samples at 90 °C or below (12 R393); reset 0. -/
  cool : Nat := 0
  /-- The crew is in Paddle (12 R388); reset false. -/
  paddle : Bool := false
  /-- A crew's wake from Paddle is under way (12 R388, R390); reset false. -/
  waking : Bool := false
  /-- Time-base copy less the reference ticks counted, 64 bits (12 R384); reset 0. -/
  offset : BitVec 64 := 0
  /-- The copy stands still at this value (12 R379, R384); reset none. -/
  frozen : Option (BitVec 64) := none
  deriving DecidableEq, Repr

/-- CLK registers and the time base (12 R383-R386, R398). -/
structure Clk where
  /-- Domains 0-99 (12 R375); reset as Dom. -/
  dom : Tbl Dom := []
  /-- Master time base, 64 bits (12 R383, CLK_TIME); reset 0. -/
  master : BitVec 64 := 0
  /-- Fraction, 16 bits (12 R383); reset 0. -/
  frac : BitVec 16 := 0
  /-- Latched low word (12 R386); reset 0. -/
  latchLo : Word := 0
  /-- Latched high word, CLK_TIME_HI (12 R386); reset 0. -/
  latchHi : Word := 0
  /-- Latched fraction, CLK_TIME_FRAC, 16 bits (12 R386); reset 0. -/
  latchFrac : BitVec 16 := 0
  /-- CLK_TIME_SET_LO, 32 bits (12 R398); reset 0. -/
  setLo : Word := 0
  /-- CLK_TIME_SET_HI, 32 bits (12 R398); reset 0. -/
  setHi : Word := 0
  /-- A load waits for the next sync (12 R385); reset none. -/
  load : Option (BitVec 64) := none
  /-- CLK_TIME_REFUSED, 32 bits (12 R398); reset 0. -/
  refused : Word := 0
  /-- CLK_DOM_SEL, 7 bits (12 R398); reset 0. -/
  sel : BitVec 7 := 0
  /-- CLK_CAP_INDEX, 3 bits (12 R392, R398); reset 0. -/
  cap : Nat := 0
  /-- CLK_LIMIT_STEP, 3 bits (12 R398); reset 4. -/
  limit : BitVec 3 := 4
  /-- Reference periods since the release took effect (12 R383); reset 0. -/
  ticks : Nat := 0
  /-- Slew of the time base in ppm, -200 to 200 (10 R341); reset 0. -/
  slew : Int := 0
  deriving DecidableEq, Repr

/-- A power request that is pending (12 R389). -/
structure PwrReq where
  /-- Unit reference, 32 bits (01 R18); reset 0. -/
  unit : Word := 0
  /-- Target: 1 Paddle, 2 Easy, 3 Boated (13 R421); reset 0. -/
  state : Nat := 0
  /-- Command source; reset 0. -/
  src : Nat := 0
  /-- CID; reset 0. -/
  cid : Nat := 0
  /-- Reference ticks at which it was accepted (12 R389); reset 0. -/
  tick : Nat := 0
  deriving DecidableEq, Repr

/-- PWR registers (12 R388-R399). -/
structure Pwr where
  /-- PWR_HALF0_STATE and PWR_HALF1_STATE at keys 0 and 1, 2 bits each: 0, 2 Easy, 3 Boated (12 R399); reset 0. -/
  half : Tbl Nat := []
  /-- Half h has a wake under way (12 R390, R391); reset false. -/
  waking : Tbl Bool := []
  /-- A chip-level Boated request holds (12 R388); reset false. -/
  chipBoated : Bool := false
  /-- Pending requests (12 R389); reset none. -/
  reqs : List PwrReq := []
  /-- PWR_AUTO_PADDLE, 1 bit (12 R399); reset 0. -/
  autoPaddle : Bool := false
  /-- PWR_HALT_FLEET, 1 bit (12 R399); reset 1. -/
  haltFleet : Bool := true
  /-- PWR_HALT_ACTIVE, 1 bit (12 R395, R399); reset 0. -/
  haltActive : Bool := false
  /-- HALT_N has had a qualified deassertion since (12 R395); reset false. -/
  haltLoose : Bool := false
  /-- PWR_LIMIT_ACTIVE, 1 bit (12 R395, R399); reset 0. -/
  limitActive : Bool := false
  /-- PWR_LIMIT_N has had a qualified deassertion since (12 R395); reset false. -/
  limitLoose : Bool := false
  /-- PWR_LIMIT_CHATTER, 32 bits (12 R399); reset 0. -/
  limitChatter : Word := 0
  /-- PWR_HALT_CHATTER, 32 bits (12 R399); reset 0. -/
  haltChatter : Word := 0
  /-- PWR_PACKAGE_W, 16 bits (12 R392, R399); reset 0. -/
  packageW : BitVec 16 := 0
  /-- Last ten power measurements, latest first (12 R392); reset none. -/
  samples : List Nat := []
  /-- Consecutive measurements at which the average lay below 95 % of the cap (12 R392); reset 0. -/
  lowRun : Nat := 0
  /-- PWR_CAP_W, 16 bits (12 R399); reset 1500. -/
  capW : BitVec 16 := 1500
  /-- PWR_CAP_EVENTS, 32 bits (12 R399); reset 0. -/
  capEvents : Word := 0
  /-- PWR_OTHER_W, 16 bits (12 R399); reset 380. -/
  otherW : BitVec 16 := 380
  /-- PWR_PADDLE_IDLE_US, 16 bits (12 R399); reset 50. -/
  idleUs : BitVec 16 := 50
  /-- PWR_TJ_MAX, 8 bits signed (12 R399); reset load: 0x80, below every reading (3). -/
  tjMax : BitVec 8 := 0x80
  /-- PWR_THERM_CLAMPS, 32 bits (12 R399); reset 0. -/
  clamps : Word := 0
  /-- PWR_VDD_W_MV and PWR_VDD_E_MV at keys 0 and 1, 16 bits each (12 R399); reset load: 750, the regulator's own (16 R479) (3). -/
  vdd : List Nat := [750, 750]
  /-- Voltage requested on each rail (12 R380); reset 750 (16 R479). -/
  want : List Nat := [750, 750]
  /-- Voltage that each rail is known to supply: the lowest requested since AVSBus last reported it settled, and what it settled at
  (12 R380); reset 750 (16 R479). -/
  supply : List Nat := [750, 750]
  deriving DecidableEq, Repr

/-! ## Faults, identity, start-up -/

/-- Dispatch of a context's heats is held back until Snivan has handled the causing record (15 R462). -/
structure CtxHold where
  /-- Context; reset 0. -/
  ctx : Nat := 0
  /-- RUN_ID of the aborted heat; reset 0. -/
  run : Nat := 0
  /-- Its heat index; reset 0. -/
  heat : Nat := 0
  /-- Log sequence number of the causing record, once it has one; reset none. -/
  seq : Option Word := none
  deriving DecidableEq, Repr

/-- The FLT block and the fault-log arbiter (15). -/
structure Flt where
  /-- FLT_HALT_CODE, 16 bits (15 R474); reset 0. -/
  haltCode : BitVec 16 := 0
  /-- FLT_ALERT_CODE, 8 bits (15 R465, R474); reset 0. -/
  alert : Byte := 0
  /-- FLT_ALERT_PREV, 8 bits (15 R465, R474); reset load: 0 at first power (3). -/
  alertPrev : Byte := 0
  /-- A condition that asserts ALERT_N until RESET_N has arisen (15 R465); reset false. -/
  alertHold : Bool := false
  /-- FLT_LAST_SEQ, 32 bits (15 R458, R474); reset 0. -/
  lastSeq : Word := 0
  /-- FLT_ACK_SEQ, 32 bits (15 R459, R474); reset 0. -/
  ackSeq : Word := 0
  /-- FLT_OVERRUN, 32 bits (15 R459, R474); reset 0. -/
  overrun : Word := 0
  /-- FLT_HANDLED_SEQ, 32 bits (15 R463, R474); reset 0. -/
  handled : Word := 0
  /-- FLT_CTX_HOLD, 16 bits: the holds in force, one for each abort that marks its context (15 R462, R474); reset none. -/
  holds : List CtxHold := []
  /-- FLT_CTX_FAULTED, 16 bits (15 R461, R474); reset 0. -/
  faulted : BitVec 16 := 0
  /-- FLT_SEAT_FAULTS, 32 bits (15 R474); reset 0. -/
  seatFaults : Word := 0
  /-- FLT_LOG, 1024 slots (15 R459); reset 0. -/
  log : Tbl Record := []
  /-- Records on the fault path that the arbiter has not accepted (15 R458); reset none. -/
  path : List Record := []
  deriving DecidableEq, Repr

/-- Snivan and the ROM (14 R430-R434). -/
inductive Fw where
  /-- Not started, or the ROM has stopped (14 R430). -/
  | off
  /-- The ROM waits in recovery (14 R431). -/
  | recovery
  /-- Started or restarted, not yet ready (01 R27). -/
  | starting
  /-- Ready: serves commands. -/
  | ready
  deriving DecidableEq, Repr

/-- The GLB block, start-up and the ROM (13 R406, 14 R452, 16 R493). -/
structure Glb where
  /-- Snivan's condition; GLB_SNIVAN_READY (13 R406, 01 R27); reset 1 once start-up completes, 0 from release. -/
  fw : Fw := .off
  /-- GLB_DEVICE, 16 bits (13 R400, R406); reset load: 0x2300 until the record is checked (13 R400). -/
  device : BitVec 16 := 0x2300
  /-- GLB_GRADE, 8 bits (13 R406, 14 R440); reset load: 0xFF until the record is checked (3). -/
  grade : Byte := 0xFF
  /-- GLB_GRADE_VALID, 1 bit (14 R440, R452); reset load: 0 (3). -/
  gradeValid : Bool := false
  /-- The grade record passed its signatures and DEVICE_ID (14 R440); reset false. -/
  recordOk : Bool := false
  /-- GLB_FW_VERSION, 32 bits (13 R406); reset load: 0 (3). -/
  fwVersion : Word := 0
  /-- GLB_FW_SVN, 32 bits (14 R452); reset load: 0 (3). -/
  fwSvn : Word := 0
  /-- Signed-message hash of the running image, 384 bits (14 R444); reset 0. -/
  fwHash : BitVec 384 := 0
  /-- GLB_RECOVERY, 1 bit (13 R406, 14 R431); reset 0. -/
  recovery : Bool := false
  /-- GLB_HALTED, 1 bit (13 R406, 15 R466); reset 0. -/
  halted : Bool := false
  /-- GLB_FLR, 1 bit (13 R406); reset 0. -/
  flr : Bool := false
  /-- GLB_EVENTS, 5 bits, W1C (13 R406); reset 0. -/
  events : BitVec 5 := 0
  /-- GLB_EVENT_MASK, 5 bits (13 R406); reset 0x1F. -/
  eventMask : BitVec 5 := 0x1F
  /-- GLB_BAD_ACCESS, 32 bits (13 R406); reset 0. -/
  bad : Word := 0
  /-- GLB_BOOT_CAUSE, 8 bits (14 R452); reset load: 0 (3). -/
  bootCause : Byte := 0
  /-- Reference ticks when Snivan was last started (14 R432); reset 0. -/
  fwTick : Nat := 0
  /-- GLB_BOOT_SLOT, 1 bit (14 R452); reset load: 0 (3). -/
  bootSlot : Fin 2 := 0
  /-- GLB_TRIAL, 1 bit (14 R452); reset load: 0 (3). -/
  trial : Bool := false
  /-- GLB_BOOT_NONCE, 64 bits (14 R443, R452); reset load: 0 until the ROM draws it (3). -/
  nonce : BitVec 64 := 0
  /-- GLB_RECOVERY_LEN, 21 bits (14 R452); reset 0. -/
  recLen : BitVec 21 := 0
  /-- GLB_RECOVERY_STATUS, 7 bits (14 R452); reset 0. -/
  recStatus : BitVec 7 := 0
  /-- Recovery window, 1 MiB (14 R431); reset 0. -/
  recWin : Mem := []
  /-- GLB_START_STAGE, 4 bits (16 R493); reset 9 once start-up completes, 0 in reset. -/
  stage : Nat := 0
  /-- Reference ticks at which fabric training began (16 R490); reset 0. -/
  stageTick : Nat := 0
  /-- GLB_START_FAILED, 1 bit (16 R493); reset 0. -/
  startFailed : Bool := false
  /-- GLB_DEVICE_READY, 1 bit (16 R493); reset 1 once start-up completes, 0 before. -/
  ready : Bool := false
  /-- GLB_READY_TIME, 32 bits (16 R493); reset load: 0 before Ready. -/
  readyTime : Word := 0
  /-- A weigh-enough that waits for Snivan to become ready: its code (16 R488); reset none. -/
  lateHalt : Option (BitVec 16) := none
  /-- Record that SNIVAN_HANDLER named, to be marked and skipped (15 R464); reset none. -/
  skip : Option Word := none
  /-- An activation is to follow the FW_UPDATE reply (14 R434); reset false. -/
  activate : Bool := false
  /-- The previous start of the slot in trial ended by watchdog (14 R430); reset false. -/
  wdTrial : Bool := false
  /-- MODEL: value that the last BAR0 or window read returned; reset 0. -/
  readData : Word := 0
  /-- MODEL: upper word of the last read of 8 bytes of the MSI-X table or PBA (13 R405); reset 0. -/
  readHigh : Word := 0
  /-- MODEL: data that the last BAR2 read returned; reset 0. -/
  bar2Data : BitVec 4096 := 0
  /-- MODEL: the last BAR2 read completed with Unsupported Request; reset false. -/
  bar2Ur : Bool := false
  deriving DecidableEq, Repr

/-- Identity and trust (14). -/
structure Sec where
  /-- The board flash (14 R427). -/
  flash : Flash := {}
  /-- The state record in force (14 R438); reset as after STATE_RECORD_LOST. -/
  stateRec : StateRec := {}
  /-- Device secret, 256 bits (14 R435); reset 0 until the ROM reconstructs it (3). -/
  secret : BitVec 256 := 0
  /-- DEVICE_ID, 128 bits (14 R437); reset 0 until start (3). -/
  deviceId : BitVec 128 := 0
  /-- KEY_ID, 64 bits (14 R437, GLB_KEY_ID); reset load: 0 until start (3). -/
  keyId : BitVec 64 := 0
  /-- SCOPE of the debug token in force, 2 bits (14 R443); reset 0. -/
  scope : BitVec 2 := 0
  /-- GLB_DEBUG_UNLOCKED, 1 bit (14 R452); reset 0. -/
  unlocked : Bool := false
  /-- SCOPE of a debug token that waits for the zero fills (14 R443); reset none. -/
  unlockWait : Option (BitVec 2) := none
  /-- IDE stream established (13 R403); reset false. -/
  ide : Bool := false
  deriving DecidableEq, Repr

/-! ## Network, pools, fabric -/

/-- The seat map of one crew (09 R282). -/
structure CrewMap where
  /-- Physical seat of each logical seat (NOC_MAP_PHYS, NOC_MAP_COUNT); reset load: none before stage 6 (3). -/
  phys : List Nat := []
  /-- Fenced physical seats, 24 bits (NOC_MAP_FENCED, SEAT_FENCED, FLT_FENCED); reset load: 0 (3). -/
  fenced : BitVec 24 := 0
  /-- A reassignment is due (09 R283); reset false. -/
  due : Bool := false
  deriving DecidableEq, Repr

/-- Where a packet has arrived. -/
inductive Target where
  | seat (w : Nat) | pool (h : Nat) | fabric | host
  deriving DecidableEq, Repr

/-- What a destination makes of a packet (07 R234, 09 R276, R294). -/
inductive Reply where
  | done | stale
  | refuse (code : Nat)
  deriving DecidableEq, Repr

/-- A packet at its destination: what has come of it, and what has been served (09 R276). -/
structure Deliv where
  /-- Destination; reset host. -/
  target : Target := .host
  /-- The packet, with the data that has come so far. -/
  pkt : Pkt := ⟨0, []⟩
  /-- All of it has come; reset true. -/
  full : Bool := true
  /-- Granules of it that have been written (07 R234); reset none. -/
  wrote : List Nat := []
  /-- It is stale or refused: what is left of it is dropped (07 R234); reset none. -/
  verdict : Option Reply := none
  /-- Router, row switch, edge port or pool link that handed it over, and the channel it came on; reset 0. -/
  place : Nat := 0
  /-- Virtual channel (09 R272); reset 0. -/
  vc : Nat := 0
  /-- Multicast gathering that it answers into (09 R285); reset none. -/
  group : Option Nat := none
  /-- Physical seat that sent it, none for a complex; reset none. -/
  sender : Option Nat := none
  /-- Node at which it entered the network; reset 0. -/
  entry : Nat := 0
  deriving DecidableEq, Repr

/-- Answers of a multicast that are being gathered (09 R285). -/
structure Group where
  /-- Members still to answer; reset 0. -/
  left : Nat := 0
  /-- Refused members (09 R285); reset 0. -/
  refused : Nat := 0
  /-- Code of the first refusal, 4 bits; reset 0. -/
  code : Nat := 0
  /-- Unit of the first member that refused (01 R19); reset 0. -/
  unit : Word := 0
  /-- Members that dropped it as stale; reset 0. -/
  stale : Nat := 0
  /-- Header of the packet that is answered. -/
  hdr : BitVec 512 := 0
  /-- Its sender, a physical seat; reset 0. -/
  sender : Nat := 0
  /-- Router of replication, where the answers are gathered (09 R285); reset 0. -/
  root : Nat := 0
  deriving DecidableEq, Repr

/-- The on-die network and the seam (09). -/
structure Noc where
  /-- Seat map, one entry a crew (09 R282); reset as CrewMap. -/
  map : Tbl CrewMap := []
  /-- Copies of the seat map that a reassignment has not reached: crew, the seats that they still list, and the copies by node (09
  R282); reset none. -/
  mapLag : List (Nat × List Nat × List Nat) := []
  /-- NOC_MAP_GEN, 16 bits (09 R302); reset 0. -/
  mapGen : BitVec 16 := 0
  /-- NOC_MAP_SEL, 7 bits (09 R302); reset 0. -/
  mapSel : BitVec 7 := 0
  /-- Buffers of the routers' ports, the crossing FIFOs, the row switches, the edge ports and the pool links, by node, port and channel
  (09 R270-R272, R296, R298); reset empty. -/
  buf : Tbl Buf := []
  /-- Input port plus 1 whose packet is passing an output, by node, output and channel (09 R272); reset none. -/
  lock : Tbl Nat := []
  /-- The channel, REQ or RSP, that last won an output, by node and output (09 R272); reset 0. -/
  turn : Tbl Nat := []
  /-- Packets at their destinations: in the arrival and response buffers of the seats, at the pools and complexes (05 R154, 09 R272,
  R276); reset none. -/
  arrive : List Deliv := []
  /-- Multicast answers being gathered (09 R285); reset none. -/
  groups : Tbl Group := []
  /-- Next number of a gathering; reset 0. -/
  nextGroup : Nat := 0
  /-- NOC_WAKES, 32 bits (09 R302); reset 0. -/
  wakes : Word := 0
  /-- NOC_SEAM_HELD, 32 bits (09 R302); reset 0. -/
  seamHeld : Word := 0
  /-- NOC_MAP_SKIPS, 32 bits (09 R302); reset 0. -/
  skips : Word := 0
  /-- NOC_NACK_COUNT1-7, 32 bits each (09 R302); reset 0. -/
  nacks : Tbl Word := []
  /-- NOC_XING_BP, 32 bits (09 R302); reset 0. -/
  xingBp : Word := 0
  /-- NOC_XING_MAXLAT, 4 bits (09 R302); reset load: 0 before stage 3 (3). -/
  maxLat : Nat := 0
  /-- NOC_XING_MINLAT, 4 bits (09 R302); reset load: 0 before stage 3 (3). -/
  minLat : Nat := 0
  /-- Calibrated latency of the crossing FIFOs, in receiver network cycles (09 R296); reset 0. -/
  latBase : Nat := 0
  /-- That of the FIFOs that differ from it, by node and port (09 R296); reset none. -/
  lat : Tbl Nat := []
  /-- Offset of each crossing FIFO from its calibrated point, in receiver network cycles (09 R297); reset 0. -/
  xing : Tbl Nat := []
  /-- NOC_ECC_CORRECTED, 32 bits (09 R302); reset 0. -/
  eccOk : Word := 0
  /-- NOC_ECC_UNCORRECTED, 32 bits (09 R302); reset 0. -/
  eccBad : Word := 0
  deriving DecidableEq, Repr

/-- A half pool (05 R179, POOL block). -/
structure Pool where
  /-- Contents, 1.25 GiB (05 R179); reset 0 (2). -/
  mem : Mem := []
  /-- The pool's 256 landing counters (05 R179). -/
  lnd : Lnd := {}
  /-- POOL_SEG_ON, 20 bits (05 R184); reset 0xF_FFFF. -/
  on : BitVec 20 := 0xFFFFF
  /-- POOL_SEG_READY, 20 bits (05 R184); reset 0xF_FFFF. -/
  ready : BitVec 20 := 0xFFFFF
  /-- Segments that are closing (05 R180); reset none. -/
  closing : BitVec 20 := 0
  /-- Reference ticks at which each segment began to close (05 R180); reset 0. -/
  closeAt : Tbl Nat := []
  /-- Segments that failed training (16 R491); reset none. -/
  dead : BitVec 20 := 0
  /-- POOL_ASLEEP_NACKS, 32 bits (05 R184); reset 0. -/
  asleep : Word := 0
  /-- BAR2 accesses held while the half is in Easy, oldest first: offset, length, bytes of a write (12 R390, 09 R299); reset none. -/
  bar2Held : List (Nat × Nat × Option Mem) := []
  /-- POOL_BAR2_DROPPED, 32 bits (05 R184); reset 0. -/
  bar2Dropped : Word := 0
  /-- POOL_DRAIN_TIMEOUTS, 32 bits (05 R184); reset 0. -/
  timeouts : Word := 0
  deriving DecidableEq, Repr

/-- State of a fabric port (10 R313). -/
inductive PortSt where
  | off | detect | equalise | lock | width | identify | creditInit | active | down
  deriving DecidableEq, Repr

/-- A packet sent on a port and not acknowledged (10 R318). -/
structure TxPkt where
  /-- Link sequence number of its first frame, 12 bits; reset 0. -/
  seq : Nat := 0
  /-- Frames it fills; reset 0. -/
  frames : Nat := 0
  /-- The packet. -/
  pkt : Pkt := ⟨0, []⟩
  deriving DecidableEq, Repr

/-- Credit counts of one class and kind (10 R320-R322). -/
structure Credit where
  /-- Advertised by the partner, 16 bits; reset 0. -/
  adv : Nat := 0
  /-- Charged, cumulative modulo 2^16; reset 0. -/
  charged : Nat := 0
  /-- Returned by the partner, cumulative modulo 2^16; reset 0. -/
  returned : Nat := 0
  /-- Effective window, FAB_WIN (10 R344); reset load: 0 if never ACTIVE. -/
  window : Nat := 0
  /-- Slots in this part's own receive buffer; reset 0. -/
  buffered : Nat := 0
  /-- Returned by this part, cumulative modulo 2^16; reset 0. -/
  given : Nat := 0
  deriving DecidableEq, Repr

/-- A fabric port (10 R344). -/
structure Port where
  /-- FAB_PORT_STATE, 4 bits (10 R313); reset load: OFF before stage 8 (3). -/
  state : PortSt := .off
  /-- FAB_PORT_EN, 1 bit (10 R344); reset 1. -/
  en : Bool := true
  /-- FAB_PORT_CAUSE, 4 bits (10 R344); reset load: 0 (3). -/
  cause : Nat := 0
  /-- FAB_PARTNER_PORT, 4 bits (10 R344); reset load: 0 (3). -/
  partnerPort : Nat := 0
  /-- FAB_PARTNER_NODE, 12 bits (10 R344); reset load: 0 (3). -/
  partnerNode : Nat := 0
  /-- The partner has been identified since reset (10 R304); reset false. -/
  known : Bool := false
  /-- FAB_CABLE_MISMATCH, 1 bit (10 R304); reset load: 0 (3). -/
  mismatch : Bool := false
  /-- FAB_PORT_WIDTH as lanes: 0, 2, 4 or 8 (10 R314); reset load: 0 (3). -/
  width : Nat := 0
  /-- FAB_PORT_LANESET, 3 bits (10 R344); reset load: 0 (3). -/
  laneset : Nat := 0
  /-- Version agreed in IDENTIFY (10 R315); reset 0. -/
  agreed : Nat := 0
  /-- FAB_PORT_VERSION, 8 bits (10 R344); reset load: 0 if never ACTIVE. -/
  version : Nat := 0
  /-- FAB_PORT_RTT, 8 bits (10 R344); reset load: 0 if never ACTIVE. -/
  rtt : Nat := 0
  /-- A fast retrain is scheduled (10 R323); reset false. -/
  sched : Bool := false
  /-- The port is in a fast retrain (10 R326); reset false. -/
  fast : Bool := false
  /-- Next link sequence number to send, 12 bits (10 R317); reset 0. -/
  txSeq : Nat := 0
  /-- Next link sequence number expected, 12 bits (10 R317); reset 0. -/
  rxSeq : Nat := 0
  /-- A NAK is to go out in the next frame (10 R317); reset false. -/
  nak : Bool := false
  /-- Replays in a row with no ACK advancing (10 R318); reset 0. -/
  replayRun : Nat := 0
  /-- Packets waiting to be sent (10 R312); reset none. -/
  tx : List Pkt := []
  /-- Replay buffer, at most 512 frames (10 R318); reset none. -/
  unacked : List TxPkt := []
  /-- Packets at the end of the replay buffer that a replay has still to send again (10 R318, R320); reset 0. -/
  resend : Nat := 0
  /-- Slots of a packet that has not all arrived: kind and contents (10 R310, R319); reset none. -/
  rxSlots : List (BitVec 512) := []
  /-- Credits of REQ header, REQ data, RSP header, RSP data at keys 0-3 (10 R320); reset 0. -/
  credit : Tbl Credit := []
  /-- Both sides' ADV has been seen in CREDIT_INIT (10 R313); reset false. -/
  advSeen : Bool := false
  /-- An ACK of the first control frame has been seen in CREDIT_INIT (10 R313); reset false. -/
  ackSeen : Bool := false
  /-- Lanes locked on both sides (10 R314); reset 0. -/
  lanes : Byte := 0
  /-- Lowest and highest version that the partner offered (10 R315); reset none. -/
  offer : Option (Nat × Nat) := none
  /-- The scheduled retrain is for credits (10 R322, R344); reset false. -/
  forCredit : Bool := false
  /-- The last packet sent was of class RSP, for the round robin (10 R312); reset false. -/
  lastRsp : Bool := false
  /-- Reference ticks when the oldest unacknowledged frame was sent or an ACK last advanced (10 R318); reset 0. -/
  ackTick : Nat := 0
  /-- Reference ticks plus 1 when NAK was last set (10 R317); reset 0. -/
  nakTick : Nat := 0
  /-- Accepted frames that begin inside an RSP packet, by sequence number, for the credits of duplicates (10 R321); reset none. -/
  rspLead : List Nat := []
  /-- Reference ticks of the last uncorrectable codewords, at most 17, latest first (10 R316); reset none. -/
  badAt : List Nat := []
  /-- FAB_FEC_CORRECTED, 32 bits (10 R344); reset 0. -/
  fecOk : Word := 0
  /-- FAB_FEC_UNCORRECTABLE, 32 bits (10 R344); reset 0. -/
  fecBad : Word := 0
  /-- Bits of the frame that is coming in, and their number; none where the receiver waits for the frame that a codeword's header points to
  (10 R307); reset none. -/
  rxPart : Option (Nat × Nat) := none
  /-- Frames taken from the codewords, oldest first (10 R307, R308); reset none. -/
  rxFrames : List Frame := []
  /-- FAB_CRC_ERRORS, 32 bits (10 R344); reset 0. -/
  crcErrs : Word := 0
  /-- FAB_REPLAYS, 32 bits (10 R344); reset 0. -/
  replays : Word := 0
  /-- FAB_DUP_DISCARDED, 32 bits (10 R344); reset 0. -/
  dups : Word := 0
  /-- FAB_PAIR_DUP, 32 bits (10 R344); reset 0. -/
  pairDup : Word := 0
  /-- FAB_CREDIT_EXCESS, 32 bits (10 R344); reset 0. -/
  excess : Word := 0
  /-- FAB_RETRAINS_CREDIT, 32 bits (10 R344); reset 0. -/
  fastCount : Word := 0
  /-- FAB_RETRAINS_OTHER, 32 bits (10 R344); reset 0. -/
  otherCount : Word := 0
  /-- FAB_FAILOVERS, 32 bits (10 R344); reset 0. -/
  failovers : Word := 0
  /-- FAB_TRAIN_FAILS, 32 bits (10 R344); reset 0. -/
  trainFails : Word := 0
  /-- MODEL: control frames sent (10 R312); reset 0. -/
  ctlSent : Nat := 0
  /-- MODEL: flit of the last control frame sent (10 R311); reset 0. -/
  ctlFlit : BitVec 2048 := 0
  /-- MODEL: frames of the last transmission of the port, a packet's, a replay's or a control frame (10 R308, R318); reset none. -/
  line : List Frame := []
  /-- T_SEND of the last control frame received and the time it arrived, in 2^-16 ticks (10 R311); reset none. -/
  echo : Option (Nat × Nat) := none
  deriving DecidableEq, Repr

/-- A pair of ports (10 R303, R324). -/
structure Pair where
  /-- FAB_PAIR_SPLIT, 1 bit (10 R304); reset load: 0 (3). -/
  split : Bool := false
  /-- Next pair sequence number to send, 16 bits (10 R324); reset 0. -/
  txSeq : Nat := 0
  /-- Highest pair sequence accepted, 16 bits (10 R325); reset 0. -/
  high : Nat := 0
  /-- A packet has been accepted on the pair (10 R325); reset false. -/
  seen : Bool := false
  /-- Accepted numbers among the 4,096 up to it (10 R325); reset none. -/
  record : List Nat := []
  /-- Packets held for the pair, with the reference ticks at which each was held (10 R326); reset none. -/
  held : List (Nat × Pkt) := []
  deriving DecidableEq, Repr

/-- A fabric tag in use (10 R329). -/
structure Ftag where
  /-- Seat that sent the packet; reset 0. -/
  seat : Nat := 0
  /-- The on-die request, whose answer is due. -/
  hdr : BitVec 512 := 0
  /-- Copies of a fabric multicast, or 1, still to answer (10 R338); reset 0. -/
  left : Nat := 0
  /-- Refused members (10 R338); reset 0. -/
  refused : Nat := 0
  /-- First refusal (10 R338); reset 0. -/
  code : Nat := 0
  /-- Unit that answers: this part's complex, or the chip of the first refusal (01 R19, 10 R338); reset 0. -/
  unit : Word := 0
  /-- Members that were stale (10 R338); reset 0. -/
  stale : Nat := 0
  /-- Times the request was issued (10 R335); reset 0. -/
  issues : Nat := 0
  /-- Complete, and kept for late copies (10 R335); reset false. -/
  complete : Bool := false
  /-- Copies that have not left this part yet (10 R334); reset 0. -/
  unsent : Nat := 0
  /-- Reference ticks at which the request, or the last copy of a multicast, left (10 R334); reset 0. -/
  tick : Nat := 0
  /-- Reference ticks at the last issue (10 R335); reset 0. -/
  last : Nat := 0
  /-- Fabric requests sent under it that no answer has come to, for a reissue and for the members of a multicast (10 R335, R338); reset none. -/
  sent : List Pkt := []
  deriving DecidableEq, Repr

/-- A request from another part that has been delivered on the die and awaits its on-die answer (10 R332). -/
structure Inbound where
  /-- On-die tag given; reset 0. -/
  tag : Nat := 0
  /-- Fabric header of the request. -/
  hdr : BitVec 512 := 0
  /-- Reference ticks at its arrival (10 R332); reset 0. -/
  tick : Nat := 0
  deriving DecidableEq, Repr

/-- The fabric complex (10, FAB block). -/
structure Fab where
  /-- Ports F0-F11 (10 R303); reset as Port. -/
  ports : Tbl Port := []
  /-- Pairs 0-5 (10 R303); reset as Pair. -/
  pairs : Tbl Pair := []
  /-- Packets received whole, with the port they came on, plus 12 where it has retrained since (10 R319, R316); reset none. -/
  rx : List (Nat × Pkt) := []
  /-- Answers that have reached their source complex (10 R333); reset none. -/
  answers : List Pkt := []
  /-- FTAGs in use, at most 4096 (10 R329, FAB_OUTSTANDING); reset none. -/
  ftags : Tbl Ftag := []
  /-- Requests of other parts on the die (10 R332); reset none. -/
  inbound : List Inbound := []
  /-- Next on-die tag of the complex, 12 bits; reset 0. -/
  tag : Nat := 0
  /-- FAB_TIME_ROLE, 2 bits (10 R340, R343); reset 0. -/
  role : BitVec 2 := 0
  /-- FAB_TIME_UPSTREAM, 4 bits (10 R343); reset 0. -/
  upstream : BitVec 4 := 0
  /-- FAB_TIME_DEPTH, 8 bits (10 R343); reset 0xFF. -/
  depth : BitVec 8 := 0xFF
  /-- FAB_TIME_LOCKED, 1 bit (10 R343); reset 0. -/
  locked : Bool := false
  /-- Node of the master followed, 12 bits (10 R311); reset 0. -/
  masterNode : Nat := 0
  /-- Reference ticks at the last time sample (10 R342); reset 0. -/
  sampleAt : Nat := 0
  /-- Last offsets in 2^-16 ticks, latest first, at most 8 (10 R341); reset none. -/
  offsets : List Int := []
  /-- FAB_TIME_OFFSET, 32 bits signed in 2^-8 ticks (10 R343); reset 0. -/
  offset : Word := 0
  /-- FAB_TIME_STEPS, 32 bits (10 R343); reset 0. -/
  steps : Word := 0
  /-- FAB_EXPIRED, 32 bits (10 R343); reset 0. -/
  expired : Word := 0
  /-- FAB_DUP_RSP, 32 bits (10 R343); reset 0. -/
  dupRsp : Word := 0
  /-- FAB_REISSUES, 32 bits (10 R343); reset 0. -/
  reissues : Word := 0
  /-- FAB_GIVEN_UP, 32 bits (10 R343); reset 0. -/
  givenUp : Word := 0
  /-- FAB_NACK_COUNT8-11, 32 bits each at keys 8-11 (10 R343); reset 0. -/
  nacks : Tbl Word := []
  deriving DecidableEq, Repr

/-! ## Chain, pins, management ports -/

/-- The enumeration chain (14 R447-R450). -/
structure Chain where
  /-- Node number, 12 bits (FAB_NODE, 14 R448); reset load: 0 while none is held (3). -/
  node : Nat := 0
  /-- GLB_NODE_VALID, 1 bit (14 R452); reset 1 once start-up completes, 0 before. -/
  valid : Bool := false
  /-- GLB_CHAIN_HEAD, 1 bit (14 R452); reset load: 0 (3). -/
  head : Bool := false
  /-- GLB_CHAIN_RING, 1 bit (14 R449); reset load: 0 (3). -/
  ring : Bool := false
  /-- GLB_FLEET_SIZE, 13 bits (14 R449); reset load: 0 (3). -/
  size : Nat := 0
  /-- GLB_FLEET_HALT, 1 bit (14 R452); reset 0. -/
  fleetHalt : Bool := false
  /-- GLB_CHAIN_ERRORS, 32 bits (14 R452); reset 0. -/
  errors : Word := 0
  /-- GLB_CHAIN_HALTS, 32 bits (14 R452); reset 0. -/
  halts : Word := 0
  /-- GLB_CHAIN_CONFLICTS, 32 bits (14 R452); reset 0. -/
  conflicts : Word := 0
  /-- MODEL: data bytes of the last ENUM frame sent at the stern (14 R447), the first byte lowest; reset none. -/
  sternEnum : Option Nat := none
  /-- MODEL: reference tick of the head's last ENUM of its own (14 R448); reset none. -/
  enumAt : Option Nat := none
  /-- MODEL: HALT symbols sent at the stern; reset 0. -/
  sternHalts : Nat := 0
  deriving DecidableEq, Repr

/-- Pins and the serial management ports (16 R485, 14 R451). -/
structure Pins where
  /-- RESET_N is asserted and taken (16 R487); reset asserted. -/
  reset : Bool := true
  /-- RESET_N has been released, and the release waits for power or REFCLK (16 R487); reset false. -/
  released : Bool := false
  /-- PWRGD_AON, PWRGD_MEM, PWRGD_LNK, PWRGD_CORE in bits 0-3 (16 R480); reset 0. -/
  pwrgd : BitVec 4 := 0
  /-- PWRGD_AON has been lost, or never seen, since the last start: the next reports GLB_BOOT_CAUSE 0 (16 R482); reset true. -/
  cold : Bool := true
  /-- CHAIN_HEAD as sampled at a release of RESET_N that is held (16 R486, R487); reset 0. -/
  strap : Bool := false
  /-- MODEL: whether the PUF will reconstruct, as a held release was told (14 R430, 16 R487); reset false. -/
  pufOk : Bool := false
  /-- PERST_N is asserted (16 R484); reset asserted (3). -/
  perst : Bool := true
  /-- PCI Express link trained (16 R484); reset false. -/
  link : Bool := false
  /-- THERMTRIP_N is asserted (12 R394, 16 R485); reset released. -/
  thermtrip : Bool := false
  /-- ALERT_N is asserted (15 R465, 16 R485); reset released. -/
  alert : Bool := false
  /-- REFCLK is lost (12 R376); reset false. -/
  refLost : Bool := false
  /-- Configuration space registers written by the host, by byte offset (13 R400); reset 0 (4). -/
  config : Tbl Word := []
  /-- MODEL: configuration requests answered with Retry Status (13 R401); reset 0. -/
  crs : Nat := 0
  /-- I3C dynamic address, 7 bits (14 R451); reset none. -/
  i3cAddr : Option (BitVec 7) := none
  /-- MODEL: in-band interrupts raised on the I3C port (14 R451); reset 0. -/
  ibi : Nat := 0
  /-- TAP instruction register (16 R489); reset BYPASS (4). -/
  tap : TapIr := .bypass
  /-- MODEL: what the TAP's IDCODE register shows while IDCODE is loaded, 32 bits (16 R489); reset 0. -/
  tapCode : Word := 0
  deriving DecidableEq, Repr

/-! ## The whole part -/

/-- The state of the part. -/
structure State where
  /-- MODEL: commands that wait, first in first out; reset empty. -/
  pending : List Instr := []
  /-- Physical seats 0-2303 (01 R15-R17); reset as Seat. -/
  seats : Tbl Seat := []
  /-- The starter (07). -/
  str : Str := {}
  /-- Contexts and the load engine (11). -/
  ctxs : Ctxs := {}
  /-- Rings and completions (13). -/
  cq : Cq := {}
  /-- Clocks and the time base (12). -/
  clk : Clk := {}
  /-- Power (12). -/
  pwr : Pwr := {}
  /-- Faults (15). -/
  flt : Flt := {}
  /-- GLB block and start-up (13, 14, 16). -/
  glb : Glb := {}
  /-- Identity and trust (14). -/
  sec : Sec := {}
  /-- Network (09). -/
  noc : Noc := {}
  /-- Pools of half 0 and half 1 (05). -/
  pools : Tbl Pool := []
  /-- Fabric complex (10). -/
  fab : Fab := {}
  /-- Enumeration chain (14). -/
  chain : Chain := {}
  /-- Pins (16). -/
  pins : Pins := {}
  /-- MODEL: bytes the device has written to host memory (13 R412, R425, R421); reset none. -/
  hostMem : Mem := []
  /-- MODEL: number of free values drawn, the argument of the opaque constants of Config; reset 0 (1). -/
  free : Nat := 0
  deriving DecidableEq, Repr

/-- The part with RESET_N asserted and no supply yet good: every field at the value its comment names. -/
def State.reset : State := {}

/-- Why the model stops on a command. -/
inductive Fault where
  /-- Raised by DROOP_STRETCHING alone, when a supply falls below the level at which the stretch reaches its maximum:
      16 R478 says that the behaviour of the device is not defined there. Safe: nothing is claimed of such a run. -/
  | supplyBelowDefined
  deriving DecidableEq, Repr

/-- Why the model has no meaning for a command. -/
inductive Refusal where
  /-- The command has no meaning yet. Raised by Dispatch alone. Safe: nothing is claimed of such a run. -/
  | notModelled (mnemonic : String)
  deriving DecidableEq, Repr

end Sys2Proof.Machine
end

