-- ==== Sys2Proof/Machine/Ops.lean ====
section
/-!
DEFINITION. The named operations that every meaning is built from: sparse tables and byte memories, bit fields, checksums,
saturating counters, access to one seat of the state, and clocks. Fault recording stands in Machine/Report.lean.
-/
namespace Sys2Proof.Machine

/-! ## Sparse tables -/

/-- What a table lists under a key. -/
def tfind {α : Type} : Tbl α → Nat → Option α
  | [], _ => none
  | (k, v) :: t, i => if k = i then some v else tfind t i

/-- What a table reads as at a key, `d` where it lists nothing. -/
def tget {α : Type} (d : α) (t : Tbl α) (i : Nat) : α := (tfind t i).getD d

/-- List a value under a key, keeping the keys rising. -/
def tput {α : Type} : Tbl α → Nat → α → Tbl α
  | [], i, x => [(i, x)]
  | (k, v) :: t, i, x => if i < k then (i, x) :: (k, v) :: t else if i = k then (i, x) :: t else (k, v) :: tput t i x

/-- List nothing under a key. -/
def tdel {α : Type} (t : Tbl α) (i : Nat) : Tbl α := t.filter fun p => p.1 != i

/-- Write a value in the canonical form: writing what an unlisted key reads as removes the entry. -/
def tset {α : Type} [DecidableEq α] (d : α) (t : Tbl α) (i : Nat) (x : α) : Tbl α :=
  if x = d then tdel t i else tput t i x

/-- Change the value under a key. -/
def tmod {α : Type} (d : α) (t : Tbl α) (i : Nat) (f : α → α) : Tbl α := tput t i (f (tget d t i))

/-! ## Byte memories: an unlisted address reads as zero -/

/-- Every key of the list lies above `lo`. -/
def keysAbove {α : Type} (lo : Nat) (t : Tbl α) : Bool := t.all fun p => decide (lo < p.1)

/-- Keys strictly rising and no entry equal to `d`. -/
def Tbl.canonical {α : Type} [DecidableEq α] (d : α) : Tbl α → Bool
  | [] => true
  | (k, v) :: t => decide (v ≠ d) && keysAbove k t && Tbl.canonical d t

/-- The canonical form of a byte memory. -/
def Memory.wf (m : Mem) : Bool := Tbl.canonical (0 : Byte) m

/-- Read one byte. -/
def mread (m : Mem) (a : Nat) : Byte := tget 0 m a

/-- Write one byte. -/
def mwrite (m : Mem) (a : Nat) (b : Byte) : Mem := tset 0 m a b

/-- Write bytes at rising addresses. -/
def mwrites (m : Mem) (a : Nat) : List Byte → Mem
  | [] => m
  | b :: bs => mwrites (mwrite m a b) (a + 1) bs

/-- Read `n` bytes as a little-endian number (00 R9). -/
def mrd (m : Mem) (a : Nat) : Nat → Nat
  | 0 => 0
  | n + 1 => (mread m a).toNat + 256 * mrd m (a + 1) n

/-- The bytes of a number, least significant first (00 R9). -/
def bytesOf (v : Nat) : Nat → List Byte
  | 0 => []
  | n + 1 => BitVec.ofNat 8 v :: bytesOf (v / 256) n

/-- Write a number as `n` bytes, little-endian (00 R9). -/
def mwr (m : Mem) (a n v : Nat) : Mem := mwrites m a (bytesOf v n)

/-- Read the bytes of a range. -/
def mbytes (m : Mem) (a : Nat) : Nat → List Byte
  | 0 => []
  | n + 1 => mread m a :: mbytes m (a + 1) n

/-- Write zero to `n` bytes. -/
def mclear (m : Mem) (a n : Nat) : Mem := m.filter fun p => decide (p.1 < a) || decide (a + n ≤ p.1)

/-- A memory of its own that holds the `n` bytes from `a`, at addresses from 0. -/
def mslice (m : Mem) (a n : Nat) : Mem :=
  (m.filter fun p => decide (a ≤ p.1) && decide (p.1 < a + n)).map fun p => (p.1 - a, p.2)

/-- Copy `n` bytes of another memory. -/
def mcopy (m : Mem) (a : Nat) (src : Mem) (b n : Nat) : Mem := mwrites m a (mbytes src b n)

/-- Read the 64 B granule with number `g` (05 R148). -/
def mgran (m : Mem) (g : Nat) : Granule := BitVec.ofNat 512 (mrd m (64 * g) 64)

/-- Write the 64 B granule with number `g` (05 R148). -/
def mwrGran (m : Mem) (g : Nat) (d : Granule) : Mem := mwr m (64 * g) 64 d.toNat

/-- A memory of 64-bit words or 32-bit words: read a word (05 R161). -/
def mword (m : Mem) (a : Nat) : Word := BitVec.ofNat 32 (mrd m a 4)

/-! ## Bit fields and counters -/

/-- Bits [lo + w - 1 : lo] of a number. -/
def fld (x lo w : Nat) : Nat := (x >>> lo) % 2 ^ w

/-- A field read as two's complement. -/
def sfld (x lo w : Nat) : Int := if fld x lo w < 2 ^ (w - 1) then fld x lo w else (fld x lo w : Int) - 2 ^ w

/-- One bit of a number. -/
def bit (x i : Nat) : Bool := fld x i 1 == 1

/-- A number from fields: each entry is (lowest bit, width, value). -/
def pack : List (Nat × Nat × Nat) → Nat
  | [] => 0
  | (lo, w, v) :: t => ((v % 2 ^ w) <<< lo) ||| pack t

/-- Replace bits [lo + w - 1 : lo]. -/
def putFld (x lo w v : Nat) : Nat := x - ((fld x lo w) <<< lo) + ((v % 2 ^ w) <<< lo)

/-- A count that saturates at 0xFFFF_FFFF (13 R404 and the register tables of every chapter). -/
def satInc (x : Word) : Word := if x = 0xFFFFFFFF then x else x + 1

/-- Add a number to a saturating count. -/
def satAdd (x : Word) (n : Nat) : Word := if x.toNat + n < 2 ^ 32 then BitVec.ofNat 32 (x.toNat + n) else 0xFFFFFFFF

/-- The next number of an ordered stream (01 R33): 0xFFFF_FFFF is followed by 1. -/
def nextSeq (x : Word) : Word := if x = 0xFFFFFFFF then 1 else x + 1

/-- Sequence number `a` lies after `b`; comparisons wrap as the sequence does (15 R459). -/
def seqAfter (a b : Word) : Bool := decide (0 < (a - b).toInt)

/-- Set bit `i` of a vector. -/
def setBit {w : Nat} (x : BitVec w) (i : Nat) : BitVec w := x ||| (BitVec.ofNat w (1 <<< i))

/-- Clear bit `i` of a vector. -/
def clrBit {w : Nat} (x : BitVec w) (i : Nat) : BitVec w := x &&& ~~~(BitVec.ofNat w (1 <<< i))

/-- A signed comparison modulo 2^32: counter value `c` satisfies target `t` (07 R239). -/
def satisfies (c t : Word) : Bool := decide ((t - c).toInt ≤ 0)

/-- A number as a 32-bit word. -/
abbrev w32 (n : Nat) : Word := BitVec.ofNat 32 n

/-- 1 for true. -/
def b2n (b : Bool) : Nat := if b then 1 else 0

/-- Index of the first element that satisfies `p`. -/
def findIdx {α : Type} (p : α → Bool) : List α → Option Nat
  | [] => none
  | x :: xs => if p x then some 0 else (findIdx p xs).map (· + 1)

/-- Remove the element with index `i`. -/
def dropAt {α : Type} : List α → Nat → List α
  | [], _ => []
  | _ :: xs, 0 => xs
  | x :: xs, i + 1 => x :: dropAt xs i

/-- Change the element with index `i`. -/
def modAt {α : Type} (f : α → α) : List α → Nat → List α
  | [], _ => []
  | x :: xs, 0 => f x :: xs
  | x :: xs, i + 1 => x :: modAt f xs i

/-- Apply `f` for 0, 1, … n - 1 in turn. -/
def iter {α : Type} (f : Nat → α → α) : Nat → α → α
  | 0, a => a
  | n + 1, a => f n (iter f n a)

/-! ## Checksums -/

/-- One bit of a reflected CRC. -/
def crcBit (poly c : Nat) : Nat := if c % 2 = 1 then (c / 2) ^^^ poly else c / 2

/-- One byte of a reflected CRC. -/
def crcByte (poly c : Nat) (b : Byte) : Nat :=
  let x := c ^^^ b.toNat
  crcBit poly (crcBit poly (crcBit poly (crcBit poly (crcBit poly (crcBit poly (crcBit poly (crcBit poly x)))))))

/-- CRC-32C: polynomial 0x1EDC_6F41 reflected, initial value and final XOR 0xFFFF_FFFF (05 R164). -/
def crc32c (bs : List Byte) : Word :=
  BitVec.ofNat 32 (bs.foldl (crcByte 0x82F63B78) 0xFFFFFFFF ^^^ 0xFFFFFFFF)

/-! ## One part of the state -/

/-- Physical seat `w` (01 R17). -/
def seatOf (s : State) (w : Nat) : Seat := tget {} s.seats w

/-- Replace physical seat `w`. -/
def putSeat (s : State) (w : Nat) (x : Seat) : State := { s with seats := tput s.seats w x }

/-- Change physical seat `w`. -/
def modSeat (s : State) (w : Nat) (f : Seat → Seat) : State := putSeat s w (f (seatOf s w))

/-- Change the cox of seat `w`. -/
def modCox (s : State) (w : Nat) (f : Cox → Cox) : State := modSeat s w fun x => { x with cox := f x.cox }

/-- Change the matrix array of seat `w`. -/
def modMxa (s : State) (w : Nat) (f : Mxa → Mxa) : State := modSeat s w fun x => { x with mxa := f x.mxa }

/-- Change the vector engine of seat `w`. -/
def modVec (s : State) (w : Nat) (f : Vec → Vec) : State := modSeat s w fun x => { x with vec := f x.vec }

/-- Change the weight-store controller of seat `w`. -/
def modWst (s : State) (w : Nat) (f : Wst → Wst) : State := modSeat s w fun x => { x with wst := f x.wst }

/-- The DMA engine (0) or the send engine (1) of a seat. -/
def Seat.eng (x : Seat) (e : EngIx) : Eng := if e = 0 then x.dma else x.net

/-- Replace an engine of a seat. -/
def Seat.putEng (x : Seat) (e : EngIx) (g : Eng) : Seat := if e = 0 then { x with dma := g } else { x with net := g }

/-- Change an engine of seat `w`. -/
def modEng (s : State) (w : Nat) (e : EngIx) (f : Eng → Eng) : State :=
  modSeat s w fun x => x.putEng e (f (x.eng e))

/-- Context `c` (11 R345). -/
def ctxOf (s : State) (c : Nat) : Ctx := tget {} s.ctxs.ctx c

/-- Change context `c`. -/
def modCtx (s : State) (c : Nat) (f : Ctx → Ctx) : State :=
  { s with ctxs := { s.ctxs with ctx := tput s.ctxs.ctx c (f (ctxOf s c)) } }

/-- Clock domain `d` (12 R375). -/
def domOf (s : State) (d : Nat) : Dom := tget {} s.clk.dom d

/-- Change clock domain `d`. -/
def modDom (s : State) (d : Nat) (f : Dom → Dom) : State :=
  { s with clk := { s.clk with dom := tput s.clk.dom d (f (domOf s d)) } }

/-- The clocks of seat `w` run: in a stop of its crew's clocks no core cycle passes (12 R376, R379). -/
def clocked (s : State) (w : Nat) : Bool := (domOf s (w / 24)).stop == .none

/-- CLK_LIMIT_STEP as a step index; 7 names no step and is taken as the slowest (log entry 25). -/
def limitStep (s : State) : Nat := min 6 s.clk.limit.toNat

/-- The index of crew `q` by the two hardware rows (12 R378). -/
def hardIndex (s : State) (q : Nat) : Nat := if s.pwr.limitActive || (domOf s q).clamped then limitStep s else 0

/-- A hardware row of 12 R378 is to slow crew `q`, and its stop has not begun (12 R396). -/
def hardPending (s : State) (q : Nat) : Bool := (domOf s q).stop == .none && decide ((domOf s q).step < hardIndex s q)

/-- Crew `q` has work: the time for which it has met the Paddle conditions begins anew (12 R389). -/
def touchCrew (s : State) (q : Nat) : State := modDom s q fun m => { m with idleAt := s.clk.ticks }

/-- The pool of half `h` (05 R179). -/
def poolOf (s : State) (h : Nat) : Pool := tget {} s.pools h

/-- Change the pool of half `h`. -/
def modPool (s : State) (h : Nat) (f : Pool → Pool) : State := { s with pools := tput s.pools h (f (poolOf s h)) }

/-- Run `r` (07 R220). -/
def runOf (s : State) (r : Nat) : Option Run := tfind s.str.runs r

/-- Change run `r`, if it is live. -/
def modRun (s : State) (r : Nat) (f : Run → Run) : State :=
  match runOf s r with
  | some x => { s with str := { s.str with runs := tput s.str.runs r (f x) } }
  | none => s

/-- Heat `h` of run `r`. -/
def heatOf (s : State) (r h : Nat) : Option Heat := (runOf s r).bind fun x => x.heats[h]?

/-- Change heat `h` of run `r`. -/
def modHeat (s : State) (r h : Nat) (f : Heat → Heat) : State := modRun s r fun x => { x with heats := modAt f x.heats h }

/-- The submitted graph of run `r`. -/
def graphOf (s : State) (r : Nat) : Option Graph := (runOf s r).bind fun x => tfind s.str.graphs x.graph

/-- The descriptor of heat `h` of run `r` (07 R221). -/
def hdOf (s : State) (r h : Nat) : HeatDesc := ((graphOf s r).bind fun g => g.heats[h]?).getD {}

/-- Class `k` (07 R233). -/
def classOf (s : State) (k : Nat) : ClassSt := tget {} s.str.classes k

/-- Change class `k`. -/
def modClass (s : State) (k : Nat) (f : ClassSt → ClassSt) : State :=
  { s with str := { s.str with classes := tput s.str.classes k (f (classOf s k)) } }

/-- The seat map of crew `q` (09 R282). -/
def mapOf (s : State) (q : Nat) : CrewMap := tget {} s.noc.map q

/-- Change the seat map of crew `q`. -/
def modMap (s : State) (q : Nat) (f : CrewMap → CrewMap) : State :=
  { s with noc := { s.noc with map := tput s.noc.map q (f (mapOf s q)) } }

/-- Crew of a physical seat, 0-95. -/
def crewOf (w : Nat) : Nat := w / 24

/-- Half of a physical seat. -/
def halfOf (w : Nat) : Nat := w / 1152

/-- Logical number of a physical seat, if it has one (00 R3, 09 R282). -/
def logicalOf (s : State) (w : Nat) : Option Nat := findIdx (· == w % 24) (mapOf s (crewOf w)).phys

/-- Physical seat of logical seat `l` of crew `q`. -/
def physOf (s : State) (q l : Nat) : Option Nat := (mapOf s q).phys[l]?.map (q * 24 + ·)

/-- Physical seat `w` is fenced (09 R282, 15 R470). -/
def seatFenced (s : State) (w : Nat) : Bool := (mapOf s (crewOf w)).fenced.getLsbD (w % 24)

/-- Time base of domain `d` as its copy reads; management, domain 99, holds the master itself (12 R383, R384). -/
def domTime (s : State) (d : Nat) : BitVec 64 :=
  if d = 99 then s.clk.master
  else match (domOf s d).frozen with
  | some t => t
  | none => (domOf s d).offset + BitVec.ofNat 64 s.clk.ticks

/-- A unit reference (01 R18). -/
def unitRef (level node half crew seat phys : Nat) : Word :=
  w32 (pack [(29, 3, level), (17, 12, node), (16, 1, half), (10, 6, crew), (5, 5, seat), (4, 1, phys)])

/-- The logical unit reference of a physical seat, by its logical number in the seat map (15 R453). -/
def seatUnit (s : State) (w l : Nat) : Word := unitRef 0 s.chain.node (halfOf w) (crewOf w % 48) l 0

/-- A free value: the counter of free values advances (log entry 1). -/
def drawn (s : State) : State := { s with free := s.free + 1 }

end Sys2Proof.Machine
end

