-- ==== Sys2Proof/Machine/Report.lean ====
section
/-!
DEFINITION. Fault records (15): the codes, the record of a seat, of a heat and of the chip, the seat's first fault and its
later ones, and the guard counters' events.
-/
namespace Sys2Proof.Machine

/-! ## Codes (15 R460) -/

abbrev coxDescriptor : Nat := 0x0001
abbrev coxPageEnd : Nat := 0x0002
abbrev coxBeatOrder : Nat := 0x0003
abbrev coxLoopOverrun : Nat := 0x0004
abbrev coxLoopCount : Nat := 0x0005
abbrev coxLoopDepth : Nat := 0x0006
abbrev coxLoopNest : Nat := 0x0007
abbrev coxFetchGap : Nat := 0x0008
abbrev umpEarlyIssue : Nat := 0x0010
abbrev umpAddress : Nat := 0x0011
abbrev umpUnwrittenRead : Nat := 0x0012
abbrev umpBankConflict : Nat := 0x0013
abbrev mxDescriptor : Nat := 0x0020
abbrev mxShadowBusy : Nat := 0x0021
abbrev mxSlotBusy : Nat := 0x0022
abbrev mxSlotEmpty : Nat := 0x0023
abbrev mxBladeNotReady : Nat := 0x0024
abbrev mxTableFormat : Nat := 0x0025
abbrev mxOperandFormat : Nat := 0x0026
abbrev veDescriptor : Nat := 0x0030
abbrev veCurveEmpty : Nat := 0x0031
abbrev veCurveImage : Nat := 0x0032
abbrev syncDescriptor : Nat := 0x0038
abbrev dmaDescriptor : Nat := 0x0039
abbrev netDescriptor : Nat := 0x003A
abbrev wstRestConflict : Nat := 0x0040
abbrev overLanding : Nat := 0x0048
abbrev finishFull : Nat := 0x0049
abbrev tagMismatch : Nat := 0x0050
abbrev crcMismatch : Nat := 0x0051
abbrev tornTile : Nat := 0x0052
abbrev nocEcc : Nat := 0x0070
abbrev seatSelfTestCode : Nat := 0x0082
abbrev guardCode : Nat := 0x0200
abbrev weakTile : Nat := 0x0201
abbrev segmentFailed : Nat := 0x0202
abbrev feedFailed : Nat := 0x0203
abbrev sustainedDroopCode : Nat := 0x0204
abbrev thermClamp : Nat := 0x0205
abbrev linkDown : Nat := 0x0206
abbrev linkFailover : Nat := 0x0207
abbrev fenceApplied : Nat := 0x0208
abbrev chainConflict : Nat := 0x0209
abbrev fenceLogBad : Nat := 0x020A
abbrev stateRecordLost : Nat := 0x020B
abbrev bootFallback : Nat := 0x020C
abbrev loadRefused : Nat := 0x020D
abbrev debugUnlock : Nat := 0x020E
abbrev clkUnlockCode : Nat := 0x0300
abbrev clkReflostCode : Nat := 0x0301
abbrev thermtripCode : Nat := 0x0302
abbrev mgmtWatchdogCode : Nat := 0x0303
abbrev snivanHandlerCode : Nat := 0x0304
abbrev weCommand : Nat := 0x0305
abbrev weHaltN : Nat := 0x0306
abbrev weChain : Nat := 0x0307

/-! ## DETAIL (15 R454) -/

/-- DETAIL: bytes 0x30 and 0x31, half-word 0x32, word 0x34 and double word 0x38. -/
def detail (b0 b1 h w d : Nat) : BitVec 128 := BitVec.ofNat 128 (pack [(0, 8, b0), (8, 8, b1), (16, 16, h), (32, 32, w), (64, 64, d)])

/-- "None" in the word of a seat fault's DETAIL (15 R454). -/
abbrev noWord : Nat := 0xFFFFFFFF

/-- A record of no seat, no heat and no descriptor (15 R453). -/
def bareRec (kind code : Nat) (time : BitVec 64) (det : BitVec 128) : Record :=
  { time := time.setWidth 32, code := BitVec.ofNat 16 code, kind := BitVec.ofNat 8 kind, phys := 0xFF, ctx := 0xFF,
    heat := 0xFFFF, desc := 0xFFFF, detail := det }

/-- Put a record on the fault path (15 R458); FAULT_RECORD_LOGGED accepts it. -/
def report (s : State) (r : Record) : State := { s with flt := { s.flt with path := s.flt.path ++ [r] } }

/-- A record of Snivan (KIND 4) or of a hardware monitor (KIND 5), stamped with the management domain's time (15 R496). -/
def chipRec (s : State) (kind code : Nat) (det : BitVec 128) : Record := bareRec kind code (domTime s 99) det

/-- The heat fields of a record: context, heat index, epoch and run (15 R453). -/
def Record.ofHeat (r : Record) (c h : Nat) (epoch : BitVec 16) (run : Nat) : Record :=
  { r with ctx := BitVec.ofNat 8 c, heat := BitVec.ofNat 16 h, epoch := epoch, run := BitVec.ofNat 16 run }

/-- The unit and physical index of a seat in a record (15 R453). -/
def Record.ofSeat (r : Record) (unit : Word) (w : Nat) : Record :=
  { r with unit := unit, phys := BitVec.ofNat 8 (w % 24), flags := r.flags ||| 2 }

/-- Iteration numbers of the active loops, outermost at bits 15:0 (15 R453). -/
def loopIters (c : Cox) : BitVec 64 := BitVec.ofNat 64 (pack ((c.loops.zipIdx).map fun p => (16 * p.2, 16, p.1.iter)))

/-- A record of seat `w` about the heat that it runs (06 R207, 15 R453). -/
def seatRec (s : State) (w kind code : Nat) (idx beat cycle : Nat) (loops : BitVec 64) (det : BitVec 128) : Record :=
  let c := (seatOf s w).cox
  let r := ((bareRec kind code (domTime s (crewOf w)) det).ofSeat (seatUnit s w c.logical) w).ofHeat c.ctx c.heat c.epoch c.run
  { r with desc := BitVec.ofNat 16 idx, beat := BitVec.ofNat 48 beat, cycle := BitVec.ofNat 48 cycle, loops := loops }

/-- COUNT saturates at 0xFFFF (15 R453). -/
def count16 (x : BitVec 16) : BitVec 16 := if x = 0xFFFF then x else x + 1

/-- The beat counter in heat core cycle `t`, from the last descriptor presented: it stands still while it is held (06 R190, R191). -/
def beatAt (c : Cox) (t : Nat) : Nat := if c.state = .walking ∧ c.held = none then c.beat + t - c.cycle else c.beat

/-- The cox halts in heat core cycle `t`: the beat counter stops there (06 R193). A seat that has begun no heat has no core cycle. -/
def haltCox (c : Cox) (t : Nat) : Cox :=
  { c with state := .halted, held := none, cur := none, hold := .none, started := false, haltAt := t,
           beat := beatAt c t, cycle := if c.state = .noHeat then c.cycle else t }

/-- A fault of a seat (15 R455, R456). The first fault of the heat writes FIRST, puts a copy on the fault path and halts the
seat (06 R193); a later one overwrites LAST, counts in both and sets MORE in both. A seat that neither runs a heat nor has one
dispatched records nothing. -/
def seatRaise (s : State) (w : Nat) (r : Record) : State :=
  let x := seatOf s w
  if x.cox.state = .halted then
    let n := count16 x.first.count
    putSeat s w { x with first := { x.first with count := n, flags := x.first.flags ||| 1 },
                         last := { r with count := n, flags := r.flags ||| 1 } }
  else if x.cox.state = .noHeat ∧ x.cox.dispatched = none then s
  else
    let x' := { x with first := r, cox := haltCox x.cox r.cycle.toNat }
    let s1 := putSeat s w x'
    report { s1 with flt := { s1.flt with seatFaults := satInc s1.flt.seatFaults } } r

/-- The seat runs its plan: its units and engines may go on (06 R193). -/
def seatRuns (x : Seat) : Bool := x.cox.state == .walking || x.cox.state == .pastEnd

/-- A unit of the seat works in core cycle `t`: a halted seat's units stop in the core cycle of the halt (03 R83, 04 R115). -/
def runsAt (x : Seat) (t : Nat) : Bool := seatRuns x || (x.cox.state == .halted && decide (t ≤ x.cox.haltAt))

/-- The order of faults (15 R456): by core cycle, and in one core cycle by CODE. -/
def faultBefore (a b : Record) : Bool := decide (a.cycle < b.cycle) || (a.cycle == b.cycle && decide (a.code < b.code))

/-- A fault of a seat in a known core cycle (15 R455, R456): after the halt only faults of the halt's core cycle remain, FIRST takes
the one that comes first, LAST holds the one that comes last, and a copy of FIRST that still waits on the fault path follows it
(log entry 30). -/
def seatRaiseAt (s : State) (w : Nat) (r : Record) : State :=
  let x := seatOf s w
  if x.cox.state = .halted then
    if x.cox.haltAt < r.cycle.toNat then s
    else
      let n := count16 x.first.count
      let up (r : Record) : Record := { r with count := n, flags := r.flags ||| 1 }
      let f := if faultBefore r x.first then r else x.first
      let o := if faultBefore r x.first then x.first else r
      let l := if x.first.count ≠ 0 ∧ faultBefore o x.last = true then x.last else o
      let s1 := putSeat s w { x with first := up f, last := up l }
      { s1 with flt := { s1.flt with path := s1.flt.path.map fun q => if q = x.first then up f else q } }
  else seatRaise s w r

/-- A fault of the job `j` of seat `w`, raised by engine `eng` in heat core cycle `cycle` (15 R454). -/
def jobFault (s : State) (w : Nat) (j : Job) (code eng cycle : Nat) (b1 wd dd : Nat) : State :=
  seatRaiseAt s w (seatRec s w 0 code j.idx j.beat cycle j.loops (detail eng b1 0 wd dd))

/-! ## Guard counters (02 R66-R68) -/

/-- One guard counter rises by `n`; when it first passes its threshold the seat raises a guard event, which carries the value
`at_` (02 R67, R68). A guard event stops nothing. -/
def guardRaise (s : State) (w k n : Nat) (oneByOne : Bool) (j : Job) (cycle : Nat) : State :=
  let c := (seatOf s w).cox
  let old := tget 0 c.guard k
  let new := satAdd old n
  let thr := (c.thresholds[k]?).getD 0xFFFFFFFF
  let s1 := modCox s w fun c => { c with guard := tset 0 c.guard k new }
  if thr < new ∧ ¬ c.tripped.getLsbD k then
    let at_ := if oneByOne then thr.toNat + 1 else new.toNat
    let s2 := modCox s1 w fun c => { c with tripped := setBit c.tripped k }
    report s2 (seatRec s w 6 guardCode j.idx j.beat cycle j.loops (detail k 0 0 thr.toNat at_))
  else s1

end Sys2Proof.Machine
end

