-- ==== Sys2Proof/Machine/Flags.lean ====
section
/-!
DEFINITION. The numbers of the part (02): FP32, BF16 and I32 arithmetic, the narrow formats and their block scales, the term
of a block sum, quantisation with its clip and flush counts, and the stochastic generator.
-/
namespace Sys2Proof.Machine

/-! ## FP32 and BF16 (02 R49-R51) -/

/-- The canonical quiet NaN (02 R49). -/
abbrev fpNan : Word := 0x7FC00000
/-- Significand bits of FP32. -/
abbrev pFp : Nat := 24
/-- Significand bits of BF16 (02 R50). -/
abbrev pBf : Nat := 8

/-- Sign. -/
def fpNeg (x : Word) : Bool := bit x.toNat 31
/-- NaN of any payload. -/
def fpIsNan (x : Word) : Bool := fld x.toNat 23 8 == 255 && fld x.toNat 0 23 != 0
/-- Infinity of either sign. -/
def fpIsInf (x : Word) : Bool := fld x.toNat 23 8 == 255 && fld x.toNat 0 23 == 0
/-- Neither NaN nor infinity. -/
def fpFinite (x : Word) : Bool := fld x.toNat 23 8 != 255
/-- Zero of either sign. -/
def fpIsZero (x : Word) : Bool := fld x.toNat 0 31 == 0
/-- The integer significand of a finite value; the value is mant × 2^exp (02 R49: subnormals are kept). -/
def fpMant (x : Word) : Nat := if fld x.toNat 23 8 = 0 then fld x.toNat 0 23 else fld x.toNat 0 23 + 2 ^ 23
/-- The exponent that goes with `fpMant`. -/
def fpExp (x : Word) : Int := if fld x.toNat 23 8 = 0 then -149 else (fld x.toNat 23 8 : Int) - 150
/-- Infinity with a sign. -/
def fpInf (neg : Bool) : Word := if neg then 0xFF800000 else 0x7F800000
/-- Zero with a sign. -/
def fpZero (neg : Bool) : Word := if neg then 0x80000000 else 0

/-- m ÷ 2^d rounded to nearest, ties to even (02 R49). -/
def rneShift (m d : Nat) : Nat :=
  if d = 0 then m
  else
    let f := m >>> d
    let r := m % 2 ^ d
    if 2 ^ (d - 1) < r ∨ (r = 2 ^ (d - 1) ∧ f % 2 = 1) then f + 1 else f

/-- m × 2^e to the quantum 2^q, rounded to nearest, ties to even. -/
def rneTo (m : Nat) (e q : Int) : Nat := if q ≤ e then m <<< (e - q).toNat else rneShift m (q - e).toNat

/-- The value ± m × 2^e rounded once to `p` significand bits in the exponent range of FP32, as an FP32 word: RNE, subnormals
kept, overflow to infinity (02 R49, R50). -/
def roundFp (p : Nat) (neg : Bool) (m : Nat) (e : Int) : Word :=
  if m = 0 then fpZero neg
  else
    let low : Int := -126 - (p - 1)
    let q := max ((Nat.log2 m : Int) + e - (p - 1)) low
    let s0 := rneTo m e q
    let s := if s0 = 2 ^ p then 2 ^ (p - 1) else s0
    let q' := if s0 = 2 ^ p then q + 1 else q
    let b : Int := if s < 2 ^ (p - 1) then 0 else q' + (p - 1) + 127
    if 255 ≤ b then fpInf neg
    else w32 (pack [(31, 1, b2n neg), (23, 8, b.toNat), (24 - p, p - 1, s % 2 ^ (p - 1))])

/-- The signed integer of a finite word at the quantum 2^q, for q at or below its exponent. -/
def fpAt (x : Word) (q : Int) : Int :=
  let m : Int := ((fpMant x) <<< (fpExp x - q).toNat : Nat)
  if fpNeg x then -m else m

/-- Round an exact signed value n × 2^q; an exact zero takes the sign `zneg`. -/
def roundInt (p : Nat) (n : Int) (q : Int) (zneg : Bool) : Word :=
  if n = 0 then fpZero zneg else roundFp p (decide (n < 0)) n.natAbs q

/-- A word rounded to `p` bits (02 R50; 04 R117 MOV). -/
def fpConv (p : Nat) (x : Word) : Word :=
  if fpIsNan x then fpNan else if fpIsInf x then fpInf (fpNeg x) else roundFp p (fpNeg x) (fpMant x) (fpExp x)

/-- Addition, rounded once (02 R49). -/
def fpAdd (p : Nat) (a b : Word) : Word :=
  if fpIsNan a || fpIsNan b then fpNan
  else if fpIsInf a then (if fpIsInf b && fpNeg a != fpNeg b then fpNan else fpInf (fpNeg a))
  else if fpIsInf b then fpInf (fpNeg b)
  else
    let q := min (fpExp a) (fpExp b)
    roundInt p (fpAt a q + fpAt b q) q (fpNeg a && fpNeg b)

/-- The word with its sign inverted. -/
def fpFlip (x : Word) : Word := x ^^^ 0x80000000

/-- Subtraction, rounded once. -/
def fpSub (p : Nat) (a b : Word) : Word := fpAdd p a (fpFlip b)

/-- Multiplication, rounded once. -/
def fpMul (p : Nat) (a b : Word) : Word :=
  let neg := fpNeg a != fpNeg b
  if fpIsNan a || fpIsNan b then fpNan
  else if fpIsInf a || fpIsInf b then (if fpIsZero a || fpIsZero b then fpNan else fpInf neg)
  else roundFp p neg (fpMant a * fpMant b) (fpExp a + fpExp b)

/-- a × b + c, rounded once at its end (02 R49). -/
def fpFma (p : Nat) (a b c : Word) : Word :=
  let neg := fpNeg a != fpNeg b
  if fpIsNan a || fpIsNan b || fpIsNan c then fpNan
  else if fpIsInf a || fpIsInf b then
    (if fpIsZero a || fpIsZero b then fpNan
     else if fpIsInf c && fpNeg c != neg then fpNan else fpInf neg)
  else if fpIsInf c then fpInf (fpNeg c)
  else
    let e := fpExp a + fpExp b
    let q := min e (fpExp c)
    let m : Int := ((fpMant a * fpMant b) <<< (e - q).toNat : Nat)
    roundInt p ((if neg then -m else m) + fpAt c q) q (neg && fpNeg c)

/-- a < b for words that are not NaN (-0 equals +0). -/
def fpLt (a b : Word) : Bool :=
  if fpIsZero a && fpIsZero b then false
  else if fpNeg a then (if fpNeg b then decide (fld b.toNat 0 31 < fld a.toNat 0 31) else true)
  else (if fpNeg b then false else decide (fld a.toNat 0 31 < fld b.toNat 0 31))

/-- a = b for words that are not NaN. -/
def fpEq (a b : Word) : Bool := (fpIsZero a && fpIsZero b) || a == b

/-- An I32 value as FP32 or BF16, rounded once. -/
def fpOfInt (p : Nat) (n : Int) : Word := roundInt p n 0 false

/-! ## Narrow formats (02 R36-R44) -/

abbrev fmtI4 : Nat := 0
abbrev fmtF4 : Nat := 1
abbrev fmtI2 : Nat := 2
abbrev fmtT2 : Nat := 3
abbrev fmtI8H : Nat := 4
abbrev fmtI8L : Nat := 5
abbrev fmtQ4 : Nat := 6
abbrev fmtFp32 : Nat := 8
abbrev fmtI32 : Nat := 9

/-- A two's complement code of `w` bits. -/
def signedCode (w c : Nat) : Int := sfld c 0 w

/-- The integer view of an F4 code (02 R37): twice the value. -/
def f4View (c : Nat) : Int :=
  let m := (([0, 1, 2, 3, 4, 6, 8, 12] : List Nat)[c % 8]?).getD 0
  if 8 ≤ c % 16 then -(m : Int) else m

/-- The value of a 2-bit code (02 R39). -/
def twoView (t2 : Bool) (c : Nat) : Int := if c % 4 = 2 then (if t2 then 0 else -2) else signedCode 2 c

/-- The integer view of a nibble in a pass (03 R85). -/
def nibView (fmt : Nat) (high : Bool) (c : Nat) : Int :=
  if fmt = fmtF4 then f4View c
  else if fmt = fmtI8L then (c % 16 : Nat)
  else if fmt = fmtQ4 then (if high then signedCode 4 c else (c % 16 : Nat))
  else signedCode 4 c

/-- The format offset o (02 R36, 03 R85). -/
def fmtOff (fmt : Nat) : Int := if fmt = fmtF4 then -1 else if fmt = fmtI8H ∨ fmt = fmtI8L ∨ fmt = fmtQ4 then -6 else 0

/-- The term of a block sum (02 R53, R55). -/
def blockTerm (neg : Bool) (s : Int) (ea ew : Nat) (o : Int) : Word :=
  if ea = 255 ∨ ew = 255 then fpNan
  else if s = 0 then 0
  else roundFp pFp (decide (s < 0) != neg) s.natAbs ((ea : Int) - 127 + ((ew : Int) - 127) + o)

/-- Add a term into an FP32 accumulator (02 R54). -/
def accAdd (acc t : Word) : Word := fpAdd pFp acc t

/-- Add a block sum into an I32 accumulator, with the wrap count (02 R56). -/
def accAddInt (acc : Word) (neg : Bool) (s : Int) (shift : Nat) : Word × Nat :=
  let v := (if neg then -s else s) * 2 ^ shift
  let exact := acc.toInt + v
  (BitVec.ofInt 32 exact, if exact < -(2 ^ 31) ∨ 2 ^ 31 ≤ exact then 1 else 0)

/-- The value of an element of a block (02 R36, R64), rounded once. -/
def elemValue (p : Nat) (m : Int) (o : Int) (e : Nat) : Word :=
  if e = 255 then fpNan else roundInt p m (o + ((e : Int) - 127)) false

/-! ## Stochastic generator (02 R63) -/

/-- The 64-bit output of the generator. -/
def rng64 (seed : BitVec 64) (tile elem : Nat) : BitVec 64 :=
  let z := seed + BitVec.ofNat 64 (tile * 4096 + elem) * 0x9E3779B97F4A7C15
  let z := (z ^^^ (z >>> 30)) * 0xBF58476D1CE4E5B9
  let z := (z ^^^ (z >>> 27)) * 0x94D049BB133111EB
  z ^^^ (z >>> 31)

/-- rnd24. -/
def rnd24 (seed : BitVec 64) (tile elem : Nat) : Nat := (rng64 seed tile elem).toNat >>> 40

/-! ## Quantisation (02 R58-R62): formats 0 I4, 1 F4, 2 I8 -/

/-- The scale byte of a block of finite inputs (02 R58). -/
def quantScale (q : Nat) (xs : List Word) : Nat :=
  let amax := xs.foldl (fun a x => max a (fld x.toNat 0 31)) 0
  if amax = 0 then 127
  else
    let x := w32 amax
    let p : Int := (Nat.log2 (fpMant x) : Int) + fpExp x
    (min 254 (max 0 (p - (if q = 2 then 0 else 2) + 127))).toNat

/-- Grid point nearest m × 2^k at quantum 2^u, or the stochastic choice of R62: in units of 2^u, as a magnitude. -/
def quantGrid (stoch : Bool) (rnd : Nat) (neg : Bool) (m : Nat) (k u : Int) : Nat :=
  if u ≤ k then m <<< (k - u).toNat
  else
    let d := (u - k).toNat
    let lo := m >>> d
    let r := m % 2 ^ d
    if ¬ stoch then rneShift m d
    else if r = 0 then lo
    else if neg then (if rnd < ((2 ^ d - r) <<< 24) >>> d then lo else lo + 1)
    else (if rnd < (r <<< 24) >>> d then lo + 1 else lo)

/-- The code of an F4 magnitude in half units. -/
def f4Code (h : Nat) : Nat := (findIdx (· == h) [0, 1, 2, 3, 4, 6, 8, 12]).getD 7

/-- One element (02 R59, R60, R62): its code, 1 if clipped, 1 if flushed. -/
def quantElem (q e : Nat) (stoch : Bool) (rnd : Nat) (x : Word) : Nat × Nat × Nat :=
  let m := fpMant x
  let k : Int := fpExp x + 127 - e
  let neg := fpNeg x
  if m = 0 then (0, 0, 0)
  else if q = 1 then
    let u : Int := max ((Nat.log2 m : Int) + k - 1) (-1)
    let h := (quantGrid stoch rnd neg m k u) <<< (u + 1).toNat
    let s := if neg then 8 else 0
    if 12 < h then (7 + s, 1, 0) else if h = 0 then (0, 0, 1) else (f4Code h + s, 0, 0)
  else
    let n := quantGrid stoch rnd neg m k (if q = 2 then -6 else 0)
    let top := if q = 2 then 127 else if neg then 8 else 7
    let w := if q = 2 then 256 else 16
    let v := min n top
    (if neg then (w - v) % w else v, if top < n then 1 else 0, if n = 0 then 1 else 0)

/-- One block (02 R58-R62): scale, codes, clips, flushes, and whether it is a NaN block. -/
def quantBlock (q : Nat) (stoch : Bool) (rnd : Nat → Nat) (xs : List Word) : Nat × List Nat × Nat × Nat × Bool :=
  if xs.all fpFinite then
    let e := quantScale q xs
    let r := (xs.zipIdx).map fun p => quantElem q e stoch (rnd p.2) p.1
    (e, r.map (·.1), (r.map (·.2.1)).sum, (r.map (·.2.2)).sum, false)
  else (255, xs.map fun _ => 0, 0, 0, true)

end Sys2Proof.Machine
end

