-- ==== Sys2Proof/Machine/Operands.lean ====
section
/-!
DEFINITION. The operand forms of a descriptor: its common fields (06 R185), the fields and checks of each class (03 R95-R102,
04 R118-R139, 06 R199-R201, 07 R241-R247, 09 R286-R291), the pass-code tables (03 R87-R89), and how addresses, tile indices and
predicates are formed. A descriptor is read as a number `d`.
-/
namespace Sys2Proof.Machine

/-! ## Common fields (06 R185) -/

abbrev dBeat (d : Nat) : Nat := fld d 232 24
abbrev dClass (d : Nat) : Nat := fld d 228 4
abbrev dOp (d : Nat) : Nat := fld d 220 8
abbrev dPred (d : Nat) : Nat := fld d 216 4
abbrev dProd0 (d : Nat) : Nat := fld d 206 10
abbrev dProd1 (d : Nat) : Nat := fld d 196 10
abbrev dProd2 (d : Nat) : Nat := fld d 186 10
abbrev dWrest (d : Nat) : Word := w32 (fld d 0 32)

/-- Classes (06 R186). -/
abbrev clsMx : Nat := 1
abbrev clsVe : Nat := 2
abbrev clsDma : Nat := 3
abbrev clsNet : Nat := 4
abbrev clsSync : Nat := 5
abbrev clsLoop : Nat := 6
abbrev clsCtrl : Nat := 7

/-- Opcodes of SYNC, LOOP and CTRL that are not reserved (06 R186, R200, R201). -/
def coxOpOk (cls op : Nat) : Bool :=
  if cls = clsSync then op == 1 || op == 2 || op == 3
  else if cls = clsLoop then op == 1
  else if cls = clsCtrl then decide (op ≤ 6) || op == 8 || op == 0x10 || op == 0x3F
  else true

/-- Check 1 of 06 R188 fails. -/
def commonBad (d idx : Nat) : Bool :=
  let c := dClass d
  decide (c = 0 ∨ 7 < c) || !coxOpOk c (dOp d)
    || decide (idx < dProd0 d) || decide (idx < dProd1 d) || decide (idx < dProd2 d)
    || (decide (c = clsCtrl ∧ dOp d = 0x3F) && dPred d != 0)

/-! ## Counters, addresses, predicates -/

/-- Counter `k` of the cox (06 R194). -/
def ctrVal (c : Cox) (k : Nat) : Nat := (tget 0 c.ctr k).toNat

/-- The counter value that an address uses: counter[csel] if cen, else 0 (03 R97). -/
def addrCtr (c : Cox) (cen : Bool) (csel : Nat) : Nat := if cen then ctrVal c csel else 0

/-- base + c × stride, an exact integer (03 R97). -/
def formed (base : Nat) (c : Nat) (stride : Int) : Int := base + c * stride

/-- A tile index, modulo 2^24 (03 R97). -/
def tileIdx (base : Nat) (c : Nat) (step : Int) : Nat := (formed base c step % 2 ^ 24).toNat

/-- Output of comparator `k` (06 R196). -/
def cmpOut (c : Cox) (k : Nat) : Bool :=
  let m := tget {} c.cmp k
  let a := tget 0 c.ctr m.sa
  let x : Word := if m.useb then tget 0 c.ctr m.x.toNat else m.x
  match m.rel with
  | 1 => a == x
  | 2 => a != x
  | 3 => decide (a.toNat < x.toNat)
  | 4 => decide (x.toNat ≤ a.toNat)
  | 5 => decide (a.toInt < x.toInt)
  | 6 => decide (x.toInt ≤ a.toInt)
  | 7 => a &&& x != 0
  | _ => false

/-- The predicate of a descriptor (06 R197). -/
def predVal (c : Cox) (p : Nat) : Bool := if p = 0 then true else if p ≤ 8 then cmpOut c (p - 1) else !cmpOut c (p - 9)

/-! ## MX (03) -/

abbrev opBload : Nat := 1
abbrev opAload : Nat := 2
abbrev opDiag : Nat := 3
abbrev opProduct : Nat := 0x10
abbrev opDrain : Nat := 0x18

/-- One entry of a pass-code table (03 R87). -/
structure Pass where
  /-- Swap the blades before this pass. -/
  swap : Bool := false
  /-- Weight nibble N0 or N1. -/
  nib : Nat := 0
  /-- Slot offset, added to A. -/
  slot : Nat := 0
  /-- Shift 0, 4 or 8. -/
  shift : Nat := 0
  /-- The sign is minus. -/
  neg : Bool := false
  /-- Bank offset, added to B. -/
  bank : Nat := 0
  deriving DecidableEq, Repr

/-- The real tables 0x00-0x03 (03 R88). -/
def realTable : Nat → List Pass
  | 0 => [{}]
  | 1 => [{ shift := 4 }, { slot := 1 }]
  | 2 => [{ nib := 1, shift := 4 }, {}]
  | 3 => [{ nib := 1, shift := 8 }, { nib := 1, slot := 1, shift := 4 }, { shift := 4 }, { slot := 1 }]
  | _ => []

/-- One group of a complex table (03 R89): activation part a (0) or b (1), weight part c (0) or d (1). -/
def complexGroup (r : Nat) (actB wtD neg : Bool) (bank : Nat) (swap : Bool) : List Pass :=
  ((realTable r).zipIdx).map fun p =>
    { p.1 with
      slot := p.1.slot + (if actB then (if r = 1 ∨ r = 3 then 2 else 1) else 0)
      nib := if r < 2 then b2n wtD else p.1.nib
      neg := neg, bank := bank, swap := swap && p.2 == 0 }

/-- The pass-code tables (03 R88, R89); a reserved code has no passes (R90). -/
def passTable (t : Nat) : List Pass :=
  if t < 4 then realTable t
  else if 8 ≤ t ∧ t < 16 then
    let r := (t - 8) / 2
    let conj := t % 2 == 1
    let w8 := decide (2 ≤ r)
    complexGroup r false false false 0 false ++ complexGroup r true false false 1 false
      ++ complexGroup r true true (!conj) 0 w8 ++ complexGroup r false true conj 1 false
  else []

/-- Largest slot and bank offset of a table. -/
def tableSlots (t : Nat) : Nat := (passTable t).foldl (fun m p => max m p.slot) 0
/-- Largest bank offset of a table. -/
def tableBanks (t : Nat) : Nat := (passTable t).foldl (fun m p => max m p.bank) 0

abbrev blWbase (d : Nat) : Nat := fld d 169 17
abbrev blStride (d : Nat) : Int := sfld d 152 17
abbrev blCsel (d : Nat) : Nat := fld d 148 4
abbrev blCen (d : Nat) : Bool := bit d 147
abbrev blFmt (d : Nat) : Nat := fld d 143 4
abbrev blNib (d : Nat) : Nat := fld d 141 2
abbrev blTidx (d : Nat) : Nat := fld d 117 24
abbrev blTstep (d : Nat) : Int := sfld d 105 12
abbrev alCbase (d : Nat) : Nat := fld d 173 13
abbrev alStride (d : Nat) : Int := sfld d 160 13
abbrev alCsel (d : Nat) : Nat := fld d 156 4
abbrev alCen (d : Nat) : Bool := bit d 155
abbrev alFmt (d : Nat) : Nat := fld d 151 4
abbrev alSlot (d : Nat) : Nat := fld d 149 2
abbrev alTidx (d : Nat) : Nat := fld d 125 24
abbrev alTstep (d : Nat) : Int := sfld d 113 12
abbrev dgSlot (d : Nat) : Nat := fld d 184 2
abbrev dgRow (d : Nat) : Nat := fld d 178 6
abbrev prTable (d : Nat) : Nat := fld d 181 5
abbrev prA (d : Nat) : Nat := fld d 179 2
abbrev prRow0 (d : Nat) : Nat := fld d 173 6
abbrev prRows (d : Nat) : Nat := fld d 166 7
abbrev prB (d : Nat) : Nat := fld d 164 2
abbrev prClr (d : Nat) : Bool := bit d 163
abbrev prI32 (d : Nat) : Bool := bit d 162
abbrev prSwap0 (d : Nat) : Bool := bit d 161
abbrev drBank (d : Nat) : Nat := fld d 184 2
abbrev drCore (d : Nat) : Bool := bit d 183
abbrev drAddr (d : Nat) : Nat := fld d 170 13
abbrev drStride (d : Nat) : Int := sfld d 157 13
abbrev drCsel (d : Nat) : Nat := fld d 153 4
abbrev drCen (d : Nat) : Bool := bit d 152
abbrev drRow0 (d : Nat) : Nat := fld d 146 6
abbrev drRows (d : Nat) : Nat := fld d 139 7
abbrev drTidx (d : Nat) : Nat := fld d 115 24
abbrev drTstep (d : Nat) : Int := sfld d 103 12
abbrev drI32 (d : Nat) : Bool := bit d 102

/-- FMT and NIB of a BLOAD agree (03 R98). -/
def fmtNibOk (f n : Nat) : Bool :=
  if f = fmtI8H then n == 1
  else if f = fmtI8L ∨ f = fmtI2 ∨ f = fmtT2 then n == 0
  else if f = fmtQ4 then n == 2
  else n == 0 || n == 1

/-- The MX checks of 03 R96 fail. -/
def mxBad (d : Nat) : Bool :=
  let op := dOp d
  if op = opBload then fld d 32 73 != 0 || decide (6 < blFmt d) || blNib d == 3 || !fmtNibOk (blFmt d) (blNib d)
  else if op = opAload then fld d 32 81 != 0 || !(alFmt d == 0 || alFmt d == 1 || alFmt d == 4 || alFmt d == 5)
  else if op = opDiag then fld d 32 146 != 0
  else if op = opProduct then
    fld d 32 129 != 0 || (passTable (prTable d)).isEmpty || decide (prRows d = 0 ∨ 64 < prRows d)
      || decide (64 < prRow0 d + prRows d)
      || decide (3 < prA d + tableSlots (prTable d)) || decide (3 < prB d + tableBanks (prTable d))
  else if op = opDrain then
    fld d 32 70 != 0 || decide (drRows d = 0 ∨ 64 < drRows d) || decide (64 < drRow0 d + drRows d)
      || (if drCore d then drRow0 d != 0 || drRows d != 64 else decide (256 ≤ drAddr d))
  else true

/-- The MX unit that carries out an opcode (03 R79). -/
def mxUnit (op : Nat) : Nat := if op = opBload ∨ op = opDiag then 0 else if op = opAload then 1 else if op = opProduct then 2 else 3

/-! ## VE (04) -/

abbrev vD (d : Nat) : Nat := fld d 178 8
abbrev vS1 (d : Nat) : Nat := fld d 170 8
abbrev vS2 (d : Nat) : Nat := fld d 162 8
abbrev vS3 (d : Nat) : Nat := fld d 154 8
abbrev vN (d : Nat) : Nat := fld d 147 7
abbrev vCsel (d : Nat) : Nat := fld d 143 4
abbrev vCen (d : Nat) : Bool := bit d 142
abbrev vStride (d : Nat) : Int := sfld d 134 8
abbrev vAmask (d : Nat) : Nat := fld d 130 4
abbrev vTsel (d : Nat) : Nat := fld d 126 4
abbrev vTen (d : Nat) : Bool := bit d 125
abbrev vM (d : Nat) : Nat := fld d 117 8
abbrev vMen (d : Nat) : Bool := bit d 116
abbrev vMz (d : Nat) : Bool := bit d 115
abbrev vType (d : Nat) : Nat := fld d 113 2
abbrev vImm (d : Nat) : Word := w32 (fld d 81 32)
abbrev vIsel (d : Nat) : Nat := fld d 79 2
abbrev vP2 (d : Nat) : Nat := fld d 77 2
abbrev vP3 (d : Nat) : Nat := fld d 75 2
abbrev vSub (d : Nat) : Nat := fld d 71 4
abbrev vCbase (d : Nat) : Nat := fld d 100 13
abbrev vCstride (d : Nat) : Int := sfld d 87 13
abbrev vCslot (d : Nat) : Nat := fld d 72 3
abbrev vCdst (d : Nat) : Nat := fld d 64 4
abbrev vIdx (d : Nat) : Bool := bit d 63
abbrev vSlen (d : Nat) : Nat := fld d 64 3 + 1
abbrev vRop (d : Nat) : Nat := fld d 71 4
abbrev vG (d : Nat) : Nat := 2 ^ fld d 68 3
abbrev vAxis (d : Nat) : Bool := bit d 67
abbrev vK (d : Nat) : Nat := fld d 66 5 + 1
abbrev vQfmt (d : Nat) : Nat := fld d 85 2
abbrev vStoch (d : Nat) : Bool := bit d 84
abbrev vRows (d : Nat) : Nat := fld d 77 7
abbrev vTidx (d : Nat) : Nat := fld d 53 24
abbrev vTstep (d : Nat) : Int := sfld d 41 12
abbrev vDb (d : Nat) : Nat := fld d 33 8
abbrev vRtidx (d : Nat) : Nat := fld d 89 24
abbrev vRtstep (d : Nat) : Int := sfld d 77 12
abbrev vEbase (d : Nat) : Nat := fld d 65 12

abbrev tyFp : Nat := 0
abbrev tyBf : Nat := 1
abbrev tyI32 : Nat := 2

/-- TYPE is allowed for the opcode (04 R118). -/
def veTypeOk (op ty : Nat) : Bool :=
  if ty = 3 then false
  else if 0x01 ≤ op ∧ op ≤ 0x0A ∨ op = 0x10 then true
  else if op = 0x0B then ty != tyBf
  else if 0x0C ≤ op ∧ op ≤ 0x0F then ty == tyI32
  else if op = 0x18 ∨ op = 0x31 then ty != tyI32
  else if op = 0x20 ∨ op = 0x21 ∨ op = 0x2C ∨ op = 0x32 ∨ op = 0x33 then ty != tyBf
  else ty == tyFp

/-- The opcode-specific reserved bits and ranges of a VE descriptor are broken (04 R122, R128-R143). The bits that GATHER, REDUCE and TOPK
do not name are taken as reserved too (log entry 65). -/
def veFieldBad (d : Nat) : Bool :=
  let op := dOp d
  if 0x01 ≤ op ∧ op ≤ 0x10 then
    fld d 32 39 != 0 || vIsel d == 3
      || (if op = 0x0A then decide (6 < vSub d) else if op = 0x0F then decide (2 < vSub d) else vSub d != 0)
  else if op = 0x18 then fld d 75 38 != 0 || fld d 32 40 != 0
  else if op = 0x19 then fld d 75 12 != 0 || fld d 32 40 != 0
  else if op = 0x20 then fld d 75 38 != 0 || fld d 32 35 != 0 || decide (3 < vRop d)
  else if op = 0x21 then fld d 71 42 != 0 || fld d 32 34 != 0
  else if op = 0x28 ∨ op = 0x29 then fld d 68 45 != 0 || fld d 32 31 != 0
  else if op = 0x2A then fld d 67 46 != 0 || fld d 32 32 != 0
  else if op = 0x2C then fld d 32 33 != 0
  else if 0x30 ≤ op ∧ op ≤ 0x33 then
    bit d 32 || vQfmt d == 3 || decide (vRows d = 0 ∨ 64 < vRows d)
      || (decide (op = 0x32 ∨ op = 0x33) && vQfmt d != 0) || (op != 0x30 && vStoch d)
      || (op == 0x33 && vRows d != 64) || (decide (op = 0x30 ∨ op = 0x33) && vDb d != 0)
  else true

/-- N obeys the opcode's rule (04 R119, R136, R137). -/
def veNOk (d : Nat) : Bool :=
  let op := dOp d
  if op = 0x19 ∨ 0x30 ≤ op then vN d == 0
  else decide (1 ≤ vN d ∧ vN d ≤ 64)
    && (op != 0x20 || vN d % vG d == 0) && (op != 0x21 || vN d % 2 == 0)

/-- The VE checks of 04 R123 fail. -/
def veBad (d : Nat) : Bool :=
  let op := dOp d
  veFieldBad d || !veTypeOk op (vType d) || !veNOk d
    || (decide (op = 0x19 ∨ 0x30 ≤ op) && (vTen d || vMen d)) || (decide (op = 0x28 ∨ op = 0x29) && !vMen d)

/-- An entry address: the field, with c × ESTRIDE where AMASK selects it (04 R120). `k` is 3, 2, 1, 0 for D, S1, S2, S3. -/
def vEntry (d c : Nat) (k field : Nat) : Int := if bit (vAmask d) k then formed field c (vStride d) else field

/-- The sources that an element-wise opcode reads: how many of S1, S2, S3 (04 R118). -/
def veSources (op : Nat) : Nat :=
  if op = 0x01 ∨ op = 0x08 ∨ op = 0x09 ∨ op = 0x10 then 1 else if op = 0x05 ∨ op = 0x0B then 3 else 2

/-- Where strip entry `i` of S2 or S3 lies from the first (04 R122 P2, P3). -/
def stripOff (p i : Nat) : Nat := if p = 0 then i else if p = 1 then 0 else if p = 2 then i % 2 else i % 4

/-- The entries of a strip and how many lie in it: first entry, count. -/
abbrev Strip := Int × Nat

/-- Number of entries a strip with addressing mode `p` touches. -/
def stripSpan (p n : Nat) : Nat := if p = 0 then n else if p = 1 then 1 else if p = 2 then min n 2 else min n 4

/-- Every entry that a VE descriptor reads or writes lies in 0-255 (04 R120). -/
def stripOk (x : Strip) : Bool := decide (0 ≤ x.1 ∧ x.1 + x.2 ≤ 256)

/-- Entries in the two strips of a tile of `rows` rows (04 R138). -/
def tileStrips (a b : Int) (rows : Nat) : List Strip :=
  [(a, 2 * min rows 32)] ++ (if 32 < rows then [(b, 2 * (rows - 32))] else [])

/-- The strips that a VE descriptor reads or writes (04 R118, R132-R138). -/
def veStrips (d c : Nat) : List Strip :=
  let op := dOp d
  let n := vN d
  let dst := vEntry d c 3 (vD d)
  let s1 := vEntry d c 2 (vS1 d)
  let s2 := vEntry d c 1 (vS2 d)
  let s3 := vEntry d c 0 (vS3 d)
  let m : List Strip := if vMen d then [((vM d : Int), n)] else []
  if 0x01 ≤ op ∧ op ≤ 0x10 then
    [(dst, n), (s1, n)] ++ m
      ++ (if 2 ≤ veSources op ∧ vIsel d ≠ 1 then [(s2, stripSpan (vP2 d) n)] else [])
      ++ (if 3 ≤ veSources op ∧ vIsel d ≠ 2 then [(s3, stripSpan (vP3 d) n)] else [])
  else if op = 0x18 ∨ op = 0x28 ∨ op = 0x29 then [(dst, n), (s1, n)] ++ m
  else if op = 0x20 then [(s1, n), (dst, if vAxis d then n / vG d else (n / vG d + 31) / 32)] ++ m
  else if op = 0x21 then [(dst, n), (s1, n)] ++ m
  else if op = 0x2A then [(dst, n), (s1, vSlen d), (s2, n)] ++ m
  else if op = 0x2C then [(dst, n)] ++ m
  else if op = 0x30 ∨ op = 0x33 then tileStrips s1 s2 (vRows d)
  else if op = 0x31 ∨ op = 0x32 then tileStrips dst (vDb d) (vRows d)
  else []

/-- Granules of core memory that a tile of the opcode takes (05 R158, 04 R128, R139); 0 for an opcode that takes none. -/
def veGranules (d : Nat) : Nat :=
  let op := dOp d
  if op = 0x19 then 17
  else if op = 0x30 ∨ op = 0x31 then (if vQfmt d = 2 then 70 else 35)
  else if op = 0x32 ∨ op = 0x33 then 257
  else 0

/-! ## DMA and NET (09 R286-R291) -/

abbrev opSend : Nat := 1
abbrev opGet : Nat := 2
abbrev opWord : Nat := 3
abbrev opFinish : Nat := 4
abbrev opRset : Nat := 0x10
abbrev eNode (d : Nat) : Nat := fld d 174 12
abbrev eHalf (d : Nat) : Nat := fld d 173 1
abbrev eCrew (d : Nat) : Nat := fld d 167 6
abbrev eSeat (d : Nat) : Nat := fld d 162 5
abbrev eSpace (d : Nat) : Nat := fld d 158 4
abbrev eOff (d : Nat) : Nat := fld d 132 26
abbrev sLbase (d : Nat) : Nat := fld d 119 13
abbrev sLstride (d : Nat) : Int := sfld d 106 13
abbrev sLen (d : Nat) : Nat := fld d 97 9
abbrev sLctr (d : Nat) : Nat := fld d 89 8
abbrev sLcen (d : Nat) : Bool := bit d 88
abbrev sMcast (d : Nat) : Nat := fld d 86 2
abbrev sRoute (d : Nat) : Nat := fld d 83 3
abbrev sCsel (d : Nat) : Nat := fld d 79 4
abbrev sCen (d : Nat) : Bool := bit d 78
abbrev sDstride (d : Nat) : Int := sfld d 62 16
abbrev sDheat (d : Nat) : Nat := fld d 50 12
abbrev wValue (d : Nat) : Nat := fld d 100 32
abbrev wRoute (d : Nat) : Nat := fld d 97 3
abbrev wCsel (d : Nat) : Nat := fld d 93 4
abbrev wCen (d : Nat) : Bool := bit d 92
abbrev wDstride (d : Nat) : Int := sfld d 76 16
abbrev wDheat (d : Nat) : Nat := fld d 64 12
abbrev fCtrn (d : Nat) : Nat := fld d 150 8
abbrev fExpect (d : Nat) : Nat := fld d 118 32
abbrev fSlack (d : Nat) : Nat := fld d 110 8
abbrev fValue (d : Nat) : Nat := fld d 78 32
abbrev fRoute (d : Nat) : Nat := fld d 75 3
abbrev fCsel (d : Nat) : Nat := fld d 71 4
abbrev fCen (d : Nat) : Bool := bit d 70
abbrev fEstep (d : Nat) : Int := sfld d 54 16
abbrev fDheat (d : Nat) : Nat := fld d 42 12
abbrev rReg (d : Nat) : Nat := fld d 183 3
abbrev rWpn (d : Nat) : Nat := fld d 179 4
abbrev rWps (d : Nat) : Nat := fld d 83 96
abbrev rMask (d : Nat) : Nat := fld d 35 48

/-- The route register that a descriptor names. -/
def eRoute (d : Nat) : Nat := if dOp d = opWord then wRoute d else if dOp d = opFinish then fRoute d else sRoute d

/-- The waypoints of an RSET break 09 R291. -/
def rsetBad (d : Nat) : Bool :=
  fld d 32 3 != 0 || decide (8 < rWpn d)
    || (List.range 8).any fun k =>
        let p := fld (rWps d) (12 * k) 12
        if k < rWpn d then decide (95 < fld p 0 7) || decide (23 < fld p 7 5) else p != 0

/-- DSPACE is allowed for the opcode (09 R286). -/
def eSpaceOk (op sp : Nat) : Bool :=
  if op = opSend ∨ op = opGet then sp == 1 || sp == 2 || sp == 8
  else if op = opWord then sp == 1 || sp == 2 || sp == 4 || sp == 8
  else sp == 4 || sp == 8

/-- The chip coordinates of a physical seat (01 R16): X = half × 48 + crew column × 6 + column, Y = crew row × 4 + row. -/
def coordOf (w : Nat) : Nat × Nat :=
  let q := crewOf w % 48
  (halfOf w * 48 + q % 8 * 6 + w % 24 % 6, q / 8 * 4 + w % 24 / 6)

/-- Crew of a chip coordinate, 0-95. -/
def crewAt (x y : Nat) : Nat := x / 48 * 48 + y / 4 * 8 + x % 48 / 6

/-- The router from which a multicast is replicated lies in its crew (MCAST 1) or half (MCAST 2) (09 R284). -/
def mcastRouterOk (w d : Nat) (r : Route) : Bool :=
  let (x, y) := if r.wpn = 0 then coordOf w else
    let p := fld r.wps.toNat (12 * (r.wpn - 1)) 12
    (fld p 0 7, fld p 7 5)
  if sMcast d = 1 then crewAt x y == eHalf d * 48 + eCrew d else x / 48 == eHalf d

/-- The DMA and NET checks of 09 R291 fail, for a seat `w` of node `node` whose issued route registers are `rs`. -/
def engBad (node w : Nat) (rs : Tbl Route) (d : Nat) : Bool :=
  let op := dOp d
  if op = opRset then rsetBad d
  else if !(op == opSend || op == opGet || op == opWord || op == opFinish) then true
  else
    let own := eNode d == node
    let r := tget {} rs (eRoute d)
    let mc := if op = opSend ∨ op = opGet then sMcast d else 0
    let res := if op = opSend ∨ op = opGet then fld d 32 18 != 0 else if op = opWord then fld d 32 32 != 0 else fld d 32 10 != 0
    res || !eSpaceOk op (eSpace d)
      || (decide (op = opSend ∨ op = opGet) && decide (sLen d = 0 ∨ 257 < sLen d))
      || (own && (decide (47 < eCrew d) || decide (23 < eSeat d) || (eSpace d == 8 && eSeat d != 0)))
      || mc == 3 || (mc != 0 && (op != opSend || eSpace d != 1 || !own))
      || (if mc = 0 then r.mask != 0 else r.mask == 0)
      || (mc != 0 && !mcastRouterOk w d r)
      || (op == opSend && sLcen d && (eSpace d == 1 || eSpace d == 2) && decide (63 < sLctr d))
      || (op == opGet && sLcen d && decide (63 < sLctr d))
      || (op == opFinish && eSpace d == 4 && decide (63 < fCtrn d))

/-! ## SYNC, LOOP, CTRL -/

abbrev opCatch : Nat := 1
abbrev opAcquire : Nat := 2
abbrev opRelease : Nat := 3
abbrev cCtr (d : Nat) : Nat := fld d 180 6
abbrev cFlag (d : Nat) : Bool := bit d 179
abbrev cTarget (d : Nat) : Nat := fld d 147 32
abbrev cCsel (d : Nat) : Nat := fld d 143 4
abbrev cCen (d : Nat) : Bool := bit d 142
abbrev cTstep (d : Nat) : Nat := fld d 110 32
abbrev yScope (d : Nat) : Nat := fld d 183 3
abbrev yEngine (d : Nat) : Nat := fld d 182 1
abbrev lCsel (d : Nat) : Nat := fld d 182 4
abbrev lPeriod (d : Nat) : Nat := fld d 158 24
abbrev lBody (d : Nat) : Nat := fld d 148 10
abbrev lIen (d : Nat) : Bool := bit d 147
abbrev lIsel (d : Nat) : Nat := fld d 143 4
abbrev kDst (d : Nat) : Nat := fld d 182 4
abbrev kSa (d : Nat) : Nat := fld d 178 4
abbrev kSb (d : Nat) : Nat := fld d 174 4
abbrev kSub (d : Nat) : Nat := fld d 170 4
abbrev kUseb (d : Nat) : Bool := bit d 169
abbrev kImm (d : Nat) : Nat := fld d 137 32

/-- The SYNC checks of 07 R251 fail. -/
def syncBad (d : Nat) : Bool :=
  if dOp d = opCatch then fld d 32 78 != 0
  else if dOp d = opAcquire then fld d 32 151 != 0 || decide (4 < yScope d)
  else fld d 32 150 != 0 || decide (4 < yScope d)

/-- The LOOP fields break 06 R201. -/
def loopBad (d : Nat) : Bool :=
  fld d 32 111 != 0 || lPeriod d == 0 || lBody d == 0 || (!lIen d && lIsel d != 0)

/-- The fields that a CTRL opcode does not use are 0, and the others lie in their ranges (06 R199, R200). SB counts as used
only with USEB 1, and IMM only with USEB 0 (DEDUCED, log entry 12). -/
def ctrlBad (d : Nat) : Bool :=
  let op := dOp d
  let usesX := decide (1 ≤ op ∧ op ≤ 6) || op == 0x10
  let usesA := decide (2 ≤ op ∧ op ≤ 6) || op == 0x10
  let usesD := decide (1 ≤ op ∧ op ≤ 6) || op == 8 || op == 0x10
  let usesSub := op == 8 || op == 0x10
  fld d 32 105 != 0
    || (!usesD && kDst d != 0) || (!usesA && kSa d != 0) || (!usesSub && kSub d != 0)
    || (!usesX && (kUseb d || kSb d != 0 || kImm d != 0))
    || (usesX && (if kUseb d then kImm d != 0 else kSb d != 0))
    || (op == 8 && decide (5 < kSub d)) || (op == 0x10 && (decide (7 < kDst d) || decide (7 < kSub d)))

/-- X of a CTRL descriptor (06 R199). -/
def ctrlX (c : Cox) (d : Nat) : Word := if kUseb d then tget 0 c.ctr (kSb d) else w32 (kImm d)

/-- Check 2 of 06 R188: the code that a descriptor's class fields raise, if they are bad. -/
def classFault (node w : Nat) (x : Seat) (d : Nat) : Option Nat :=
  let c := dClass d
  if c = clsMx then (if mxBad d then some mxDescriptor else none)
  else if c = clsVe then (if veBad d then some veDescriptor else none)
  else if c = clsDma then (if engBad node w x.dma.issueRoutes d then some dmaDescriptor else none)
  else if c = clsNet then (if engBad node w x.net.issueRoutes d then some netDescriptor else none)
  else if c = clsSync then (if syncBad d then some syncDescriptor else none)
  else if c = clsLoop then (if loopBad d then some coxDescriptor else none)
  else (if ctrlBad d then some coxDescriptor else none)

/-! ## Umpire address checks (06 R206) -/

/-- `n` granules from `g` lie in core memory. -/
def coreOk (g : Int) (n : Nat) : Bool := decide (0 ≤ g ∧ g + n ≤ 6144)

/-- The weight tile at granule `g` lies in the store and in one bank (05 R149). -/
def weightOk (g : Int) : Bool := decide (0 ≤ g ∧ g + 35 ≤ 98304 ∧ g.toNat / 3072 = (g.toNat + 34) / 3072)

/-- The weight-store granule of a BLOAD (03 R97). -/
def blAddr (d c : Nat) : Int := formed (blWbase d) c (blStride d)
/-- The core-memory granule of an ALOAD. -/
def alAddr (d c : Nat) : Int := formed (alCbase d) c (alStride d)
/-- First vector cycle of a QUANTIZE's writes. -/
def quantAt (d : Nat) : Nat := 2 * vRows d + 4
/-- The first entry or granule of a DRAIN. -/
def drAt (d c : Nat) : Int := formed (drAddr d) c (drStride d)
/-- The core-memory granule of a VE tile or curve image. -/
def vCore (d c : Nat) : Int := formed (vCbase d) c (vCstride d)
/-- The local granule of a SEND or GET. -/
def sLocal (d c : Nat) : Int := formed (sLbase d) c (sLstride d)
/-- The remote granule of a SEND or GET, modulo 2^26 (09 R288). -/
def sRemote (d c : Nat) : Nat := (formed (eOff d) c (sDstride d) % 2 ^ 26).toNat
/-- The word index of a WORD, modulo 2^26 (09 R289). -/
def wIndex (d c : Nat) : Nat := (formed (eOff d) c (wDstride d) % 2 ^ 26).toNat
/-- The expected count of a FINISH, modulo 2^32 (09 R290). -/
def fCount (d c : Nat) : Nat := (formed (fExpect d) c (fEstep d) % 2 ^ 32).toNat

/-- The counter value that a descriptor's addresses use (03 R97, 04 R120, 09 R288-R290). -/
def jobCtr (x : Cox) (d : Nat) : Nat :=
  let c := dClass d
  let op := dOp d
  if c = clsMx then
    (if op = opBload then addrCtr x (blCen d) (blCsel d) else if op = opAload then addrCtr x (alCen d) (alCsel d)
     else if op = opDrain then addrCtr x (drCen d) (drCsel d) else 0)
  else if c = clsVe then addrCtr x (vCen d) (vCsel d)
  else if c = clsDma ∨ c = clsNet then
    (if op = opSend ∨ op = opGet then addrCtr x (sCen d) (sCsel d) else if op = opWord then addrCtr x (wCen d) (wCsel d)
     else if op = opFinish then addrCtr x (fCen d) (fCsel d) else 0)
  else if c = clsSync ∧ op = opCatch then addrCtr x (cCen d) (cCsel d)
  else 0

/-- Every address that a descriptor will use is inside its range (06 R206 UMP_ADDRESS). -/
def addressOk (d c : Nat) : Bool :=
  let k := dClass d
  let op := dOp d
  if k = clsMx then
    (if op = opBload then weightOk (blAddr d c)
     else if op = opAload then coreOk (alAddr d c) 35
     else if op = opDrain then
       (if drCore d then coreOk (drAt d c) 257 else stripOk (drAt d c, 2 * drRows d))
     else true)
  else if k = clsVe then
    (veStrips d c).all stripOk && (veGranules d == 0 || coreOk (vCore d c) (veGranules d))
  else if k = clsDma ∨ k = clsNet then
    (if op = opSend ∨ op = opGet then coreOk (sLocal d c) (sLen d) else true)
  else true

/-- The target of a CATCH (07 R241). -/
def catchTarget (d c : Nat) : Word := w32 (if cCen d then cTarget d + c * cTstep d else cTarget d)

/-- The condition of a CATCH against the seat's own counters and flags (07 R241). -/
def catchMet (x : Seat) (d c : Nat) : Bool :=
  if cFlag d then tget 0 x.lnd.flag (cCtr d) == catchTarget d c
  else satisfies (tget 0 x.lnd.ctr (cCtr d)) (catchTarget d c)

end Sys2Proof.Machine
end

