-- ==== Sys2Proof/Machine/Reply.lean ====
section
/-!
DEFINITION. Command packets and what answers them (13 R410-R422): the fields of a command, the status codes, replies and heat
entries handed to the completion arbiter, and the units that a command names (01 R18-R20).
-/
namespace Sys2Proof.Machine
open Host (Outcome)

/-! ## Rings -/

/-- Submission ring `n`, or the I3C port's session at 16 (13 R410, 14 R451). -/
def sqOf (s : State) (n : Nat) : Sq := tget {} s.cq.sq n

/-- Change submission ring `n`. -/
def modSq (s : State) (n : Nat) (f : Sq → Sq) : State := { s with cq := { s.cq with sq := tput s.cq.sq n (f (sqOf s n)) } }

/-- Completion ring `n` (13 R410). -/
def cqrOf (s : State) (n : Nat) : Cqr := tget {} s.cq.cq n

/-- Change completion ring `n`. -/
def modCqr (s : State) (n : Nat) (f : Cqr → Cqr) : State := { s with cq := { s.cq with cq := tput s.cq.cq n (f (cqrOf s n)) } }

/-- Feed ring `n` (13 R410). -/
def feedOf (s : State) (n : Nat) : Feed := tget {} s.cq.feed n

/-- Change feed ring `n`. -/
def modFeed (s : State) (n : Nat) (f : Feed → Feed) : State :=
  { s with cq := { s.cq with feed := tput s.cq.feed n (f (feedOf s n)) } }

/-- Entries of a ring of size code `z` between two indices (13 R410). -/
def ringGap (z : BitVec 4) (first last : BitVec 12) : Nat := (last.toNat + 2 ^ z.toNat - first.toNat % 2 ^ z.toNat) % 2 ^ z.toNat

/-- The next index of a ring of size code `z`. -/
def ringNext (z : BitVec 4) (i : BitVec 12) : BitVec 12 := BitVec.ofNat 12 ((i.toNat + 1) % 2 ^ z.toNat)

/-- Slots of an entry (13 R412). -/
def CEntry.slots (e : CEntry) : Nat := if e.second = none then 1 else 2

/-- Free slots of a completion ring, one always left empty (13 R412). -/
def ringRoom (c : Cqr) : Nat := 2 ^ c.size.toNat - 1 - ringGap c.size c.head c.tail

/-- An entry joins the hold queue of 256, or waits for a place in it (13 R412). -/
def Cqr.join (c : Cqr) (e : CEntry) : Cqr :=
  if 256 ≤ c.hold.length ∨ c.wait ≠ [] then { c with wait := c.wait ++ [e] } else { c with hold := c.hold ++ [e] }

/-- Hand an entry to completion ring `n`: it joins the hold queue, and counts in CQ_CQ_STALLS when its slots are wanting (13 R412). What a
cancelled or ending run posts in one step may find the queue full, and waits (log entry 71). -/
def postEntry (s : State) (n : Nat) (e : CEntry) : State :=
  modCqr s n fun c =>
    let want := (c.hold ++ c.wait).foldl (fun k h => k + h.slots) e.slots
    { c.join e with stalls := if ringRoom c < want then satInc c.stalls else c.stalls }

/-- The hold queue of completion ring `n` is full (13 R412). -/
def holdFull (s : State) (n : Nat) : Bool := decide (256 ≤ (cqrOf s n).hold.length)

/-! ## Status codes (13 R416) -/

abbrev stSuccess : Nat := 0
abbrev stBadOpcode : Nat := 1
abbrev stBadParameter : Nat := 2
abbrev stNoSession : Nat := 3
abbrev stVersion : Nat := 4
abbrev stBadUnit : Nat := 5
abbrev stPartial : Nat := 6
abbrev stHalted : Nat := 7
abbrev stBusy : Nat := 8
abbrev stHostAccess : Nat := 9
abbrev stStopped : Nat := 0xA
abbrev stSegmentAsleep : Nat := 0xB
abbrev stHalfOff : Nat := 0xC
abbrev stContextBusy : Nat := 0x10
abbrev stNoPublisher : Nat := 0x11
abbrev stNoContext : Nat := 0x12
abbrev stGenerationBusy : Nat := 0x13
abbrev stNoGeneration : Nat := 0x14
abbrev stNotReady : Nat := 0x15
abbrev stLoadBusy : Nat := 0x16
abbrev stBadManifest : Nat := 0x17
abbrev stBadSignature : Nat := 0x18
abbrev stWrongGrade : Nat := 0x19
abbrev stWrongModel : Nat := 0x1A
abbrev stRollback : Nat := 0x1B
abbrev stSeatsUnavailable : Nat := 0x1C
abbrev stNoSpace : Nat := 0x1D
abbrev stNoKey : Nat := 0x1E
abbrev stKeyUnwrap : Nat := 0x1F
abbrev stWrongManifest : Nat := 0x20
abbrev stBadGraph : Nat := 0x30
abbrev stFormatVersion : Nat := 0x31
abbrev stGraphLimit : Nat := 0x32
abbrev stNoGraph : Nat := 0x33
abbrev stGraphInUse : Nat := 0x34
abbrev stRunTagBusy : Nat := 0x35
abbrev stRunLimit : Nat := 0x36
abbrev stNoRun : Nat := 0x37
abbrev stRing : Nat := 0x38

/-! ## Commands -/

/-- The I3C port's place among the command sources (14 R451). -/
abbrev i3cSrc : Nat := 16

/-- Bytes [off, off + n) of a command, little-endian (13 R414). -/
def cb (c : Nat) (off n : Nat) : Nat := fld c (8 * off) (8 * n)

/-- OPCODE of a command. -/
def cOpcode (c : Nat) : Nat := cb c 0 1
/-- CID of a command. -/
def cCid (c : Nat) : Nat := cb c 2 2
/-- UNIT of a command. -/
def cUnit (c : Nat) : Nat := cb c 4 4

/-- A command reply (13 R415) without PHASE and SEQ, which the arbiter adds. -/
def replyEntry (src cid status head result : Nat) (result2 : Option Nat) : CEntry :=
  { first := BitVec.ofNat 256 (pack [(2, 1, b2n result2.isSome), (8, 8, 1), (16, 16, cid), (64, 16, status),
      (80, 8, if src = i3cSrc then 0xFF else src), (96, 16, head), (128, 128, result)]),
    second := result2.map fun r => BitVec.ofNat 256 (pack [(1, 1, 1), (64, 192, r)]) }

/-- Put SEQ into a first slot (13 R415). -/
def withSeq (x : BitVec 256) (seq : Word) : BitVec 256 := BitVec.ofNat 256 (putFld x.toNat 32 32 seq.toNat)

/-- Send a reply: through the completion ring that CQ_SQ_CQ names (13 R410), or to the I3C port, which gives it its completion
sequence number at once (14 R451; log entry 13). -/
def sendReply (s : State) (src cid status result : Nat) (result2 : Option Nat) : State :=
  let q := sqOf s src
  let e := replyEntry src cid status q.head.toNat result result2
  if src = i3cSrc then
    let n := nextSeq s.cq.seq
    { s with cq := { s.cq with seq := n, i3cReply := some (BitVec.ofNat 512 ((withSeq e.first n).toNat + 2 ^ 256 * (e.second.getD 0).toNat)) } }
  else postEntry s q.cq.toNat e

/-- Answer the command that `src` has read: the reply is posted and the next command may be read (13 R411). A reply to RUN takes two
slots whatever its STATUS (13 R415, R421). -/
def answer (s : State) (src : Nat) (c : Nat) (status result : Nat) : State :=
  sendReply (modSq s src fun q => { q with cur := none }) src (cCid c) status result (if cOpcode c = 0x22 then some 0 else none)

/-- The same with a second slot. -/
def answer2 (s : State) (src : Nat) (c : Nat) (status result result2 : Nat) : State :=
  sendReply (modSq s src fun q => { q with cur := none }) src (cCid c) status result (some result2)

/-- A background command begins: the next command may be read, and its reply is due (13 R411). -/
def goBackground (s : State) (src : Nat) : State := modSq s src fun q => { q with cur := none, waiting := q.waiting + 1 }

/-- The reply of a background command (13 R411). -/
def answerLate (s : State) (src cid status result : Nat) : State :=
  sendReply (modSq s src fun q => { q with waiting := q.waiting - 1 }) src cid status result none

/-- Snivan may post a reply to `src`: the hold queue of the ring's completion ring is not full (13 R412). -/
def mayReply (s : State) (src : Nat) : Bool := src == i3cSrc || !holdFull s (sqOf s src).cq.toNat

/-- A command in hand that waits for its ring's earlier commands: an OPEN_SESSION or CLOSE_SESSION, or one of the I3C port with ORDER (13 R411,
R417, R421). -/
def sessionWaits (q : Sq) : Bool :=
  match q.cur with
  | some c => (cOpcode c.toNat == 1 || cOpcode c.toNat == 2 || bit (cb c.toNat 1 1) 0) && decide (0 < q.waiting)
  | none => false

/-- A command of the I3C port waits its turn: Snivan serves one command at a time, and ORDER is obeyed as on a ring (13 R411, 14 R451). -/
def waitsTurn (s : State) (src : Nat) : Bool :=
  src == i3cSrc && (sessionWaits (sqOf s src) || s.cq.sq.any fun p => p.1 != i3cSrc && p.2.cur.isSome && !sessionWaits p.2)

/-- Snivan serves commands, and the command that `src` has read carries opcode `op` (13 R411, 01 R27); it waits while its reply would find
the hold queue full (13 R412), and a command of the I3C port waits its turn. -/
def commandOf (s : State) (src op : Nat) : Option Nat :=
  if s.glb.fw = .ready ∧ mayReply s src = true ∧ waitsTurn s src = false then
    match (sqOf s src).cur with
    | some c => if cOpcode c.toNat = op then some c.toNat else none
    | none => none
  else none

/-- The meaning of a command row: nothing changes unless `src` has read that command. -/
def commandRow (s : State) (src op : Nat) (f : Nat → State) : Outcome State Fault Refusal :=
  match commandOf s src op with
  | some c => .next (f c)
  | none => .next s

/-! ### The background commands that Snivan serves by itself (13 R411, R421) -/

/-- The oldest background command of `src` with opcode `op`, once Snivan may complete it (13 R411, 01 R27). -/
def bgOf (s : State) (src op : Nat) : Option Nat :=
  if s.glb.fw = .ready ∧ mayReply s src = true then (s.cq.bg.find? fun p => p.1 == src && cOpcode p.2 == op).map (·.2) else none

/-- A command begins in the background. -/
def beginBg (s : State) (src c : Nat) : State :=
  let s1 := goBackground s src
  { s1 with cq := { s1.cq with bg := s1.cq.bg ++ [(src, c)] } }

/-- A background command is completed: its reply is posted (13 R411). -/
def finishBg (s : State) (src c status result : Nat) : State :=
  answerLate { s with cq := { s.cq with bg := s.cq.bg.erase (src, c) } } src (cCid c) status result

/-- The meaning of a background row: the command that `src` has read begins, and the next may be read; the row again completes the oldest
that runs, with its effect (13 R411). -/
def lateRow (s : State) (src op : Nat) (f : Nat → State) : Outcome State Fault Refusal :=
  match commandOf s src op with
  | some c => .next (beginBg s src c)
  | none => match bgOf s src op with
    | some c => .next (f c)
    | none => .next s

/-! ## Units (01 R18-R20) -/

/-- Half of a unit reference, 0 at chip and fleet level. -/
def uLevel (u : Nat) : Nat := fld u 29 3
def uHalf (u : Nat) : Nat := fld u 16 1
def uCrew (u : Nat) : Nat := fld u 10 6
def uSeat (u : Nat) : Nat := fld u 5 5
def uPhys (u : Nat) : Bool := bit u 4
/-- Crew q of a reference at seat or crew level. -/
def uQ (u : Nat) : Nat := uHalf u * 48 + uCrew u

/-- A reference names no unit of this chip, or a level outside `lo`-`hi` (01 R18, R20, R21): the fields that a level ignores are
not checked. PHYS is accepted for a single seat alone, and where `phys` says so (13 R419). -/
def unitBad (s : State) (u lo hi : Nat) (phys : Bool) : Bool :=
  let l := uLevel u
  decide (l < lo) || decide (hi < l) || fld u 0 4 != 0 ||
  (decide (l < 4) && fld u 17 12 != s.chain.node) ||
  (decide (l ≤ 1) && decide (47 < uCrew u)) ||
  (uPhys u && !(phys && l == 0)) ||
  (l == 0 && (decide (23 < uSeat u) || (!uPhys u && (physOf s (uQ u) (uSeat u)).isNone)))

/-- The halves that a unit of half or chip level holds. -/
def unitHalves (u : Nat) : List Nat := if uLevel u = 2 then [uHalf u] else [0, 1]

/-- The crews that a unit of crew level or wider holds. -/
def unitCrews (u : Nat) : List Nat :=
  if uLevel u ≤ 1 then [uQ u] else if uLevel u = 2 then (List.range 48).map (uHalf u * 48 + ·) else List.range 96

/-- The physical seats that a unit of the chip holds (01 R18). -/
def unitSeats (s : State) (u : Nat) : List Nat :=
  if uLevel u = 0 then
    (if uPhys u then [uQ u * 24 + uSeat u] else (physOf s (uQ u) (uSeat u)).toList)
  else ((unitCrews u).map fun q => (List.range 24).map (q * 24 + ·)).flatten

/-- RESULT of a BAD_UNIT reply: one unit, the reference given (13 R415). -/
def badUnitResult (u : Nat) : Nat := 1 + 2 ^ 32 * u

/-- Half `h` is in Boated (12 R388). -/
def halfBoated (s : State) (h : Nat) : Bool := tget 0 s.pwr.half h == 3
/-- Half `h` is in Easy (12 R388). -/
def halfEasy (s : State) (h : Nat) : Bool := tget 0 s.pwr.half h == 2

/-- A wake of half `h` from Easy begins (12 R390). -/
def wakeHalf (s : State) (h : Nat) : State :=
  if halfEasy s h then { s with pwr := { s.pwr with waking := tput s.pwr.waking h true } } else s

/-- A wake request raised by a held packet (09 R299, R302). -/
def heldWake (s : State) (h : Nat) : State :=
  if tget false s.pwr.waking h then s
  else let s1 := wakeHalf s h; { s1 with noc := { s1.noc with wakes := satInc s1.noc.wakes } }

/-- A packet or an access toward a half in Easy is held, and counted (09 R299, R302). -/
def noteHeld (s : State) (h : Nat) : State :=
  if halfEasy s h then heldWake { s with noc := { s.noc with seamHeld := satInc s.noc.seamHeld } } h else s

/-- A read of the pool of a half in Easy is held on its link, and wakes the half (09 R299, 12 R390): it counts where it raises the wake (log
entry 69). -/
def holdRead (s : State) (h : Nat) : State := if tget false s.pwr.waking h then s else noteHeld s h

/-- Raise MSI-X vector `v`: a masked vector sets its pending bit instead (13 R413). -/
def raiseVector (s : State) (v : Nat) : State :=
  if s.cq.masked.getLsbD v then { s with cq := { s.cq with pba := setBit s.cq.pba v } }
  else { s with cq := { s.cq with sent := tmod 0 s.cq.sent v (· + 1) } }

/-- An event of GLB_EVENTS (13 R406): a bit that becomes 1 raises vector 0 unless it is masked (13 R413), and an I3C in-band
interrupt in any case (14 R451). -/
def raiseEvent (s : State) (b : Nat) : State :=
  if s.glb.events.getLsbD b then s
  else
    let s1 := { s with glb := { s.glb with events := setBit s.glb.events b }, pins := { s.pins with ibi := s.pins.ibi + 1 } }
    if s.glb.eventMask.getLsbD b then s1 else raiseVector s1 0

/-- HALT_N is treated as asserted, or the chip is in weigh-enough: RUN, SHARD_LOAD, TILE_REPAIR and GENERATION_SWITCH are
refused (12 R397, 15 R466). -/
def haltRefuses (s : State) : Bool := s.pwr.haltActive || s.glb.halted

end Sys2Proof.Machine
end

