-- ==== Sys2Proof/Machine/Life.lean ====
section
/-!
DEFINITION. What ends a heat, shared by the steps that do it (07 R220-R235, 02 R69): its seats, the retirement of its epoch, abort,
abandonment, heat entries, and the end of its run with the release of the generations that it bound (11 R359).
-/
namespace Sys2Proof.Machine
open Host (Outcome)

/-! ## Heats and their seats (07 R222) -/

/-- The phases in which a heat has ended (07 R220). -/
def Phase.ended : Phase → Bool
  | .completed | .skipped | .aborted | .abandoned => true
  | .pending | .ready | .dispatched => false

/-- The phases of a failed heat (07 R231). -/
def Phase.failed : Phase → Bool
  | .aborted | .abandoned => true
  | .completed | .skipped | .pending | .ready | .dispatched => false

/-- A seat that a heat names: role, ordinal, crew q, logical seat (07 R222). -/
structure Place where
  role : Nat
  image : Nat
  ordinal : Nat
  q : Nat
  l : Nat
  deriving DecidableEq, Repr

/-- The seats of one role, in ascending half, crew and logical seat (07 R222). -/
def rolePlaces (n : Nat) (r : Nat × Nat × List Nat) : List Place :=
  let cells := (r.2.2.map fun q => ((List.range 24).filter (bit r.1)).map fun l => (q, l)).flatten
  (cells.zipIdx).map fun p => { role := n, image := r.2.1, ordinal := p.2, q := p.1.1, l := p.1.2 }

/-- The seats that a heat names (07 R222). -/
def places (d : HeatDesc) : List Place := ((d.roles.zipIdx).map fun p => rolePlaces p.2 p.1).flatten

/-- The physical seat of a place, as its crew presents it now (09 R282). -/
def placeSeat (s : State) (p : Place) : Option Nat := physOf s p.q p.l

/-- Every live run with its heats: run, heat index, heat. -/
def liveHeats (s : State) : List (Nat × Nat × Heat) :=
  (s.str.runs.map fun p => (p.2.heats.zipIdx).map fun q => (p.1, q.2, q.1)).flatten

/-- Release the page that seat `x` keeps for heat `h` of run `r` (06 R209). -/
def releasePage (x : Seat) (r h : Nat) : Seat :=
  { x with cox := { x.cox with use0 := if x.cox.use0 = some (r, h) then none else x.cox.use0,
                               use1 := if x.cox.use1 = some (r, h) then none else x.cox.use1 } }

/-- Release the pages that a heat holds on the seats preloaded for it (06 R209, 07 R227). -/
def releasePages (s : State) (r h : Nat) (seats : List Nat) : State := seats.foldl (fun s w => modSeat s w fun x => releasePage x r h) s

/-- The rest of the packet that has begun to leave an outbound buffer. -/
def begunPacket : List Flit → List Flit
  | [] => []
  | f :: t => if f.head.isSome then [] else f :: begunPacket t

/-- An engine whose work is given up: what it has handed to the router still awaits its answers, and the rest of its outbound buffer is
not sent (06 R193, 09 R300). -/
def Eng.stop (e : Eng) : Eng :=
  let kept := begunPacket e.outbox
  let unsent := ((e.outbox.drop kept.length).filter fun f => f.head.isSome).length
  { e with queue := [], cur := none, releasing := none, outbox := kept, out := e.out.take (e.out.length - unsent) }

/-- A seat returns to having no heat: nothing of its plan goes on (07 R232, 15 R457). -/
def Seat.rest (x : Seat) : Seat :=
  { x with
    cox := { x.cox with state := .noHeat, hold := .none, held := none, roomAt := none, cur := none, fin := [], due := [],
                        rest := 0xFFFFFFFF, dispatched := none, started := false },
    mxa := { x.mxa with queue := [], cur := [], passDue := false },
    vec := { x.vec with queue := [], cur := none, pend := [], spans := [] },
    dma := x.dma.stop, net := x.net.stop }

/-- Held finishes are discarded without their flags, and counted (07 R244). -/
def Lnd.discard (l : Lnd) : Lnd := { l with held := [], dropped := satAdd l.dropped l.held.length }

/-- The heat ends on a seat: its page is released and its held finishes go. A seat halted on a fault stays halted (15 R457). -/
def endOnSeat (r h : Nat) (x : Seat) : Seat :=
  let x := releasePage { x with lnd := x.lnd.discard } r h
  if x.cox.state = .halted then { x with cox := { x.cox with dispatched := none, started := false } } else x.rest

/-- The heat ends on each of its seats, whose crews begin to idle (12 R389). -/
def endOnSeats (s : State) (r h : Nat) (seats : List Nat) : State :=
  seats.foldl (fun s w => touchCrew (modSeat s w (endOnSeat r h)) (crewOf w)) s

/-- Tables that hold live epochs: the enabled seats, the two pools at 2304 and 2305, and the fabric complex at 2306 (07 R234). -/
def epochTables (s : State) : List Nat := (List.range 2304).filter (fun w => !(seatOf s w).disabled) ++ [2304, 2305, 2306]

/-- The epoch of a heat retires: every table's entry is invalidated, which each table acknowledges as its CONTROL arrives
(07 R234, R235), and the pools discard the finishes that carry it (07 R244). -/
def retire (s : State) (k : Nat) (epoch : BitVec 16) : State :=
  let s1 := modClass s k fun c => { c with state := 2 }
  let s2 := { s1 with str := { s1.str with lag := s1.str.lag ++ (epochTables s1).map fun t => (t, k, epoch) } }
  [0, 1].foldl (fun s h =>
    let p := poolOf s h
    let gone := p.lnd.held.filter fun f => f.epoch == epoch && f.epoch != 0
    let s := modPool s h fun p => { p with lnd := { p.lnd with held := p.lnd.held.filter fun f => !(f.epoch == epoch && f.epoch != 0) } }
    { s with str := { s.str with dropped := satAdd s.str.dropped gone.length } }) s2

/-! ## Guard totals and heat entries (02 R69, 13 R422) -/

/-- The mask and the saturated totals over the seats that have begun the heat (02 R69). -/
def gather (s : State) (seats : List Nat) : BitVec 4 × List Word :=
  let began := (seats.map fun w => (seatOf s w).cox).filter fun c => c.dispatched.isNone
  (began.foldl (fun m c => m ||| c.tripped) 0,
   (List.range 4).map fun k => began.foldl (fun t c => satAdd t (tget 0 c.guard k).toNat) 0)

/-- OUTCOME codes (13 R422). -/
def outcomeCode : Phase → Nat
  | .skipped => 1
  | .aborted => 2
  | .abandoned => 3
  | .completed | .pending | .ready | .dispatched => 0

/-- A heat entry (13 R422) without PHASE and SEQ. -/
def heatEntry (r h : Nat) (x : Heat) (cause : Nat) (logSeq : Word) (time : BitVec 64) : CEntry :=
  let ep := match x.phase with
    | .completed | .aborted => x.epoch.toNat
    | _ => 0
  let guard := x.gmask.toNat + 16 * b2n (x.gflag && x.phase == .completed) + 32 * b2n x.digest.isSome
  { first := BitVec.ofNat 256 (pack [(2, 1, 1), (8, 8, 2), (16, 16, r), (64, 12, h), (80, 8, outcomeCode x.phase), (88, 8, cause),
      (96, 16, ep), (112, 8, guard), (128, 32, x.dsn.toNat), (160, 32, logSeq.toNat), (192, 64, time.toNat)]),
    second := some (BitVec.ofNat 256 (pack [(1, 1, 1), (64, 64, (x.digest.getD 0).toNat), (128, 32, (x.totals[0]?.getD 0).toNat),
      (160, 32, (x.totals[1]?.getD 0).toNat), (192, 32, (x.totals[2]?.getD 0).toNat), (224, 32, (x.totals[3]?.getD 0).toNat)])) }

/-- The starter hands a heat's entry to the ring that RUN named (07 R230, 13 R422), with its own copy of the time base. -/
def postHeat (s : State) (r h cause : Nat) (logSeq : Word) : State :=
  match runOf s r, heatOf s r h with
  | some run, some x => postEntry s run.ring (heatEntry r h x cause logSeq (domTime s 98))
  | _, _ => s

/-- The starter's record of a heat cause: KIND 3, code 0x0100 + CAUSE, the dispatch sequence number, and for PREDECESSOR the
failed heat (15 R454, R460, R496). -/
def starterRec (s : State) (r h cause : Nat) (pred : Nat) : Record :=
  let x := (heatOf s r h).getD {}
  let ep := if x.phase = .aborted then x.epoch else 0
  (bareRec 3 (0x100 + cause) (domTime s 98) (detail 0 0 0 x.dsn.toNat pred)).ofHeat (hdOf s r h).ctx h ep r

/-! ## Releasing generations (11 R352, R359) -/

/-- The work is a tile write into block `b`. -/
def SideWork.into (b : Nat) : SideWork → Bool
  | .write g _ => g / 1024 == b
  | .fill _ _ => false
  | .diag _ => false
  | .scrub _ _ => false

/-- Block `b` of a seat is released: the scrubber reads it no longer, tile writes into it that still wait are dropped, and it is to be
zero-filled, but where a fill of it is still due (05 R176, 11 R352). -/
def Wst.release (t : Wst) (b : Nat) (due : Bool) : Wst :=
  { t with
    extents := t.extents.filter fun e => e / 1024 != b,
    work := (t.work.filter fun k => !k.into b) ++ if due then [] else [.fill (1024 * b) 1024] }

/-- Release a generation slot of context `c`: its blocks are to be zero-filled, the scrubber reads them no longer, and the slot is
EMPTY (05 R176, 11 R352, R359). -/
def releaseGen (s : State) (c : Nat) (second : Bool) : State :=
  let g := if second then (ctxOf s c).g1 else (ctxOf s c).g0
  let blocks := g.alloc.map fun p => (p.1 / 96) * 96 + p.2
  let s0 := modCtx s c fun x => if second then { x with g1 := {} } else { x with g0 := {} }
  let s1 := blocks.foldl (fun s b => modWst s (b / 96) fun t => t.release (b % 96) (s.ctxs.zeroing.contains b)) s0
  { s1 with ctxs := { s1.ctxs with zeroing := s1.ctxs.zeroing ++ blocks.filter fun b => !s1.ctxs.zeroing.contains b } }

/-- A live run binds generation `n` of context `c` (11 R357). -/
def genBound (s : State) (c n : Nat) : Bool := s.str.runs.any fun p => tfind p.2.gens c == some n

/-- Release each RETIRING generation of context `c` that no live run binds (11 R359). -/
def releaseRetired (s : State) (c : Nat) : State :=
  let s1 := if (ctxOf s c).g0.state = .retiring ∧ genBound s c (ctxOf s c).g0.num = false then releaseGen s c false else s
  if (ctxOf s1 c).g1.state = .retiring ∧ genBound s1 c (ctxOf s1 c).g1.num = false then releaseGen s1 c true else s1

/-! ## The end of a run (07 R220) -/

/-- When every heat of a run has ended the run ends: it is live no more, the generations that it bound may be released, and a
CANCEL of it is answered (07 R220, 11 R359, 13 R421). -/
def settleRun (s : State) (r : Nat) : State :=
  match runOf s r with
  | none => s
  | some run =>
    if run.heats.all fun h => h.phase.ended then
      let s1 := { s with str := { s.str with runs := tdel s.str.runs r } }
      let s2 := run.gens.foldl (fun s p => releaseRetired s p.1) s1
      match run.cancel with
      | some (src, cid) => answerLate s2 src cid stSuccess (run.nAbort + 2 ^ 16 * run.nAbandon)
      | none => s2
    else s

/-! ## Abort and abandonment -/

/-- The abort causes that mark the heat's context (15 R461, R462). -/
def marking (cause : Nat) : Bool := cause == 16 || cause == 17 || cause == 18

/-- Abort a dispatched heat (07 R232): guard totals, seats stopped, epoch retired, pages released, the starter's record, the
context's hold until the causing record has been handled (15 R462), the entry. `seq` is the causing record of a SEAT_FAULT (01 R35). -/
def abortHeat (s : State) (r h cause : Nat) (seq : Word) : State :=
  match heatOf s r h with
  | none => s
  | some x =>
    if x.phase ≠ .dispatched then s
    else
      let g := if x.freed then (x.gmask, x.totals) else gather s x.seats
      let s1 := if x.freed then s else endOnSeats s r h x.seats
      let s2 := retire s1 x.cls x.epoch
      let s3 := modHeat s2 r h fun x => { x with phase := .aborted, gmask := g.1, gflag := false, totals := g.2, digest := none, abortReq := none }
      let s4 := { s3 with str := { s3.str with aborts := satInc s3.str.aborts } }
      let s5 := if marking cause && (cause != 16 || seqAfter seq s4.flt.handled) then
          { s4 with flt := { s4.flt with holds := s4.flt.holds ++
              [{ ctx := (hdOf s r h).ctx, run := r, heat := h, seq := if cause = 16 then some seq else none }] } }
        else s4
      let s6 := report s5 (starterRec s5 r h cause 0)
      settleRun (postHeat s6 r h cause (if cause = 16 then seq else 0)) r

/-- Abandon a heat that has not been dispatched (07 R231): its pages are released, the starter records it, and the entry is
posted. -/
def abandonHeat (s : State) (r h cause pred : Nat) : State :=
  match heatOf s r h with
  | none => s
  | some x =>
    if x.phase ≠ .pending ∧ x.phase ≠ .ready then s
    else
      let s1 := releasePages s r h x.pre
      let s2 := modHeat s1 r h fun x => { x with phase := .abandoned }
      let s3 := { s2 with str := { s2.str with abandons := satInc s2.str.abandons } }
      let s4 := report s3 (starterRec s3 r h cause pred)
      settleRun (postHeat s4 r h cause 0) r

/-- Cancel a live run: its dispatched heats are aborted with `cause`, and the rest abandoned with CANCELLED (07 R231, R232, 15
R466). -/
def cancelRun (s : State) (r cause : Nat) : State :=
  match runOf s r with
  | none => s
  | some run =>
    let n := run.heats.length
    let s1 := (List.range n).foldl (fun s h => abortHeat s r h cause 0) s
    (List.range n).foldl (fun s h => abandonHeat s r h 6 0) s1

/-- Cancel every live run. -/
def cancelRuns (s : State) (cause : Nat) : State := (s.str.runs.map (·.1)).foldl (fun s r => cancelRun s r cause) s

/-! ## Landing counters and dependences (07 R223, R224, R239) -/

/-- KIND, FLAGS, ARG, UNIT and VALUE of a dependence entry (07 R223). -/
def depKind (d : DepRaw) : Nat := fld d.toNat 0 8
def depFlags (d : DepRaw) : Nat := fld d.toNat 8 8
def depArg (d : DepRaw) : Nat := fld d.toNat 16 16
def depUnit (d : DepRaw) : Nat := fld d.toNat 32 32
def depValue (d : DepRaw) : Nat := fld d.toNat 64 64

/-- The counter that a counter dependence names, none where its crew does not present the seat (07 R224). -/
def depCounter (s : State) (d : DepRaw) : Option Word :=
  if depKind d = 3 then some (tget 0 (poolOf s (uHalf (depUnit d))).lnd.ctr (depArg d))
  else (physOf s (uQ (depUnit d)) (uSeat (depUnit d))).map fun w => tget 0 (seatOf s w).lnd.ctr (depArg d)

/-- A counter dependence, seat or pool. -/
def isCounterDep (d : DepRaw) : Bool := depKind d == 2 || depKind d == 3

/-- The counter dependence number `i` of heat `x` is satisfied now (07 R224, R239). -/
def counterMet (s : State) (x : Heat) (d : DepRaw) (i : Nat) : Bool :=
  match depCounter s d with
  | some c => satisfies c (x.targets[i]?.getD 0)
  | none => false

/-- The met bits of heat `x`: a counter dependence that is satisfied now is met, and stays met (07 R224). -/
def latchHeat (s : State) (x : Heat) (d : HeatDesc) : Heat :=
  if x.phase = .pending then
    { x with met := (d.deps.zipIdx).foldl (fun m p => if isCounterDep p.1 && counterMet s x p.1 p.2 then setBit m p.2 else m) x.met }
  else x

/-- The starter tests every counter dependence (07 R224): at admission and at every later change of a counter. -/
def latchDeps (s : State) : State :=
  { s with str := { s.str with runs := s.str.runs.map fun p =>
      (p.1, { p.2 with heats := (p.2.heats.zipIdx).map fun q => latchHeat s q.1 (hdOf s p.1 q.2) }) } }

end Sys2Proof.Machine
end

