-- ==== Sys2Proof/Machine/Land.lean ====
section
/-!
DEFINITION. Landing counters, flag words and the half pools as every kind of traffic meets them (07 R238-R244, 05 R179-R182).
-/
namespace Sys2Proof.Machine
open Host (Outcome)

/-! ## A landing block -/

/-- A held finish on counter `n` notes the value at which its count is first satisfied (07 R242). -/
def Lnd.note (l : Lnd) (n : Nat) : Lnd :=
  let c := tget 0 l.ctr n
  { l with held := l.held.map fun f => if f.ctr = n ∧ f.hit = none ∧ satisfies c f.expect = true then { f with hit := some c } else f }

/-- One granule lands: counter `n` rises by one, modulo 2^32 (07 R238). -/
def Lnd.count (l : Lnd) (n : Nat) : Lnd := Lnd.note { l with ctr := tset 0 l.ctr n (tget 0 l.ctr n + 1) } n

/-- A 32-bit write to a counter or flag word at byte offset `o` sets that word (05 R157, R179, 07 R238). -/
def Lnd.setWord (l : Lnd) (o : Nat) (v : Word) : Lnd :=
  let n := o / 8
  if o % 8 = 0 then Lnd.note { l with ctr := tset 0 l.ctr n v } n else { l with flag := tset 0 l.flag n v }

/-- The counter or flag word at byte offset `o`. -/
def Lnd.word (l : Lnd) (o : Nat) : Word := if o % 8 = 0 then tget 0 l.ctr (o / 8) else tget 0 l.flag (o / 8)

/-- A granule is counted at seat `w`, and the starter tests its dependences (07 R224, R238, R252). -/
def countSeat (s : State) (w n : Nat) : State :=
  latchDeps (modSeat s w fun x => { x with lnd := { x.lnd.count n with granules := satInc x.lnd.granules } })

/-- A granule is counted at the pool of half `h` (07 R224, R238). -/
def countPool (s : State) (h n : Nat) : State := latchDeps (modPool s h fun p => { p with lnd := p.lnd.count n })

/-- A word is set in a seat's space 4 (07 R238). -/
def setSeatWord (s : State) (w o : Nat) (v : Word) : State :=
  latchDeps (modSeat s w fun x => { x with lnd := x.lnd.setWord o v })

/-- A word is set in the counter window of a pool (05 R179). -/
def setPoolWord (s : State) (h o : Nat) (v : Word) : State := latchDeps (modPool s h fun p => { p with lnd := p.lnd.setWord o v })

/-! ## A pool (05 R179-R181) -/

/-- First byte of the counter window (05 R179). -/
abbrev poolWindow : Nat := 0x50000000
/-- First byte after it (05 R147). -/
abbrev poolEnd : Nat := 0x50000800

/-- Pool segment that holds byte `a` (05 R179). -/
def segOf (a : Nat) : Nat := a / 0x4000000

/-- The segment of byte `a` serves requests (05 R180-R182). -/
def segOpen (p : Pool) (a : Nat) : Bool := p.on.getLsbD (segOf a) && p.ready.getLsbD (segOf a) && decide (segOf a < 20)

/-- Write bytes into a pool. -/
def poolWrite (s : State) (h a : Nat) (bs : List Byte) : State := modPool s h fun p => { p with mem := mwrites p.mem a bs }

/-- Write a granule into a pool. -/
def poolGranule (s : State) (h g : Nat) (d : Granule) : State := poolWrite s h (64 * g) (bytesOf d.toNat 64)

end Sys2Proof.Machine
end

