-- ==== Sys2Proof/Machine/Packet.lean ====
section
/-!
DEFINITION. Packets of the on-die network (09 R274-R276): header fields, the epoch check of a destination, and the answers that
go back to a requester.
-/
namespace Sys2Proof.Machine
open Host (Outcome)

/-! ## Header fields (09 R274) -/

def pType (h : Nat) : Nat := fld h 0 4
def pStatus (h : Nat) : Nat := fld h 4 4
def pTag (h : Nat) : Nat := fld h 8 12
def pEpoch (h : Nat) : BitVec 16 := BitVec.ofNat 16 (fld h 20 16)
def pDest (h : Nat) : Nat := fld h 36 64
def pSrc (h : Nat) : Nat := fld h 100 32
def pEng (h : Nat) : Nat := fld h 132 2
def pMcast (h : Nat) : Nat := fld h 134 2
def pMask (h : Nat) : Nat := fld h 136 48
def pLctr (h : Nat) : Nat := fld h 184 8
def pLcen (h : Nat) : Bool := bit h 192
def pLen (h : Nat) : Nat := fld h 193 5
def pWord (h : Nat) : Nat := fld h 298 32
def pExpect (h : Nat) : Nat := fld h 330 32
def pSlack (h : Nat) : Nat := fld h 362 8
def pDheat (h : Nat) : Nat := fld h 370 12
def pRunTag (h : Nat) : Nat := fld h 382 16
/-- Granules that a READ asks for (09 R275). -/
def pCount (h : Nat) : Nat := fld (pMask h) 0 5

abbrev tyWrite : Nat := 1
abbrev tyWord : Nat := 2
abbrev tyFinish : Nat := 3
abbrev tyRead : Nat := 4
abbrev tyRdata : Nat := 5
abbrev tyAck : Nat := 6
abbrev tyNack : Nat := 7
abbrev tyStart : Nat := 8
abbrev tyControl : Nat := 9

/-- Refusal codes (09 R294, 10 R337). -/
abbrev nkAddress : Nat := 1
abbrev nkFenced : Nat := 2
abbrev nkHalfOff : Nat := 3
abbrev nkAsleep : Nat := 4
abbrev nkPage : Nat := 5
abbrev nkFinishFull : Nat := 6

/-- A fabric address of kind 00 (13 R409). -/
def fabricAddr (node half crew seat space off : Nat) : Nat :=
  pack [(50, 12, node), (49, 1, half), (43, 6, crew), (38, 5, seat), (34, 4, space), (0, 34, off)]

/-! ## Live epochs (07 R234) -/

/-- Table of a pool in the list of live-epoch tables. -/
abbrev poolTable (h : Nat) : Nat := 2304 + h
/-- Table of the fabric complex. -/
abbrev fabTable : Nat := 2306

/-- Table `t` accepts traffic of epoch `e`: epoch 0 always, else where its class entry is valid and holds exactly `e`; an entry
whose invalidation has not yet reached the table is still valid (07 R234, R235). -/
def liveAt (s : State) (t : Nat) (e : BitVec 16) : Bool :=
  let k := e.toNat % 64
  e == 0 || ((classOf s k).state == 1 && (classOf s k).epoch == e) || s.str.lag.contains (t, k, e)

/-- A stale arrival at a seat (07 R234, R252). -/
def staleSeat (s : State) (w : Nat) : State := modSeat s w fun x => { x with lnd := { x.lnd with stale := satInc x.lnd.stale } }

/-- A stale arrival at a pool or the fabric complex (07 R234, R253). -/
def staleElse (s : State) : State := { s with str := { s.str with stale := satInc s.str.stale } }

/-! ## Buffers of the network (09 R272) -/

abbrev vcCtl : Nat := 0
abbrev vcReq : Nat := 1
abbrev vcRsp : Nat := 2

/-- Virtual channel of a packet type (09 R275). -/
def chanOf (ty : Nat) : Nat := if tyStart ≤ ty then vcCtl else if tyRdata ≤ ty then vcRsp else vcReq

/-- Nodes of the network after the routers: row switches, the host's and the fabric complex's edge ports, and the pool links. -/
abbrev nodeSwitch : Nat := 2304
abbrev nodeHost : Nat := 2328
abbrev nodeFabric : Nat := 2424
abbrev nodeLink : Nat := 2520

/-- Key of a buffer: node, port, channel. -/
def bufKey (n p v : Nat) : Nat := (n * 16 + p) * 4 + v

/-- A buffer. -/
def bufOf (s : State) (n p v : Nat) : Buf := tget {} s.noc.buf (bufKey n p v)

/-- Change a buffer. -/
def putBuf (s : State) (n p v : Nat) (b : Buf) : State := { s with noc := { s.noc with buf := tset {} s.noc.buf (bufKey n p v) b } }

/-- A flit enters a buffer; where the rest of its packet is discarded it goes (09 R273). -/
def Buf.take (b : Buf) (f : Flit) : Buf := if b.eating then { b with eating := !f.last } else { b with flits := b.flits ++ [f] }

/-- Flits enter a buffer. -/
def push (s : State) (n p v : Nat) (fs : List Flit) : State := putBuf s n p v (fs.foldl Buf.take (bufOf s n p v))

/-- The flits of a packet (09 R274). -/
def flitsOf (t : Trip) (k : Pkt) : List Flit :=
  { head := some t, data := k.hdr, last := k.data.isEmpty } ::
    (k.data.zipIdx).map fun g => { data := g.1, last := g.2 + 1 == k.data.length }

/-! ## Coordinates (01 R16) -/

/-- The router at a chip coordinate, by its physical seat. -/
def routerAt (x y : Nat) : Nat := crewAt x y * 24 + y % 4 * 6 + x % 6

/-! ## Packets at their destinations -/

/-- A packet reaches its destination. -/
def arrive (s : State) (d : Deliv) : State := { s with noc := { s.noc with arrive := s.noc.arrive ++ [d] } }

/-- Take packet `i` from the destinations' queues; a crew at whose port it stood has had work (12 R389). -/
def takeArrive (s : State) (i : Nat) : State :=
  let s1 := { s with noc := { s.noc with arrive := dropAt s.noc.arrive i } }
  match s.noc.arrive[i]? with
  | some d => match d.target with
    | .seat w => touchCrew s1 (crewOf w)
    | _ => s1
  | none => s1

/-- Change packet `i` at its destination. -/
def modArrive (s : State) (i : Nat) (f : Deliv → Deliv) : State := { s with noc := { s.noc with arrive := modAt f s.noc.arrive i } }

/-- Each NACK sent is counted by its code (09 R295, R302). -/
def countNack (s : State) (st : Nat) : State :=
  if 1 ≤ st ∧ st ≤ 7 then { s with noc := { s.noc with nacks := tmod 0 s.noc.nacks st satInc } } else s

/-! ## Answers (09 R274-R276, R279, R285, R495) -/

/-- Unit of the destination that answers (09 R274 SRC). -/
def targetUnit (s : State) (t : Target) : Word :=
  match t with
  | .seat w => seatUnit s w ((logicalOf s w).getD 0)
  | .pool h => unitRef 2 s.chain.node h 0 0 0
  | .fabric | .host => unitRef 3 s.chain.node 0 0 0 0

/-- Address of the requester that an answer returns to (09 R274 DEST): the seat that SRC of the request names, for RDATA its granule of
core memory, or this part's complex. -/
def requesterAddr (h : Nat) (rdata : Bool) : Nat :=
  let u := pSrc h
  let at_ := if rdata then (1, 64 * pWord h) else (0, 0)
  if uLevel u = 0 then fabricAddr (fld u 17 12) (uHalf u) (uCrew u) (uSeat u) at_.1 at_.2 else fabricAddr (fld u 17 12) 0 0 0 0 0

/-- An answer's header: the tag, the epoch and the engine of the packet that it answers, and for RDATA its counter and length. -/
def answerHdr (h : Nat) (src : Word) (ty st word : Nat) : BitVec 512 :=
  let rd := if ty = tyRdata then pack [(184, 8, pLctr h), (192, 1, b2n (pLcen h)), (193, 5, pCount h)] else 0
  BitVec.ofNat 512 (pack [(0, 4, ty), (4, 4, st), (8, 12, pTag h), (20, 16, (pEpoch h).toNat), (36, 64, requesterAddr h (ty == tyRdata)),
    (100, 32, src.toNat), (132, 2, pEng h), (298, 32, word)] + rd)

/-- Send an answer from port `p` of node `n` to the seat that sent the request, or to the complex's port where it entered. An answer that
needs no network is at its complex at once. -/
def sendBack (s : State) (n p : Nat) (sender : Option Nat) (entry : Nat) (hdr : BitVec 512) (data : List Granule) : State :=
  match sender with
  | some w => push s n p vcRsp (flitsOf { goal := .seat w } ⟨hdr, data⟩)
  | none =>
    if n < nodeSwitch then push s n p vcRsp (flitsOf { goal := .edge entry } ⟨hdr, data⟩)
    else if nodeLink ≤ n then push s n p vcRsp (flitsOf {} ⟨hdr, data⟩)
    else arrive s { target := if n < nodeFabric ∧ nodeHost ≤ n then .host else .fabric, pkt := ⟨hdr, data⟩, vc := vcRsp, place := n }

/-- Port of a router through which its seat's answers enter. -/
abbrev portAnswers : Nat := 11

/-- Node and port from which a destination answers (09 R279): its router, the row or link on which the request came, or the complex's
edge port on the requester's column. -/
def backPlace (d : Deliv) : Nat × Nat :=
  match d.target with
  | .seat w => (w, portAnswers)
  | .pool h => if d.place < nodeLink then (d.place, 2 + h) else (d.place, 1)
  | .fabric => (nodeFabric + (coordOf (d.sender.getD 0)).1, 0)
  | .host => (nodeHost + (coordOf (d.sender.getD 0)).1, 0)

/-- The one answer of a multicast, once every member has answered (09 R285): a refusal, staleness, or DONE. -/
def groupAnswer (s : State) (n : Nat) (g : Group) : State :=
  if g.left ≠ 0 then s
  else
    let s1 := { s with noc := { s.noc with groups := tdel s.noc.groups n } }
    let h := g.hdr.toNat
    let own := targetUnit s (.seat g.root)
    let send (s : State) (hdr : BitVec 512) := sendBack s g.root portAnswers (some g.sender) 0 hdr []
    if 0 < g.refused then send (countNack s1 g.code) (answerHdr h g.unit tyNack g.code g.refused)
    else if 0 < g.stale then send s1 (answerHdr h own tyAck 1 g.stale)
    else send s1 (answerHdr h own tyAck 0 0)

/-- A member's answer to a multicast (09 R285, 01 R19). -/
def memberAnswer (g : Group) (unit : Word) (a : Reply) : Group :=
  match a with
  | .done => { g with left := g.left - 1 }
  | .stale => { g with left := g.left - 1, stale := g.stale + 1 }
  | .refuse c =>
    { g with left := g.left - 1, refused := g.refused + 1, code := if g.refused = 0 then c else g.code,
             unit := if g.refused = 0 then unit else g.unit }

/-- A member of gathering `n` answers. -/
def answerMember (s : State) (n : Nat) (unit : Word) (a : Reply) : State :=
  let g := memberAnswer (tget {} s.noc.groups n) unit a
  groupAnswer { s with noc := { s.noc with groups := tput s.noc.groups n g } } n g

/-- Answer a request from port `p` of node `n`, for the unit `src`: to its sender, or into the gathering of a multicast (09 R276,
R285). -/
def answerFrom (s : State) (n p : Nat) (src : Word) (hdr : BitVec 512) (t : Trip) (a : Reply) : State :=
  let h := hdr.toNat
  let send (s : State) (ty st : Nat) := sendBack s n p t.sender t.entry (answerHdr h src ty st 0) []
  match t.group with
  | some g => answerMember s g src a
  | none =>
    match a with
    | .done => send s tyAck 0
    | .stale => send s tyAck 1
    | .refuse c => send (countNack s c) tyNack c

/-- A destination answers a packet (09 R276, R285). -/
def answerPkt (s : State) (d : Deliv) (a : Reply) : State :=
  answerFrom s (backPlace d).1 (backPlace d).2 (targetUnit s d.target) d.pkt.hdr { sender := d.sender, entry := d.entry, group := d.group } a

end Sys2Proof.Machine
end

