-- ==== Sys2Proof/Machine/Link.lean ====
section
/-!
DEFINITION. The fabric links (10 R303-R326): frames and their CRC, credits, the replay buffer, scheduled retrains and failover, and
the sending of fabric packets. A packet is sent whole as soon as its pair has an ACTIVE port with the credits and the replay room
for it; each packet begins a frame of its own (log entry 20).
-/
namespace Sys2Proof.Machine
open Host (Outcome)

/-! ## The fabric header (10 R330) -/

def fType (h : Nat) : Nat := fld h 0 4
def fStatus (h : Nat) : Nat := fld h 4 4
def fTag (h : Nat) : Nat := fld h 8 12
def fSnode (h : Nat) : Nat := fld h 20 12
def fDest (h : Nat) : Nat := fld h 32 64
def fDheatOf (h : Nat) : Nat := fld h 96 12
def fRunTag (h : Nat) : BitVec 16 := BitVec.ofNat 16 (fld h 108 16)
def fPairSeq (h : Nat) : Nat := fld h 124 16
def fFailover (h : Nat) : Bool := bit h 140
def fLcen (h : Nat) : Bool := bit h 142
def fHops (h : Nat) : Nat := fld h 144 5
def fPtr (h : Nat) : Nat := fld h 149 5
/-- Code of hop `k`: direction and side (10 R327). -/
def fHop (h k : Nat) : Nat := fld h (154 + 4 * k) 4
def fLen (h : Nat) : Nat := fld h 218 5
def fLctr (h : Nat) : Nat := fld h 223 8
def fWord (h : Nat) : Nat := fld h 231 32
def fExpectOf (h : Nat) : Nat := fld h 263 32
def fSlackOf (h : Nat) : Nat := fld h 295 8
def fBirth (h : Nat) : Nat := fld h 303 16

/-- Class RSP: answers; every other carried type is of class REQ (09 R271, 10 R333). -/
def fIsRsp (h : Nat) : Bool := decide (tyRdata ≤ fType h)

/-- Granule slots that follow a header (10 R310, R330). -/
def fCarried (h : Nat) : Nat := if fType h = tyWrite ∨ fType h = tyRdata then fLen h else 0

/-- Replace a field of a packet's header. -/
def setHdr (p : Pkt) (lo w v : Nat) : Pkt := { p with hdr := BitVec.ofNat 512 (putFld p.hdr.toNat lo w v) }

/-- The port that a hop code names: 2 × direction + side (10 R303, R327). -/
def hopPort (k : Nat) : Nat := 2 * (k % 8) + k / 8

/-- The hop code that leads back: direction d xor 1 and the same side (10 R333). -/
def hopBack (k : Nat) : Nat := ((k % 8) ^^^ 1) + 8 * (k / 8)

/-! ## Ports and pairs -/

/-- Port `p` (10 R303). -/
def portOf (s : State) (p : Nat) : Port := tget {} s.fab.ports p
/-- Change port `p`. -/
def modPort (s : State) (p : Nat) (f : Port → Port) : State := { s with fab := { s.fab with ports := tput s.fab.ports p (f (portOf s p)) } }
/-- Pair `d` (10 R303). -/
def pairOf (s : State) (d : Nat) : Pair := tget {} s.fab.pairs d
/-- Change pair `d`. -/
def modPair (s : State) (d : Nat) (f : Pair → Pair) : State := { s with fab := { s.fab with pairs := tput s.fab.pairs d (f (pairOf s d)) } }
/-- The partner of a port in its pair (10 R303). -/
def partner (p : Nat) : Nat := if p % 2 = 0 then p + 1 else p - 1
/-- The port is ACTIVE (10 R313). -/
def portLive (s : State) (p : Nat) : Bool := (portOf s p).state == .active
/-- Training state code (10 R313). -/
def PortSt.code : PortSt → Nat
  | .off => 0 | .detect => 1 | .equalise => 2 | .lock => 3 | .width => 4 | .identify => 5 | .creditInit => 6 | .active => 7 | .down => 8

/-- The fabric-link complex's copy of the time base (12 R375, R384). -/
def fabTime (s : State) : BitVec 64 := domTime s 97

/-- A NACK of the fabric codes is counted when it is sent or given (10 R343), one of the codes 1-7 as R302 of 09 says. -/
def countFabNack (s : State) (st : Nat) : State :=
  if 8 ≤ st ∧ st ≤ 11 then { s with fab := { s.fab with nacks := tmod 0 s.fab.nacks st satInc } } else countNack s st

abbrev nkWrongNode : Nat := 8
abbrev nkPortDown : Nat := 9
abbrev nkFabTimeout : Nat := 0xA
abbrev nkNoRoute : Nat := 0xB

/-! ## Frames (10 R308-R310) -/

/-- One byte of the reflected ECMA-182 CRC-64 (10 R309). -/
def crc64 (bs : List Byte) : BitVec 64 :=
  BitVec.ofNat 64 (bs.foldl (crcByte 0xC96C5795D7870F42) 0xFFFFFFFFFFFFFFFF ^^^ 0xFFFFFFFFFFFFFFFF)

def eKind (e : Nat) : Nat := fld e 0 2
def eSeq (e : Nat) : Nat := fld e 2 12
def eAck (e : Nat) : Nat := fld e 14 12
def eAckValid (e : Nat) : Bool := bit e 26
def eNak (e : Nat) : Bool := bit e 27
/-- Kind of slot `k` (10 R308). -/
def eSlot (e k : Nat) : Nat := fld e (28 + 2 * k) 2

/-- The frame's CRC holds (10 R309). -/
def frameGood (f : Frame) : Bool :=
  crc64 (bytesOf f.flit.toNat 256 ++ bytesOf (f.env.toNat % 2 ^ 48) 6) == BitVec.ofNat 64 (fld f.env.toNat 48 64)

/-- A port gives a meaningful ACK: in ACTIVE, and in CREDIT_INIT from the partner's first control frame on (10 R308, R313). -/
def ackMeant (x : Port) : Bool := x.state == .active || x.advSeen

/-- A frame as port `x` sends it: flit and envelope, with ACK, NAK and the CRC (10 R308, R309). -/
def frameOf (x : Port) (kind seq slots : Nat) (again : Bool) (flit : BitVec 2048) : Frame :=
  let e := pack [(0, 2, kind), (2, 12, seq), (14, 12, (x.rxSeq + 4095) % 4096), (26, 1, b2n (ackMeant x)), (27, 1, b2n x.nak), (28, 8, slots),
    (36, 1, b2n again)]
  { flit := flit, env := BitVec.ofNat 112 (putFld e 48 64 (crc64 (bytesOf flit.toNat 256 ++ bytesOf e 6)).toNat) }

/-- The slots of a packet: kind and contents (10 R310). -/
def pktSlots (k : Pkt) : List (Nat × Nat) := (1, k.hdr.toNat) :: k.data.map fun d => (2, d.toNat)

/-- Frames that a packet of `n` granules fills (10 R310). -/
def framesOf (n : Nat) : Nat := (n + 4) / 4

/-- Frame `i` of a packet: the kinds of its slots, and its flit (10 R308, R310). -/
def pktFrame (k : Pkt) (i : Nat) : Nat × BitVec 2048 :=
  let l := ((pktSlots k).drop (4 * i)).take 4
  (pack ((l.zipIdx).map fun p => (2 * p.2, 2, p.1.1)), BitVec.ofNat 2048 (pack ((l.zipIdx).map fun p => (512 * p.2, 512, p.1.2))))

/-- The frames of `t` that are not acknowledged, as port `x` sends them (10 R310, R318). -/
def TxPkt.send (t : TxPkt) (x : Port) (again : Bool) : List Frame :=
  (List.range t.frames).map fun i =>
    let f := pktFrame t.pkt (framesOf t.pkt.data.length - t.frames + i)
    frameOf x 1 ((t.seq + i) % 4096) f.1 again f.2

/-! ## Credits and transmission (10 R317-R322) -/

/-- Credits of class and kind `k`: REQ header, REQ data, RSP header, RSP data at 0-3 (10 R320). -/
def creditOf (x : Port) (k : Nat) : Credit := tget {} x.credit k
/-- Change the credits of class and kind `k`. -/
def modCredit (x : Port) (k : Nat) (f : Credit → Credit) : Port := { x with credit := tput x.credit k (f (creditOf x k)) }
/-- What the sender has charged and not had returned (10 R322). -/
def Credit.owed (c : Credit) : Nat := (c.charged + 65536 - c.returned % 65536) % 65536
/-- Credits in hand (10 R320). -/
def Credit.free (c : Credit) : Nat := c.adv - c.owed
/-- Charge `n` slots, cumulative modulo 2^16 (10 R320, R321). -/
def Credit.charge (c : Credit) (n : Nat) : Credit := { c with charged := (c.charged + n) % 65536 }
/-- Slots received into the buffer (10 R320). -/
def Credit.hold (c : Credit) (n : Nat) : Credit := { c with buffered := c.buffered + n }
/-- Slots that leave the buffer return their credits (10 R321). -/
def Credit.give (c : Credit) (n : Nat) : Credit := { c with buffered := c.buffered - n, given := (c.given + n) % 65536 }
/-- Slots of a discarded duplicate return theirs at once (10 R321). -/
def Credit.back (c : Credit) (n : Nat) : Credit := { c with given := (c.given + n) % 65536 }

/-- First credit key of a packet's class. -/
def classKey (h : Nat) : Nat := if fIsRsp h then 2 else 0

/-- Header and granule slots of the frames of `t` that are still unacknowledged (10 R310, R318). -/
def TxPkt.slotsLeft (t : TxPkt) : Nat × Nat :=
  let n := fCarried t.pkt.hdr.toNat
  let done := framesOf n - t.frames
  if done = 0 then (1, n) else (0, n + 1 - 4 * done)

/-- The sender holds credits for `t` (10 R320). -/
def affords (x : Port) (t : TxPkt) : Bool :=
  let k := classKey t.pkt.hdr.toNat
  decide (t.slotsLeft.1 ≤ (creditOf x k).free) && decide (t.slotsLeft.2 ≤ (creditOf x (k + 1)).free)

/-- Charge the credits of `t` (10 R320). -/
def chargeFor (x : Port) (t : TxPkt) : Port :=
  let k := classKey t.pkt.hdr.toNat
  modCredit (modCredit x k fun c => c.charge t.slotsLeft.1) (k + 1) fun c => c.charge t.slotsLeft.2

/-- Frames in the replay buffer (10 R318). -/
def bufferedFrames (x : Port) : Nat := x.unacked.foldl (fun n t => n + t.frames) 0

/-- The older than 64 µs rule, at a resolution of 1.28 µs, modulo 2^16 (10 R331). -/
def expired (now : BitVec 64) (h : Nat) : Bool := decide (50 < (fld now.toNat 7 16 + 65536 - fBirth h) % 65536)

/-- A packet that leaves its first chip, which stamps BIRTH (10 R330): its next hop is the second, and it has not been sent. -/
def firstChip (h : Nat) : Bool := fPtr h == 1 && !fFailover h

/-- The next packet to send, by index: REQ and RSP in turn, and neither waits for the other (10 R312, R320). -/
def pickTx (x : Port) : Option Nat :=
  let ready (rsp : Bool) : Option Nat :=
    match findIdx (fun p : Pkt => fIsRsp p.hdr.toNat == rsp) x.tx with
    | none => none
    | some i => match x.tx[i]? with
      | none => none
      | some p =>
        let n := framesOf (fCarried p.hdr.toNat)
        if affords x { seq := 0, frames := n, pkt := p } && decide (bufferedFrames x + n ≤ 512) then some i else none
  match ready (!x.lastRsp) with
  | some i => some i
  | none => ready x.lastRsp

/-- A request leaves this part for the first time: the time of its fabric tag begins, with that of the last copy of a multicast (10 R334,
R335). -/
def leaveFirst (s : State) (h : Nat) : State :=
  if firstChip h && !fIsRsp h && !bit h 141 then
    match tfind s.fab.ftags (fTag h) with
    | some f => { s with fab := { s.fab with ftags := tput s.fab.ftags (fTag h) { f with unsent := f.unsent - 1, tick := s.clk.ticks, last := s.clk.ticks } } }
    | none => s
  else s

/-- The packet as it goes out on pair `d`: BIRTH from its first chip, and the pair's next sequence number but for one that failover has moved
(10 R324, R330). -/
def stamped (s : State) (d : Nat) (k : Pkt) : Pkt :=
  let h := k.hdr.toNat
  let k1 := if firstChip h then setHdr k 303 16 (fld (fabTime s).toNat 7 16) else k
  if fFailover h then k1 else setHdr k1 124 16 (pairOf s d).txSeq

/-- The pair has given a number to a packet (10 R324). -/
def numbered (s : State) (d : Nat) (h : Nat) : State :=
  if fFailover h then s else modPair s d fun x => { x with txSeq := (x.txSeq + 1) % 65536 }

/-- Send one packet (10 R317, R318, R320, R324, R330). -/
def sendOne (s : State) (p i : Nat) : State :=
  let x := portOf s p
  match x.tx[i]? with
  | none => s
  | some k =>
    let h := k.hdr.toNat
    let s1 := modPort s p fun x => { x with tx := dropAt x.tx i, lastRsp := fIsRsp h }
    if firstChip h = false ∧ expired (fabTime s) h = true then { s1 with fab := { s1.fab with expired := satInc s1.fab.expired } }
    else
      let n := framesOf (fCarried h)
      let t : TxPkt := { seq := x.txSeq, frames := n, pkt := stamped s (p / 2) k }
      modPort (leaveFirst (numbered s1 (p / 2) h) h) p fun x => { chargeFor x t with
        txSeq := (x.txSeq + n) % 4096, unacked := x.unacked ++ [t], line := t.send x false, nak := false,
        ackTick := if x.unacked.isEmpty then s.clk.ticks else x.ackTick }

/-- A replay goes on with its next packet, while the sender holds its credits; its frames are marked REPLAY (10 R318, R320). -/
def resendOne (s : State) (p : Nat) : Option State :=
  let x := portOf s p
  match x.unacked[x.unacked.length - x.resend]? with
  | some t =>
    if 0 < x.resend ∧ affords x t = true then
      some (modPort s p fun x => { chargeFor x t with resend := x.resend - 1, line := t.send x true, nak := false })
    else none
  | none => none

/-- Send what port `p` can send now: a replay before new traffic (10 R312). -/
def pumpN (p : Nat) : Nat → State → State
  | 0, s => s
  | n + 1, s =>
    if portLive s p = false then s
    else if 0 < (portOf s p).resend then
      match resendOne s p with
      | some t => pumpN p n t
      | none => s
    else match pickTx (portOf s p) with
      | some i => pumpN p n (sendOne s p i)
      | none => s

/-- Send what port `p` can send now. -/
def pump (s : State) (p : Nat) : State := pumpN p ((portOf s p).tx.length + (portOf s p).resend) s

/-- A packet joins the queue of port `p`. -/
def txQueue (s : State) (p : Nat) (k : Pkt) : State := pump (modPort s p fun x => { x with tx := x.tx ++ [k] }) p

/-! ## Answers to the engines (10 R333, R334, R338) -/

/-- Fabric tag `t` (10 R329). -/
def ftagOf (s : State) (t : Nat) : Option Ftag := tfind s.fab.ftags t
/-- Put fabric tag `t`. -/
def putFtag (s : State) (t : Nat) (f : Ftag) : State := { s with fab := { s.fab with ftags := tput s.fab.ftags t f } }
/-- Free fabric tag `t` (10 R329). -/
def freeFtag (s : State) (t : Nat) : State := { s with fab := { s.fab with ftags := tdel s.fab.ftags t } }

/-- The request of a fabric tag is a READ. -/
def Ftag.isRead (f : Ftag) : Bool := pType f.hdr.toNat == tyRead

/-- The request of a fabric tag is a multicast: its copies carry kind 01 (10 R338). -/
def Ftag.isMulti (f : Ftag) : Bool := f.sent.any fun k => fld (fDest k.hdr.toNat) 62 2 == 1

/-- The tag has done its work: it is freed, but for a reissued READ's, which is kept (10 R335). -/
def settleFtag (s : State) (t : Nat) (f : Ftag) : State :=
  if f.isRead && decide (1 < f.issues) then putFtag s t { f with complete := true } else freeFtag s t

/-- Give the engine its on-die answer, by the complex's edge port on the seat's column (10 R333, 09 R276, R279). -/
def giveEngine (s : State) (f : Ftag) (ty st word : Nat) (data : List Granule) : State :=
  let s1 := if ty = tyNack then countFabNack s st else s
  sendBack s1 (nodeFabric + (coordOf f.seat).1) 0 (some f.seat) 0 (answerHdr f.hdr.toNat f.unit ty st word) data

/-- The engine's one answer once every copy has answered (10 R338, 09 R285). A tag that gathers keeps its kind while copies are left. -/
def gatherFtag (s : State) (t : Nat) (f : Ftag) : State :=
  if f.left ≠ 0 then putFtag s t f
  else
    let s1 := settleFtag s t f
    if 0 < f.refused then giveEngine s1 f tyNack f.code f.refused []
    else if 0 < f.stale then giveEngine s1 f tyAck 1 f.stale []
    else giveEngine s1 f tyAck 0 0 []

/-- The hops that a packet coming back has undone: `k` is hop `k` of the request that it answers (10 R333). -/
def undone (h k : Nat) : Nat := hopBack (fHop h (fHops h - 1 - k))

/-- Copy `k` of a multicast is the one that the answer `h` answers: it began with the hops that the answer has undone (10 R333, R338). -/
def answersCopy (h : Nat) (k : Pkt) : Bool := (List.range (fHops h)).all fun i => fHop k.hdr.toNat i == undone h i

/-- The copies of a tag once the first that meets `f` has been answered, and the chip of that copy (01 R19, 10 R338). -/
def Ftag.answered (g : Ftag) (f : Pkt → Bool) : List Pkt × Word :=
  let chip (k : Pkt) : Word := unitRef 3 (fld (fDest k.hdr.toNat) 50 12) 0 0 0 0
  match findIdx f g.sent with
  | some i => (dropAt g.sent i, ((g.sent[i]?).map chip).getD 0)
  | none => (g.sent, ((g.sent.head?).map chip).getD 0)

/-- One answer for a fabric tag that asks for no data: it completes a unicast, and joins a multicast's gathering, where `which` tells the
copy that it answers (10 R333, R338). The first refusal's chip is the unit that the engine's answer names (01 R19). -/
def ftagAnswer (s : State) (t : Nat) (which : Pkt → Bool) (a : Reply) : State :=
  match ftagOf s t with
  | none => s
  | some f =>
    if f.complete then s
    else if f.isMulti = false then
      let s1 := settleFtag s t f
      match a with
      | .done => giveEngine s1 f tyAck 0 0 []
      | .stale => giveEngine s1 f tyAck 1 0 []
      | .refuse c => giveEngine s1 f tyNack c 0 []
    else
      let m := f.answered which
      let g := { f with left := f.left - 1, sent := m.1 }
      match a with
      | .done => gatherFtag s t g
      | .stale => gatherFtag s t { g with stale := f.stale + 1 }
      | .refuse c => gatherFtag s t { g with
          refused := f.refused + 1, code := if f.refused = 0 then c else f.code, unit := if f.refused = 0 then m.2 else f.unit }

/-! ## Routing (10 R323-R326, R331, R333) -/

/-- The port on which a packet for port `p` goes now: `p`, or its partner under failover (10 R324). -/
def choosePort (s : State) (p : Nat) : Option Nat :=
  if portLive s p then some p
  else if portLive s (partner p) && !(pairOf s (p / 2)).split then some (partner p)
  else none

/-- A pair with no ACTIVE port waits for a fast retrain (10 R326). -/
def pairWaits (s : State) (p : Nat) : Bool := (portOf s p).fast || ((portOf s (partner p)).fast && !(pairOf s (p / 2)).split)

/-- The port of the hop that the packet is about to make: HOP_PTR already names the next (10 R331). -/
def nextPort (k : Pkt) : Nat := hopPort (fHop k.hdr.toNat (fPtr k.hdr.toNat - 1))

/-- Send a packet on its pair: on a live port, held for a fast retrain, or refused (10 R324, R326). -/
def routeWith (refuse : State → Pkt → State) (s : State) (k : Pkt) : State :=
  let p := nextPort k
  match choosePort s p with
  | some q => txQueue s q k
  | none =>
    if p < 12 ∧ pairWaits s p = true then modPair s (p / 2) fun d => { d with held := d.held ++ [(s.clk.ticks, k)] }
    else refuse s k

/-- A packet starts on its next pair: HOP_PTR moves on; the pair numbers it when it is sent (10 R324, R331). -/
def onward (k : Pkt) : Pkt := setHdr (setHdr k 149 5 (fPtr k.hdr.toNat + 1)) 140 1 0

/-- An answer that no port can take is lost: the requester's complex gives its transfer up in time (10 R326, R334). -/
def routeAnswer (s : State) (k : Pkt) : State := routeWith (fun s _ => s) s k

/-- Send the answer to a packet that has made `taken` hops: along the reverse of those hops, with its FTAG and SNODE (10 R333). -/
def answerFabric (s : State) (h taken ty st word : Nat) (data : List Granule) : State :=
  let s1 := if ty = tyNack then countFabNack s st else s
  let hops := (List.range taken).map fun k => (154 + 4 * k, 4, hopBack (fHop h (taken - 1 - k)))
  let hdr := pack ([(0, 4, ty), (4, 4, st), (8, 12, fTag h), (20, 12, fSnode h), (144, 5, taken), (218, 5, data.length), (231, 32, word)] ++ hops)
  routeAnswer s1 (onward ⟨BitVec.ofNat 512 hdr, data⟩)

/-- A packet that cannot be sent is refused with NACK PORT_DOWN: to the engine at its source, else back along the hops taken (10
R326, R333). -/
def refusePort (s : State) (k : Pkt) : State :=
  let h := k.hdr.toNat
  if fIsRsp h then s
  else if fPtr h = 1 then ftagAnswer (leaveFirst s h) (fTag h) (fun k => fDest k.hdr.toNat == fDest h) (.refuse nkPortDown)
  else answerFabric s h (fPtr h - 1) tyNack nkPortDown 0 []

/-- Send a packet on its pair, or refuse it (10 R326). -/
def routePkt (s : State) (k : Pkt) : State := routeWith refusePort s k

/-- A packet leaves for its next hop. -/
def launch (s : State) (k : Pkt) : State := routePkt s (onward k)

/-! ## Ports that go down and come back (10 R316, R323, R324) -/

/-- A record of a link event (15 R454, R496). -/
def linkRec (s : State) (code p : Nat) : State :=
  report s (chipRec s 5 code (detail p (portOf s p).state.code (portOf s p).cause 0 0))

/-- A port enters `st`: no link sequence, replay buffer, credits or partly received packet survives (10 R316, R319). The windows stay
readable (10 R344). -/
def freshPort (x : Port) (st : PortSt) : Port :=
  { x with
    state := st, tx := [], unacked := [], resend := 0, rxSlots := [], rspLead := [], txSeq := 0, rxSeq := 0, nak := false, replayRun := 0,
    advSeen := false, ackSeen := false, rxFrames := [], rxPart := if st = .creditInit then x.rxPart else none, sched := false, echo := none,
    credit := x.credit.map fun p => (p.1, { window := p.2.window }) }

/-- Port `p` leaves ACTIVE for state `st` (10 R316, R324, 15 R454): its unacknowledged packets move whole to the partner with FAILOVER
set, and its waiting packets follow; without a live partner they are held or refused. In a split pair nothing that has been sent
moves. -/
def portDown (s : State) (p : Nat) (st : PortSt) (fast : Bool) : State :=
  let x := portOf s p
  let split := (pairOf s (p / 2)).split
  let moved := if split then [] else x.unacked.map fun t => setHdr t.pkt 140 1 1
  let s1 := modPort s p fun x => { freshPort x st with fast := fast }
  let s2 := { s1 with fab := { s1.fab with rx := s1.fab.rx.map fun e => if e.1 = p then (p + 12, e.2) else e } }
  let s3 := linkRec s2 linkDown p
  let s4 := if portLive s3 (partner p) && !split then
      linkRec (modPort s3 p fun x => { x with failovers := satInc x.failovers }) linkFailover p
    else s3
  (moved ++ x.tx).foldl routePkt s4

/-- A scheduled retrain of port `p` may start (10 R323). -/
def mayRetrain (s : State) (p : Nat) : Bool :=
  let q := partner p
  portLive s p && (portOf s p).sched &&
    ((pairOf s (p / 2)).split || !portLive s q || !(portOf s q).sched || decide (p < q))

/-- Start the scheduled fast retrain of port `p` if it may start (10 R316, R323, R344). -/
def startRetrain (s : State) (p : Nat) : State :=
  if mayRetrain s p then
    let credit := (portOf s p).forCredit
    let s1 := modPort s p fun x => { x with fastCount := if credit then satInc x.fastCount else x.fastCount }
    portDown s1 p .creditInit true
  else s

/-- Schedule a fast retrain of port `p` (10 R322, R323). -/
def schedule (s : State) (p : Nat) (credit : Bool) : State :=
  if portLive s p then
    startRetrain (modPort s p fun x => { x with sched := true, forCredit := if x.sched then x.forCredit || credit else credit }) p
  else s

/-- A lane or full retrain (10 R316, R344). -/
def otherRetrain (s : State) (p : Nat) (st : PortSt) : State :=
  portDown (modPort s p fun x => { x with otherCount := satInc x.otherCount }) p st false

/-- Port `p` becomes ACTIVE: held packets of its pair are routed again, and a partner's scheduled retrain may start (10 R323, R324,
R326). -/
def portUp (s : State) (p : Nat) : State :=
  let s1 := modPort s p fun x => { x with state := .active, fast := false, version := x.agreed }
  let held := (pairOf s1 (p / 2)).held
  let s2 := modPair s1 (p / 2) fun d => { d with held := [] }
  let s3 := held.foldl (fun s e => match choosePort s (nextPort e.2) with
    | some q => txQueue s q e.2
    | none => modPair s (p / 2) fun d => { d with held := d.held ++ [e] }) s2
  startRetrain (startRetrain s3 (partner p)) p

/-! ## Acknowledgement and replay (10 R308, R317, R318) -/

/-- A frame is discarded whole: its CRC or a slot failed, or it ran ahead. NAK goes out in the next frame, at most once a
microsecond (10 R317). -/
def setNak (s : State) (p : Nat) : State :=
  modPort s p fun x => if x.nakTick = 0 ∨ x.nakTick + 99 ≤ s.clk.ticks then { x with nak := true, nakTick := s.clk.ticks + 1 } else x

/-- A frame whose CRC fails (10 R309, R317). -/
def crcFails (s : State) (p : Nat) : State := setNak (modPort s p fun x => { x with crcErrs := satInc x.crcErrs }) p

/-- The packets left once frames up to `a` are acknowledged (10 R308, R318). -/
def ackDrop (a : Nat) : List TxPkt → List TxPkt
  | [] => []
  | t :: ts =>
    let d := (a + 4096 - t.seq + 1) % 4096
    if 2048 < d ∨ d = 0 then t :: ts
    else if t.frames ≤ d then ackDrop a ts
    else { t with seq := (t.seq + d) % 4096, frames := t.frames - d } :: ts

/-- The charges of the frames of `t` that are not acknowledged are credited back (10 R321). -/
def creditBack (x : Port) (t : TxPkt) : Port :=
  let k := classKey t.pkt.hdr.toNat
  let less (n : Nat) (c : Credit) : Credit := { c with charged := (c.charged + 65536 - n) % 65536 }
  modCredit (modCredit x k (less t.slotsLeft.1)) (k + 1) (less t.slotsLeft.2)

/-- Resend every frame that is not acknowledged, in order (10 R318): one replay episode; after 8 in a row with no ACK advancing, a lane
retrain. A NAK credits the charges of those frames back first (10 R321). -/
def replay (s : State) (p : Nat) (byNak : Bool) : State :=
  let x := portOf s p
  if x.unacked.isEmpty then s
  else
    let y := if byNak then x.unacked.foldl creditBack x else x
    let y := { y with replays := satInc y.replays, replayRun := y.replayRun + 1, ackTick := s.clk.ticks, resend := y.unacked.length }
    let s1 := modPort s p fun _ => y
    if 8 ≤ y.replayRun then otherRetrain s1 p .lock else pump s1 p

/-- The ACK and NAK that every frame carries (10 R308, R318, R321). A NAK credits back the charges of the frames after the ACK and
charges their replay. -/
def takeAck (s : State) (p : Nat) (e : Nat) : State :=
  let x := portOf s p
  if x.state ≠ .active then (if eAckValid e then modPort s p fun x => { x with ackSeen := true } else s)
  else
    let left := if eAckValid e then ackDrop (eAck e) x.unacked else x.unacked
    let s1 := if left = x.unacked then s
      else modPort (drawn s) p fun x => { x with unacked := left, resend := min x.resend left.length, replayRun := 0, ackTick := s.clk.ticks, rtt := (Config.roundTrip s.free).toNat }
    let s2 := if eNak e then replay s1 p true else s1
    pump s2 p

end Sys2Proof.Machine
end

