-- ==== Sys2Proof/Machine/Mesh.lean ====
section
/-!
DEFINITION. The meshes and the seam (09 R270-R285, R296-R300): nodes, links and crossing FIFOs, the legs of a packet, the entry of packets
with the copies of the seat map, and the passing of one flit from a buffer to the next.
-/
namespace Sys2Proof.Machine
open Host (Outcome)

/-! ## Ports (09 R270, R271, R298)

A router's inputs: 0 local, 1 north, 2 south, 3 west, 4 east; 5-8 the crossing FIFOs before 1-4; 9 and 10 the outbound buffers of the seat's
engines, 11 the answers of its seat. Its outputs: 0-4 as its inputs, 14 from a FIFO into its buffer, 15 into the local input.
A row switch's inputs: 0 and 1 the elastic FIFOs of the halves, 2 and 3 the pools; 4-7 its output queues to half 0, half 1, pool 0 and
pool 1, fed by the outputs of the same numbers and drained by outputs 8-11. An edge port and a pool link: 0 from the complex; a pool link
also 1, to the complex. -/

/-- Input `p` of router `w` receives through a crossing FIFO: its link comes from another crew of the half (09 R296). -/
def isCrossing (w p : Nat) : Bool :=
  let c := coordOf w
  decide (w < 2304) &&
  match p with
  | 1 => c.2 % 4 == 0 && c.2 != 0
  | 2 => c.2 % 4 == 3 && c.2 != 23
  | 3 => c.1 % 6 == 0 && c.1 % 48 != 0
  | 4 => c.1 % 6 == 5 && c.1 % 48 != 47
  | _ => false

/-- The router at the other end of mesh port `p` of router `w`, which has one (09 R270). -/
def neighbour (w p : Nat) : Nat :=
  let c := coordOf w
  match p with
  | 1 => routerAt c.1 (c.2 - 1)
  | 2 => routerAt c.1 (c.2 + 1)
  | 3 => routerAt (c.1 - 1) c.2
  | _ => routerAt (c.1 + 1) c.2

/-- Crossing FIFOs of the chip, by key 16 × router + port (09 R296). -/
def fifos : List Nat := (List.range 2304).flatMap fun w => ([1, 2, 3, 4].filter (isCrossing w)).map fun p => 16 * w + p

/-- The input of a router that a link ends at: the FIFO where the link has one. -/
def meshIn (w p : Nat) : Nat × Nat := (w, if isCrossing w p then p + 4 else p)

/-- Where an output leads. -/
inductive Land where
  /-- Input `p` of node `n`. -/
  | buf (n p : Nat)
  /-- A destination. -/
  | dest (t : Target)
  /-- Nowhere: an unused port (09 R271). -/
  | none
  deriving DecidableEq, Repr

/-- Where output `o` of node `n` leads, for a flit that stands at input `p` (09 R270, R271, R298). -/
def landing (n p o : Nat) : Land :=
  if n < nodeSwitch then
    let c := coordOf n
    let into (a : Nat × Nat) : Land := .buf a.1 a.2
    match o with
    | 0 => .dest (.seat n)
    | 1 => if c.2 = 0 then .dest .host else into (meshIn (routerAt c.1 (c.2 - 1)) 2)
    | 2 => if c.2 = 23 then .dest .fabric else into (meshIn (routerAt c.1 (c.2 + 1)) 1)
    | 3 => if c.1 = 0 then .none else if c.1 = 48 then .buf (nodeSwitch + c.2) 1 else into (meshIn (routerAt (c.1 - 1) c.2) 4)
    | 4 => if c.1 = 95 then .none else if c.1 = 47 then .buf (nodeSwitch + c.2) 0 else into (meshIn (routerAt (c.1 + 1) c.2) 3)
    | 14 => .buf n (p - 4)
    | _ => .buf n 0
  else if n < nodeHost then
    let y := n - nodeSwitch
    match o with
    | 8 => .buf (routerAt 47 y) 4
    | 9 => .buf (routerAt 48 y) 3
    | 10 => .dest (.pool 0)
    | 11 => .dest (.pool 1)
    | _ => .buf n o
  else if n < nodeFabric then .buf (routerAt (n - nodeHost) 0) 1
  else if n < nodeLink then .buf (routerAt (n - nodeFabric) 23) 2
  else if o = 1 then .dest (if n < nodeLink + 4 then .host else .fabric)
  else .dest (.pool (if n < nodeLink + 4 then (n - nodeLink) / 2 else (n - nodeLink - 4) / 8))

/-! ## Room (09 R272, R296-R298, 05 R154) -/

/-- Flits that an input buffer holds, none where the spec gives no bound (log entry 69). -/
def bufferDepth (n p v : Nat) : Option Nat :=
  if n < nodeSwitch ∧ p < 5 then some (if v = vcCtl then 2 else 8)
  else if (n < nodeSwitch ∧ p < 9) ∨ (nodeSwitch ≤ n ∧ n < nodeHost ∧ p < 2) then some 16
  else none

/-- The crossing FIFO withholds its credits: its offset is beyond 8 cycles (09 R297). -/
def withholds (s : State) (n p : Nat) : Bool :=
  decide (n < nodeSwitch ∧ 5 ≤ p ∧ p < 9) && decide (8 < tget 0 s.noc.xing (16 * n + p - 4))

/-- Flits that wait at seat `w` on a channel: those of its packets that have come and have not been written (05 R154, 09 R272). -/
def waitingAt (s : State) (w v : Nat) : Nat :=
  s.noc.arrive.foldl (fun k d => if d.target = .seat w ∧ d.vc = v then k + 1 + d.pkt.data.length - d.wrote.length else k) 0

/-- There is a credit, or room, for one flit (09 R272): the arrival buffer takes 32 flits, the response buffer 16 (05 R154), and the fabric
complex takes no request while every fabric tag is in use (10 R329). -/
def hasRoom (s : State) (l : Land) (v : Nat) : Bool :=
  match l with
  | .buf n p => !withholds s n p && match bufferDepth n p v with
    | some k => decide ((bufOf s n p v).flits.length < k)
    | none => true
  | .dest (.seat w) => if v = vcReq then decide (waitingAt s w v < 32) else if v = vcRsp then decide (waitingAt s w v < 16) else true
  | .dest .fabric => v != vcReq || decide (s.fab.ftags.length < 4096)
  | .dest _ => true
  | .none => false

/-! ## The way of a packet (09 R277-R279, R284) -/

/-- The waypoints of a header, in order (09 R274). -/
def waypoints (h : Nat) : List (Nat × Nat) :=
  (List.range (min 8 (fld h 198 4))).map fun k => (fld h (202 + 12 * k) 7, fld h (209 + 12 * k) 5)

/-- The waypoints still ahead at a router. -/
def Trip.ahead (t : Trip) (c : Nat × Nat) : List (Nat × Nat) := t.legs.dropWhile (· == c)

/-- The output of a dimension-ordered leg toward (X, Y), none where it is there (09 R277). -/
def toward (c d : Nat × Nat) : Option Nat :=
  if c.1 < d.1 then some 4 else if d.1 < c.1 then some 3 else if c.2 < d.2 then some 2 else if d.2 < c.2 then some 1 else none

/-- The edges of the set of routers that a multicast is replicated to: first and last X, first and last Y (09 R284). -/
def treeEdges (g : Goal) : Nat × Nat × Nat × Nat :=
  match g with
  | .crew q => (q / 48 * 48 + q % 8 * 6, q / 48 * 48 + q % 8 * 6 + 5, q % 48 / 8 * 4, q % 48 / 8 * 4 + 3)
  | .half h => (48 * h, 48 * h + 47, 0, 23)
  | _ => (0, 0, 0, 0)

/-- Outputs of a multicast at a router, by the input on which its copy came: along the row from the router of replication, and along the
column from every router of that row, always with the own seat (09 R284). -/
def treeOuts (c : Nat × Nat) (p : Nat) (t : Trip) : List Nat :=
  let e := treeEdges t.goal
  let q := if p < 5 then p else p - 4
  let row := !t.spread || q == 3 || q == 4
  [0] ++ (if e.2.2.1 < c.2 ∧ (row ∨ q = 2) then [1] else []) ++ (if c.2 < e.2.2.2 ∧ (row ∨ q = 1) then [2] else []) ++
    (if e.1 < c.1 ∧ (!t.spread ∨ q = 4) then [3] else []) ++ (if c.1 < e.2.1 ∧ (!t.spread ∨ q = 3) then [4] else [])

/-- Outputs of a packet at router `n`, whose header stands at input `p`. -/
def routerOuts (n p : Nat) (t : Trip) : List Nat :=
  let c := coordOf n
  if 9 ≤ p then [15]
  else if 5 ≤ p then [14]
  else match t.ahead c with
  | w :: _ => (toward c w).toList
  | [] =>
    match t.goal with
    | .seat w => [(toward c (coordOf w)).getD 0]
    | .pool _ => [if c.1 < 48 then 4 else 3]
    | .away => [2]
    | .edge e => [(toward c (if e < nodeFabric then (e - nodeHost, 0) else (e - nodeFabric, 23))).getD (if e < nodeFabric then 1 else 2)]
    | .crew _ | .half _ => treeOuts c p t

/-- The half toward which a packet from input `p` of a row switch leaves for a mesh: the other half, or from a pool its seat's. -/
def meshHalf (p : Nat) (t : Trip) : Nat :=
  if p = 0 then 1 else if p = 1 then 0 else match t.goal with
    | .seat w => halfOf w
    | _ => 0

/-- Outputs of a packet at any node. -/
def outsAt (n p : Nat) (t : Trip) : List Nat :=
  if n < nodeSwitch then routerOuts n p t
  else if n < nodeHost then
    if 4 ≤ p then [p + 4]
    else match t.goal with
      | .pool h => [if t.legs = [] then 6 + h else 4 + meshHalf p t]
      | _ => [4 + meshHalf p t]
  else [p]

/-- The header's way beyond a router: the waypoints it has passed are behind it, and at the last one replication begins. -/
def Trip.pass (n p : Nat) (t : Trip) : Trip :=
  if n < nodeSwitch ∧ p < 5 then
    let legs := t.ahead (coordOf n)
    { t with legs := legs, spread := t.spread || (legs.isEmpty && match t.goal with
        | .crew _ | .half _ => true
        | _ => false) }
  else t

/-! ## The copies of the seat map (09 R282) -/

/-- The logical seats of crew `q` in the copy of node `n`. -/
def mapAt (s : State) (n q : Nat) : List Nat :=
  match s.noc.mapLag.find? fun e => e.1 == q && e.2.2.contains n with
  | some e => e.2.1
  | none => (mapOf s q).phys

/-- Physical seat of logical seat `l` of crew `q` in the copy of node `n`. -/
def physAt (s : State) (n q l : Nat) : Option Nat := (mapAt s n q)[l]?.map (q * 24 + ·)

/-- Every copy: the routers, the row switches and the edge ports. -/
def mapCopies : List Nat := List.range nodeLink

/-- A new map of crew `q` is sent to every copy, each of which lists what it listed until its CONTROL packet has come. -/
def lagMap (s : State) (q : Nat) : State :=
  let late := (s.noc.mapLag.filter fun e => e.1 == q).flatMap (·.2.2)
  { s with noc := { s.noc with mapLag := s.noc.mapLag ++ [(q, (mapOf s q).phys, mapCopies.filter fun n => !late.contains n)] } }

/-- A copy takes the new map of crew `q`. -/
def takeMap (s : State) (n q : Nat) : State :=
  { s with noc := { s.noc with mapLag :=
      (s.noc.mapLag.map fun e => if e.1 = q then (e.1, e.2.1, e.2.2.filter (· != n)) else e).filter fun e => !e.2.2.isEmpty } }

/-! ## Entry (09 R282, R284, R494) -/

/-- A multicast packet: members as (crew q, logical seat) (09 R284), as the copy of node `n` lists them. -/
def members (s : State) (n h : Nat) : List (Nat × Nat) :=
  let half := fld (pDest h) 49 1
  if pMcast h = 1 then ((List.range 24).filter (bit (pMask h))).map fun l => (half * 48 + fld (pDest h) 43 6, l)
  else (((List.range 48).filter (bit (pMask h))).map fun q =>
    (List.range (mapAt s n (half * 48 + q)).length).map fun l => (half * 48 + q, l)).flatten

/-- The router of replication: the last waypoint, or router `n` (09 R284). -/
def replicator (n h : Nat) : Nat :=
  match (waypoints h).getLast? with
  | some c => routerAt c.1 c.2
  | none => n

/-- A multicast of seat `w` enters the mesh (09 R282, R285): members at or above the count are recorded as refused, and its answers will
be gathered. Where no member is left it is answered at once. -/
def enterMulticast (s : State) (w : Nat) (hdr : BitVec 512) : State × Option Trip :=
  let h := hdr.toNat
  let ms := members s w h
  let bad := ms.filter fun m => (physAt s w m.1 m.2).isNone
  let n := s.noc.nextGroup
  let first := (bad[0]?).getD (0, 0)
  let g : Group :=
    { left := ms.length - bad.length, refused := bad.length, code := if bad.isEmpty then 0 else nkAddress, hdr := hdr, sender := w,
      root := if ms.length = bad.length then w else replicator w h,
      unit := if bad.isEmpty then 0 else unitRef 0 s.chain.node (first.1 / 48) (first.1 % 48) first.2 0 }
  let s1 := { s with noc := { s.noc with nextGroup := n + 1, groups := tput s.noc.groups n g } }
  if g.left = 0 then (groupAnswer s1 n g, none)
  else
    let half := fld (pDest h) 49 1
    (s1, some { legs := waypoints h, sender := some w, group := some n, entry := w,
                goal := if pMcast h = 1 then .crew (half * 48 + fld (pDest h) 43 6) else .half half })

/-- A seat's packet meets the router at which it enters the mesh (09 R278, R282): its way, none where the router has answered it. -/
def enterSeat (s : State) (w : Nat) (hdr : BitVec 512) : State × Option Trip :=
  let h := hdr.toNat
  let a := pDest h
  let t : Trip := { legs := waypoints h, sender := some w, entry := w }
  let refuse := (answerFrom s w portAnswers (targetUnit s (.seat w)) hdr t (.refuse nkAddress), none)
  if 2 ≤ fld a 62 2 then refuse
  else if fld a 50 12 ≠ s.chain.node then (s, some t)
  else if fld a 34 4 = 8 then (s, some { t with goal := .pool (fld a 49 1) })
  else if pMcast h ≠ 0 then enterMulticast s w hdr
  else if 47 < fld a 43 6 then refuse
  else match physAt s w (fld a 49 1 * 48 + fld a 43 6) (fld a 38 5) with
  | none => refuse
  | some d => (s, some { t with goal := .seat d })

/-- A complex's packet goes to a seat by the edge port `base` + X of its column, which resolves it (09 R279, R282, R299, R494): the copy of
the crew's first column is asked (log entry 69). -/
def enterEdge (s : State) (base : Nat) (k : Pkt) : State :=
  let h := k.hdr.toNat
  let a := pDest h
  let half := fld a 49 1
  let q := half * 48 + fld a 43 6
  let first := base + half * 48 + fld a 43 6 % 8 * 6
  let refuse (n code : Nat) :=
    answerFrom s n 0 (targetUnit s (if base = nodeHost then .host else .fabric)) k.hdr { entry := n } (.refuse code)
  if 47 < fld a 43 6 then refuse first nkAddress
  else match physAt s first q (fld a 38 5) with
  | none => refuse first nkAddress
  | some d =>
    let n := base + (coordOf d).1
    if seatFenced s d && (halfEasy s half || halfBoated s half) then refuse n nkFenced
    else if halfBoated s half then refuse n nkHalfOff
    else push (noteHeld s half) n 0 (chanOf (pType h)) (flitsOf { goal := .seat d, entry := n } k)

/-- A complex's packet for a pool goes by one of its links (09 R271, R299): which one is a free value. -/
def enterLink (s : State) (first count : Nat) (h : Nat) (k : Pkt) : State :=
  let n := first + count * h + Config.poolLink s.free % count
  if halfBoated s h then answerFrom s n 1 (targetUnit s (.pool h)) k.hdr { entry := n } (.refuse nkHalfOff)
  else push (noteHeld (drawn s) h) n 0 vcReq (flitsOf { goal := .pool h, entry := n } k)

/-! ## One flit (09 R272, R273, R277-R285, R296-R300) -/

/-- A buffer as ROUTER_FORWARD finds it: an engine's outbound buffer is the engine's own. -/
def source (s : State) (n p v : Nat) : Buf :=
  let b := bufOf s n p v
  if n < nodeSwitch ∧ (p = 9 ∨ p = 10) ∧ v = vcReq then
    { b with flits := ((seatOf s n).eng (if p = 9 then 0 else 1)).outbox }
  else b

/-- Change it. -/
def putSource (s : State) (n p v : Nat) (b : Buf) : State :=
  if n < nodeSwitch ∧ (p = 9 ∨ p = 10) ∧ v = vcReq then
    modEng (putBuf s n p v { b with flits := [] }) n (if p = 9 then 0 else 1) fun g => { g with outbox := b.flits }
  else putBuf s n p v b

/-- The outputs that the first flit of a buffer is still to take. -/
def dueOuts (n p : Nat) (b : Buf) : List Nat :=
  if b.left ≠ [] then b.left
  else match b.flits with
  | [] => []
  | f :: _ => match f.head with
    | some t => outsAt n p t
    | none => b.outs

/-- The clock in which a node forwards runs: the crew's network clock, the seam's, or for edges and links the complex's (09 R270, R298). -/
def nodeRuns (s : State) (n : Nat) : Bool :=
  if n < nodeSwitch then (domOf s (crewOf n)).stop == .none
  else if n < nodeHost then (domOf s 96).stop == .none
  else if n < nodeFabric then true
  else (domOf s 97).stop == .none

/-- Both sides of a crossing run: while either crew is stopped its FIFO holds its contents (09 R297). -/
def linkRuns (s : State) (n p : Nat) : Bool :=
  nodeRuns s n && (!(decide (n < nodeSwitch ∧ 5 ≤ p ∧ p < 9)) || nodeRuns s (neighbour n (p - 4)))

/-- An output's destination takes packets now: a seat whose crew is in Paddle, and a half or pool that is not in Row or Paddle, do not
(09 R299). -/
def outOpen (s : State) (n o : Nat) : Bool :=
  if n < nodeSwitch then o != 0 || !(domOf s (crewOf n)).paddle
  else if n < nodeHost then decide (o < 8) || (!halfEasy s (o % 2) && !halfBoated s (o % 2))
  else if n < nodeLink then
    let x := if n < nodeFabric then n - nodeHost else n - nodeFabric
    !halfEasy s (x / 48) && !halfBoated s (x / 48)
  else o == 1 || match landing n 0 0 with
    | .dest (.pool h) => !halfEasy s h && !halfBoated s h
    | _ => true

/-- The first flit of input `p` on channel `v` could leave by output `o` but for the rules between packets. -/
def couldPass (s : State) (n p v o : Nat) : Bool :=
  let b := source s n p v
  (dueOuts n p b).contains o && !b.flits.isEmpty && linkRuns s n p && outOpen s n o && hasRoom s (landing n p o) v &&
    match tget 0 s.noc.lock (bufKey n o v) with
    | 0 => (b.flits.head?.bind (·.head)).isSome
    | k + 1 => k == p

/-- An input's packet on channel `v` could use output `o`. -/
def couldUse (s : State) (n v o : Nat) : Bool := (List.range 12).any fun p => couldPass s n p v o

/-- The rules of 09 R272 between packets that want one output: CTL goes first; of REQ and RSP the packet that has won it keeps it as long
as it can move, and the other has its turn next (log entry 69). -/
def mayPass (s : State) (n p v o : Nat) : Bool :=
  couldPass s n p v o &&
  (v == vcCtl ||
   (!couldUse s n vcCtl o &&
    let other := if v = vcReq then vcRsp else vcReq
    if tget 0 s.noc.lock (bufKey n o v) ≠ 0 then true
    else if tget 0 s.noc.lock (bufKey n o other) ≠ 0 then !couldUse s n other o
    else !(tget 0 s.noc.turn (16 * n + o) == v && couldUse s n other o)))

/-- A flit goes to a destination: a header begins a packet there, and data joins the packet that came before it from the same place. The
rest of a discarded packet never comes, and what has come of it goes. -/
def handOver (s : State) (n v : Nat) (t : Target) (f : Flit) : State :=
  match f.head with
  | some h =>
    arrive s { target := t, pkt := ⟨f.data, []⟩, full := f.last, place := n, vc := v, group := h.group, sender := h.sender, entry := h.entry }
  | none =>
    let open_ (d : Deliv) : Bool := d.target == t && d.place == n && d.vc == v && !d.full
    match findIdx open_ s.noc.arrive with
    | none => s
    | some i =>
      if f.cut then takeArrive s i
      else modArrive s i fun d =>
        { d with pkt := if d.verdict.isSome then d.pkt else ⟨d.pkt.hdr, d.pkt.data ++ [f.data]⟩, full := f.last }

/-- A flit leaves by an output. -/
def landFlit (s : State) (n p v o : Nat) (f : Flit) : State :=
  match landing n p o with
  | .buf m q => push s m q v [f]
  | .dest t => handOver s n v t f
  | .none => s

/-- The output after a flit of a packet from input `p`: held by it until its last flit, and its channel has won it (09 R272). -/
def noteOutput (s : State) (n p v o : Nat) (f : Flit) : State :=
  { s with noc := { s.noc with
      lock := tset 0 s.noc.lock (bufKey n o v) (if f.last then 0 else p + 1)
      turn := if v ≠ vcCtl ∧ f.head.isSome = true then tset 0 s.noc.turn (16 * n + o) v else s.noc.turn } }

/-- The buffer after its first flit has taken output `o`. -/
def Buf.passed (b : Buf) (due : List Nat) (o : Nat) (f : Flit) : Buf :=
  let left := due.filter (· != o)
  let b := match f.head with
    | some t => if b.left = [] then { b with outs := due, hdr := f.data, sender := t.sender } else b
    | none => b
  if left ≠ [] then { b with left := left }
  else if f.last then { flits := b.flits.drop 1, eating := b.eating }
  else { b with flits := b.flits.drop 1, left := [] }

/-- The flits after the packet at the front, and whether the rest of that packet is still to come. -/
def afterPacket : List Flit → List Flit × Bool
  | [] => ([], true)
  | f :: t => if f.last then (t, false) else afterPacket t

/-- A buffer whose first packet is discarded: what is still to come of it goes too (09 R273). -/
def Buf.discard (b : Buf) : Buf := { flits := (afterPacket b.flits).1, eating := (afterPacket b.flits).2 }

/-- The heat that holds an epoch: run and heat index. -/
def epochHeat (s : State) (e : BitVec 16) : Option (Nat × Nat) :=
  let k := classOf s (e.toNat % 64)
  if e ≠ 0 ∧ k.state ≠ 0 ∧ k.epoch = e ∧ (heatOf s k.run k.heat).isSome = true then some (k.run, k.heat) else none

/-- A KIND 2 record of domain `d` charged to the heat of an epoch, or to none (15 R453, R496). -/
def chargedRec (s : State) (d code : Nat) (unit : Word) (e : BitVec 16) (det : BitVec 128) : Record :=
  let r := { bareRec 2 code (domTime s d) det with unit := unit }
  match epochHeat s e with
  | some (run, h) => r.ofHeat (hdOf s run h).ctx h e run
  | none => r

/-- A packet is discarded for an uncorrectable word or a reserved TYPE (09 R273, R275). -/
def discarded (s : State) : State := { s with noc := { s.noc with eccBad := satInc s.noc.eccBad } }

/-- NOC_ECC_UNCORRECTED at router `n` (09 R273, 15 R454, R460): against the heat of the packet's epoch, or the complex that sent it. A
router stands in its crew's domain, a row switch in the seam's (12 R375). -/
def eccRec (s : State) (n : Nat) (sender : Option Nat) (hdr : BitVec 512) : State :=
  let unit := match sender with
    | some w => seatUnit s w (seatOf s w).cox.logical
    | none => unitRef 3 s.chain.node 0 0 0 0
  report s (chargedRec s (if n < 2304 then crewOf n else 96) nocEcc unit (pEpoch hdr.toNat) (detail 0 0 0 noWord 0))

/-- The router of a fenced seat answers for it: a request is refused, and in a multicast the seat is skipped (09 R285, R300). -/
def skipMember (s : State) (t : Trip) (unit : Word) : State :=
  match t.group with
  | some g => answerMember { s with noc := { s.noc with skips := satInc s.noc.skips } } g unit .done
  | none => s

/-- Seat `w` is a member of a multicast: a logical seat that its router lists, whose bit or crew MASK names (09 R284). -/
def isMember (s : State) (w h : Nat) : Bool :=
  match findIdx (· == w % 24) (mapAt s w (crewOf w)) with
  | none => false
  | some l => if pMcast h = 1 then bit (pMask h) l else bit (pMask h) (crewOf w % 48)

/-- The packet at the front of a buffer does not take the output to the router's own seat. -/
def Buf.dropLocal (b : Buf) (due : List Nat) (t : Trip) (f : Flit) : Buf :=
  let b := if b.left = [] then { b with outs := due, hdr := f.data, sender := t.sender } else b
  let outs := b.outs.filter (· != 0)
  let left := due.filter (· != 0)
  if outs = [] then b.discard
  else if left ≠ [] then { b with outs := outs, left := left }
  else if f.last then { flits := b.flits.drop 1, eating := b.eating }
  else { b with outs := outs, left := [], flits := b.flits.drop 1 }

/-- A header at router `n` leaves its own seat out. -/
def dropLocal (s : State) (n p v : Nat) (t : Trip) (f : Flit) : State :=
  let b := source s n p v
  putSource s n p v (b.dropLocal (dueOuts n p b) t f)

/-- What a header meets at router `n` before its packet may take the output to its seat: none where nothing (09 R284, R285, R299, R300).
A crew in Paddle holds the packet and wakes. -/
def atOwnSeat (s : State) (n p v : Nat) (t : Trip) (f : Flit) : Option State :=
  let h := f.data.toNat
  let many := t.group.isSome
  if many && !isMember s n h then some (dropLocal s n p v t f)
  else if seatFenced s n && many then some (skipMember (dropLocal s n p v t f) t (targetUnit s (.seat n)))
  else if seatFenced s n && v == vcReq then
    some (answerFrom (putSource s n p v (source s n p v).discard) n portAnswers (targetUnit s (.seat n)) f.data t (.refuse nkFenced))
  else if (domOf s (crewOf n)).paddle then
    let b := source s n p v
    if b.noted then some s
    else
      let s1 := putSource s n p v { b with noted := true }
      let s2 := { s1 with noc := { s1.noc with seamHeld := satInc s1.noc.seamHeld } }
      let m := domOf s2 (crewOf n)
      if m.waking then some s2
      else some (modDom { s2 with noc := { s2.noc with wakes := satInc s2.noc.wakes } } (crewOf n) fun m => { m with waking := true })
  else none

/-- The members of a multicast that a Boated half refuses: fenced seats are skipped (09 R285, R299, R494). -/
def refuseMembers (s : State) (t : Trip) (h : Nat) : State :=
  match t.group with
  | none => s
  | some g =>
    ((members s ((t.sender).getD 0) h).filterMap fun m => physAt s ((t.sender).getD 0) m.1 m.2).foldl
      (fun s w => if seatFenced s w then skipMember s t (targetUnit s (.seat w))
        else answerMember s g (targetUnit s (.seat w)) (.refuse nkHalfOff)) s

/-- The half that a row switch's output queue `o` leads to. -/
def queueHalf (o : Nat) : Nat := o % 2

/-- What a header meets at a row switch before its output queue (09 R299, R494): toward a half in Boated a request is refused, a fenced
seat's in its own name, and an answer is lost; toward a half in Easy it will be held, and counts. -/
def atSeam (s : State) (n p v o : Nat) (t : Trip) (hdr : BitVec 512) : Option State :=
  let h := queueHalf o
  if 8 ≤ o ∨ (halfEasy s h = false ∧ halfBoated s h = false) then none
  else
    let gone := putSource s n p v (source s n p v).discard
    let back := 4 + (t.sender.map halfOf).getD 0
    let refuse (code : Nat) := some (answerFrom gone n back (targetUnit s (.pool h)) hdr t (.refuse code))
    let fenced := match t.goal with
      | .seat w => seatFenced s w && v == vcReq
      | _ => false
    if fenced then refuse nkFenced
    else if halfEasy s h then
      let b := source s n p v
      if b.noted then none else some (noteHeld (putSource s n p v { b with noted := true }) h)
    else if v ≠ vcReq then some gone
    else if t.group.isSome then some (refuseMembers gone t hdr.toNat)
    else refuse nkHalfOff

/-- An engine's packet leaves its outbound buffer: the seat runs, and fewer than 128 packets of the engine are on their way (09 R292, R300,
06 R193). -/
def outboxOpen (s : State) (n p : Nat) : Bool :=
  let x := seatOf s n
  let g := x.eng (if p = 9 then 0 else 1)
  let waiting := (g.outbox.filter fun f => f.head.isSome).length
  seatRuns x && decide (g.out.length - waiting < 128)

/-- The header of an engine's packet meets its router: its way is set, or the packet is answered and goes. -/
def enterMesh (s : State) (n p : Nat) (f : Flit) : State :=
  let r := enterSeat s n f.data
  let b := source r.1 n p vcReq
  match r.2 with
  | none => putSource r.1 n p vcReq b.discard
  | some t => putSource r.1 n p vcReq { b with flits := { f with head := some t } :: b.flits.drop 1 }

/-- The first flit of a buffer passes to output `o` (09 R272, R273): `ecc` is 0 where its words are clean, 1 where one was corrected, and
more where one could not be, which discards the packet; what has gone on of it is closed by a cut flit. A
crew whose local port it leaves has had work (12 R389). -/
def passFlit (s : State) (n p v o ecc : Nat) (f : Flit) : State :=
  let b := source s n p v
  let due := dueOuts n p b
  let first := b.left == []
  if first && decide (2 ≤ ecc) then
    match f.head with
    | some t => eccRec (discarded (putSource s n p v b.discard)) n t.sender f.data
    | none =>
      let rest := afterPacket b.flits
      eccRec (discarded (putSource s n p v { b with flits := { last := true, cut := true } :: rest.1, eating := rest.2 })) n b.sender b.hdr
  else
    let s1 := if first && ecc == 1 then { s with noc := { s.noc with eccOk := satInc s.noc.eccOk } } else s
    let g := match f.head with
      | some t => { f with head := some (t.pass n p) }
      | none => f
    let s2 := landFlit (noteOutput (putSource s1 n p v (b.passed due o f)) n p v o f) n p v o g
    if n < nodeSwitch ∧ (p = 0 ∨ 9 ≤ p) then touchCrew s2 (crewOf n) else s2

/-- ROUTER_FORWARD (09 R272, R273, R277-R285, R297-R300): at node `n`, the first flit of channel `v` of input `p` goes to output `o`, if
its way leads there and the rules between packets, credits and clocks let it. A header is first resolved where it enters the mesh, and
held, refused or skipped where its way ends. -/
def execRouterForward (n : NodeIx) (p : NodePort) (v : VcIx) (o : NodePort) (ecc : Nat) (s : State) : Outcome State Fault Refusal :=
  let b := source s n.val p.val v.val
  match b.flits with
  | [] => .next s
  | f :: _ =>
    if linkRuns s n.val p.val = false then .next s
    else match f.head with
    | none => if mayPass s n.val p.val v.val o.val then .next (passFlit s n.val p.val v.val o.val ecc f) else .next s
    | some t =>
      let ty := pType f.data.toNat
      if ty = 0 ∨ tyControl < ty then .next (discarded (putSource s n.val p.val v.val b.discard))
      else if t.entered = false then
        if outboxOpen s n.val p.val then .next (enterMesh s n.val p.val f) else .next s
      else
        let met := if (dueOuts n.val p.val b).contains o.val = false then none
          else if n.val < nodeSwitch ∧ p.val < 5 ∧ o.val = 0 then atOwnSeat s n.val p.val v.val t f
          else if nodeSwitch ≤ n.val ∧ n.val < nodeHost then atSeam s n.val p.val v.val o.val t f.data
          else none
        match met with
        | some s1 => .next s1
        | none => if mayPass s n.val p.val v.val o.val then .next (passFlit s n.val p.val v.val o.val ecc f) else .next s

/-! ## Crossings between crews (09 R296, R297) -/

/-- The crossing FIFOs of the links between crew `q` and others, in both directions. -/
def crewFifos (q : Nat) : List Nat :=
  fifos.filter fun k => crewOf (k / 16) == q || crewOf (neighbour (k / 16) (k % 16)) == q

/-- The offset of one FIFO becomes `m`; passing beyond 8 cycles begins an episode of back-pressure (09 R297). -/
def setOffset (s : State) (k m : Nat) : State :=
  { s with noc := { s.noc with
      xing := tset 0 s.noc.xing k m,
      xingBp := if tget 0 s.noc.xing k ≤ 8 ∧ 8 < m then satInc s.noc.xingBp else s.noc.xingBp } }

/-- Crew `q` has moved in phase: each of its crossings' offsets becomes what the phases of its two sides make it (09 R297), a free value
(log entry 1). -/
def crossingMoves (s : State) (q : Nat) : State :=
  (crewFifos q).foldl (fun t k => setOffset t k (Config.crossing s.free k)) (drawn s)

/-- CROSSING_RECENTRE (09 R297): a FIFO that has been empty for 16 cycles returns to its calibrated latency. -/
def execCrossingRecentre (n : NodeIx) (p : NodePort) (s : State) : Outcome State Fault Refusal :=
  if isCrossing n.val p.val && (List.range 3).all fun v => (bufOf s n.val (p.val + 4) v).flits.isEmpty then
    .next (setOffset s (16 * n.val + p.val) 0)
  else .next s

/-- The calibrated latency of a FIFO (09 R296). -/
def latencyOf (s : State) (k : Nat) : Nat := tget s.noc.latBase s.noc.lat k

end Sys2Proof.Machine
end

