-- ==== Sys2Proof/Machine/Reed.lean ====
section
/-!
DEFINITION. The RS(544,514) code of the Usnel links over GF(2^10) (10 R306, R307), as IEEE 802.3 has it: the field of x^10 + x^3 + 1, a
generator with the roots 1, a, ..., a^29, the first symbol of highest power, and the lowest bit of a symbol first (log entry 21).
-/
namespace Sys2Proof.Machine

/-! ## The field -/

/-- Multiply by a (10 R306). -/
def gfDouble (x : Nat) : Nat := if x < 512 then 2 * x else (2 * x) ^^^ 0x409

/-- Product of two field elements, from the highest bit of the second down. -/
def gfMul (x y : Nat) : Nat :=
  if x = 0 then 0 else
  [9, 8, 7, 6, 5, 4, 3, 2, 1, 0].foldl (fun p i => let d := gfDouble p; if y.testBit i then d ^^^ x else d) 0

/-- The inverse of a field element, its 1022nd power; 0 of 0. -/
def gfInv (x : Nat) : Nat :=
  ((List.range 9).foldl (fun (r : Nat × Nat) _ => let q := gfMul r.1 r.1; (q, gfMul r.2 q)) (x, 1)).2

/-- The first `n` elements of v, v x, v x^2, ... -/
def gfSteps (x : Nat) : Nat → Nat → List Nat
  | _, 0 => []
  | v, n + 1 => v :: gfSteps x (gfMul v x) n

/-- The first `n` powers of an element, from its 0th on. -/
def gfPowers (x n : Nat) : List Nat := gfSteps x 1 n

/-- The value at `x` of a polynomial with its highest coefficient first. -/
def gfHorner (x : Nat) (cs : List Nat) : Nat := cs.foldl (fun v c => gfMul v x ^^^ c) 0

/-- The value at `x` of a polynomial with its lowest coefficient first. -/
def gfAt (cs : List Nat) (x : Nat) : Nat := gfHorner x cs.reverse

/-- Sum of two polynomials, lowest coefficient first. -/
def gfAdd : List Nat → List Nat → List Nat
  | [], ys => ys
  | xs, [] => xs
  | x :: xs, y :: ys => (x ^^^ y) :: gfAdd xs ys

/-- Coefficient `n` of the product of two polynomials. -/
def gfCoeff (xs ys : List Nat) (n : Nat) : Nat := (List.range (n + 1)).foldl (fun v i => v ^^^ gfMul (xs.getD i 0) (ys.getD (n - i) 0)) 0

/-! ## Decoding -/

/-- Symbols of a codeword and of its message (10 R306). -/
abbrev rsSymbols : Nat := 544
abbrev rsMessage : Nat := 514

/-- The 30 syndromes of a received word. -/
def rsSyndromes (w : List Nat) : List Nat := (gfPowers 2 30).map fun x => gfHorner x w

/-- The search for the shortest recurrence of the syndromes: locator, last locator, length, shift, and last discrepancy. -/
structure RsSearch where
  loc : List Nat := [1]
  old : List Nat := [1]
  len : Nat := 0
  shift : Nat := 1
  last : Nat := 1

/-- Take in syndrome `n`. -/
def RsSearch.next (syn : List Nat) (r : RsSearch) (n : Nat) : RsSearch :=
  let d := (List.range (r.len + 1)).foldl (fun v i => v ^^^ gfMul (r.loc.getD i 0) (syn.getD (n - i) 0)) 0
  if d = 0 then { r with shift := r.shift + 1 }
  else
    let k := gfMul d (gfInv r.last)
    let loc := gfAdd r.loc (List.replicate r.shift 0 ++ r.old.map (gfMul k))
    if 2 * r.len ≤ n then { loc := loc, old := r.loc, len := n + 1 - r.len, shift := 1, last := d }
    else { r with loc := loc, shift := r.shift + 1 }

/-- The error at the symbol whose power has the inverse `v`, from locator and evaluator; 0 where the locator has no root there. -/
def rsError (loc ev : List Nat) (v : Nat) : Nat :=
  if gfAt loc v ≠ 0 then 0
  else
    let odd := (loc.zipIdx).map fun c => if c.2 % 2 = 1 then c.1 else 0
    gfMul (gfAt ev v) (gfInv (gfAt odd v))

/-- The word that a received one decodes to, and the symbols corrected; none where it cannot be corrected: more than 15 errors (10 R306,
R307). -/
def rsDecode (w : List Nat) : Option (List Nat × Nat) :=
  let syn := rsSyndromes w
  if syn.all (· == 0) then some (w, 0)
  else
    let r := (List.range 30).foldl (RsSearch.next syn) {}
    let ev := (List.range 30).map (gfCoeff syn r.loc)
    let errs := ((gfPowers (gfInv 2) rsSymbols).map (rsError r.loc ev)).reverse
    let out := List.zipWith (· ^^^ ·) w errs
    let n := (errs.filter (· != 0)).length
    if r.len ≤ 15 ∧ n = r.len ∧ (rsSyndromes out).all (· == 0) = true then some (out, n) else none

/-- The bits of a message, the first symbol's lowest bit as bit 0. -/
def rsBits (w : List Nat) : Nat := (w.take rsMessage).foldr (fun c v => c + 1024 * v) 0

end Sys2Proof.Machine
end

