-- ==== Sys2Proof/Machine/Fabric.lean ====
section
/-!
DEFINITION. The commands of the fabric complex (10): the training of its ports, the frames that it receives, and the transfers
between parts, with the answers that come back from the die to requests of other parts.
-/
namespace Sys2Proof.Machine
open Host (Outcome)

/-! ## Training (10 R313-R316) -/

/-- PORT_SIGNAL_DETECT (10 R313). -/
def execPortSignalDetect (p : PortIx) (s : State) : Outcome State Fault Refusal :=
  if (portOf s p.val).state = .detect then .next (modPort s p.val fun x => { x with state := .equalise }) else .next s

/-- The widest lane set of 10 R305 that is locked on both sides, the lowest-numbered of its width: lanes and index (10 R314). -/
def laneSet (l : Nat) : Option (Nat × Nat) :=
  if l = 0xFF then some (8, 0) else if fld l 0 4 = 15 then some (4, 0) else if fld l 4 4 = 15 then some (4, 1)
  else if fld l 0 2 = 3 then some (2, 0) else if fld l 2 2 = 3 then some (2, 1) else if fld l 4 2 = 3 then some (2, 2)
  else if fld l 6 2 = 3 then some (2, 3) else none

abbrev verHigh : Nat := 0x21
abbrev verLow : Nat := 0x20

/-- The version that both ranges contain, the highest (10 R315). -/
def agree (o : Nat × Nat) : Option Nat := if max o.1 verLow ≤ min o.2 verHigh then some (min o.2 verHigh) else none

/-- Training ends in DOWN with a cause (10 R313-R315, R344). -/
def trainFails (s : State) (p cause : Nat) : State := modPort s p fun x => { x with state := .down, cause := cause, fast := false }

/-- CREDIT_INIT: numbers at 0, counts cleared (10 R313). -/
def enterCreditInit (s : State) (p : Nat) : State := modPort s p fun x => freshPort x .creditInit

/-- The checks of IDENTIFY (10 R304, R315) on the partner's control frame. `named` says that the partner has a node number (log entry 72). -/
def identify (s : State) (p : Nat) (o : Nat × Nat) (named : Bool) : State :=
  let x := portOf s p
  let q := portOf s (partner p)
  let s1 := modPair s (p / 2) fun d => { d with split := q.known && q.partnerNode != x.partnerNode }
  let s2 := modPort s1 p fun x => { x with known := true, mismatch := x.partnerPort != 2 * ((p / 2) ^^^ 1) + p % 2 }
  match agree o with
  | none => trainFails s2 p 1
  | some v =>
    if s.chain.valid = false ∨ named = false then trainFails s2 p 3
    else if x.partnerNode = s.chain.node then trainFails s2 p 2
    else enterCreditInit (modPort s2 p fun x => { x with agreed := v }) p

/-- PORT_TRAINING_STEP (10 R313-R315): the stage in progress ends. `lanes` are the lanes for which it succeeded, on both sides in
WIDTH; none where it timed out. `named` tells in IDENTIFY whether the partner has a node number. -/
def execPortTrainingStep (p : PortIx) (lanes : Byte) (named : Bool) (s : State) : Outcome State Fault Refusal :=
  let x := portOf s p.val
  let back := modPort s p.val fun x => { x with state := .detect, trainFails := satInc x.trainFails }
  match x.state with
  | .equalise => .next (if lanes = 0 then back else modPort s p.val fun x => { x with state := .lock })
  | .lock => .next (if lanes = 0 then back else modPort s p.val fun x => { x with state := .width, lanes := lanes })
  | .width =>
    match laneSet lanes.toNat with
    | none => .next (trainFails (modPort s p.val fun x => { x with width := 0, laneset := 0 }) p.val 4)
    | some w => .next (modPort s p.val fun x => { x with state := .identify, width := w.1, laneset := w.2, lanes := lanes, offer := none })
  | .identify =>
    match x.offer with
    | none => .next s
    | some o => .next (identify s p.val o named)
  | .creditInit => if x.advSeen && x.ackSeen then .next (portUp s p.val) else .next s
  | .off | .detect | .active | .down => .next s

/-- PORT_RETRAIN (10 R316, R323): cause 0, the scheduled fast retrain; 1, codeword lock lost for 1 µs; 2, more than 16 uncorrectable
codewords in 1 ms; any other, signal lost on every lane. -/
def execPortRetrain (p : PortIx) (cause : Nat) (s : State) : Outcome State Fault Refusal :=
  if portLive s p.val = false then .next s
  else if cause = 0 then .next (startRetrain s p.val)
  else if cause = 1 then .next (otherRetrain s p.val .lock)
  else if cause = 2 then
    let b := (portOf s p.val).badAt
    .next (if 17 ≤ b.length ∧ s.clk.ticks ≤ b.getLastD 0 + 100000 then otherRetrain s p.val .lock else s)
  else .next (otherRetrain s p.val .detect)

/-- FAB_PORT_RETRAIN (10 R323, R344): a 1 in bit 1 schedules a fast retrain. -/
def execFabPortRetrain (p : PortIx) (val : Word) (s : State) : Outcome State Fault Refusal :=
  .next (if val.getLsbD 1 then schedule s p.val false else s)

/-- FAB_PORT_RETRAIN_FULL (10 R316, R344): a 1 in bit 2 starts training at DETECT, from ACTIVE or from DOWN (10 R313). -/
def execFabPortRetrainFull (p : PortIx) (val : Word) (s : State) : Outcome State Fault Refusal :=
  if val.getLsbD 2 = false then .next s
  else if portLive s p.val then .next (otherRetrain s p.val .detect)
  else if (portOf s p.val).state = .down then .next (modPort s p.val fun x => { x with state := .detect })
  else .next s

/-- The part is in Boated: its ports are OFF (10 R313, 12 R388). -/
def partBoated (s : State) : Bool := s.pwr.chipBoated

/-- Training has been allowed to begin: it follows enumeration (10 R315, 16 R490). -/
def mayTrain (s : State) : Bool := decide (8 ≤ s.glb.stage) && !partBoated s

/-- A port is turned OFF (10 R313). -/
def portOff (s : State) (p : Nat) : State :=
  if portLive s p then portDown s p .off false
  else modPort s p fun x => { freshPort x .off with fast := false }

/-- FAB_PORT_EN (10 R313, R344): 0 turns the port OFF with cause 5; 1 lets it start at DETECT. -/
def execFabPortEnWrite (p : PortIx) (val : Word) (s : State) : Outcome State Fault Refusal :=
  if val.getLsbD 0 then
    .next (modPort s p.val fun x => { x with en := true, state := if x.state = .off ∧ mayTrain s = true then .detect else x.state })
  else if (portOf s p.val).state = .off then .next (modPort s p.val fun x => { x with en := false, cause := 5 })
  else .next (portOff (modPort s p.val fun x => { x with en := false, cause := 5 }) p.val)

/-! ## Frames (10 R307-R312, R317-R322) -/

/-- Bits of a frame (10 R308). -/
abbrev frameBits : Nat := 2160

/-- A frame from its bits: the flit, then the envelope (10 R308). -/
def frameFrom (v : Nat) : Frame := { flit := BitVec.ofNat 2048 (fld v 0 2048), env := BitVec.ofNat 112 (fld v 2048 112) }

/-- Cut bits into frames, at most `n` of them: those that are whole, and the bits of the next one with their number (10 R307). -/
def cutFrames : Nat → Nat → Nat → List Frame × (Nat × Nat)
  | 0, v, k => ([], (v, k))
  | n + 1, v, k =>
    if k < frameBits then ([], (v, k))
    else
      let r := cutFrames n (v / 2 ^ frameBits) (k - frameBits)
      (frameFrom (fld v 0 frameBits) :: r.1, r.2)

/-- The message of a good codeword goes to the frames: its 5,120 bits of frame stream follow the frame that is coming in, or begin at the
bit that the header names (10 R307). -/
def takeMessage (x : Port) (m : Nat) : Port :=
  let stream := fld m 20 5120
  let at_ := fld m 0 13
  let bits : Nat × Nat := match x.rxPart with
    | some q => (q.1 + 2 ^ q.2 * stream, q.2 + 5120)
    | none => (stream / 2 ^ at_, 5120 - at_)
  let r := cutFrames 4 bits.1 bits.2
  { x with rxFrames := x.rxFrames ++ r.1, rxPart := some r.2 }

/-- The port receives: its lanes have begun to lock (10 R313). -/
def receives (x : Port) : Bool :=
  match x.state with
  | .lock | .width | .identify | .creditInit | .active => true
  | .off | .detect | .equalise | .down => false

/-- RS_CODEWORD (10 R306, R307): a codeword of 544 symbols is decoded. Its corrected symbols are counted, and its frames taken; one that
cannot be corrected is counted, and every frame that overlaps it is discarded. -/
def execRsCodeword (p : PortIx) (word : List (BitVec 10)) (s : State) : Outcome State Fault Refusal :=
  if receives (portOf s p.val) = false then .next s
  else match rsDecode (word.map BitVec.toNat) with
  | some r => .next (modPort s p.val fun x => takeMessage { x with fecOk := satAdd x.fecOk r.2 } (rsBits r.1))
  | none => .next (modPort s p.val fun x =>
      { x with fecBad := satInc x.fecBad, rxPart := none, badAt := (s.clk.ticks :: x.badAt).take 17 })

/-- The oldest frame that the codewords have given, where it is of kind `kind` or of the reserved one, and the state without it (10 R308). -/
def takeFrame (s : State) (p kind : Nat) : Option (Frame × State) :=
  match (portOf s p).rxFrames with
  | [] => none
  | f :: fs =>
    if eKind f.env.toNat = kind ∨ eKind f.env.toNat = 3 then some (f, modPort s p fun x => { x with rxFrames := fs }) else none

/-- A frame row: it acts on the oldest frame, of its kind; one that fails its CRC is discarded whole and counted (10 R308, R309, R317,
R344). -/
def frameRow (s : State) (p kind : Nat) (act : State → Frame → State) : Outcome State Fault Refusal :=
  match takeFrame s p kind with
  | none => .next s
  | some (f, s1) =>
    if frameGood f = false then
      .next (if portLive s1 p then crcFails s1 p else modPort s1 p fun x => { x with crcErrs := satInc x.crcErrs })
    else if eKind f.env.toNat = kind then .next (act s1 f)
    else .next s1

/-- What the slots of a frame come to: the slots of a packet still open, packets completed, and the credit key of each slot; none
where a slot breaks the stream (10 R310). `lead` is the class of the open packet. -/
structure SlotWalk where
  slots : List (BitVec 512) := []
  out : List Pkt := []
  keys : List Nat := []
  ended : Bool := false
  lead : Bool := false
  ok : Bool := true

/-- One slot of a frame. -/
def slotStep (f : Frame) (w : SlotWalk) (k : Nat) : SlotWalk :=
  let d := BitVec.ofNat 512 (fld f.flit.toNat (512 * k) 512)
  let kind := eSlot f.env.toNat k
  if kind = 0 then { w with ended := true, ok := w.ok && w.slots.isEmpty }
  else if kind = 1 then
    let rsp := fIsRsp d.toNat
    let w1 := { w with lead := rsp, keys := w.keys ++ [if rsp then 2 else 0], ok := w.ok && !w.ended && w.slots.isEmpty }
    if fCarried d.toNat = 0 then { w1 with out := w1.out ++ [⟨d, []⟩] } else { w1 with slots := [d] }
  else if kind = 2 then
    match w.slots with
    | [] => { w with ok := false, keys := w.keys ++ [if w.lead then 3 else 1] }
    | h :: ds =>
      let w1 := { w with keys := w.keys ++ [if w.lead then 3 else 1], ok := w.ok && !w.ended }
      if fCarried h.toNat ≤ ds.length + 1 then { w1 with slots := [], out := w1.out ++ [⟨h, ds ++ [d]⟩] }
      else { w1 with slots := h :: (ds ++ [d]) }
  else { w with ok := false }

/-- The four slots of a frame. -/
def walkFrame (x : Port) (lead : Bool) (f : Frame) : SlotWalk := [0, 1, 2, 3].foldl (slotStep f) { slots := x.rxSlots, lead := lead }

/-- Slots of credit key `k` among those of a frame. -/
def keyCount (ks : List Nat) (k : Nat) : Nat := (ks.filter (· == k)).length

/-- Slots of a receive buffer of key `k` (10 R320). -/
def slotRoom (k : Nat) : Nat := if k % 2 = 0 then 512 else 2048

/-- Apply a credit change to each key with the number of a frame's slots. -/
def creditKeys (x : Port) (ks : List Nat) (f : Nat → Credit → Credit) : Port :=
  [0, 1, 2, 3].foldl (fun x k => if keyCount ks k = 0 then x else modCredit x k (f (keyCount ks k))) x

/-- A slot of the frame has the reserved kind (10 R308, R310). -/
def reservedSlot (f : Frame) : Bool := [0, 1, 2, 3].any fun k => eSlot f.env.toNat k == 3

/-- The class of the packet whose slots a port is still receiving. -/
def openRsp (x : Port) : Bool :=
  match x.rxSlots with
  | [] => false
  | h :: _ => fIsRsp h.toNat

/-- The signed difference of two 16-bit numbers. -/
def diff16 (a b : Nat) : Int := (BitVec.ofNat 16 (a + 65536 - b)).toInt

/-- The pair's record once number `n` is accepted (10 R325). -/
def pairAccept (d : Pair) (n : Nat) : Pair :=
  if d.seen = false then { d with seen := true, high := n, record := [n] }
  else
    let high := if 0 < diff16 n d.high then n else d.high
    { d with high := high, record := (d.record ++ [n]).filter fun m => decide (diff16 high m < 4096) }

/-- A packet with FAILOVER set is a duplicate, or too far back (10 R325). -/
def pairDuplicate (d : Pair) (n : Nat) : Bool :=
  d.seen && decide (diff16 n d.high ≤ 0) && (decide (diff16 n d.high ≤ -4096) || d.record.contains n)

/-- Port `p` accepts packet `k`, received whole: a copy moved by failover that the pair's record holds is a duplicate, whose credits go back
at once; any other is recorded (10 R319, R325). -/
def acceptPacket (s : State) (p : Nat) (k : Pkt) : State :=
  let h := k.hdr.toNat
  let c := classKey h
  if fFailover h && pairDuplicate (pairOf s (p / 2)) (fPairSeq h) then
    modPort s p fun x => { modCredit (modCredit x c fun c => c.give 1) (c + 1) (fun c => c.give k.data.length) with pairDup := satInc x.pairDup }
  else
    let s1 := modPair s (p / 2) fun d => pairAccept d (fPairSeq h)
    { s1 with fab := { s1.fab with rx := s1.fab.rx ++ [(p, k)] } }

/-- A frame in its turn is accepted: its slots enter the receive buffers, and the packets that it completes are accepted (10 R317, R319,
R320). -/
def acceptFrame (s : State) (p : Nat) (w : SlotWalk) (lead : Bool) (seq : Nat) : State :=
  let s1 := modPort s p fun x => { creditKeys x w.keys (fun n c => c.hold n) with
    rxSeq := (x.rxSeq + 1) % 4096, rxSlots := w.slots, nak := false, nakTick := 0,
    rspLead := (x.rspLead.filter (· != seq)) ++ (if lead then [seq] else []) }
  w.out.foldl (fun s k => acceptPacket s p k) s1

/-- A sequenced frame whose CRC holds, at an ACTIVE port (10 R310, R317-R322): accepted in its turn, discarded as a duplicate, or discarded
with a NAK. A reserved slot kind fails the frame as a CRC failure does, and so does a slot for which there is no room. -/
def sequenced (s : State) (p : Nat) (fr : Frame) : State :=
  let x := portOf s p
  let e := fr.env.toNat
  let d := (x.rxSeq + 4096 - eSeq e) % 4096
  let w := walkFrame x (openRsp x) fr
  if reservedSlot fr = true ∨ (d = 0 ∧ w.ok = false) then crcFails s p
  else if d = 0 ∧ [0, 1, 2, 3].any (fun k => decide (slotRoom k < (creditOf x k).buffered + keyCount w.keys k)) = true then
    setNak (modPort s p fun x => { x with excess := satInc x.excess }) p
  else
    let s1 := takeAck s p e
    if portLive s1 p = false then s1
    else if d = 0 then acceptFrame s1 p w (openRsp x) (eSeq e)
    else if d ≤ 2048 then
      let v := walkFrame x (x.rspLead.contains (eSeq e)) fr
      modPort s1 p fun x => { creditKeys x v.keys (fun n c => c.back n) with dups := satInc x.dups }
    else setNak s1 p

/-- SEQUENCED_FRAME (10 R308-R310, R317-R322): the port's oldest frame is a sequenced one; outside ACTIVE none is carried (10 R313). -/
def execSequencedFrame (p : PortIx) (s : State) : Outcome State Fault Refusal :=
  frameRow s p.val 1 fun s f => if portLive s p.val then sequenced s p.val f else s

/-- IDLE_FRAME (10 R308, R310): its ACK and NAK are acted on. -/
def execIdleFrame (p : PortIx) (s : State) : Outcome State Fault Refusal :=
  frameRow s p.val 0 fun s f =>
    if (portOf s p.val).state = .active ∨ (portOf s p.val).state = .creditInit then takeAck s p.val f.env.toNat else s

/-- Bytes [off, off + n) of a control flit (10 R311). -/
def cf (f : Nat) (off n : Nat) : Nat := fld f (8 * off) (8 * n)

/-- Credits returned by the partner, key `k`: a count beyond the charges is clamped, counted and answered by a fast retrain (10
R322). -/
def takeReturn (x : Port) (k ret : Nat) : Port × Bool :=
  let c := creditOf x k
  let d := (ret + 65536 - c.returned % 65536) % 65536
  if c.owed < d then (modCredit { x with excess := satInc x.excess } k fun c => { c with returned := c.charged }, true)
  else (modCredit x k fun c => { c with returned := ret }, false)

/-- The leak of the classes whose buffers are empty, at a quiescent point (10 R322). -/
def measureLeak (x : Port) (empty : Nat) : Port :=
  [0, 1, 2, 3].foldl (fun x k => if bit empty (k / 2) then modCredit x k fun c => { c with window := c.adv - c.owed } else x) x

/-- A window has fallen below half of what was advertised (10 R322). -/
def windowLow (x : Port) : Bool := [0, 1, 2, 3].any fun k => decide (2 * (creditOf x k).window < (creditOf x k).adv)

/-- The credits of a control frame in ACTIVE (10 R311, R321, R322). -/
def takeCredits (s : State) (p : Nat) (fr : Frame) : State :=
  let f := fr.flit.toNat
  let e := fr.env.toNat
  let r := [0, 1, 2, 3].foldl (fun (a : Port × Bool) k => let b := takeReturn a.1 k (cf f (2 * k) 2); (b.1, a.2 || b.2)) (portOf s p, false)
  let quiet := r.1.unacked.isEmpty && eAckValid e && (eAck e + 1) % 4096 == r.1.txSeq
  let y := if quiet then measureLeak r.1 (cf f 8 1) else r.1
  let s1 := modPort s p fun _ => y
  pump (if r.2 || (quiet && windowLow y) then schedule s1 p true else s1) p

/-! ### Time samples (10 R340-R342) -/

/-- A time-base stamp in 2^-16 ticks. -/
def stamp (t : BitVec 64) (f : BitVec 16) : Nat := t.toNat * 65536 + f.toNat

/-- Insert into a rising list. -/
def insInt (x : Int) : List Int → List Int
  | [] => [x]
  | y :: ys => if x ≤ y then x :: y :: ys else y :: insInt x ys

/-- The median of a list; of an even number, the mean of the middle two (log entry 22). -/
def median (l : List Int) : Int :=
  let v := l.foldr insInt []
  let n := v.length
  (v.getD (n / 2) 0 + v.getD ((n - 1) / 2) 0) / 2

/-- Two microseconds in 2^-16 ticks (10 R341). -/
abbrev twoMicros : Int := 200 * 65536

/-- Correct the time base by the median of the last offsets (10 R341): a step forward when it is behind by more than 2 µs, a step
back only before any run has been admitted, else a slew. -/
def correctTime (s : State) : State :=
  let m := median s.fab.offsets
  let s1 := { s with fab := { s.fab with offset := BitVec.ofInt 32 (m / 256) } }
  if m < -twoMicros ∨ (twoMicros < m ∧ s.str.admits = 0) then
    { s1 with
      clk := { s1.clk with master := s1.clk.master + BitVec.ofInt 64 (-m / 65536), slew := 0 },
      fab := { s1.fab with steps := satInc s1.fab.steps, offsets := s1.fab.offsets.map fun o => o + (-m / 65536) * 65536 } }
  else { s1 with clk := { s1.clk with slew := if m < 0 then 200 else if 0 < m then -200 else 0 } }

/-- A time sample of the upstream port (10 R340-R342): `t2` is the frame's arrival. -/
def takeSample (s : State) (f t2 frac : Nat) : State :=
  let up := bit (cf f 0x36 1) 1
  let t1 := stamp (BitVec.ofNat 64 (cf f 0x18 8)) (BitVec.ofNat 16 (if frac = 0 then 0 else cf f 0x30 2))
  let t4 := stamp (BitVec.ofNat 64 (cf f 0x20 8)) (BitVec.ofNat 16 (if frac = 0 then 0 else cf f 0x32 2))
  let t3 := stamp (BitVec.ofNat 64 (cf f 0x28 8)) (BitVec.ofNat 16 (if frac = 0 then 0 else cf f 0x34 2))
  let s1 := { s with fab := { s.fab with
    sampleAt := s.clk.ticks, locked := up, masterNode := cf f 0x38 2 % 4096,
    depth := if up then BitVec.ofNat 8 (min 255 (cf f 0x37 1 + 1)) else 0xFF } }
  if t3 = 0 ∧ t4 = 0 then s1
  else
    let o := (((t2 : Int) - t1) + ((t3 : Int) - t4)) / 2
    correctTime { s1 with fab := { s1.fab with offsets := (o :: s1.fab.offsets).take 8 } }

/-- The time fields of a control frame (10 R311, R341). The fraction of the arrival stamp is a free value (log entry 1). -/
def takeTime (s : State) (p : Nat) (f : Nat) : State :=
  if bit (cf f 0x36 1) 0 then
    let frac := b2n ((portOf s p).version == 0x21)
    let t2 := stamp (fabTime s) (Config.stampFrac s.free)
    let t1 := stamp (BitVec.ofNat 64 (cf f 0x18 8)) (BitVec.ofNat 16 (if frac = 0 then 0 else cf f 0x30 2))
    let s1 := modPort (drawn s) p fun x => { x with echo := some (t1, t2) }
    if s.fab.role = 2 ∧ s.fab.upstream.toNat = p then takeSample s1 f t2 frac else s1
  else s

/-- A control frame whose CRC holds: training fields in IDENTIFY, advertised credits in CREDIT_INIT, returns and time in ACTIVE (10
R311-R313, R315, R321, R322, R341). -/
def controlled (s : State) (p : Nat) (fr : Frame) : State :=
  let f := fr.flit.toNat
  match (portOf s p).state with
  | .identify =>
    modPort s p fun x => { x with partnerNode := cf f 0xA 2 % 4096, partnerPort := cf f 0xC 1 % 16, offer := some (cf f 0xE 1, cf f 0xD 1) }
  | .creditInit =>
    let s1 := takeAck s p fr.env.toNat
    if cf f 9 1 = 6 then
      modPort s1 p fun x => { [0, 1, 2, 3].foldl (fun x k => modCredit x k fun c =>
        { c with adv := cf f (0x10 + 2 * k) 2, window := cf f (0x10 + 2 * k) 2 }) x with advSeen := true }
    else s1
  | .active =>
    let s1 := takeAck s p fr.env.toNat
    let s2 := if portLive s1 p then takeCredits s1 p fr else s1
    takeTime s2 p f
  | .off | .detect | .equalise | .lock | .width | .down => s

/-- CONTROL_FRAME (10 R308, R311): the port's oldest frame is a control frame. -/
def execControlFrame (p : PortIx) (s : State) : Outcome State Fault Refusal :=
  frameRow s p.val 2 fun s f => controlled s p.val f

/-- The control frame that port `p` sends (10 R311); `frac` is the fraction of its T_SEND. -/
def controlFlit (s : State) (p : Nat) (frac : BitVec 16) : BitVec 2048 :=
  let x := portOf s p
  let two1 := x.version == 0x21 && x.state == .active
  let e := x.echo.getD (0, 0)
  let adv := if x.state = .creditInit then [(0x80, 16, 512), (0x90, 16, 2048), (0xA0, 16, 512), (0xB0, 16, 2048)] else []
  let role : Nat := s.fab.role.toNat
  let empty (k : Nat) : Nat := b2n ((creditOf x k).buffered == 0 && (creditOf x (k + 1)).buffered == 0)
  BitVec.ofNat 2048 (pack ([(0, 16, (creditOf x 0).given), (16, 16, (creditOf x 1).given), (32, 16, (creditOf x 2).given),
    (48, 16, (creditOf x 3).given), (64, 8, empty 0 + 2 * empty 2), (72, 8, x.state.code), (80, 12, s.chain.node), (96, 8, p),
    (104, 8, if x.state = .active then x.version else verHigh), (112, 8, verLow), (120, 8, x.width),
    (192, 64, (fabTime s).toNat), (256, 64, e.2 / 65536), (320, 64, e.1 / 65536),
    (384, 16, if two1 then frac.toNat else 0), (400, 16, if two1 then e.2 else 0), (416, 16, if two1 then e.1 else 0),
    (432, 8, 1 + 2 * b2n (role == 1 || s.fab.locked)), (440, 8, if role = 1 then 0 else s.fab.depth.toNat),
    (448, 12, if role = 1 then s.chain.node else s.fab.masterNode)] ++ adv))

/-- CONTROL_FRAME_TIMER (10 R312): a control frame is due and goes out. -/
def execControlFrameTimer (p : PortIx) (s : State) : Outcome State Fault Refusal :=
  match (portOf s p.val).state with
  | .identify | .creditInit | .active =>
    let f := controlFlit s p.val (Config.stampFrac s.free)
    .next (modPort (drawn s) p.val fun x => { x with ctlSent := x.ctlSent + 1, ctlFlit := f, line := [frameOf x 2 0 0 false f], nak := false })
  | .off | .detect | .equalise | .lock | .width | .down => .next s

/-- REPLAY_TIMEOUT (10 R318): 2 µs, which is 200 reference ticks, with no ACK advancing. -/
def execReplayTimeout (p : PortIx) (s : State) : Outcome State Fault Refusal :=
  let x := portOf s p.val
  if portLive s p.val = true ∧ x.unacked ≠ [] ∧ x.ackTick + 200 ≤ s.clk.ticks then .next (replay s p.val false) else .next s

/-- PAIR_HOLD_TIMEOUT (10 R326): packets held for 20 µs, or with no port left in a fast retrain, are refused. -/
def execPairHoldTimeout (pr : Fin 6) (s : State) : Outcome State Fault Refusal :=
  let d := pairOf s pr.val
  let late (e : Nat × Pkt) : Bool := decide (e.1 + 2000 ≤ s.clk.ticks) || !pairWaits s (nextPort e.2)
  let s1 := modPair s pr.val fun d => { d with held := d.held.filter fun e => !late e }
  .next ((d.held.filter late).foldl (fun s e => refusePort s e.2) s1)

/-- TIME_SAMPLE_LOSS (10 R342): no ACTIVE port in the upstream pair, or no sample for 100 µs. -/
def execTimeSampleLoss (s : State) : Outcome State Fault Refusal :=
  let u := s.fab.upstream.toNat
  let dead := !portLive s u && !portLive s (partner u)
  if s.fab.role = 2 ∧ (dead || decide (s.fab.sampleAt + 10000 ≤ s.clk.ticks)) = true then
    .next { s with fab := { s.fab with locked := false, depth := 0xFF }, clk := { s.clk with slew := 0 } }
  else .next s

/-! ## Transfers from this part (10 R327-R330, R334, R335, R338) -/

/-- The run and graph of the heat that holds an epoch (10 R329). -/
def epochRun (s : State) (e : BitVec 16) : Option (Run × Graph) :=
  let k := classOf s (e.toNat % 64)
  if e ≠ 0 ∧ k.state ≠ 0 ∧ k.epoch = e then
    match runOf s k.run, graphOf s k.run with
    | some r, some g => some (r, g)
    | _, _ => none
  else none

/-- The unicast route to a node (10 R327). -/
def routeTo (g : Graph) (node : Nat) : Option RouteEnt := g.routes.find? fun r => r.key == node && !r.isSet

/-- The fabric request for one route (10 R330): `node` is the member for a multicast copy. -/
def fabricRequest (own : Nat) (h : Nat) (t : Nat) (r : RouteEnt) (copy : Bool) (data : List Granule) : Pkt :=
  let dest := if copy then putFld (putFld (pDest h) 50 12 r.key) 62 2 1 else pDest h
  let len := if pType h = tyRead then pCount h else pLen h
  let hops := (List.range r.count).map fun k => (154 + 4 * k, 4, fld r.hops.toNat (4 * k) 4)
  let w := if pType h = tyRead then 0 else pWord h
  ⟨BitVec.ofNat 512 (pack ([(0, 4, pType h), (8, 12, t), (20, 12, own), (32, 64, dest), (96, 12, pDheat h), (108, 16, pRunTag h),
    (142, 1, if pType h = tyWrite then b2n (pLcen h) else 0), (144, 5, r.count), (218, 5, if pType h = tyWord ∨ pType h = tyFinish then 0 else len),
    (223, 8, if pType h = tyWrite then pLctr h else 0), (231, 32, w), (263, 32, pExpect h), (295, 8, pSlack h)] ++ hops)), data⟩

/-- The lowest fabric tag that is free (10 R329). -/
def newFtag (s : State) : Option Nat := (List.range 4096).find? fun t => (ftagOf s t).isNone

/-- Send the copies of a request (10 R329, R338). -/
def sendCopies (s : State) (t : Nat) (seat : Nat) (hdr : BitVec 512) (ks : List Pkt) : State :=
  let f : Ftag := { seat := seat, hdr := hdr, unit := targetUnit s .fabric, left := ks.length, unsent := ks.length, issues := 1, tick := s.clk.ticks, last := s.clk.ticks, sent := ks }
  ks.foldl launch (putFtag s t f)

/-- FABRIC_EGRESS (10 R329, R330, R338, 07 R234): packet `i` at an edge port leaves for another node, is dropped as stale, or is refused
NO_ROUTE. With every fabric tag in use it waits. -/
def execFabricEgress (i : Nat) (s : State) : Outcome State Fault Refusal :=
  match s.noc.arrive[i]? with
  | none => .next s
  | some d =>
    let h := d.pkt.hdr.toNat
    match d.target, d.sender with
    | .fabric, some w =>
      let node := fld (pDest h) 50 12
      let taken := takeArrive s i
      let noRoute := answerPkt (countFabNack taken nkNoRoute) d (.refuse nkNoRoute)
      if d.full = false ∨ pType h = 0 ∨ tyRead < pType h then .next s
      else if pEpoch h = 0 then .next noRoute
      else if liveAt s fabTable (pEpoch h) = false then .next (answerPkt (staleElse taken) d .stale)
      else match epochRun s (pEpoch h) with
      | none => .next noRoute
      | some (r, g) =>
        match g.routes.find? fun e => e.key == node with
        | none => .next noRoute
        | some e =>
          if r.tag = 0 ∨ (e.isSet = true ∧ pType h ≠ tyWrite) then .next noRoute
          else match newFtag s with
          | none => .next s
          | some t =>
            let copies := if e.isSet then (e.members.filterMap (routeTo g)).map fun m => fabricRequest s.chain.node h t m true d.pkt.data
              else [fabricRequest s.chain.node h t e false d.pkt.data]
            .next (sendCopies taken t w d.pkt.hdr copies)
    | _, _ => .next s

/-- Give a transfer up: NACK FAB_TIMEOUT, with every member that has not answered counted as refused (10 R334, R335, R338). -/
def giveUp (s : State) (t : Nat) (f : Ftag) : State :=
  let s1 := freeFtag { s with fab := { s.fab with givenUp := satInc s.fab.givenUp } } t
  let code := if f.refused = 0 then nkFabTimeout else f.code
  let unit := if f.isMulti = true ∧ f.refused = 0 then (f.answered fun _ => true).2 else f.unit
  giveEngine s1 { f with unit := unit } tyNack code (if f.isMulti then f.refused + f.left else 0) []

/-- FABRIC_GIVE_UP (10 R334): 200 µs after the request, or the last copy of a multicast, left. -/
def execFabricGiveUp (t : Nat) (s : State) : Outcome State Fault Refusal :=
  match ftagOf s t with
  | some f => if f.isRead = false ∧ f.complete = false ∧ f.unsent = 0 ∧ f.tick + 20000 ≤ s.clk.ticks then .next (giveUp s t f) else .next s
  | none => .next s

/-- READ_REISSUE (10 R335): at 100 µs and 200 µs the READ goes out again with REISSUE set; at 400 µs it is given up. -/
def execReadReissue (t : Nat) (s : State) : Outcome State Fault Refusal :=
  match ftagOf s t with
  | some f =>
    if f.isRead = false ∨ f.complete = true ∨ 0 < f.unsent then .next s
    else if f.tick + 40000 ≤ s.clk.ticks then .next (giveUp s t f)
    else if f.issues < 3 ∧ f.tick + 10000 * f.issues ≤ s.clk.ticks then
      let s1 := putFtag s t { f with issues := f.issues + 1, last := s.clk.ticks }
      let s2 := { s1 with fab := { s1.fab with reissues := satInc s1.fab.reissues } }
      .next (f.sent.foldl (fun s k => launch s (setHdr k 141 1 1)) s2)
    else .next s
  | none => .next s

/-- FTAG_RELEASE (10 R335): a reissued READ keeps its tag until 200 µs after its last issue, even once complete. -/
def execFtagRelease (t : Nat) (s : State) : Outcome State Fault Refusal :=
  match ftagOf s t with
  | some f => if f.complete = true ∧ f.last + 20000 ≤ s.clk.ticks then .next (freeFtag s t) else .next s
  | none => .next s

/-- The first RDATA of a READ (10 R333, R335). -/
def readDone (s : State) (t : Nat) (f : Ftag) (data : List Granule) : State :=
  let s1 := settleFtag s t f
  if liveAt s fabTable (pEpoch f.hdr.toNat) then giveEngine s1 f tyRdata 0 0 data
  else giveEngine (staleElse s1) f tyAck 1 0 []

/-- FABRIC_ANSWER (10 R333, R335, R338): answer `i` is matched to its fabric tag. -/
def execFabricAnswer (i : Nat) (s : State) : Outcome State Fault Refusal :=
  match s.fab.answers[i]? with
  | none => .next s
  | some k =>
    let h := k.hdr.toNat
    let s1 := { s with fab := { s.fab with answers := dropAt s.fab.answers i } }
    match ftagOf s1 (fTag h) with
    | none => .next s1
    | some f =>
      if fType h = tyRdata then
        if f.complete then .next { s1 with fab := { s1.fab with dupRsp := satInc s1.fab.dupRsp } }
        else .next (readDone s1 (fTag h) f k.data)
      else if fType h = tyNack then .next (ftagAnswer s1 (fTag h) (answersCopy h) (.refuse (fStatus h)))
      else .next (ftagAnswer s1 (fTag h) (answersCopy h) (if fStatus h = 0 then .done else .stale))

/-! ## Packets from other parts (10 R325, R331, R332, 07 R236) -/

/-- What an arriving request meets at the destination heat (07 R236): the epoch it is delivered with, none where it is stale. -/
def destEpoch (s : State) (tag : BitVec 16) (heat : Nat) (pool : Bool) : Option (BitVec 16) :=
  if tag = 0 then none
  else match s.str.runs.find? fun r => r.2.tag == tag with
  | none => none
  | some r =>
    match r.2.heats[heat]? with
    | none => none
    | some x =>
      match x.phase with
      | .dispatched => some x.epoch
      | .pending | .ready => if pool then some 0 else none
      | .completed | .skipped | .aborted | .abandoned => none

/-- The on-die request that a fabric packet becomes (10 R332): its kind is 00, and the complex is its sender. -/
def dieRequest (s : State) (h : Nat) (data : List Granule) (tag : Nat) (epoch : BitVec 16) : Pkt :=
  ⟨BitVec.ofNat 512 (pack [(0, 4, fType h), (8, 12, tag), (20, 16, epoch.toNat), (36, 64, fld (fDest h) 0 62),
    (100, 32, (targetUnit s .fabric).toNat), (132, 2, 2), (136, 48, if fType h = tyRead then fLen h else 0),
    (184, 8, fLctr h), (192, 1, b2n (fLcen h)), (193, 5, data.length), (298, 32, fWord h), (330, 32, fExpectOf h), (362, 8, fSlackOf h),
    (370, 12, fDheatOf h), (382, 16, (fRunTag h).toNat)]), data⟩

/-- A request at the last chip of its route (10 R332). -/
def lastChip (s : State) (k : Pkt) : State :=
  let h := k.hdr.toNat
  let a := fDest h
  let nack (c : Nat) := answerFabric s h (fPtr h) tyNack c 0 []
  if fld a 50 12 ≠ s.chain.node then nack nkWrongNode
  else if 2 ≤ fld a 62 2 then nack nkAddress
  else match destEpoch s (fRunTag h) (fDheatOf h) (fld a 34 4 == 8) with
  | none => answerFabric (staleElse s) h (fPtr h) tyAck 1 0 []
  | some e =>
    let t := s.fab.tag
    let s1 := { s with fab := { s.fab with tag := (t + 1) % 4096, inbound := s.fab.inbound ++ [{ tag := t, hdr := k.hdr, tick := s.clk.ticks }] } }
    let die := dieRequest s h k.data t e
    if fld a 34 4 = 8 then enterLink s1 (nodeLink + 4) 8 (fld a 49 1) die else enterEdge s1 nodeFabric die

/-- The slots of packet `k` leave the receive buffer of port `p`, unless the port's credit state has gone (10 R321, R316). -/
def leaveBuffer (s : State) (p : Nat) (k : Pkt) : State :=
  if p < 12 then
    let c := classKey k.hdr.toNat
    modPort s p fun x => modCredit (modCredit x c fun c => c.give 1) (c + 1) fun c => c.give k.data.length
  else s

/-- FABRIC_PACKET_ARRIVAL (10 R325, R330-R333): packet `i` that a port has accepted whole is checked for age, then
forwarded, delivered, or kept for the complex that asked. A TYPE that the fabric does not carry is dropped. -/
def execFabricArrival (i : Nat) (s : State) : Outcome State Fault Refusal :=
  match s.fab.rx[i]? with
  | none => .next s
  | some (p, k) =>
    let h := k.hdr.toNat
    let s1 := leaveBuffer { s with fab := { s.fab with rx := dropAt s.fab.rx i } } p k
    if expired (fabTime s) h then .next { s1 with fab := { s1.fab with expired := satInc s1.fab.expired } }
    else if fType h = 0 ∨ tyNack < fType h then .next s1
    else if fPtr h < fHops h then .next (launch s1 k)
    else if fIsRsp h then .next { s1 with fab := { s1.fab with answers := s1.fab.answers ++ [k] } }
    else .next (lastChip s1 k)

/-- An on-die answer to a request of another part (10 R332, R333): it goes back over the fabric, unless the die took more than 64 µs,
which is 6,400 reference ticks. -/
def inboundAnswer (s : State) (k : Pkt) : State :=
  let h := k.hdr.toNat
  match s.fab.inbound.find? fun e => e.tag == pTag h with
  | none => s
  | some e =>
    let s1 := { s with fab := { s.fab with inbound := s.fab.inbound.filter fun x => x.tag != pTag h } }
    if e.tick + 6400 < s.clk.ticks then s1
    else answerFabric s1 e.hdr.toNat (fPtr e.hdr.toNat) (pType h) (pStatus h) 0 k.data

end Sys2Proof.Machine
end

