-- ==== Sys2Proof/Machine/Host.lean ====
section
/-!
DEFINITION. The host's side (13): sessions, doorbells and rings, reading commands, posting completions, interrupts, BAR2,
configuration requests, Function Level Reset and the input-feed engine.
-/
namespace Sys2Proof.Machine
open Host (Outcome)

/-! ## Reading commands (13 R411, R414, R417) -/

/-- Opcodes of the command set (13 R421). -/
def opcodes : List Nat :=
  [1, 2, 0x10, 0x11, 0x12, 0x13, 0x14, 0x20, 0x21, 0x22, 0x23, 0x30, 0x31, 0x32, 0x38, 0x39, 0x3A, 0x40, 0x41, 0x48, 0x49]

/-- Opcodes that the I3C port accepts (14 R451). -/
def i3cOpcodes : List Nat := [1, 2, 0x30, 0x31, 0x38, 0x39, 0x40, 0x41, 0x48]

/-- The parameter bytes of a command: offset and length (13 R421). -/
def paramBytes (op : Nat) : List (Nat × Nat) :=
  if op = 1 ∨ op = 0x10 ∨ op = 0x13 ∨ op = 0x23 ∨ op = 0x31 ∨ op = 0x3A then [(0x10, 2)]
  else if op = 0x11 then [(0x10, 3), (0x18, 16)]
  else if op = 0x12 then [(0x10, 5), (0x18, 16), (0x28, 24)]
  else if op = 0x14 ∨ op = 0x21 ∨ op = 0x32 ∨ op = 0x38 ∨ op = 0x39 then [(0x10, 1)]
  else if op = 0x20 then [(0x10, 1), (0x18, 8)]
  else if op = 0x22 then [(0x10, 3), (0x14, 2), (0x18, 16)]
  else if op = 0x40 then [(0x10, 2), (0x18, 12)]
  else if op = 0x41 then [(0x10, 6), (0x18, 8)]
  else if op = 0x48 then [(0x10, 40)]
  else if op = 0x49 then [(0x10, 1), (0x18, 16)]
  else []

/-- Opcodes that carry a UNIT (13 R421). -/
def unitOpcodes : List Nat := [0x30, 0x32, 0x38, 0x39]

/-- A reserved field of a command is nonzero, its CID is the reserved one, or FAULT_CLEAR names no clear (13 R414, R421). -/
def reservedBad (c : Nat) : Bool :=
  let op := cOpcode c
  decide (1 < cb c 1 1) || cCid c == 0xFFFF || cb c 8 8 != 0 || (!unitOpcodes.contains op && cUnit c != 0) ||
  ((List.range 48).any fun i =>
    cb c (0x10 + i) 1 != 0 && !((paramBytes op).any fun p => decide (p.1 ≤ 0x10 + i ∧ 0x10 + i < p.1 + p.2))) ||
  (op == 0x31 && decide (1 < cb c 0x10 1))

/-- What Snivan refuses as it reads a command: no session, an opcode that is not served, a reserved field (13 R414, R416, R417,
14 R451). -/
def readRefusal (q : Sq) (src c : Nat) : Option Nat :=
  let op := cOpcode c
  if op ≠ 1 ∧ q.opened = false then some stNoSession
  else if !opcodes.contains op || (src == i3cSrc && !i3cOpcodes.contains op) || (op == 0x3A && decide (fld q.version.toNat 0 8 < 1)) then
    some stBadOpcode
  else if reservedBad c then some stBadParameter
  else none

/-- A command that Snivan has read from `src`: refused at once, or begun by the row of its opcode. -/
def readCommand (s : State) (src : Nat) (c : BitVec 512) : State :=
  match readRefusal (sqOf s src) src c.toNat with
  | some st => answer s src c.toNat st 0
  | none => modSq s src fun q => { q with cur := some c }

/-- Snivan has a command in hand: it serves one command at a time (13 R411). -/
def snivanBusy (s : State) : Bool := s.cq.sq.any fun p => p.2.cur.isSome && !sessionWaits p.2

/-- Ring `n` holds a command that Snivan may read. -/
def ringReadable (q : Sq) : Bool := q.enable && q.tail != q.head && q.cur.isNone

/-- The rings from `turn` on that come before ring `r` in the round robin (13 R411). -/
def before (turn r : Nat) : List Nat := (List.range 16).filter fun n => decide ((n + 16 - turn) % 16 < (r + 16 - turn) % 16)

/-- COMMAND_READ (13 R411): Snivan reads the next command of a ring in round robin. An ORDER command waits for the ring's earlier
commands, and the turn passes over its ring meanwhile. An entry that cannot be read is answered HOST_ACCESS with CID 0xFFFF. -/
def execCommandRead (r : RingIx) (entry : Option (BitVec 512)) (s : State) : Outcome State Fault Refusal :=
  let q := sqOf s r.val
  if s.glb.fw = .ready ∧ snivanBusy s = false ∧ ringReadable q = true ∧
      ((before s.cq.turn r.val).all fun n => !ringReadable (sqOf s n) || ((sqOf s n).ordered && decide (0 < (sqOf s n).waiting))) = true then
    let s1 := modSq { s with cq := { s.cq with turn := (r.val + 1) % 16 } } r.val fun q => { q with head := ringNext q.size q.head, ordered := false }
    match entry with
    | none => .next (sendReply s1 r.val 0xFFFF stHostAccess 0 none)
    | some c => if bit (cb c.toNat 1 1) 0 ∧ 0 < q.waiting then .next (modSq s r.val fun q => { q with ordered := true }) else .next (readCommand s1 r.val c)
  else .next s

/-- OPEN_SESSION (13 R417, R421): the lower of the two minors, or VERSION; the device's range is reported either way. -/
def execOpenSession (src : SrcIx) (s : State) : Outcome State Fault Refusal :=
  commandRow s src.val 1 fun c =>
    if 0 < (sqOf s src.val).waiting then s
    else
      let range := pack [(16, 8, 0), (24, 8, 1), (32, 8, 1), (40, 8, 2), (48, 8, s.glb.grade.toNat), (64, 16, s.chain.node), (96, 32, s.glb.fwVersion.toNat)]
      if cb c 0x10 1 ≠ 2 then answer s src.val c stVersion range
      else
        let minor := min (cb c 0x11 1) 1
        let s1 := modSq s src.val fun q => { q with opened := true, version := BitVec.ofNat 16 (0x200 + minor) }
        answer s1 src.val c stSuccess (pack [(0, 8, 2), (8, 8, minor)] + range)

/-- CLOSE_SESSION (13 R421): after the ring's earlier commands have replied. -/
def execCloseSession (src : SrcIx) (s : State) : Outcome State Fault Refusal :=
  commandRow s src.val 2 fun c =>
    if 0 < (sqOf s src.val).waiting then s
    else answer (modSq s src.val fun q => { q with opened := false, version := 0 }) src.val c stSuccess 0

/-! ## Doorbells and rings (13 R410) -/

/-- SUBMISSION_DOORBELL: a write of CQ_SQ_TAIL (13 R410), latched while Snivan restarts (01 R27). -/
def execSubmissionDoorbell (r : RingIx) (val : Word) (s : State) : Outcome State Fault Refusal :=
  .next (modSq s r.val fun q => { q with tail := val.setWidth 12 })

/-- COMPLETION_DOORBELL: a write of CQ_CQ_HEAD (13 R410). -/
def execCompletionDoorbell (r : RingIx) (val : Word) (s : State) : Outcome State Fault Refusal :=
  .next (modCqr s r.val fun q => { q with head := val.setWidth 12 })

/-- FEED_DOORBELL: a write of CQ_FEED_TAIL (13 R410). -/
def execFeedDoorbell (f : FeedIx) (val : Word) (s : State) : Outcome State Fault Refusal :=
  .next (modFeed s f.val fun q => { q with tail := val.setWidth 12 })

/-- CQ_FEED_RESUME (13 R410, R426): 1 in bit 8 leaves the stopped state; the engine goes on with the next descriptor of the ring
that has not started. -/
def execFeedResume (f : FeedIx) (val : Word) (s : State) : Outcome State Fault Refusal :=
  if val.getLsbD 8 ∧ (feedOf s f.val).stopped = true then .next (modFeed s f.val fun q => { q with stopped := false, failedAt := none })
  else .next s

/-- Set ENABLE of submission ring `n` (13 R410). -/
def enableSq (s : State) (n : Nat) : State :=
  modSq s n fun q => if q.enable then { q with closing := false } else { q with enable := true, head := 0, tail := 0 }

/-- Set ENABLE of completion ring `n`: it starts with phase 1 (13 R410). -/
def enableCqr (s : State) (n : Nat) : State :=
  modCqr s n fun q => if q.enable then { q with closing := false } else { q with enable := true, head := 0, tail := 0, phase := true }

/-- Set ENABLE of feed ring `n` (13 R410). -/
def enableFeed (s : State) (n : Nat) : State :=
  modFeed s n fun q => if q.enable then { q with closing := false } else { q with enable := true, head := 0, tail := 0 }

/-- Write 0 to ENABLE of submission ring `n`: it takes effect once its commands have all replied (13 R410). -/
def disableSq (s : State) (n : Nat) : State :=
  modSq s n fun q =>
    if q.cur.isNone && q.waiting == 0 && q.head == q.tail then { q with enable := false, closing := false } else { q with closing := true }

/-- An enabled submission ring, feed ring or live run names completion ring `n` (13 R410). -/
def cqrUsed (s : State) (n : Nat) : Bool :=
  (s.cq.sq.any fun p => p.1 != i3cSrc && p.2.enable && p.2.cq.toNat == n) || (s.cq.feed.any fun p => p.2.enable && p.2.cq.toNat == n) ||
  s.str.runs.any fun p => p.2.ring == n

/-- Write 0 to ENABLE of completion ring `n`: it takes effect once nothing names the ring (13 R410). -/
def disableCqr (s : State) (n : Nat) : State :=
  let used := cqrUsed s n
  modCqr s n fun q => if used then { q with closing := true } else { q with enable := false, closing := false }

/-- Write 0 to ENABLE of feed ring `n`: it takes effect once no descriptor of the ring is in progress (13 R410). -/
def disableFeed (s : State) (n : Nat) : State :=
  modFeed s n fun q => if q.prog.isEmpty then { q with enable := false, closing := false } else { q with closing := true }

/-- RING_ENABLE (13 R410). -/
def execRingEnable (r : RingRef) (s : State) : Outcome State Fault Refusal :=
  if r.kind = 0 then .next (enableSq s r.n.val) else if r.kind = 1 then .next (enableCqr s r.n.val)
  else if r.n.val < 8 then .next (enableFeed s r.n.val) else .next s

/-- RING_DISABLE (13 R410): ENABLE reads 1 until the ring is unused; the step is offered again then. -/
def execRingDisable (r : RingRef) (s : State) : Outcome State Fault Refusal :=
  if r.kind = 0 then .next (if (sqOf s r.n.val).enable then disableSq s r.n.val else s)
  else if r.kind = 1 then .next (if (cqrOf s r.n.val).enable then disableCqr s r.n.val else s)
  else if r.n.val < 8 then .next (if (feedOf s r.n.val).enable then disableFeed s r.n.val else s) else .next s

/-! ## Completions and interrupts (13 R412, R413) -/

/-- Host address of slot `i` of a completion ring (13 R410). -/
def slotAddr (c : Cqr) (i : BitVec 12) : Nat := c.baseHi.toNat * 2 ^ 32 + c.baseLo.toNat * 4096 + 32 * i.toNat

/-- Write one slot with the ring's phase, and move to the next; the phase is inverted on passing slot 0 (13 R412). -/
def putSlot (m : Mem) (c : Cqr) (x : BitVec 256) : Mem × Cqr :=
  let v := putFld x.toNat 0 1 (b2n c.phase)
  let n := ringNext c.size c.tail
  (mwr m (slotAddr c c.tail) 32 v, { c with tail := n, phase := if n = 0 then !c.phase else c.phase })

/-- COMPLETION_ENTRY_POST (13 R412, 01 R33): the arbiter accepts the ring's first held entry when there is room, numbers it and
writes it. -/
def execCompletionPost (r : RingIx) (s : State) : Outcome State Fault Refusal :=
  let c := cqrOf s r.val
  match c.hold with
  | [] => .next s
  | e :: rest =>
    if c.enable = true ∧ e.slots ≤ ringRoom c then
      let n := nextSeq s.cq.seq
      let a := putSlot s.hostMem { c with
        hold := rest ++ c.wait.take 1, wait := c.wait.drop 1, since := c.since + 1,
        sinceAt := if c.since = 0 then s.clk.ticks else c.sinceAt } (withSeq e.first n)
      let b := match e.second with
        | some x => putSlot a.1 a.2 x
        | none => a
      let s1 := { s with hostMem := b.1, cq := { s.cq with seq := n } }
      .next (modCqr s1 r.val fun _ => b.2)
    else .next s

/-- MSI_X_INTERRUPT (13 R413): the ring's vector is raised once the entries since its last interrupt reach CQ_CQ_COAL_COUNT, or
CQ_CQ_COAL_US, in microseconds of 100 reference ticks, has passed since the first of them. -/
def execMsixInterrupt (r : RingIx) (s : State) : Outcome State Fault Refusal :=
  let c := cqrOf s r.val
  if 0 < c.since ∧ (max 1 c.coalCount.toNat ≤ c.since ∨ (c.coalUs ≠ 0 ∧ c.sinceAt + 100 * c.coalUs.toNat ≤ s.clk.ticks)) then
    .next (raiseVector (modCqr s r.val fun q => { q with since := 0 }) (max 1 c.vector.toNat))
  else .next s

/-- GLB_EVENTS_CLEAR (13 R406): a write of 1 clears an event bit. -/
def execEventsClear (val : Word) (s : State) : Outcome State Fault Refusal :=
  .next { s with glb := { s.glb with events := s.glb.events &&& ~~~(val.setWidth 5) } }

/-! ## BAR2 (13 R408, R403) -/

/-- One more access refused (13 R403, R405, R408). -/
def badAccess (s : State) : State := { s with glb := { s.glb with bad := satInc s.glb.bad } }

/-- A BAR2 read that completes with Unsupported Request. -/
def bar2Refuse (s : State) : State := { s with glb := { s.glb with bar2Ur := true, bar2Data := 0 } }

/-- The answer of a BAR2 read. -/
def bar2Answer (s : State) (v : Nat) : State := { s with glb := { s.glb with bar2Ur := false, bar2Data := BitVec.ofNat 4096 v } }

/-- A BAR2 access to the space of half `h` at offset `o`: shape, power and segment are checked, then it is performed with epoch 0
and counts nothing (13 R408, 05 R181). Toward a half in Easy it is held, and wakes the half (12 R390). -/
def bar2Pool (s : State) (h o len : Nat) (wr : Option Mem) : State :=
  let elsewhere := badAccess (if wr.isNone then bar2Refuse s else s)
  let inSeg := decide (o + len ≤ poolWindow) && decide (0 < len) && decide (o / 64 = (o + len - 1) / 64)
  let inWin := decide (poolWindow ≤ o) && decide (o + len ≤ poolEnd) && len == 4 && o % 4 == 0
  let p := poolOf s h
  let off := halfBoated s h || (inSeg && !segOpen p o)
  if inSeg = false ∧ inWin = false then elsewhere
  else if halfEasy s h then
    noteHeld (modPool s h fun p => { p with bar2Held := p.bar2Held ++ [(o, len, wr)] }) h
  else if off then
    match wr with
    | none => bar2Refuse s
    | some _ => modPool s h fun p => { p with bar2Dropped := satInc p.bar2Dropped }
  else
    match wr with
    | none => if inWin then bar2Answer s (p.lnd.word (o - poolWindow)).toNat else bar2Answer s (mrd p.mem o len)
    | some d => if inWin then setPoolWord s h (o - poolWindow) (mword d 0) else poolWrite s h o (mbytes d 0 len)

/-- BAR2_ACCESS (13 R408): half 0 at offset 0, half 1 at 0x8000_0000. `wr` holds the bytes of a write, none for a read; an
unprotected request is discarded once the IDE stream is established (13 R403). -/
def execBar2Access (off len : Nat) (wr : Option Mem) (prot : Bool) (s : State) : Outcome State Fault Refusal :=
  if s.sec.ide = true ∧ prot = false then .next (badAccess s)
  else if 0x100000000 ≤ off then .next (badAccess (if wr.isNone then bar2Refuse s else s))
  else .next (bar2Pool s (off / 0x80000000) (off % 0x80000000) len wr)

/-! ## The input-feed engine (13 R423-R426) -/

def fdOp (d : Nat) : Nat := fld d 0 8
def fdFlags (d : Nat) : Nat := fld d 8 8
def fdHalf (d : Nat) : Nat := fld d 16 8
def fdCounter (d : Nat) : Nat := fld d 24 8
def fdGranules (d : Nat) : Nat := fld d 32 32
def fdHost (d : Nat) : Nat := fld d 64 64
def fdPool (d : Nat) : Nat := fld d 128 32
def fdTag (d : Nat) : Nat := fld d 160 16

/-- A feed descriptor fails with BAD_PARAMETER as it starts (13 R424); one with OP 0 is checked for its FLAGS alone. An extent ends at its
last granule (log entry 44). -/
def fdBad (d : Nat) : Bool :=
  if fdOp d = 0 then decide (8 ≤ fdFlags d)
  else
    decide (2 < fdOp d) || decide (8 ≤ fdFlags d) || fld d 176 80 != 0 || (fdOp d == 2 && bit (fdFlags d) 0) ||
    decide (1 < fdHalf d) || fdGranules d == 0 || decide (16777216 < fdGranules d) || fdHost d % 64 != 0 ||
    decide (0x1400000 < fdPool d + fdGranules d)

/-- Move the granules of a feed descriptor in order, while the host's side answers (`data` gives one granule for each access that
succeeds) and the pool serves (13 R425, R426). The result: the state, the granules moved, the STATUS of the first failure. -/
def feedMove (s : State) (d : Nat) : Nat → Nat → List Granule → State × Nat × Nat
  | 0, k, _ => (s, k, stSuccess)
  | n + 1, k, data =>
    let h := fdHalf d
    let g := fdPool d + k
    if halfBoated s h then (s, k, stHalfOff)
    else if segOpen (poolOf s h) (64 * g) = false then (s, k, stSegmentAsleep)
    else match data with
      | [] => (s, k, stHostAccess)
      | x :: xs =>
        if fdOp d = 1 then
          let s1 := poolGranule s h g x
          feedMove (if bit (fdFlags d) 0 then countPool s1 h (fdCounter d) else s1) d n (k + 1) xs
        else
          feedMove { s with hostMem := mwrites s.hostMem (fdHost d + 64 * k) (mbytes (poolOf s h).mem (64 * g) 64) } d n (k + 1) xs

/-- A feed ring may start a descriptor (13 R425, R426). -/
def feedMayStart (f : Feed) : Bool := f.enable && !f.stopped && f.failedAt.isNone && f.head != f.tail && decide (f.prog.length < 4)

/-- FEED_DESCRIPTOR_START (13 R424-R426): the engine starts the ring's next descriptor and moves its granules. A descriptor that
cannot be read from host memory fails with HOST_ACCESS. One for a half in Easy is held, counted once, and wakes the half (09 R299, 12
R390; log entry 69). -/
def execFeedStart (f : FeedIx) (desc : Option (BitVec 256)) (data : List Granule) (s : State) : Outcome State Fault Refusal :=
  let q := feedOf s f.val
  let d := (desc.getD 0).toNat
  if feedMayStart q = false ∨ (bit (fdFlags d) 2 ∧ q.prog ≠ []) then .next s
  else
    let easy := decide (desc.isSome = true ∧ fdOp d ≠ 0) && !fdBad d && halfEasy s (fdHalf d)
    if easy then
      if q.noted then .next s else .next (modFeed (noteHeld s (fdHalf d)) f.val fun q => { q with noted := true })
    else
    let go : State × Nat × Nat :=
      if desc = none then (s, 0, stHostAccess) else if fdBad d then (s, 0, stBadParameter) else if fdOp d = 0 then (s, 0, stSuccess)
      else feedMove s d (fdGranules d) 0 data
    .next (modFeed go.1 f.val fun q =>
      { q with noted := false, head := ringNext q.size q.head, granules := q.granules + w32 go.2.1,
               prog := q.prog ++ [{ raw := BitVec.ofNat 256 d, at_ := q.head.toNat, moved := go.2.1, status := go.2.2 }],
               failedAt := if go.2.2 = stSuccess then q.failedAt else some q.head.toNat })

/-- A feed entry (13 R425). -/
def feedEntry (f : Nat) (q : Feed) (j : FeedJob) : CEntry :=
  { first := BitVec.ofNat 256 (pack [(8, 8, 3), (16, 16, fdTag j.raw.toNat), (64, 16, j.status), (80, 8, f), (96, 16, q.head.toNat), (128, 32, j.moved)]),
    second := none }

/-- FEED_DESCRIPTOR_END (13 R425, R426): the oldest descriptor in progress ends. A failure is logged and always posted, and the
ring stops once its other descriptors in progress have ended. -/
def execFeedEnd (f : FeedIx) (s : State) : Outcome State Fault Refusal :=
  let q := feedOf s f.val
  match q.prog with
  | [] => .next s
  | j :: rest =>
    let posts := j.status != stSuccess || bit (fdFlags j.raw.toNat) 1
    if posts && holdFull s q.cq.toNat then .next s
    else
      let s1 := modFeed s f.val fun q => { q with prog := rest, stopped := q.stopped || (rest.isEmpty && q.failedAt.isSome) }
      let s2 := if j.status = stSuccess then s1
        else report s1 (bareRec 2 feedFailed (domTime s 98) (detail f.val 0 j.status (fdTag j.raw.toNat) 0))
      .next (if posts then postEntry s2 q.cq.toNat (feedEntry f.val (feedOf s1 f.val) j) else s2)

/-- Stop every feed ring: its descriptors in progress fail with STOPPED (13 R426, 15 R466). -/
def stopFeeds (s : State) : State :=
  (List.range 8).foldl (fun s n => modFeed s n fun q =>
    { q with prog := q.prog.map fun j => if j.status = stSuccess then { j with status := stStopped } else j,
             failedAt := match q.prog with
               | [] => q.failedAt
               | j :: _ => some (q.failedAt.getD j.at_),
             stopped := q.stopped || q.prog.isEmpty }) s

/-! ## Function Level Reset and configuration (13 R401) -/

/-- What a Function Level Reset does (13 R401): rings disabled, runs cancelled, graphs released, feeds stopped, configuration space
and MSI-X table reset. Entries that no ring has accepted are dropped with the rings (log entry 14). -/
def functionReset (s : State) : State :=
  let s1 := stopFeeds (cancelRuns s 20)
  { s1 with
    str := { s1.str with graphs := [] },
    cq := { s1.cq with
      sq := s1.cq.sq.map fun p => if p.1 = i3cSrc then p else (p.1, { p.2 with enable := false, closing := false, cur := none, waiting := 0, ordered := false }),
      bg := s1.cq.bg.filter fun p => p.1 == i3cSrc,
      cq := s1.cq.cq.map fun p => (p.1, { p.2 with enable := false, closing := false, hold := [], wait := [], since := 0 }),
      feed := s1.cq.feed.map fun p => (p.1, { p.2 with enable := false, closing := false }),
      masked := 0xFFFFFFFFFFFFFFFF, msix := [], pba := 0 },
    glb := { s1.glb with flr := false },
    pins := { s1.pins with config := [] } }

/-- FUNCTION_LEVEL_RESET (13 R401): the reset takes effect, and GLB_FLR is 0 again (13 R406). -/
def execFunctionLevelReset (s : State) : Outcome State Fault Refusal := .next (functionReset s)

/-- Snivan has been started, or the ROM waits in recovery (13 R401, 14 R431, 16 R490). -/
def snivanStarted (s : State) : Bool := s.glb.fw == .starting || s.glb.fw == .ready || s.glb.fw == .recovery

/-- Reset value of a configuration word: the identity of 13 R400; the header as the base specification lays it out, with BAR0 of 64 MiB (13
R404), BAR2 of 4 GiB and prefetchable (13 R408) and no expansion ROM; MSI-X with 64 vectors, its table and PBA (13 R406); a payload of up to 512 B
and Function Level Reset (13 R400); else what the part holds (log entry 4). -/
def configReset (s : State) (a : Nat) : Word :=
  if a = 0 then w32 (0x27C5 + 2 ^ 16 * s.glb.device.toNat)
  else if a = 4 then 0x00100000
  else if a = 8 then 0x12000000 ||| (Config.configReset 8 &&& 0xFF)
  else if a = 0x10 then 4 else if a = 0x18 then 0xC
  else if a = 0x2C then Config.configReset a
  else if a = 0x34 then Config.configReset a &&& 0xFC
  else if a < 0x40 then 0
  else if a = Config.msixCap then 0x003F0011 ||| (Config.configReset a &&& 0xFF00)
  else if a = Config.msixCap + 4 then 0x1000
  else if a = Config.msixCap + 8 then 0x2000
  else if a = Config.pmCap + 4 then 0
  else if a = Config.expressCap + 4 then 0x10000002 ||| (Config.configReset a &&& 0x0FFFFFF8)
  else if a = Config.expressCap + 8 then 0x2810
  else if a = Config.expressCap + 0x28 then Config.configReset a &&& 0xFFFFFFF0
  else if a = Config.l1ssCap + 8 then Config.configReset a &&& 0xFFFFFFF0
  else Config.configReset a

/-- Writable bits of a configuration word; every other bit keeps its reset value (13 R400; log entry 4). -/
def configMask (a : Nat) : Word :=
  if a = 4 then 0x0546
  else if a = 0xC ∨ a = 0x3C then 0xFF
  else if a = 0x10 then 0xFC000000
  else if a = 0x14 ∨ a = 0x1C then 0xFFFFFFFF
  else if a < 0x40 then 0
  else if a = Config.msixCap then 0xC0000000
  else if a = Config.msixCap + 4 ∨ a = Config.msixCap + 8 then 0
  else if a = Config.pmCap + 4 then 3
  else if a = Config.expressCap + 4 then 0
  else if a = Config.expressCap + 8 then 0x7FFF
  else if a = Config.expressCap + 0x28 then Config.configMask a ||| 0xF
  else if a = Config.l1ssCap + 8 then Config.configMask a ||| 8
  else Config.configMask a

/-- Configuration space as the word at byte offset `a` reads. -/
def configWord (s : State) (a : Nat) : Word :=
  (configReset s a &&& ~~~(configMask a)) ||| (tget (configReset s a) s.pins.config a &&& configMask a)

/-- The function has the power state D3hot, or D0 (13 R400). -/
def inD3hot (s : State) : Bool := fld (configWord s (Config.pmCap + 4)).toNat 0 2 == 3

/-- The host has enabled ASPM L1.1 (13 R400, R402). -/
def l11Enabled (s : State) : Bool := (configWord s (Config.l1ssCap + 8)).getLsbD 3

/-- A write to the configuration word at `a`: its writable bits change. A power state other than D0 and D3hot is not taken; a write that
initiates a Function Level Reset begins one (13 R400, R401, R406). -/
def configWrite (s : State) (a : Nat) (v : Word) : State :=
  if configMask a = 0 then s
  else if a = Config.pmCap + 4 ∧ (v &&& 3 = 1 ∨ v &&& 3 = 2) then s
  else
    let s1 := { s with pins := { s.pins with config := tset (configReset s a &&& configMask a) s.pins.config a (v &&& configMask a) } }
    if a = Config.expressCap + 8 ∧ v.getLsbD 15 = true then { s1 with glb := { s1.glb with flr := true } } else s1

/-- CONFIGURATION_REQUEST (13 R400, R401): answered with Configuration Request Retry Status until Snivan has started. -/
def execConfigurationRequest (off : Nat) (wr : Option Word) (s : State) : Outcome State Fault Refusal :=
  if snivanStarted s = false then .next { s with pins := { s.pins with crs := s.pins.crs + 1 } }
  else match wr with
    | none => .next { s with glb := { s.glb with readData := configWord s (off / 4 * 4) } }
    | some v => .next (configWrite s (off / 4 * 4) v)

end Sys2Proof.Machine
end

