-- ==== Sys2Proof/Machine/Halt.lean ====
section
/-!
DEFINITION. Weigh-enough and what leads to it (15 R464-R468, 14 R450, 12 R376, R394): the failure of load segments, the chip's and
the fleet's weigh-enough, and ALERT_N.
-/
namespace Sys2Proof.Machine
open Host (Outcome)

/-! ## Failed segments (11 R372) -/

/-- Change the live generation `n` of context `c`. -/
def modGenNum (s : State) (c n : Nat) (f : Gen → Gen) : State :=
  modCtx s c fun x =>
    if x.g0.num = n ∧ x.g0.state ≠ .empty then { x with g0 := f x.g0 }
    else if x.g1.num = n ∧ x.g1.state ≠ .empty then { x with g1 := f x.g1 } else x

/-- The live generation `n` of context `c`. -/
def genNum (s : State) (c n : Nat) : Option Gen :=
  let x := ctxOf s c
  if x.g0.num = n ∧ x.g0.state ≠ .empty then some x.g0 else if x.g1.num = n ∧ x.g1.state ≠ .empty then some x.g1 else none

/-- Causes of a failed segment (15 R454); 0 is the model's own mark of POWER_LOST (11 R354), which is not logged. -/
abbrev segPowerLost : Nat := 0
abbrev segContent : Nat := 1
abbrev segMissing : Nat := 2
abbrev segHash : Nat := 3
abbrev segKeyMismatch : Nat := 4
abbrev segStopped : Nat := 5

/-- A generation whose segment `g` has failed with `cause`; the latest failure of a segment stands. -/
def Gen.fail (x : Gen) (g cause : Nat) : Gen := { x with failed := (x.failed.filter fun p => p.1 != g) ++ [(g, cause)], recs := tdel x.recs g }

/-- Segment `g` of a load fails: the generation is incomplete, and the failure enters the chip log (11 R372, 15 R454). -/
def segmentFails (s : State) (j : LoadJob) (g cause : Nat) : State :=
  let s1 := modGenNum s j.ctx j.gen fun x => x.fail g cause
  report s1 { chipRec s1 4 segmentFailed (detail cause j.gen 0 g 0) with ctx := BitVec.ofNat 8 j.ctx }

/-- Every load and repair stops: the segments it has still to process fail with STOPPED (11 R372, 15 R466). -/
def stopLoads (s : State) : State :=
  let s1 := s.ctxs.loads.foldl (fun s j => j.todo.foldl (fun s g => segmentFails s j g segStopped) s) s
  { s1 with ctxs := { s1.ctxs with loads := s1.ctxs.loads.map fun j => { j with todo := [], stopped := j.stopped || !j.todo.isEmpty } } }

/-! ## Weigh-enough (15 R466, R468) -/

/-- The chip enters weigh-enough for a cause that is logged with `code`. In one already, only the log changes (15 R468). -/
def chipHalt (s : State) (kind code : Nat) (det : BitVec 128) : State :=
  let s1 := report s (chipRec s kind code det)
  if s.glb.halted then s1
  else
    let s2 := { s1 with glb := { s1.glb with halted := true }, flt := { s1.flt with haltCode := BitVec.ofNat 16 code } }
    stopFeeds (stopLoads (cancelRuns (raiseEvent s2 2) 21))

/-- The part enters a fleet weigh-enough and sends 16 HALT symbols at its stern (14 R450). In one already, nothing is sent. -/
def fleetHalt (s : State) : State :=
  if s.chain.fleetHalt then s else { s with chain := { s.chain with fleetHalt := true, sternHalts := s.chain.sternHalts + 16 } }

/-- Start-up has not yet brought Snivan to ready (16 R488). -/
def startingUp (s : State) : Bool := s.glb.fw != .ready && decide (s.glb.stage < 7)

/-- A weigh-enough by HALT_N or by a HALT: during start-up it waits for Snivan to become ready (16 R488). -/
def boardHalt (s : State) (code : Nat) : State :=
  if startingUp s then
    { s with glb := { s.glb with lateHalt := some (s.glb.lateHalt.getD (BitVec.ofNat 16 code)) } }
  else chipHalt s 5 code 0

/-! ## ALERT_N (15 R465) -/

/-- ALERT_N is asserted; FLT_ALERT_CODE keeps the first condition's code. `hold` marks a condition that only RESET_N ends. -/
def raiseAlert (s : State) (code : Byte) (hold : Bool) : State :=
  { s with flt := { s.flt with alert := if s.flt.alert = 0 then code else s.flt.alert, alertHold := s.flt.alertHold || hold },
           pins := { s.pins with alert := true } }

/-! ## Domains that stop (12 R376, R394) -/

/-- The clocks of domain `d` stop for as long as its generator does: its copy of the time base stands still. -/
def stopDomain (s : State) (d : Nat) : State :=
  let t := domTime s d
  modDom s d fun m => { m with stop := .generator, frozen := some t }

/-- Every domain except management stops (12 R376, R394). -/
def stopAll (s : State) : State := (List.range 99).foldl stopDomain s

/-- A junction sensor has read 110 °C or above: THERMTRIP_N is asserted until RESET_N, every domain except management stops, and
the chip is in weigh-enough (12 R394). -/
def tripThermal (s : State) (q : Nat) (tj : Byte) : State :=
  if s.pins.thermtrip then s
  else
    let s1 := { s with pins := { s.pins with thermtrip := true } }
    raiseAlert (chipHalt (stopAll s1) 5 thermtripCode (detail q tj.toNat 0 0 0)) 4 true

/-- A generator loses lock, or fails to lock at start-up: its domain stops, and the chip is in weigh-enough (12 R376, 16 R491). -/
def unlockDomain (s : State) (d : Nat) : State :=
  let s1 := modDom (stopDomain s d) d fun m => { m with locked := false }
  raiseAlert (chipHalt s1 5 clkUnlockCode (detail d (domOf s d).tj.toNat 0 0 0)) 6 true

end Sys2Proof.Machine
end

