-- ==== Sys2Proof/Machine/Rom.lean ====
section
/-!
DEFINITION. The ROM and the start of Snivan (14 R428-R438, R440): image verification, the device state record, the choice of a slot,
recovery, and what Snivan does as it becomes ready (01 R27, 14 R434, 16 R488).
-/
namespace Sys2Proof.Machine
open Host (Outcome)

/-! ## Images (14 R428, R429) -/

def imMagic (m : Mem) : Nat := mrd m 0 4
def imType (m : Mem) : Nat := mrd m 4 1
def imFormat (m : Mem) : Nat := mrd m 5 1
def imVersion (m : Mem) : Nat := mrd m 8 4
def imSvn (m : Mem) : Nat := mrd m 0xC 4
def imBody (m : Mem) : Nat := mrd m 0x10 4
def imDevice (m : Mem) : Nat := mrd m 0x14 16

/-- The signed-message hash: SHA-384 of bytes 0x00 to 0x3F + BODY_BYTES (14 R428). -/
def imHash (m : Mem) : BitVec 384 := Config.sha384 (mbytes m 0 (0x40 + imBody m))

/-- A big-endian signature of 96 bytes, kept as the number of its bytes, byte 0 lowest. -/
def sigAt (m : Mem) (a : Nat) : BitVec 768 := BitVec.ofNat 768 (mrd m a 96)

/-- The bytes from `a` on, as many as the longest LMS signature of 11 R369 has. -/
def lmsAt (m : Mem) (a : Nat) : List Byte := mbytes m a 2988

/-- Check 1 of 14 R429 fails: `ty` is the type that the source takes, `size` its length. -/
def imFormatBad (m : Mem) (ty size : Nat) : Bool :=
  let b := imBody m
  imMagic m != 0x4E574649 || imFormat m != 1 || imType m != ty || mrd m 6 2 != 0 || mrd m 0x24 28 != 0 ||
  (if ty = 1 then decide (b < 4096) || decide (1040384 < b) else decide (b < 64) || decide (65536 < b)) ||
  decide (size < 0xA0 + b + Config.lmsLength (lmsAt m (0xA0 + b)))

/-- The first check of 14 R429 that an image fails, as its status code (14 R446). -/
def imRefusal (s : State) (m : Mem) (ty size : Nat) : Option Nat :=
  if imFormatBad m ty size then some 0x50
  else if imDevice m ≠ s.sec.deviceId.toNat ∧ (imDevice m ≠ 0 ∨ ty = 3 ∨ ty = 4) then some 0x51
  else if ty = 1 ∧ imSvn m < s.sec.stateRec.minSvn then some 0x52
  else if Config.ecdsaVerify Config.imageEcdsa (imHash m) (sigAt m (0x40 + imBody m)) = false then some 0x53
  else if Config.lmsVerify Config.imageLms (imHash m) (lmsAt m (0xA0 + imBody m)) = false then some 0x54
  else none

/-! ## The device state record (14 R438) -/

/-- The copy that is current: the valid one with the higher SEQUENCE; false for copy 0. -/
def currentCopy (f : Flash) : Bool :=
  match f.rec0, f.rec1 with
  | some a, some b => decide (a.seq < b.seq)
  | none, some _ => true
  | _, none => false

/-- The record in force, none where neither copy is valid. -/
def currentRec (f : Flash) : Option StateRec := if currentCopy f then f.rec1 else f.rec0

/-- Write a record, with SEQUENCE plus one, to the copy that is not current. -/
def writeRec (s : State) (r : StateRec) : State :=
  let r := { r with seq := s.sec.stateRec.seq + 1 }
  let f := s.sec.flash
  let f' := if (currentRec f).isSome && !currentCopy f then { f with rec1 := some r } else { f with rec0 := some r }
  { s with sec := { s.sec with stateRec := r, flash := f' } }

/-! ## The grade record (14 R439, R440) -/

/-- The record's signatures verify and its DEVICE_ID is the device's own (14 R439, R440). -/
def gradeSigned (s : State) : Bool :=
  let m := s.sec.flash.grade
  let h := Config.sha384 (mbytes m 0 0x200)
  mrd m 0 4 == 0x4E574752 && mrd m 4 1 == 1 && decide (mrd m 5 1 ≤ 2) &&
  Config.ecdsaVerify Config.imageEcdsa h (sigAt m 0x200) && Config.lmsVerify Config.imageLms h (lmsAt m 0x260) &&
  mrd m 8 16 == s.sec.deviceId.toNat

/-- The Device ID of a grade (13 R400). -/
def deviceOf (grade : Nat) : BitVec 16 := if grade = 0 then 0x2304 else if grade = 1 then 0x2208 else 0x2112

/-- Snivan checks the record as it starts, so that the Device ID is set (13 R400, 14 R440). Later starts find it set. -/
def checkDevice (s : State) : State :=
  if 1 < s.glb.stage then s
  else
    let ok := gradeSigned s
    { s with glb := { s.glb with recordOk := ok, device := if ok then deviceOf (mrd s.sec.flash.grade 5 1) else 0x2300 } }

/-! ## The ROM (14 R430-R432) -/

/-- Firmware slot A or B. -/
def slotOf (f : Flash) (n : Fin 2) : Mem := if n = 0 then f.slotA else f.slotB

/-- Length of a firmware slot (14 R427). -/
abbrev slotBytes : Nat := 0x200000

/-- Snivan starts from a verified image: it is not ready yet (14 R430). -/
def startFrom (s : State) (m : Mem) (cause : Byte) (slot : Fin 2) (trial : Bool) : State :=
  checkDevice { s with glb := { s.glb with
    fw := .starting, fwTick := s.clk.ticks, fwVersion := w32 (imVersion m), fwSvn := w32 (imSvn m), fwHash := imHash m, bootCause := cause, bootSlot := slot,
    trial := trial, stage := max s.glb.stage 1 } }

/-- A Snivan that has started from the ROM in start-up brings the device to stage 2 (16 R490). -/
def toStage2 (s : State) : State := if s.glb.stage = 1 ∧ s.glb.fw = .starting then { s with glb := { s.glb with stage := 2 } } else s

/-- The ROM verifies the slot it chooses, then the other, and starts the first that passes; it logs a start of the slot not named
active (14 R430, 15 R473). With neither it waits in recovery (14 R431). -/
def chooseSlot (s : State) (cause : Byte) : State :=
  let r := s.sec.stateRec
  let other : Fin 2 := 1 - r.active
  let order := if r.trial && s.glb.wdTrial then [other, r.active] else [r.active, other]
  match order.find? fun n => (imRefusal s (slotOf s.sec.flash n) 1 slotBytes).isNone with
  | some n =>
    let s1 := toStage2 (startFrom s (slotOf s.sec.flash n) cause n (r.trial && n == r.active))
    if n = r.active then s1 else report s1 (chipRec s1 4 bootFallback 0)
  | none => { s with glb := { s.glb with fw := .recovery, recovery := true, recStatus := 0, bootCause := 4, bootSlot := 0, stage := max s.glb.stage 1 } }

/-- The identity that the device secret and the certificates give (14 R435-R437). -/
def readIdentity (s : State) : State :=
  let k := Config.attestKey Config.pufSecret
  { s with sec := { s.sec with
      secret := Config.pufSecret,
      deviceId := (Config.sha384 (bytesOf k.toNat 97)).setWidth 128,
      keyId := (Config.sha384 (Config.kexCertificate s.sec.flash.certs)).setWidth 64 } }

/-- The state record is read; with no valid copy the ROM goes on with an empty one, and logs it (14 R438). -/
def readRec (s : State) : State :=
  match currentRec s.sec.flash with
  | some r => { s with sec := { s.sec with stateRec := r } }
  | none => report { s with sec := { s.sec with stateRec := {} } } (chipRec s 4 stateRecordLost 0)

/-- ROM_BOOT (14 R430): the PUF, the state record, a slot. Where the PUF fails, ALERT_N is asserted and the ROM stops. -/
def romBoot (s : State) (cause : Byte) (puf : Bool) : State :=
  if puf then chooseSlot (readRec (readIdentity s)) cause
  else raiseAlert { s with glb := { s.glb with fw := .off } } 1 true

/-! ## Snivan becomes ready (01 R27, 14 R434, R438, 16 R488) -/

/-- A Snivan in trial commits itself (14 R434). -/
def commitTrial (s : State) : State :=
  if s.glb.trial then
    let r := s.sec.stateRec
    let s1 := writeRec s { r with trial := false, minSvn := max r.minSvn s.glb.fwSvn.toNat }
    { s1 with glb := { s1.glb with trial := false } }
  else s

/-- Snivan writes a fresh state record where none was valid (14 R438). -/
def freshRec (s : State) : State := if (currentRec s.sec.flash).isNone then writeRec s s.sec.stateRec else s

/-- A weigh-enough that waited for Snivan is entered (16 R488). -/
def takeLateHalt (s : State) : State :=
  match s.glb.lateHalt with
  | some c => chipHalt { s with glb := { s.glb with lateHalt := none } } 5 c.toNat 0
  | none => s

/-- Snivan sets GLB_SNIVAN_READY, and does what waited for it. -/
def serveReady (s : State) : State :=
  takeLateHalt (commitTrial (freshRec { s with glb := { s.glb with fw := .ready, wdTrial := s.glb.wdTrial && !s.glb.trial } }))

/-- Snivan becomes ready, with the event of GLB_EVENTS bit 3 (13 R406). The first readiness, in start-up, is no event: GLB_EVENTS reads
0 once start-up completes (00 R13; log entry 61). -/
def becomeReady (s : State) : State := raiseEvent (serveReady s) 3

/-- The ROM starts Snivan again, in service (14 R432, R434). -/
def restartSnivan (s : State) (cause : Byte) (puf : Bool) : State := romBoot { s with glb := { s.glb with fw := .starting } } cause puf

end Sys2Proof.Machine
end

