-- ==== Sys2Proof/Machine/Chain.lean ====
section
/-!
DEFINITION. The enumeration chain (14 R447-R450): ENUM frames, node numbers and HALT symbols. In reset the chain is dead (16 R487).
-/
namespace Sys2Proof.Machine
open Host (Outcome)

/-- One bit of the chain's CRC-8: polynomial 0x07, most significant bit first (14 R447). -/
def crc8Bit (c : Byte) : Byte := if c.getLsbD 7 then (c <<< 1) ^^^ 7 else c <<< 1

/-- One byte of the chain's CRC-8. -/
def crc8Byte (c b : Byte) : Byte :=
  crc8Bit (crc8Bit (crc8Bit (crc8Bit (crc8Bit (crc8Bit (crc8Bit (crc8Bit (c ^^^ b))))))))

/-- CRC-8 of bytes, initial value 0 (14 R447). -/
def crc8 (bs : List Byte) : Byte := bs.foldl crc8Byte 0

/-- The value of a valid ENUM frame. The four data bytes stand in bits 31:0, the first lowest; a frame with a code violation or a
disparity error is any number from 2^32 on (14 R447). -/
def enumValue (frame : Nat) : Option Nat :=
  if frame < 2 ^ 32 ∧ crc8 (bytesOf frame 3) = BitVec.ofNat 8 (frame / 2 ^ 24) then some (frame / 256 % 8192) else none

/-- The data bytes of an ENUM frame with VALUE `v`: 0x01, VALUE in two bytes, and the CRC-8 over the three (14 R447). -/
def enumFrame (v : Nat) : Nat :=
  let n := pack [(0, 8, 1), (8, 13, v)]
  n + 2 ^ 24 * (crc8 (bytesOf n 3)).toNat

/-- ENUM with `v` is sent at the stern. -/
def sendEnum (s : State) (v : Nat) : State := { s with chain := { s.chain with sternEnum := some (enumFrame v) } }

/-- Fabric training begins: every port with FAB_PORT_EN set starts at DETECT (16 R490). -/
def enterTraining (s : State) : State :=
  let s1 := { s with glb := { s.glb with stage := 8, stageTick := s.clk.ticks } }
  (List.range 12).foldl (fun s p => modPort s p fun x => { x with state := if x.state = .off ∧ x.en = true then .detect else x.state }) s1

/-- The part takes node number `v` (14 R448). -/
def takeNode (s : State) (v : Nat) : State := enterTraining { s with chain := { s.chain with node := v, valid := true } }

/-- An assigned part meets an ENUM: a different VALUE is counted and logged, and its own number plus one is forwarded (14 R448). -/
def meetEnum (s : State) (v : Nat) : State :=
  let s1 :=
    if v = s.chain.node then s
    else report { s with chain := { s.chain with conflicts := satInc s.chain.conflicts } } (chipRec s 4 chainConflict 0)
  sendEnum s1 (s.chain.node + 1)

/-- A valid ENUM with VALUE `v` at the bow (14 R448, R449). Until Snivan is ready no number is taken. -/
def onEnum (s : State) (v : Nat) : State :=
  if s.chain.head then { s with chain := { s.chain with ring := true, size := v } }
  else if s.chain.valid then meetEnum s v
  else if s.glb.stage < 7 ∨ s.glb.fw ≠ .ready then s
  else if 4096 ≤ v then sendEnum s 4096
  else sendEnum (takeNode s v) (v + 1)

/-- ENUM (14 R447-R449): a frame at the bow. A bad one is discarded and counted; one that does not begin with 0x01 is no ENUM. -/
def execEnumFrame (frame : Nat) (s : State) : Outcome State Fault Refusal :=
  if s.pins.reset then .next s
  else match enumValue frame with
  | none => .next { s with chain := { s.chain with errors := satInc s.chain.errors } }
  | some v => .next (if frame % 256 = 1 then onEnum s v else s)

/-- Ten milliseconds, a million reference ticks, have passed since the head's last ENUM of its own, or it has sent none (14 R448). -/
def enumDue (s : State) : Bool :=
  match s.chain.enumAt with
  | some t => decide (t + 1000000 ≤ s.clk.ticks)
  | none => true

/-- ENUM_TIMER (14 R448): the head, once it holds node 0, sends ENUM with VALUE 1 every 10 ms. -/
def execEnumTimer (s : State) : Outcome State Fault Refusal :=
  .next (if s.chain.head = true ∧ s.chain.valid = true ∧ enumDue s = true then
    sendEnum { s with chain := { s.chain with enumAt := some s.clk.ticks } } 1 else s)

/-- HALT_SYMBOL (14 R450, 16 R488): a HALT at the bow is counted; a part not in a fleet weigh-enough enters one and forwards it. -/
def execHaltSymbol (s : State) : Outcome State Fault Refusal :=
  if s.pins.reset then .next s
  else
    let s1 := { s with chain := { s.chain with halts := satInc s.chain.halts } }
    .next (if s.chain.fleetHalt then s1 else fleetHalt (boardHalt s1 weChain))

end Sys2Proof.Machine
end

