-- ==== Sys2Proof/Machine/Cox.lean ====
section
/-!
DEFINITION. The cox and the umpire (06): the page walk, presenting and issuing descriptors, holds, hardware loops, counters and
comparators, catches, ACQUIRE, END, completion. Times within a heat are heat core cycles (06 R189); the state keeps the beat and
the core cycle of the last descriptor presented, and each meaning moves both on to the next event.
-/
namespace Sys2Proof.Machine
open Host (Outcome)

/-! ## Core cycles in which the seat stands still (06 R191, 03 R82, 04 R115) -/

/-- A time at or after `c` moves on by `n`. -/
def late (c n t : Nat) : Nat := if c ≤ t then t + n else t

/-- The core cycle of what would lie in core cycle `t`, for work begun in core cycle `t0`: the forced refreshes begun since then come
between (03 R82, 04 R115). -/
def runTime (c : Cox) (t0 t : Nat) : Nat := c.gaps.foldl (fun t g => if t0 < g.1 then late g.1 g.2 t else t) t

/-- Core cycle of what an MX job does `k` core cycles after its start (03 R82, R103). -/
def mxAt (x : Seat) (j : Job) (k : Nat) : Nat := runTime x.cox j.start (j.start + k)

/-- Core cycle of what a VE job does `k` core cycles after its start (04 R115, R125). -/
def veCoreAt (x : Seat) (j : Job) (k : Nat) : Nat := runTime x.cox (2 * j.start) (2 * j.start + k)

/-- Vector cycle of what a VE job does `k` vector cycles after its start (04 R111, R115). -/
def veAt (x : Seat) (j : Job) (k : Nat) : Nat := veCoreAt x j (2 * k) / 2

/-- Core cycle `t` comes before a forced refresh that is in progress (05 R174, 06 R191). -/
def stillBefore (x : Seat) (t : Nat) : Bool := match x.wst.forcing with
  | some c => decide (t < c)
  | none => true

/-! ## Counters -/

/-- Write a counter at the end of core cycle `t` with rank 0 CTRL, 1 loop index, 2 COMPRESS (06 R195): writes of one core cycle
apply in rank order, and each one lost counts in COX_CTR_COLLIDE. -/
def writeCtr (c : Cox) (k : Nat) (v : Word) (t rank : Nat) : Cox :=
  match tfind c.ctrAt k with
  | some (u, r) =>
    if u = t + 1 then
      let c1 := { c with collide := satInc c.collide }
      if r ≤ rank then { c1 with ctr := tset 0 c1.ctr k v, ctrAt := tput c1.ctrAt k (t + 1, rank) } else c1
    else if t + 1 < u then c
    else { c with ctr := tset 0 c.ctr k v, ctrAt := tput c.ctrAt k (t + 1, rank) }
  | none => { c with ctr := tset 0 c.ctr k v, ctrAt := tput c.ctrAt k (t + 1, rank) }

/-- Apply the counter writes of COMPRESS that took effect before core cycle `now` (04 R133, 06 R194). -/
def settle (c : Cox) (now : Nat) : Cox :=
  let go := c.due.foldl (fun (a : Cox) (p : Nat × Nat × Word) => if p.1 < now then writeCtr a p.2.1 p.2.2 p.1 2 else a) c
  { go with due := c.due.filter fun p => decide (now ≤ p.1) }

/-! ## The page and the walk (06 R203) -/

/-- Descriptor `i` of the active page as a number (05 R157, 06 R185). -/
def descAt (x : Seat) (i : Nat) : Nat := mrd x.desc (x.cox.page.val * 0x8000 + 32 * i) 32

/-- The innermost active loop. -/
def topLoop (c : Cox) : Option LoopFrame := c.loops.getLast?

/-- The walk has reached the end of the innermost loop's body. -/
def atLoopEnd (c : Cox) : Bool := match topLoop c with
  | some l => c.next == l.last + 1
  | none => false

/-- The end of a loop's body (06 R203): the next iteration, or the end of the loop. The result tells the iteration begun. -/
def loopStep (c : Cox) : Cox × Option LoopFrame :=
  match topLoop c with
  | none => (c, none)
  | some l =>
    let k := l.iter + 1
    if k < l.count then
      let l' := { l with iter := k }
      ({ c with loops := c.loops.dropLast ++ [l'], base := l.start + k * l.period, next := l.first }, some l')
    else ({ c with loops := c.loops.dropLast, base := l.start + l.count * l.period }, none)

/-- The walk fault of a descriptor with effective beat `eb` (06 R203), if there is one. -/
def walkCode (c : Cox) (eb : Nat) : Option Nat :=
  if eb < c.prev then some coxBeatOrder
  else if c.loops.any fun l => decide (l.start + (l.iter + 1) * l.period ≤ eb) then some coxLoopOverrun
  else none

/-- The descriptor follows an ACQUIRE by fewer than 4 beats (06 R213). -/
def gapBad (c : Cox) (eb : Nat) : Bool := c.acq != 0 && decide (eb < c.acq - 1 + 4)

/-- Depth of the MX, VE, DMA and NET queues (06 R186). -/
def queueDepth (q : Nat) : Nat := if q = 1 then 16 else 8

/-- The queue that a descriptor enters: 0 MX, 1 VE, 2 DMA, 3 NET (06 R186). -/
def queueOf (d : Nat) : Option (Fin 4) :=
  let c := dClass d
  if c = clsMx then some 0 else if c = clsVe then some 1 else if c = clsDma then some 2 else if c = clsNet then some 3
  else if c = clsSync ∧ dOp d = opRelease then (if yEngine d = 0 then some 2 else some 3)
  else none

/-- Unstarted descriptors in queue `q`. -/
def queueLen (x : Seat) (q : Fin 4) : Nat :=
  match q with
  | 0 => x.mxa.queue.length
  | 1 => x.vec.queue.length
  | 2 => x.dma.queue.length
  | 3 => x.net.queue.length

/-- Core cycles from `now` on in which descriptors of queue `q` start: of those that run and those that have run (06 R192). -/
def startsFrom (x : Seat) (q : Fin 4) (now : Nat) : List Nat :=
  let run : List Job := match q with
    | 0 => x.mxa.cur.map (·.2)
    | 1 => x.vec.cur.toList
    | 2 => x.dma.cur.toList ++ x.dma.releasing.toList
    | 3 => x.net.cur.toList ++ x.net.releasing.toList
  ((run ++ x.cox.fin.filter fun j => queueOf j.raw.toNat == some q).map fun j => if q = 1 then 2 * j.start else j.start).filter
    fun t => decide (now ≤ t)

/-- Descriptors of queue `q` that were unstarted at the beginning of core cycle `now` (06 R192). -/
def unstarted (x : Seat) (q : Fin 4) (now : Nat) : Nat := queueLen x q + (startsFrom x q now).length

/-- The first core cycle from `now` on in which queue `q` is not full, as far as the starts made so far tell (06 R191, R192). -/
def roomFrom (x : Seat) (q : Fin 4) (now : Nat) : Option Nat :=
  (now :: (startsFrom x q now).map (· + 1)).foldl (fun m t =>
    if unstarted x q t < queueDepth q.val then some (min t (m.getD t)) else m) none

/-- A start in queue `q` may end a hold (06 R191). -/
def noteRoom (x : Seat) (q : Fin 4) : Seat :=
  if x.cox.hold = .queue q then { x with cox := { x.cox with roomAt := roomFrom x q x.cox.cycle } } else x

/-- Put a job at the end of queue `q`. -/
def enqueue (x : Seat) (q : Fin 4) (j : Job) : Seat :=
  match q with
  | 0 => { x with mxa := { x.mxa with queue := x.mxa.queue ++ [j] } }
  | 1 => { x with vec := { x.vec with queue := x.vec.queue ++ [j] } }
  | 2 => { x with dma := { x.dma with queue := x.dma.queue ++ [j] } }
  | 3 => { x with net := { x.net with queue := x.net.queue ++ [j] } }

/-- The latest issue of page index `i` completed before core cycle `now` (06 R205). -/
def producerOk (c : Cox) (i now : Nat) : Bool :=
  match tfind c.issuedAt i with
  | none => false
  | some t =>
    (match tfind c.done i with
      | some e => decide (e ≤ now)
      | none => false)
    || c.fin.any fun j => j.idx == i && j.issued + 1 == t && decide (j.doneAt < now)

/-- Every producer that a descriptor names is satisfied (06 R187, R205). -/
def producersOk (c : Cox) (d i now : Nat) : Bool :=
  [dProd0 d, dProd1 d, dProd2 d].all fun p => p == 0 || producerOk c (i - p) now

/-- A BLOAD that moves granules in core cycle `now`: the weight loader's job, or one that has run and completes later. -/
def activeBloads (x : Seat) (now : Nat) : List Job :=
  ((match tfind x.mxa.cur 0 with
    | some j => [j]
    | none => []) ++ x.cox.fin).filter fun j =>
      dClass j.raw.toNat == clsMx && dOp j.raw.toNat == opBload && decide (j.start ≤ now ∧ now ≤ mxAt x j 33)

/-- The bank that a BLOAD reads (05 R149). -/
def bloadBank (j : Job) : Nat := (blAddr j.raw.toNat j.c).toNat / 3072

/-- The granule that a BLOAD moves in core cycle `now` (03 R103). -/
def bloadGranule (x : Seat) (j : Job) (now : Nat) : Nat :=
  (blAddr j.raw.toNat j.c).toNat + (findIdx (fun k => mxAt x j k == now) (List.range 34)).getD 0

/-- WST_REST_CONFLICT against each BLOAD whose bank the rest window in force declares at rest (05 R171). -/
def restCheck (s : State) (w now : Nat) : State :=
  let x := seatOf s w
  (activeBloads x now).foldl (fun s j =>
    if x.cox.rest.getLsbD (bloadBank j) then jobFault s w j wstRestConflict 10 now 0 (bloadGranule x j now) 0 else s) s

/-! ## Issue (06 R188, R190, R198) -/

/-- A descriptor issues in core cycle `now`: its completion bit clears, its rest mask comes into force, and the walk moves on. -/
def markIssued (c : Cox) (j : Job) : Cox :=
  { c with issuedAt := tput c.issuedAt j.idx (j.issued + 1), done := tdel c.done j.idx, rest := dWrest j.raw.toNat,
           issued := satInc c.issued, prev := j.beat + 1, lastIdx := j.idx + 1, next := j.idx + 1, acq := 0, winValid := true,
           held := none, hold := .none, roomAt := none }

/-- A descriptor that completes in its issue core cycle (06 R205). -/
def markDone (c : Cox) (j : Job) : Cox := { c with done := tput c.done j.idx (j.issued + 1), cur := none }

/-- The fault of a LOOP that the count, depth or nesting check fails (06 R204). -/
def loopCode (c : Cox) (d i : Nat) : Option Nat :=
  if 65535 < ctrVal c (lCsel d) then some coxLoopCount
  else if 4 ≤ c.loops.length then some coxLoopDepth
  else if 1023 < i + lBody d ∨ c.loops.any (fun l => decide (l.last < i + lBody d)) then some coxLoopNest
  else none

/-- Check 6 of R188 with END's (06 R204). -/
def lastCheck (c : Cox) (d i : Nat) : Option Nat :=
  if dClass d = clsLoop then loopCode c d i
  else if dClass d = clsCtrl ∧ dOp d = 0x3F ∧ c.loops ≠ [] then some coxLoopNest
  else none

/-- Issue a descriptor in core cycle `j.issued`: predicate, producers, addresses, and the queue or the cox (06 R188 checks 3-6). A LOOP
or END that fails the last check has no effect; its own row raises the fault. -/
def issueJob (s : State) (w : Nat) (j : Job) : State :=
  let x := seatOf s w
  let d := j.raw.toNat
  let p := predVal x.cox (dPred d)
  if p = false then
    let c := { markIssued x.cox j with predFalse := satInc x.cox.predFalse }
    let c := if dClass d = clsLoop then { c with cur := some { j with pred := false } } else markDone c j
    restCheck (putSeat s w { x with cox := c }) w j.issued
  else if producersOk x.cox d j.idx j.issued = false then jobFault s w j umpEarlyIssue 1 j.issued 0 noWord 0
  else
    let c := jobCtr x.cox d
    if addressOk d c = false then jobFault s w j umpAddress 1 j.issued 0 noWord 0
    else if (lastCheck x.cox d j.idx).isSome then
      putSeat s w { x with cox := { x.cox with cur := some j, held := none, hold := .none, roomAt := none } }
    else
      let j := { j with c := c, tail := ctrVal x.cox (vTsel d) }
      let x1 := { x with cox := markIssued x.cox j }
      let x2 := match queueOf d with
        | some q => enqueue x1 q j
        | none => if dClass d = clsSync ∧ dOp d = opCatch then { x1 with cox := markDone x1.cox j }
                  else { x1 with cox := { x1.cox with cur := some j } }
      let r : Route := { wpn := rWpn d, wps := BitVec.ofNat 96 (rWps d), mask := BitVec.ofNat 48 (rMask d) }
      let x3 := if dOp d = opRset ∧ dClass d = clsDma then { x2 with dma := { x2.dma with issueRoutes := tput x2.dma.issueRoutes (rReg d) r } }
                else if dOp d = opRset ∧ dClass d = clsNet then { x2 with net := { x2.net with issueRoutes := tput x2.net.issueRoutes (rReg d) r } }
                else x2
      restCheck (putSeat s w x3) w j.issued

/-- Offer a presented descriptor for issue in its first core cycle: a CATCH with a true predicate waits to be tested, a full
queue holds it (06 R190, R191), and anything else issues. -/
def offerJob (s : State) (w : Nat) (j : Job) : State :=
  let x := seatOf s w
  let d := j.raw.toNat
  if predVal x.cox (dPred d) = true ∧ dClass d = clsSync ∧ dOp d = opCatch then
    modCox s w fun c => { c with held := some j, hold := .none }
  else if predVal x.cox (dPred d) = true then
    match queueOf d with
    | some q =>
      if queueDepth q.val ≤ unstarted x q j.issued then
        modCox s w fun c => { c with held := some j, hold := .queue q, roomAt := roomFrom x q j.issued }
      else issueJob s w j
    | none => issueJob s w j
  else issueJob s w j

/-- The core cycle in which the next descriptor is presented, or its walk fault raised (06 R190, R203). -/
def nextCycle (x : Seat) : Nat :=
  let c := x.cox
  let eb := c.base + dBeat (descAt x c.next)
  if 1023 < c.next ∨ (walkCode c eb).isSome = true ∨ gapBad c eb = true then c.cycle + 1 else c.cycle + (eb - c.beat)

/-- The seat walks its plan, and nothing stands in the way of the next descriptor. -/
def mayPresent (x : Seat) : Bool :=
  x.cox.state == .walking && x.cox.held.isNone && x.cox.cur.isNone && stillBefore x (nextCycle x) && !atLoopEnd x.cox

/-- Present the next descriptor in walk order (06 R190, R203): walk faults, then the first two checks of R188, then issue. A COX_PAGE_END
has no descriptor and so no effective beat; its record carries the beat base (log entry 64). -/
def present (s : State) (w : Nat) : State :=
  let x := seatOf s w
  let c := x.cox
  if mayPresent x = false ∨ clocked s w = false then s
  else if 1023 < c.next then
    jobFault s w { idx := c.next, beat := c.base, loops := loopIters c } coxPageEnd 0 (c.cycle + 1) 0 noWord 0
  else
    let d := descAt x c.next
    let eb := c.base + dBeat d
    let j : Job := { raw := BitVec.ofNat 256 d, idx := c.next, beat := eb, loops := loopIters c }
    match walkCode c eb with
    | some code =>
      let s1 := jobFault s w j code 0 (c.cycle + 1) 0 noWord 0
      if gapBad c eb then jobFault s1 w j coxFetchGap 0 (c.cycle + 1) 0 noWord 0 else s1
    | none =>
      if gapBad c eb then jobFault s w j coxFetchGap 0 (c.cycle + 1) 0 noWord 0
      else
        let now := c.cycle + (eb - c.beat)
        let s1 := modCox s w fun c => settle { c with beat := eb, cycle := now } now
        let j := { j with issued := now }
        if commonBad d c.next then jobFault s1 w j coxDescriptor 0 now 0 noWord 0
        else match classFault s.chain.node w x d with
          | some code => jobFault s1 w j code 0 now 0 noWord 0
          | none => offerJob s1 w j

/-- DESCRIPTOR_PRESENT (06 R190). -/
def execDescriptorPresent (w : SeatIx) (s : State) : Outcome State Fault Refusal := .next (present s w.val)

/-- Time passes while the beat counter is held: the held descriptor's core cycle becomes `now` (06 R191). -/
def holdUntil (c : Cox) (now : Nat) : Cox := settle { c with cycle := now } now

/-- The first core cycle in which a counter write of COMPRESS turns the predicate of a held descriptor false (06 R197, R198). -/
def predOff (c : Cox) (d : Nat) : Option Nat :=
  ((c.due.map fun p => p.1 + 1).filter fun t => decide (c.cycle < t) && !predVal (settle c t) (dPred d)).foldl
    (fun m t => some (min t (m.getD t))) none

/-- The core cycle in which a queue's hold of a descriptor ends: its queue has room, or its predicate is false (06 R191, R198). -/
def holdEnd (c : Cox) (d : Nat) : Option Nat := match c.roomAt, predOff c d with
  | some a, some b => some (min a b)
  | some a, none => some a
  | none, b => b

/-- QUEUE_HOLD_END (06 R191, R192, R198): the held descriptor issues in the first core cycle in which its queue has room or its
predicate is false. -/
def execQueueHoldEnd (w : SeatIx) (s : State) : Outcome State Fault Refusal :=
  let x := seatOf s w.val
  match x.cox.hold, x.cox.held with
  | .queue _, some j =>
    match holdEnd x.cox j.raw.toNat with
    | some t =>
      let now := max t x.cox.cycle
      if x.cox.state = .walking ∧ stillBefore x now = true ∧ clocked s w.val = true then
        let s1 := modCox s w.val fun c =>
          holdUntil { c with heldQueue := satAdd c.heldQueue (now - c.cycle), held := none, hold := .none, roomAt := none } now
        .next (issueJob s1 w.val { j with issued := now })
      else .next s
    | none => .next s
  | _, _ => .next s

/-- The presented CATCH of a seat. -/
def catchHeld (x : Seat) : Option Job :=
  match x.cox.held with
  | some j => if dClass j.raw.toNat = clsSync ∧ dOp j.raw.toNat = opCatch then some j else none
  | none => none

/-- CATCH (07 R241): the condition is tested in the core cycle of presentation, and holds the beat counter while it fails. -/
def execCatchCond (w : SeatIx) (s : State) : Outcome State Fault Refusal :=
  let x := seatOf s w.val
  match catchHeld x with
  | some j =>
    if x.cox.state = .walking ∧ x.cox.hold = .none ∧ stillBefore x x.cox.cycle = true ∧ clocked s w.val = true
        ∧ catchMet x j.raw.toNat (jobCtr x.cox j.raw.toNat) = false then
      .next (modCox s w.val fun c => { c with hold := .catch })
    else .next s
  | none => .next s

/-- CATCH_SATISFIED (06 R190): the condition is found satisfied, or the predicate false, `held` core cycles after presentation,
and the CATCH issues. One found unsatisfied at presentation was held for at least one core cycle. -/
def execCatchSatisfied (w : SeatIx) (held : Nat) (s : State) : Outcome State Fault Refusal :=
  let x := seatOf s w.val
  match catchHeld x with
  | some j =>
    let n := if x.cox.hold = .none then 0 else max held 1
    let now := x.cox.cycle + n
    let c1 := holdUntil { x.cox with heldCatch := satAdd x.cox.heldCatch n, held := none, hold := .none } now
    if x.cox.state = .walking ∧ stillBefore x now = true ∧ clocked s w.val = true
        ∧ (predVal c1 (dPred j.raw.toNat) = false ∨ catchMet x j.raw.toNat (jobCtr c1 j.raw.toNat) = true) then
      .next (issueJob (putSeat s w.val { x with cox := c1 }) w.val { j with issued := now })
    else .next s
  | none => .next s

/-! ## Descriptors that the cox carries out -/

/-- Run `f` on the cox's job where it has class `cls` and opcode `op`; no other state leaves anything to do. -/
def coxRow (cls op : Nat) (w : Nat) (s : State) (f : Seat → Job → State) : Outcome State Fault Refusal :=
  let x := seatOf s w
  match x.cox.cur with
  | some j =>
    if x.cox.state = .walking ∧ clocked s w = true ∧ dClass j.raw.toNat = cls ∧ dOp j.raw.toNat = op then .next (f x j) else .next s
  | none => .next s

/-- LOOP (06 R202-R204): the count is latched, the checks of R204 made, and the body entered or skipped. -/
def execLoop (w : SeatIx) (s : State) : Outcome State Fault Refusal :=
  coxRow clsLoop 1 w.val s fun x j =>
    let d := j.raw.toNat
    let c := x.cox
    let n := if j.pred then ctrVal c (lCsel d) else 0
    let last := j.idx + lBody d
    match if j.pred then loopCode c d j.idx else none with
    | some code => jobFault s w.val j code 0 j.issued 0 noWord 0
    | none =>
      let start := j.beat + 1
      let c1 := { markDone c j with base := start }
      let c2 : Cox :=
        if n = 0 then { c1 with next := j.idx + 1 + lBody d }
        else
          let l : LoopFrame := { first := j.idx + 1, last := last, start := start, period := lPeriod d, count := n, iter := 0,
                                 isel := if lIen d then some (lIsel d) else none }
          let c3 := { c1 with loops := c1.loops ++ [l], next := j.idx + 1 }
          if lIen d then writeCtr c3 (lIsel d) 0 j.issued 1 else c3
      putSeat s w.val { x with cox := c2 }

/-- LOOP_ITERATION (06 R202, R203): at the end of a body the next iteration begins, setting the beat base and writing the index
counter at the end of the core cycle before it, or the loop ends. -/
def execLoopIteration (w : SeatIx) (s : State) : Outcome State Fault Refusal :=
  let x := seatOf s w.val
  let c := x.cox
  if c.state = .walking ∧ c.cur = none ∧ c.held = none ∧ atLoopEnd c = true ∧ clocked s w.val = true then
    let r := loopStep c
    match r.2 with
    | some l =>
      match l.isel with
      | some k =>
        let t := c.cycle + (l.start + l.iter * l.period - 1 - c.beat)
        .next (putSeat s w.val { x with cox := writeCtr r.1 k (w32 l.iter) t 1 })
      | none => .next (putSeat s w.val { x with cox := r.1 })
    | none => .next (putSeat s w.val { x with cox := r.1 })
  else .next s

/-- ACQUIRE (06 R213, 07 R247): the fetch window is discarded; every scope does the same. -/
def execAcquire (w : SeatIx) (s : State) : Outcome State Fault Refusal :=
  coxRow clsSync opAcquire w.val s fun x j =>
    putSeat s w.val { x with cox := { markDone x.cox j with winValid := false, acq := j.beat + 1 } }

/-- A CTRL descriptor that writes C[DST] at the end of its issue core cycle (06 R194, R200). -/
def ctrlWrite (s : State) (w : Nat) (x : Seat) (j : Job) (v : Word) : State :=
  putSeat s w { x with cox := writeCtr (markDone x.cox j) (kDst j.raw.toNat) v j.issued 0 }

/-- C[SA] of a CTRL descriptor. -/
def ctrlA (x : Seat) (j : Job) : Word := tget 0 x.cox.ctr (kSa j.raw.toNat)

/-- NOP (06 R200). -/
def execNop (w : SeatIx) (s : State) : Outcome State Fault Refusal :=
  coxRow clsCtrl 0 w.val s fun x j => putSeat s w.val { x with cox := markDone x.cox j }

/-- CSET: C[DST] ← X (06 R200). -/
def execCset (w : SeatIx) (s : State) : Outcome State Fault Refusal :=
  coxRow clsCtrl 1 w.val s fun x j => ctrlWrite s w.val x j (ctrlX x.cox j.raw.toNat)

/-- CADD: C[DST] ← C[SA] + X (06 R200). -/
def execCadd (w : SeatIx) (s : State) : Outcome State Fault Refusal :=
  coxRow clsCtrl 2 w.val s fun x j => ctrlWrite s w.val x j (ctrlA x j + ctrlX x.cox j.raw.toNat)

/-- CSUB: C[DST] ← C[SA] − X (06 R200). -/
def execCsub (w : SeatIx) (s : State) : Outcome State Fault Refusal :=
  coxRow clsCtrl 3 w.val s fun x j => ctrlWrite s w.val x j (ctrlA x j - ctrlX x.cox j.raw.toNat)

/-- CMUL: C[DST] ← low 32 bits of C[SA] × X (06 R200). -/
def execCmul (w : SeatIx) (s : State) : Outcome State Fault Refusal :=
  coxRow clsCtrl 4 w.val s fun x j => ctrlWrite s w.val x j (ctrlA x j * ctrlX x.cox j.raw.toNat)

/-- CAND: C[DST] ← C[SA] and X (06 R200). -/
def execCand (w : SeatIx) (s : State) : Outcome State Fault Refusal :=
  coxRow clsCtrl 5 w.val s fun x j => ctrlWrite s w.val x j (ctrlA x j &&& ctrlX x.cox j.raw.toNat)

/-- CSHR: C[DST] ← C[SA] shifted right by X mod 32 (06 R200). -/
def execCshr (w : SeatIx) (s : State) : Outcome State Fault Refusal :=
  coxRow clsCtrl 6 w.val s fun x j => ctrlWrite s w.val x j (ctrlA x j >>> ((ctrlX x.cox j.raw.toNat).toNat % 32))

/-- The identity field that SUB selects (06 R200). -/
def identity (s : State) (w : Nat) (x : Seat) (sub : Nat) : Word :=
  w32 (match sub with
    | 0 => x.cox.logical
    | 1 => crewOf w % 48
    | 2 => halfOf w
    | 3 => s.chain.node
    | 4 => (mapOf s (crewOf w)).phys.length
    | _ => x.cox.ordinal)

/-- CID: C[DST] ← the identity field (06 R200). -/
def execCid (w : SeatIx) (s : State) : Outcome State Fault Refusal :=
  coxRow clsCtrl 8 w.val s fun x j => ctrlWrite s w.val x j (identity s w.val x (kSub j.raw.toNat))

/-- CMPSET: comparator DST[2:0] ← (SA, SUB, X) (06 R196, R200). -/
def execCmpset (w : SeatIx) (s : State) : Outcome State Fault Refusal :=
  coxRow clsCtrl 0x10 w.val s fun x j =>
    let d := j.raw.toNat
    let m : Cmpr := { sa := kSa d, rel := kSub d, useb := kUseb d, x := if kUseb d then w32 (kSb d) else w32 (kImm d) }
    putSeat s w.val { x with cox := { markDone x.cox j with cmp := tput x.cox.cmp (kDst d % 8) m } }

/-- END (06 R204, R214): COX_LOOP_NEST while a loop is active; else nothing more is presented. -/
def execEndPlan (w : SeatIx) (s : State) : Outcome State Fault Refusal :=
  coxRow clsCtrl 0x3F w.val s fun x j =>
    if x.cox.loops ≠ [] then jobFault s w.val j coxLoopNest 0 j.issued 0 noWord 0
    else putSeat s w.val { x with cox := { markDone x.cox j with state := .pastEnd } }

/-! ## Completion -/

/-- DESCRIPTOR_COMPLETE (06 R205): the bit is set when the latest issue completes; a QUANTIZE's clips and flushes are counted
(02 R67), and MXA_BLOAD_COUNT and VEC_DESC_COUNT rise (03 R110, 04 R146). -/
def execDescriptorComplete (w : SeatIx) (i : Nat) (s : State) : Outcome State Fault Refusal :=
  let x := seatOf s w.val
  match x.cox.fin[i]? with
  | none => .next s
  | some j =>
    if runsAt x j.doneAt = true ∧ stillBefore x j.doneAt = true ∧ clocked s w.val = true then
      let d := j.raw.toNat
      let c := settle { x.cox with fin := dropAt x.cox.fin i } (j.doneAt + 1)
      let c := if tfind c.issuedAt j.idx = some (j.issued + 1) then { c with done := tput c.done j.idx (j.doneAt + 1) } else c
      let c := if c.state = .pastEnd then { c with cycle := max c.cycle (j.doneAt + 1) } else c
      let m := if dClass d = clsMx ∧ dOp d = opBload then { x.mxa with bloads := satInc x.mxa.bloads } else x.mxa
      let v := if dClass d = clsVe then { x.vec with descs := satInc x.vec.descs } else x.vec
      let s1 := putSeat s w.val { x with cox := c, mxa := m, vec := v }
      let s2 := if j.clips = 0 then s1 else guardRaise s1 w.val 0 j.clips false j j.doneAt
      let s3 := if j.flushes = 0 then s2 else guardRaise s2 w.val 1 j.flushes false j j.doneAt
      .next s3
    else .next s

/-- Every descriptor issued before END has completed (06 R214). -/
def allDone (x : Seat) : Bool :=
  x.cox.fin.isEmpty && x.mxa.queue.isEmpty && x.mxa.cur.isEmpty && x.vec.queue.isEmpty && x.vec.cur.isNone
    && x.dma.queue.isEmpty && x.dma.cur.isNone && x.dma.releasing.isNone
    && x.net.queue.isEmpty && x.net.cur.isNone && x.net.releasing.isNone

/-- PLAN_FINISHED (06 R214, 07 R230): after END and every completion the seat reports to the starter, and every bank rests. -/
def execPlanFinished (w : SeatIx) (s : State) : Outcome State Fault Refusal :=
  let x := seatOf s w.val
  if x.cox.state = .pastEnd ∧ allDone x = true ∧ clocked s w.val = true then
    let s1 := modCox s w.val fun c => { c with rest := 0xFFFFFFFF }
    .next (modHeat s1 x.cox.run x.cox.heat fun h =>
      { h with finished := if h.finished.contains w.val then h.finished else h.finished ++ [w.val] })
  else .next s

/-! ## Known rest (05 R172, 06 R212) -/

/-- The descriptors of the fetch window in walk order, as effective beat, rest mask and whether it is END; the window ends at
the first LOOP that has not issued. -/
def fetchWindow (x : Seat) : Nat → Cox → List (Nat × Word × Bool)
  | 0, _ => []
  | n + 1, c =>
    let c := if atLoopEnd c then (loopStep c).1 else c
    let c := if atLoopEnd c then (loopStep c).1 else c
    let c := if atLoopEnd c then (loopStep c).1 else c
    let c := if atLoopEnd c then (loopStep c).1 else c
    if 1023 < c.next then []
    else
      let d := descAt x c.next
      let e := (c.base + dBeat d, dWrest d, dClass d == clsCtrl && dOp d == 0x3F)
      if e.2.2 || dClass d == clsLoop then [e] else e :: fetchWindow x n { c with next := c.next + 1 }

/-- The fetch window holds descriptors at beat `now`: an ACQUIRE discards it, and it is refetched within 4 core cycles, in which the beat
counter is not held (06 R212, R213). -/
def windowFull (c : Cox) (now : Nat) : Bool := c.winValid || (c.acq != 0 && decide (c.acq + 3 ≤ now))

/-- Beats of known rest of bank `b` at beat `now`; none where it is unlimited (05 R172). -/
def knownRest (x : Seat) (b now : Nat) : Option Nat :=
  if x.cox.state ≠ .walking then none
  else if windowFull x.cox now = false then some 0
  else
    let win := fetchWindow x 16 x.cox
    match win.find? fun e => !e.2.1.getLsbD b with
    | some e => some (e.1 - now)
    | none => if win.any fun e => e.2.2 then none else some ((win.getLast?.map (·.1)).getD now - now)

/-- Bank `b` is at rest now (05 R170): always where the seat walks no plan, and in a forced refresh (05 R174). -/
def atRest (x : Seat) (b : Nat) : Bool :=
  if x.wst.forcing.isSome then true
  else if x.cox.state = .walking ∨ (x.cox.state = .pastEnd ∧ allDone x = false) then x.cox.rest.getLsbD b else true

end Sys2Proof.Machine
end

