-- ==== Sys2Proof/Machine/Tiles.lean ====
section
/-!
DEFINITION. Tiles and the seat's memories (05): layouts, tags, the CRC of a tile, the reads of the weight store through the block
map (11 R349), writes to core memory with the torn-tile mark (07 R249), and the core-memory banks (05 R153).
-/
namespace Sys2Proof.Machine

/-! ## Tags, trailers, CRC (05 R158-R164) -/

abbrev kindWeight : Nat := 1
abbrev kindNarrow : Nat := 2
abbrev kindFull : Nat := 3

/-- A TAG (05 R163). -/
def mkTag (ctx gen kind fmt tidx : Nat) : Nat := pack [(0, 8, ctx), (8, 8, gen), (16, 4, kind), (20, 4, fmt), (24, 24, tidx)]

/-- FORMAT of a TAG (05 R163). -/
def tagFmt (t : BitVec 64) : Nat := fld t.toNat 20 4

/-- Bytes from the start of a tile that its CRC covers (05 R158). -/
def tileLen (kind : Nat) : Nat := if kind = kindWeight then 2240 else if kind = kindNarrow then 2208 else 16416

/-- Offset of the trailer (05 R159-R161). -/
def trailerAt (kind : Nat) : Nat := if kind = kindFull then 0x4000 else 0x880

/-- CRC-32C of a tile that lies from address 0: its bytes without the four of the CRC field (05 R164). -/
def tileCrc (m : Mem) (kind : Nat) : Word :=
  let t := trailerAt kind
  crc32c (mbytes m 0 (t + 0x1C) ++ mbytes m (t + 0x20) (tileLen kind - (t + 0x20)))

/-- TAG of a tile that lies from address 0. -/
def tileTag (m : Mem) (kind : Nat) : Nat := mrd m (trailerAt kind) 8

/-- Stored CRC of a tile that lies from address 0. -/
def tileStored (m : Mem) (kind : Nat) : Nat := mrd m (trailerAt kind + 0x1C) 4

/-- A trailer without its CRC (05 R162). -/
def trailerBytes (tag clip flush epoch : Nat) : List Byte :=
  bytesOf tag 8 ++ bytesOf clip 2 ++ bytesOf flush 2 ++ bytesOf epoch 2 ++ bytesOf 0 14

/-- A whole tile from its payload at addresses from 0, with trailer and CRC (05 R162, R164). -/
def sealTile (m : Mem) (kind tag clip flush epoch : Nat) : Mem :=
  let m1 := mwrites m (trailerAt kind) (trailerBytes tag clip flush epoch)
  mwr m1 (trailerAt kind + 0x1C) 4 (tileCrc m1 kind).toNat

/-- A weight or narrow tile as the array holds it (03 R76, 05 R159, R160). -/
def asTile (m : Mem) : Tile :=
  { tag := BitVec.ofNat 64 (tileTag m kindNarrow), payload := mslice m 0 0x800, scales := mslice m 0x800 128, book := mslice m 0x8A0 16 }

/-- The nibble of element (r, c) of a tile's payload (05 R159, R160). -/
def nibAt (t : Tile) (r c : Nat) : Nat := fld (mread t.payload (32 * r + c / 2)).toNat (4 * (c % 2)) 4

/-! ## The weight store through the block map (11 R349, R350) -/

/-- Physical granule of a plan granule; none where the bound generation's map names no block. -/
def physGranule (blocks : Tbl Nat) (g : Nat) : Option Nat :=
  (tfind blocks (3 * (g / 3072) + g % 3072 / 1024)).map fun b => b * 1024 + g % 1024

/-- The 2,240 bytes of the weight tile at plan granule `g`, from address 0. -/
def weightTile (x : Seat) (g : Nat) : Mem :=
  (List.range 35).flatMap fun i =>
    match physGranule x.cox.blocks (g + i) with
    | some p => (mslice x.store (64 * p) 64).map fun e => (e.1 + 64 * i, e.2)
    | none => []

/-- The bytes of the tile at core-memory granule `g`, from address 0. -/
def coreTile (x : Seat) (g kind : Nat) : Mem := mslice x.core (64 * g) (tileLen kind)

/-! ## Writes to core memory and the torn mark (07 R249) -/

/-- The tile extents (05 R158) that a started reader checks, first granule and granules; the second is an I8 pair's low plane
(04 R139). -/
def readExtents (j : Job) : List (Nat × Nat) :=
  let d := j.raw.toNat
  if dClass d = clsMx ∧ dOp d = opAload then [((alAddr d j.c).toNat, 35)]
  else if dClass d = clsVe ∧ dOp d = 0x31 then ((vCore d j.c).toNat, 35) :: (if vQfmt d = 2 then [((vCore d j.c).toNat + 35, 35)] else [])
  else if dClass d = clsVe ∧ (dOp d = 0x32 ∨ dOp d = 0x19) then [((vCore d j.c).toNat, veGranules d)]
  else []

/-- A write to bytes [a, a + n) meets a tile's extent. -/
def meets (a n : Nat) (e : Option (Nat × Nat)) : Bool := match e with
  | some (g, k) => decide (a < 64 * (g + k) ∧ 64 * g < a + n)
  | none => false

/-- Mark a started reader whose tiles a write to bytes [a, a + n) meets. -/
def tornBy (a n : Nat) (j : Job) : Job :=
  { j with torn := j.torn || meets a n (readExtents j)[0]?, tornLow := j.tornLow || meets a n (readExtents j)[1]? }

/-- Accept a write of bytes to core memory: every started tile reader that it meets is marked. -/
def coreWrite (x : Seat) (a : Nat) (bs : List Byte) : Seat :=
  { x with core := mwrites x.core a bs
           mxa := { x.mxa with cur := x.mxa.cur.map fun p => (p.1, tornBy a bs.length p.2) }
           vec := { x.vec with cur := x.vec.cur.map (tornBy a bs.length) } }

/-- A whole tile written to core memory from granule `g`. -/
def writeTile (x : Seat) (g : Nat) (t : Mem) (kind : Nat) : Seat := coreWrite x (64 * g) (mbytes t 0 (tileLen kind))

/-! ## Faults of one event -/

/-- A fault that an engine may raise: core cycle, code, engine, byte 0x31, word, double word, and the job it is against. -/
abbrev Ev := Nat × Nat × Nat × Nat × Nat × Nat × Job

/-- Insert into a list of faults in ascending code. -/
def insEv (e : Ev) : List Ev → List Ev
  | [] => [e]
  | f :: t => if e.2.1 < f.2.1 then e :: f :: t else f :: insEv e t

/-- The core cycle of the first of the faults: no write takes place after it (03 R83, 04 R115). -/
def beforeEvents (es : List Ev) (d : Nat) : Nat := match es with
  | [] => d
  | e :: t => t.foldl (fun m f => min m f.1) e.1

/-- Of the faults that would arise, those of the earliest core cycle do, in ascending code (15 R456). -/
def raiseEvents (s : State) (w : Nat) (es : List Ev) : State :=
  match es with
  | [] => s
  | e :: t =>
    let c := beforeEvents es 0
    let now := ((e :: t).filter fun f => f.1 == c).foldl (fun l f => insEv f l) []
    now.foldl (fun s f => jobFault s w f.2.2.2.2.2.2 f.2.1 f.2.2.1 f.1 f.2.2.2.1 f.2.2.2.2.1 f.2.2.2.2.2.1) s

/-- The fault of a failed tag or CRC compare (05 R166, 07 R249, 15 R454). -/
def checkEv (j : Job) (eng granule cycle : Nat) (crcFailed : Bool) (dd : Nat) : Ev :=
  if j.torn then (cycle, tornTile, eng, if crcFailed then 2 else 1, granule, dd, j)
  else (cycle, if crcFailed then crcMismatch else tagMismatch, eng, 0, granule, dd, j)

/-- The tag and CRC compares of a tile at addresses from 0 (05 R165, R166): the fault of the one that fails first. -/
def tileChecks (m : Mem) (kind want : Nat) (j : Job) (eng granule tagAt crcAt : Nat) : List Ev :=
  if tileTag m kind ≠ want then [checkEv j eng granule tagAt false (tileTag m kind)]
  else if tileStored m kind ≠ (tileCrc m kind).toNat then
    [checkEv j eng granule crcAt true (pack [(0, 32, tileStored m kind), (32, 32, (tileCrc m kind).toNat)])]
  else []

/-! ## Core-memory banks (05 R153) -/

/-- The span holds core cycle `c`. -/
def Span.has (p : Span) (c : Nat) : Bool := decide (p.lo ≤ c ∧ c < p.lo + p.n * p.step) && (c - p.lo) % p.step == 0

/-- Core cycles of a span. -/
def Span.cycles (p : Span) : List Nat := (List.range p.n).map fun k => p.lo + k * p.step

/-- Core cycles, counted from its start, in which a descriptor of the MX units or the vector engine accesses core memory: first, number
and distance (03 R103, 04 R125, R128, R140-R142). A vector-engine descriptor's start is a vector cycle. -/
def coreAccess (d : Nat) : List (Nat × Nat × Nat) :=
  let op := dOp d
  let narrow := if vQfmt d = 2 then 36 else 18
  if dClass d = clsMx then
    if op = opAload then [(0, 18, 1)] else if op = opDrain ∧ drCore d = true then [(6, 129, 1)] else []
  else if dClass d = clsVe then
    if op = 0x19 then [(0, 9, 1)]
    else if op = 0x30 then [(2 * quantAt d, narrow, 1)]
    else if op = 0x31 then [(0, narrow, 1)]
    else if op = 0x32 then [(0, 129, 1)]
    else if op = 0x33 then [(5, 128, 2), (263, 1, 1)]
    else []
  else []

/-- A span of accesses is cut at `c`, and the rest of it moves on by `n` (03 R82, 04 R115). -/
def Span.late (c n : Nat) (p : Span) : List Span :=
  let k := if p.lo < c then min p.n ((c - p.lo + p.step - 1) / p.step) else 0
  let before := if k = 0 then [] else [{ p with n := k }]
  if k = p.n then before else before ++ [{ p with lo := p.lo + k * p.step + n, n := p.n - k }]

/-- The core-memory accesses of a started descriptor, with the forced refreshes since its start between them. -/
def jobSpans (x : Seat) (j : Job) : List Span :=
  let t := if dClass j.raw.toNat = clsVe then 2 * j.start else j.start
  x.cox.gaps.foldl (fun l g => if t < g.1 then l.flatMap (Span.late g.1 g.2) else l)
    ((coreAccess j.raw.toNat).map fun a => { lo := t + a.1, n := a.2.1, step := a.2.2, job := j })

/-- The spans known in the seat: of descriptors that have run, and of those that run. -/
def knownSpans (x : Seat) : List Span :=
  x.vec.spans ++ ((x.mxa.cur.map (·.2)) ++ x.vec.cur.toList).flatMap (jobSpans x)

/-- UMP_BANK_CONFLICT of job `j` with the others (06 R206): against the later-issued of the two. Every access of the MX units and the
vector engine takes all 32 banks (05 R152, 04 R126). -/
def bankEvents (x : Seat) (j : Job) : List Ev :=
  (jobSpans x j).flatMap fun p => (knownSpans x).flatMap fun q =>
    match if q.job.issued = j.issued then none else p.cycles.find? q.has with
    | some c => [(c, umpBankConflict, 1, 0, noWord, 0, if q.job.issued < j.issued then j else q.job)]
    | none => []

/-- Keep the spans of a descriptor that has run. -/
def addSpans (x : Seat) (j : Job) : Seat := { x with vec := { x.vec with spans := x.vec.spans ++ jobSpans x j } }

/-! ## The operand cache (04 R112-R114) -/

/-- The write run `p` writes entry `e` in vector cycle `v`. -/
def WPort.hits (p : WPort) (e v : Nat) : Bool := decide (p.e ≤ e ∧ e < p.e + p.n) && v == p.v + (e - p.e) / p.per

/-- W1's data for the entries that a W0 run writes in the same vector cycles is lost (04 R114). -/
def loseW1 (runs : List WPort) (l : List (Nat × Nat × List (Option Word))) : List (Nat × Nat × List (Option Word)) :=
  l.filter fun e => !runs.any fun p => p.hits e.2.1 e.1

/-- Keep a write in order of its vector cycle, after those of the same cycle. -/
def pendAdd (e : Nat × Nat × List (Option Word)) : List (Nat × Nat × List (Option Word)) → List (Nat × Nat × List (Option Word))
  | [] => [e]
  | f :: t => if e.1 < f.1 then e :: f :: t else f :: pendAdd e t

/-- A write of an entry: vector cycle, entry and lanes, none where a lane keeps its contents. The entry counts as written, and
can be read, from the next vector cycle (04 R113, R114). -/
def opcWrite (o : Vec) (e : Nat × Nat × List (Option Word)) : Vec :=
  { o with pend := pendAdd e o.pend
           written := tput o.written e.2.1 (match tfind o.written e.2.1 with
             | some u => min u (e.1 + 1)
             | none => e.1 + 1) }

/-- Put the lanes of one write into the operand cache. -/
def opcLanes (t : Tbl Word) (e : Nat) (ls : List (Option Word)) : Tbl Word :=
  (ls.zipIdx).foldl (fun t p => match p.1 with
    | some x => tset 0 t (e * 32 + p.2) x
    | none => t) t

/-- The operand cache as a read in vector cycle `v` sees it: every write of an earlier cycle has taken effect (04 R114). -/
def opcSettle (o : Vec) (v : Nat) : Vec :=
  let r := o.pend.foldl (fun (a : Tbl Word × List (Nat × Nat × List (Option Word))) e =>
    if e.1 < v then (opcLanes a.1 e.2.1 e.2.2, a.2) else (a.1, a.2 ++ [e])) (o.opc, [])
  { o with opc := r.1, pend := r.2 }

/-- A run of operand-cache writes is cut at vector cycle `c`, and the rest of it moves on. -/
def WPort.late (c n : Nat) (p : WPort) : List WPort :=
  let k := if p.v < c then min p.n ((c - p.v) * p.per) else 0
  let before := if k = 0 then [] else [{ p with n := k }]
  if k = p.n then before else before ++ [{ p with v := p.v + k / p.per + n, e := p.e + k, n := p.n - k }]

/-- Write runs of a descriptor started in core cycle `t`, with the forced refreshes since then between them. -/
def cutRuns (x : Seat) (t : Nat) (r : List WPort) : List WPort :=
  x.cox.gaps.foldl (fun l g => if t < g.1 then l.flatMap (WPort.late (g.1 / 2) (g.2 / 2)) else l) r

/-- Entry `e` can be read in vector cycle `v`: it has been written in the heat (06 R206). -/
def readable (o : Vec) (e v : Nat) : Bool := match tfind o.written e with
  | some u => decide (u ≤ v)
  | none => false

/-- The 32 lanes of an entry. -/
def entryOf (o : Vec) (e : Nat) : List Word := (List.range 32).map fun l => tget 0 o.opc (e * 32 + l)

end Sys2Proof.Machine
end

