-- ==== Sys2Proof/Machine/Net.lean ====
section
/-!
DEFINITION. What the packets of the on-die network do at seats and pools (05, 07, 09): landings, finishes, reads, answers, and the
control traffic of the starter and Snivan.
-/
namespace Sys2Proof.Machine
open Host (Outcome)

/-! ## Landings at a seat (05 R147-R155, 06 R210, 07 R234, R238, 09 R294) -/

/-- Byte offset of a packet in its space. -/
def pOff (h : Nat) : Nat := fld (pDest h) 0 34
/-- Space of a packet's destination. -/
def pSpace (h : Nat) : Nat := fld (pDest h) 34 4

/-- Bytes [o, o + n) lie in core memory (1) or descriptor memory (2), and begin on a multiple of `al` (05 R147, R148). -/
def seatSpan (space o n al : Nat) : Bool :=
  o % al == 0 && ((space == 1 && decide (o + n ≤ 0x60000)) || (space == 2 && decide (o + n ≤ 0x10000)))

/-- Bytes [o, o + n) of descriptor memory touch a page in use (06 R210). -/
def pageBusy (x : Seat) (o n : Nat) : Bool :=
  (decide (o < 0x8000) && x.cox.use0.isSome) || (decide (0x8000 < o + n) && x.cox.use1.isSome)

/-- Write bytes to core or descriptor memory of a seat. -/
def seatWrite (x : Seat) (space o : Nat) (bs : List Byte) : Seat :=
  if space = 1 then coreWrite x o bs else { x with desc := mwrites x.desc o bs }

/-- Take packet `i` and answer it. -/
def answered (s : State) (i : Nat) (d : Deliv) (a : Reply) : State := answerPkt (takeArrive s i) d a

/-- A write of bytes to a seat that only its own checks can refuse (09 R494): ADDRESS, with space 0 counted, then PAGE_IN_USE. -/
def seatRefusal (x : Seat) (h o n al : Nat) : Option Nat :=
  if seatSpan (pSpace h) o n al = false then some nkAddress
  else if pSpace h = 2 ∧ pageBusy x o n = true then some nkPage
  else none

/-- Count the refusals that a seat counts (05 R151, 06 R210). -/
def countRefusal (s : State) (w space code : Nat) : State :=
  if code = nkPage then modCox s w fun c => { c with pageRefused := satInc c.pageRefused }
  else if space = 0 then modWst s w fun t => { t with refused := satInc t.refused }
  else s

/-- The bytes of granules. -/
def granuleBytes (gs : List Granule) : List Byte := (gs.map fun g => bytesOf g.toNat 64).flatten

/-- Packet `i` is dropped as stale or refused (07 R234, 09 R294): it is answered once all of it has come (09 R276). -/
def dropPkt (s : State) (i : Nat) (d : Deliv) (a : Reply) : State :=
  if d.full then answered s i d a else modArrive s i fun d => { d with verdict := some a, pkt := ⟨d.pkt.hdr, []⟩, wrote := [] }

/-- Granule `g` of packet `i` has been written; with its last one the packet is answered (09 R276). -/
def wroteGranule (s : State) (i g : Nat) (d : Deliv) : State :=
  if d.wrote.length + 1 = pLen d.pkt.hdr.toNat then answered s i d .done else modArrive s i fun d => { d with wrote := d.wrote ++ [g] }

/-- One granule of a WRITE that is served granule by granule (07 R234): `live` is the epoch's check and `stale` its count, `bad` the
refusal that the first granule meets, `wait` what holds it, `put` the granule's write and count. -/
def writeRow (s : State) (i g : Nat) (d : Deliv) (live : Bool) (stale : State) (bad : Option (State × Nat)) (wait : Bool)
    (put : Granule → State) : State :=
  match d.verdict with
  | some a => if d.full then answered s i d a else s
  | none =>
    if wait then s
    else if live = false then dropPkt stale i d .stale
    else match if d.wrote = [] then bad else none with
    | some (s1, c) => dropPkt s1 i d (.refuse c)
    | none =>
      if d.wrote.contains g || decide (pLen d.pkt.hdr.toNat ≤ g) then s
      else match d.pkt.data[g]? with
      | some x => wroteGranule (put x) i g d
      | none => s

/-- Granule `g` of a WRITE at seat `w` (07 R234, R238, 09 R294). During a core-memory fill a write to core memory waits (05 R155). -/
def writeSeat (s : State) (i g w : Nat) (d : Deliv) : State :=
  let h := d.pkt.hdr.toNat
  let x := seatOf s w
  let bad := (if pLen h = 0 ∨ (pLcen h = true ∧ 63 < pLctr h) then some nkAddress else seatRefusal x h (pOff h) (64 * pLen h) 64).map
    fun c => (countRefusal s w (pSpace h) c, c)
  writeRow s i g d (liveAt s w (pEpoch h)) (staleSeat s w) bad (pSpace h == 1 && x.cox.filling) fun y =>
    let s1 := modSeat s w fun x => seatWrite x (pSpace h) (pOff h + 64 * g) (bytesOf y.toNat 64)
    if pLcen h then countSeat s1 w (pLctr h) else s1

/-- The segments of bytes [o, o + n) of a pool serve (05 R181). -/
def spanOpen (p : Pool) (o n : Nat) : Bool := segOpen p o && segOpen p (o + n - 1)

/-- SEGMENT_ASLEEP, counted at the pool (05 R181, R184). -/
def asleepAt (s : State) (hf : Nat) : State := modPool s hf fun p => { p with asleep := satInc p.asleep }

/-- Granule `g` of a WRITE at the pool of half `hf`. -/
def writePool (s : State) (i g hf : Nat) (d : Deliv) : State :=
  let h := d.pkt.hdr.toNat
  let n := 64 * pLen h
  let bad := if n = 0 ∨ pOff h % 64 ≠ 0 ∨ poolWindow < pOff h + n then some (s, nkAddress)
    else if spanOpen (poolOf s hf) (pOff h) n = false then some (asleepAt s hf, nkAsleep) else none
  writeRow s i g d (liveAt s (poolTable hf) (pEpoch h)) (staleElse s) bad false fun y =>
    let s1 := poolWrite s hf (pOff h + 64 * g) (bytesOf y.toNat 64)
    if pLcen h then countPool s1 hf (pLctr h) else s1

/-- The meaning of a packet's row at its destination: nothing changes unless packet `i` is of TYPE `ty`. -/
def packetRow (ty : Nat) (i : Nat) (s : State) (seat pool : Nat → Deliv → State) (fabric : Deliv → State) :
    Outcome State Fault Refusal :=
  match s.noc.arrive[i]? with
  | none => .next s
  | some d =>
    if pType d.pkt.hdr.toNat = ty then
      match d.target with
      | .seat w => .next (seat w d)
      | .pool h => .next (pool h d)
      | .fabric => .next (fabric d)
      | .host => .next (takeArrive s i)
    else .next s

/-- WRITE (09 R275, R276, 07 R234, R238): granule `g` of packet `i` is written, in whatever order (09 R281). -/
def execWritePkt (i g : Nat) (s : State) : Outcome State Fault Refusal :=
  packetRow tyWrite i s (writeSeat s i g) (writePool s i g) fun _ => s

/-- A WORD at seat `w` (07 R238, 09 R286, R294). -/
def wordSeat (s : State) (i w : Nat) (d : Deliv) : State :=
  let h := d.pkt.hdr.toNat
  let x := seatOf s w
  if pSpace h = 1 ∧ x.cox.filling = true then s
  else if liveAt s w (pEpoch h) = false then answered (staleSeat s w) i d .stale
  else if pSpace h = 4 ∧ pOff h % 4 = 0 ∧ pOff h < 0x200 then answered (setSeatWord s w (pOff h) (w32 (pWord h))) i d .done
  else match seatRefusal x h (pOff h) 4 4 with
  | some c => answered (countRefusal s w (pSpace h) c) i d (.refuse c)
  | none => answered (modSeat s w fun x => seatWrite x (pSpace h) (pOff h) (bytesOf (pWord h) 4)) i d .done

/-- A WORD at the pool of half `hf`: the counter window alone takes words (05 R148, R179). -/
def wordPool (s : State) (i hf : Nat) (d : Deliv) : State :=
  let h := d.pkt.hdr.toNat
  if liveAt s (poolTable hf) (pEpoch h) = false then answered (staleElse s) i d .stale
  else if pOff h < poolWindow ∨ poolEnd ≤ pOff h ∨ pOff h % 4 ≠ 0 then answered s i d (.refuse nkAddress)
  else answered (setPoolWord s hf (pOff h - poolWindow) (w32 (pWord h))) i d .done

/-- WORD_PACKET (09 R275, R289). -/
def execWordPkt (i : Nat) (s : State) : Outcome State Fault Refusal := packetRow tyWord i s (wordSeat s i) (wordPool s i) fun _ => s

/-! ## Finishes (07 R242-R244) -/

/-- More than the slack has landed: c - E, read as a two's complement integer, exceeds A (07 R243). -/
def overLands (f : Finish) (c : Word) : Bool := decide ((f.slack : Int) < (c - f.expect).toInt)

/-- OVER_LANDING at seat `w` (07 R243): no descriptor, and beat and cycle 0 where the heat has not begun. -/
def overSeat (s : State) (w : Nat) (f : Finish) : State :=
  let c := (seatOf s w).cox
  let b := if c.dispatched.isSome then 0 else c.beat
  let t := if c.dispatched.isSome then 0 else c.cycle
  seatRaise s w (seatRec s w 0 overLanding 0xFFFF b t 0 (detail 9 0 0 f.ctr 0))

/-- OVER_LANDING at the pool of half `hf` (07 R243, 15 R496): charged to the heat of the epoch, or for epoch 0 to the destination heat
that the finish names, if its run is live. -/
def overPool (s : State) (hf : Nat) (f : Finish) : State :=
  let unit := unitRef 2 s.chain.node hf 0 0 0
  let det := detail 9 0 0 f.ctr 0
  if f.epoch ≠ 0 then report s (chargedRec s 96 overLanding unit f.epoch det)
  else
    let r := { bareRec 2 overLanding (domTime s 96) det with unit := unit }
    match s.str.runs.find? fun p => p.2.tag == f.tag with
    | none => report s r
    | some p =>
      let x := (heatOf s p.1 f.heat).getD {}
      report s (r.ofHeat (hdOf s p.1 f.heat).ctx f.heat (if x.phase = .dispatched then x.epoch else 0) p.1)

/-- Release a finish at seat `w`: its flag is written, and more than the slack is a fault (07 R242, R243). -/
def releaseSeat (s : State) (w : Nat) (f : Finish) (c : Word) : State :=
  let s1 := modSeat s w fun x => { x with lnd := { x.lnd with flag := tset 0 x.lnd.flag f.ctr f.value } }
  if overLands f c then overSeat s1 w f else s1

/-- Release a finish at the pool of half `hf`. -/
def releasePool (s : State) (hf : Nat) (f : Finish) (c : Word) : State :=
  let s1 := modPool s hf fun p => { p with lnd := { p.lnd with flag := tset 0 p.lnd.flag f.ctr f.value } }
  if overLands f c then overPool s1 hf f else s1

/-- The finish that a packet carries (07 R242). -/
def finishOf (h n : Nat) : Finish :=
  { ctr := n, expect := w32 (pExpect h), slack := pSlack h, value := w32 (pWord h), epoch := pEpoch h, tag := BitVec.ofNat 16 (pRunTag h),
    heat := pDheat h }

/-- A FINISH at seat `w`, which holds at most 8 (07 R242, R244). -/
def finishSeat (s : State) (i w : Nat) (d : Deliv) : State :=
  let h := d.pkt.hdr.toNat
  let l := (seatOf s w).lnd
  if liveAt s w (pEpoch h) = false then answered (staleSeat s w) i d .stale
  else if pSpace h ≠ 4 ∨ pOff h % 8 ≠ 0 ∨ 0x200 ≤ pOff h then answered s i d (.refuse nkAddress)
  else if 8 ≤ l.held.length then
    answered (modSeat s w fun x => { x with lnd := { x.lnd with nacks := satInc x.lnd.nacks } }) i d (.refuse nkFinishFull)
  else
    let f := finishOf h (pOff h / 8)
    let c := tget 0 l.ctr f.ctr
    if satisfies c f.expect then releaseSeat (answered s i d .done) w f c
    else answered (modSeat s w fun x => { x with lnd := { x.lnd with held := x.lnd.held ++ [f] } }) i d .done

/-- A FINISH at the pool of half `hf`, which holds at most 32 (07 R242, R244). -/
def finishPool (s : State) (i hf : Nat) (d : Deliv) : State :=
  let h := d.pkt.hdr.toNat
  let l := (poolOf s hf).lnd
  if liveAt s (poolTable hf) (pEpoch h) = false then answered (staleElse s) i d .stale
  else if pOff h < poolWindow ∨ poolEnd ≤ pOff h ∨ pOff h % 8 ≠ 0 then answered s i d (.refuse nkAddress)
  else if 32 ≤ l.held.length then
    answered (modPool s hf fun p => { p with lnd := { p.lnd with nacks := satInc p.lnd.nacks } }) i d (.refuse nkFinishFull)
  else
    let f := finishOf h ((pOff h - poolWindow) / 8)
    let c := tget 0 l.ctr f.ctr
    if satisfies c f.expect then releasePool (answered s i d .done) hf f c
    else answered (modPool s hf fun p => { p with lnd := { p.lnd with held := p.lnd.held ++ [f] } }) i d .done

/-- FINISH_PACKET (07 R242, R244, 09 R276). -/
def execFinishPkt (i : Nat) (s : State) : Outcome State Fault Refusal :=
  packetRow tyFinish i s (finishSeat s i) (finishPool s i) fun _ => s

/-- FINISH_RELEASE (07 R242, R243): the flag of held finish `i`, whose count has been satisfied, is written. -/
def execFinishRelease (pool : Bool) (n : Nat) (i : Nat) (s : State) : Outcome State Fault Refusal :=
  let l := if pool then (poolOf s n).lnd else (seatOf s n).lnd
  match l.held[i]? with
  | none => .next s
  | some f =>
    match f.hit with
    | none => .next s
    | some c =>
      if pool then .next (releasePool (modPool s n fun p => { p with lnd := { p.lnd with held := dropAt p.lnd.held i } }) n f c)
      else .next (releaseSeat (modSeat s n fun x => { x with lnd := { x.lnd with held := dropAt x.lnd.held i } }) n f c)

/-! ## Reads and answers (07 R234, 09 R275, R276, R294, R295, R495) -/

/-- Granules of a memory from byte `o`. -/
def memGranules (m : Mem) (o n : Nat) : List Granule := (List.range n).map fun k => mgran m (o / 64 + k)

/-- Take packet `i` and answer it with data. -/
def answerData (s : State) (i : Nat) (d : Deliv) (gs : List Granule) : State :=
  sendBack (takeArrive s i) (backPlace d).1 (backPlace d).2 d.sender d.entry
    (answerHdr d.pkt.hdr.toNat (targetUnit s d.target) tyRdata 0 0) gs

/-- A READ at seat `w`: core and descriptor memory are served, a page in use too (06 R210). -/
def readSeat (s : State) (i w : Nat) (d : Deliv) : State :=
  let h := d.pkt.hdr.toNat
  let x := seatOf s w
  if pSpace h = 1 ∧ x.cox.filling = true then s
  else if liveAt s w (pEpoch h) = false then answered (staleSeat s w) i d .stale
  else if pCount h = 0 ∨ 16 < pCount h ∨ seatSpan (pSpace h) (pOff h) (64 * pCount h) 64 = false then answered s i d (.refuse nkAddress)
  else answerData s i d (memGranules (if pSpace h = 1 then x.core else x.desc) (pOff h) (pCount h))

/-- A READ at the pool of half `hf`. -/
def readPool (s : State) (i hf : Nat) (d : Deliv) : State :=
  let h := d.pkt.hdr.toNat
  if liveAt s (poolTable hf) (pEpoch h) = false then answered (staleElse s) i d .stale
  else if pCount h = 0 ∨ 16 < pCount h ∨ pOff h % 64 ≠ 0 ∨ poolWindow < pOff h + 64 * pCount h then answered s i d (.refuse nkAddress)
  else if spanOpen (poolOf s hf) (pOff h) (64 * pCount h) = false then answered (asleepAt s hf) i d (.refuse nkAsleep)
  else answerData s i d (memGranules (poolOf s hf).mem (pOff h) (pCount h))

/-- READ (09 R275, R276). -/
def execReadPkt (i : Nat) (s : State) : Outcome State Fault Refusal := packetRow tyRead i s (readSeat s i) (readPool s i) fun _ => s

/-- The engine that an answer names (09 R274). -/
def engOf (h : Nat) : EngIx := if pEng h = 1 then 1 else 0

/-- The packet that an answer answers, by engine, tag and epoch. -/
def awaited (x : Seat) (h : Nat) : Option Outst := (x.eng (engOf h)).out.find? fun o => o.tag == pTag h && o.epoch == pEpoch h

/-- The answered packet awaits its answer no longer (07 R235). -/
def settleOut (s : State) (w h : Nat) : State :=
  modEng s w (engOf h) fun g => { g with out := g.out.filter fun o => !(o.tag == pTag h && o.epoch == pEpoch h) }

/-- RDATA has all been written or dropped: the request awaits its answer no longer. -/
def rdataOver (s : State) (i w h : Nat) : State := settleOut (takeArrive s i) w h

/-- Granule `g` of RDATA at its requester (07 R234, 09 R276): written to core memory and counted, or the rest dropped as stale. -/
def rdataSeat (s : State) (i g w : Nat) (d : Deliv) : State :=
  let h := d.pkt.hdr.toNat
  match d.verdict with
  | some _ => if d.full then rdataOver s i w h else s
  | none =>
    if (seatOf s w).cox.filling then s
    else if liveAt s w (pEpoch h) = false then
      let s1 := staleSeat s w
      if d.full then rdataOver s1 i w h else dropPkt s1 i d .stale
    else if d.wrote.contains g || decide (pLen h ≤ g) then s
    else match d.pkt.data[g]? with
    | none => s
    | some y =>
      let s1 := modSeat s w fun x => coreWrite x (pOff h + 64 * g) (bytesOf y.toNat 64)
      let s2 := if pLcen h then countSeat s1 w (pLctr h) else s1
      if d.wrote.length + 1 = pLen h then rdataOver s2 i w h else modArrive s2 i fun d => { d with wrote := d.wrote ++ [g] }

/-- RDATA (09 R275, R276); for the fabric complex it answers another part's READ, once it has all come (10 R333). -/
def execRdataPkt (i g : Nat) (s : State) : Outcome State Fault Refusal :=
  packetRow tyRdata i s (rdataSeat s i g) (fun _ _ => takeArrive s i) fun d =>
    if d.full then inboundAnswer (takeArrive s i) d.pkt else s

/-- ACK (09 R276, R295): the packet is acknowledged; STALE is no fault. -/
def execAckPkt (i : Nat) (s : State) : Outcome State Fault Refusal :=
  packetRow tyAck i s (fun w d => settleOut (takeArrive s i) w d.pkt.hdr.toNat) (fun _ _ => takeArrive s i)
    fun d => inboundAnswer (takeArrive s i) d.pkt

/-- The fault code of a NACK (09 R295, 10 R337, 15 R460). -/
def nackCode (st : Nat) : Nat := if st = nkFinishFull then finishFull else if st < 8 then 0x5F + st else 0x60 + st

/-- A NACK at its engine (09 R295, R495): a fault of the seat, or a record alone where it is not of the heat that the seat runs. -/
def nackSeat (s : State) (i w : Nat) (d : Deliv) : State :=
  let h := d.pkt.hdr.toNat
  let x := seatOf s w
  let s1 := settleOut (takeArrive s i) w h
  let det := detail (7 + (engOf h).val) (pStatus h) 0 noWord 0
  let running := (x.cox.state != .noHeat || x.cox.dispatched.isSome) && x.cox.epoch == pEpoch h
  if running then
    match awaited x h with
    | some o => seatRaise s1 w (seatRec s w 0 (nackCode (pStatus h)) o.idx o.beat x.cox.cycle 0 det)
    | none => s1
  else
    let r := (bareRec 2 (nackCode (pStatus h)) (domTime s (crewOf w)) det).ofSeat (seatUnit s w x.cox.logical) w
    report s1 { r with epoch := pEpoch h }

/-- NACK (09 R294, R295); for the fabric complex it answers another part's request (10 R332). -/
def execNackPkt (i : Nat) (s : State) : Outcome State Fault Refusal :=
  packetRow tyNack i s (nackSeat s i) (fun _ _ => takeArrive s i) fun d => inboundAnswer (takeArrive s i) d.pkt

/-! ## Control traffic (07 R228, R229, R234, 09 R272, R282, R299) -/

/-- START (07 R228, R229): the start message reaches its seat, which begins once it may (06 R211). -/
def execStartMsg (i : Nat) (s : State) : Outcome State Fault Refusal :=
  packetRow tyStart i s
    (fun w _ => modCox (takeArrive s i) w fun c => { c with started := c.started || c.dispatched.isSome }) (fun _ _ => takeArrive s i)
    fun _ => takeArrive s i

/-- A pool's table drops a class entry: from now on finishes of the epoch are discarded there (07 R234, R244). -/
def dropFinishes (s : State) (hf : Nat) (e : BitVec 16) : State :=
  let gone (f : Finish) : Bool := f.epoch == e && f.epoch != 0
  let n := ((poolOf s hf).lnd.held.filter gone).length
  let s1 := modPool s hf fun p => { p with lnd := { p.lnd with held := p.lnd.held.filter fun f => !gone f } }
  { s1 with str := { s1.str with dropped := satAdd s1.str.dropped n } }

/-- CONTROL (07 R234, R235, R244, 09 R272, R282, R299): an invalidation reaches a live-epoch table, which acknowledges it, a seat-map write
reaches a copy, or a wake request reaches a half. A counter reset takes effect with the dispatch that makes it (log entry 23). -/
def execControlMsg (op : CtlOp) (s : State) : Outcome State Fault Refusal :=
  match op with
  | .liveEpoch t c =>
    let gone := s.str.lag.filter fun e => e.1 == t && e.2.1 == c.val
    let s1 := { s with str := { s.str with lag := s.str.lag.filter fun e => !(e.1 == t && e.2.1 == c.val) } }
    .next (if t = poolTable 0 ∨ t = poolTable 1 then gone.foldl (fun s e => dropFinishes s (t - poolTable 0) e.2.2) s1 else s1)
  | .wake h => .next (wakeHalf s h.val)
  | .seatMap n q => .next (takeMap s n.val q.val)
  | .counterReset _ => .next s

/-! ## Reassignment of a crew's logical seats (09 R283, 11 R354) -/

/-- A heat is dispatched on a seat of crew `q` (09 R283). -/
def crewBusy (s : State) (q : Nat) : Bool :=
  (liveHeats s).any fun e => e.2.2.phase == .dispatched && e.2.2.seats.any fun w => crewOf w == q

/-- The crew's logical seats: enabled physical seats in ascending index, fenced ones skipped (00 R3, 09 R283). -/
def crewSeats (s : State) (q : Nat) : List Nat :=
  (List.range 24).filter fun p => !(seatOf s (q * 24 + p)).disabled && !(mapOf s q).fenced.getLsbD p

/-- A generation with a block in crew `q` is incomplete (11 R354). -/
def loseMap (q : Nat) (g : Gen) : Gen := if g.alloc.any fun p => p.1 / 96 / 24 == q then { g with lostMap := true } else g

/-- The generations of a context after a change of both slots. -/
def bothGens (x : Ctx) (f : Gen → Gen) : Ctx := { x with g0 := f x.g0, g1 := f x.g1 }

/-- The pages preloaded into seats of crew `q` for heats not yet dispatched are released (09 R283). -/
def releaseCrew (s : State) (q : Nat) : State :=
  (liveHeats s).foldl (fun s e =>
    if e.2.2.phase = .pending ∨ e.2.2.phase = .ready then
      let s1 := releasePages s e.1 e.2.1 (e.2.2.pre.filter fun w => crewOf w == q)
      modHeat s1 e.1 e.2.1 fun x => { x with pre := x.pre.filter fun w => crewOf w != q }
    else s) s

/-- SEAT_MAP_REASSIGN (09 R282, R283, 11 R354): once no heat is dispatched on the crew. CONTROL packets take the new map to its copies. -/
def execSeatMapReassign (q : CrewIx) (s : State) : Outcome State Fault Refusal :=
  if (mapOf s q.val).due = true ∧ crewBusy s q.val = false then
    let s1 := modMap (lagMap (releaseCrew s q.val) q.val) q.val fun m => { m with phys := crewSeats s q.val, due := false }
    .next { s1 with
      noc := { s1.noc with mapGen := s1.noc.mapGen + 1 },
      ctxs := { s1.ctxs with ctx := s1.ctxs.ctx.map fun p => (p.1, bothGens p.2 (loseMap q.val)) } }
  else .next s

end Sys2Proof.Machine
end

