-- ==== Sys2Proof/Machine/Clock.lean ====
section
/-!
DEFINITION. Clocks and time (12 R375-R387, R393, R394, R396; 09 R298): steps, rails, the master time base and its copies, droop
stretching, junction temperatures and the loss of clocks.
-/
namespace Sys2Proof.Machine
open Host (Outcome)

/-! ## Steps and rails (12 R377-R380) -/

/-- Nominal rail voltage of a step, in mV (12 R377). -/
def stepMv (i : Nat) : Nat := [850, 800, 760, 720, 680, 630, 600].getD i 600

/-- The part's voltage offset, from the signed grade record (12 R377, 14 R439). -/
def voltOffset (s : State) : Nat := if s.glb.recordOk then min 30 (mread s.sec.flash.grade 0x18).toNat else 0

/-- The voltage that Snivan requests for a step: nominal plus offset, at most 0.85 V (12 R377, 16 R479). -/
def needMv (s : State) (i : Nat) : Nat := min 850 (stepMv i + voltOffset s)

/-- The index of crew `q` by the rows that Snivan carries out: ceiling, cap and protection, from Ready on (12 R378). -/
def softIndex (s : State) (q : Nat) : Nat :=
  if s.glb.ready then max (domOf s q).ceiling (max s.clk.cap (domOf s q).prot) else 0

/-- The seam-edge crews of half `h`: crew column 7 of half 0, crew column 0 of half 1 (09 R298). -/
def seamCrews (h : Nat) : List Nat := (List.range 6).map fun r => if h = 0 then 8 * r + 7 else 48 + 8 * r

/-- The index of the seam: the slowest of the seam-edge crews, a half in Easy or Boated left out; 6 where both are (09 R298, 12
R378). -/
def seamIndex (s : State) : Nat :=
  let hs := [0, 1].filter fun h => !halfEasy s h && !halfBoated s h
  if hs.isEmpty then 6 else ((hs.map seamCrews).flatten).foldl (fun i q => max i (domOf s q).step) 0

/-- The step that domain `d` is to run at. While Snivan is not serving, no domain goes faster, and only the two hardware rows slow a
crew (01 R27, 12 R378). -/
def dueStep (s : State) (d : Nat) : Nat :=
  if s.glb.fw = .ready then (if d = 96 then seamIndex s else max (softIndex s d) (hardIndex s d))
  else max (if d = 96 then seamIndex s else hardIndex s d) (domOf s d).step

/-- The lowest index among the crews of half `h`, hardware rows apart (12 R380). -/
def lowestSoft (s : State) (h : Nat) : Nat := (List.range 48).foldl (fun i c => min i (softIndex s (48 * h + c))) 6

/-- Request a voltage on the rail of half `h`: until it has settled, the rail supplies no more than it did, nor than is requested (12
R380). -/
def setRail (s : State) (h v : Nat) : State :=
  { s with pwr := { s.pwr with want := modAt (fun _ => v) s.pwr.want h, supply := modAt (fun u => min u v) s.pwr.supply h } }

/-- The voltage that rail `h` is known to supply (12 R380). -/
def railMv (s : State) (h : Nat) : Nat := s.pwr.supply.getD h 0

/-- Snivan lowers a rail once every crew of its half runs at its index or slower (12 R380). -/
def lowerRail (s : State) (h : Nat) : State :=
  let i := lowestSoft s h
  if s.glb.fw = .ready ∧ s.glb.ready = true ∧ needMv s i < s.pwr.want.getD h 0 ∧
      ((List.range 48).all fun c => decide (i ≤ (domOf s (48 * h + c)).step)) = true then setRail s h (needMv s i)
  else s

/-- Both rails are lowered where they may be: at a sample of a junction or a rail, a new ceiling, Ready, and when a crew has reached its step
(12 R380). -/
def lowerRails (s : State) : State := lowerRail (lowerRail s 0) 1

/-- A seat of crew `q` is in a forced refresh (12 R379). -/
def crewRefreshing (s : State) (q : Nat) : Bool := (List.range 24).any fun p => (seatOf s (24 * q + p)).wst.forcing.isSome

/-- A step stop of domain `d` toward step `t` begins: its copy of the time base stands still (12 R379). -/
def beginStop (s : State) (d t : Nat) : State :=
  let now := domTime s d
  let s1 := modDom s d fun m =>
    { m with stop := .step, target := t, frozen := some now, stopTick := s.clk.ticks, changeTick := s.clk.ticks + 1 }
  if d < 96 then crossingMoves s1 d else s1

/-- Snivan's own step change of domain `d` may begin: 10 µs after the last (12 R379). -/
def changeSpaced (s : State) (d : Nat) : Bool := (domOf s d).changeTick == 0 || decide ((domOf s d).changeTick + 999 ≤ s.clk.ticks)

/-- The step that a stop of domain `d` leads to: Snivan's own changes are spaced, those of the hardware rows are not (12 R378, R379,
R396). -/
def stopStep (s : State) (d : Nat) : Nat :=
  if changeSpaced s d then dueStep s d else if d < 96 then max (hardIndex s d) (domOf s d).step else (domOf s d).step

/-- STEP_CHANGE (12 R379, R380): the domain's clocks stop to change step. A forced refresh in the crew ends first; a rail that
does not support a faster step is raised first. -/
def execStepChange (d : DomIx) (s : State) : Outcome State Fault Refusal :=
  let m := domOf s d.val
  let t := stopStep s d.val
  if 96 < d.val ∨ m.locked = false ∨ m.stop ≠ .none ∨ t = m.step then .next s
  else if d.val < 96 ∧ crewRefreshing s d.val = true then .next s
  else if d.val < 96 ∧ t < m.step ∧ railMv s (d.val / 48) < needMv s t then
    .next (setRail s (d.val / 48) (needMv s (lowestSoft s (d.val / 48))))
  else .next (beginStop s d.val t)

/-- STEP_CHANGE_END (12 R379): after 1.2 µs, 120 reference ticks, the domain runs at its new step, and its copy goes on. A Snivan that
has stopped serving meanwhile makes no domain faster (01 R27; log entry 62). -/
def execStepChangeEnd (d : DomIx) (s : State) : Outcome State Fault Refusal :=
  let m := domOf s d.val
  if m.stop ≠ .step ∨ s.clk.ticks < m.stopTick + 120 then .next s
  else
    let t := domTime s d.val
    let n := if s.glb.fw = .ready then m.target else max m.target m.step
    let s1 := modDom s d.val fun m =>
      { m with stop := .none, step := n, steps := satInc m.steps, frozen := none, offset := t - BitVec.ofNat 64 s.clk.ticks }
    .next (if d.val < 96 then lowerRail s1 (d.val / 48) else s1)

/-- RAIL_SETTLED (12 R380): AVSBus reports the rail at the voltage requested. -/
def execRailSettled (h : HalfIx) (s : State) : Outcome State Fault Refusal :=
  .next { s with pwr := { s.pwr with supply := modAt (fun _ => s.pwr.want.getD h.val 0) s.pwr.supply h.val } }

/-! ## The time base (12 R383-R386) -/

/-- A load of the master is refused: it would move back after a run was admitted, or the part follows (12 R385). -/
def loadRefuses (s : State) (v : BitVec 64) : Bool := s.fab.role == 2 || (decide (0 < s.str.admits) && decide (v < s.clk.master))

/-- A load is ignored and counted (12 R385). An earlier one that waits for its sync is not touched. -/
def refuseLoad (s : State) : State := { s with clk := { s.clk with refused := satInc s.clk.refused } }

/-- CLK_TIME_LOAD (12 R385): 1 asks for CLK_TIME_SET to be loaded at the next sync. -/
def execClkTimeLoad (val : Word) (s : State) : Outcome State Fault Refusal :=
  let v := s.clk.setHi ++ s.clk.setLo
  if val.getLsbD 0 = false then .next s
  else if loadRefuses s v then .next (refuseLoad s)
  else .next { s with clk := { s.clk with load := some v } }

/-- CLK_TIME_LO_READ (12 R386): the master copy is latched for the three reads. -/
def execClkTimeLoRead (s : State) : Outcome State Fault Refusal :=
  let lo := s.clk.master.setWidth 32
  .next { s with clk := { s.clk with latchLo := lo, latchHi := (s.clk.master >>> 32).setWidth 32, latchFrac := s.clk.frac },
                 glb := { s.glb with readData := lo } }

/-- A load that waits takes effect at the sync, unless it would be refused by then (12 R385). -/
def takeLoad (s : State) : State :=
  match s.clk.load with
  | none => s
  | some v =>
    let s1 := { s with clk := { s.clk with load := none } }
    if loadRefuses s v then refuseLoad s1 else { s1 with clk := { s1.clk with master := v } }

/-- A copy meets the sync value: behind, it is set to it; ahead, it stands still (12 R384). A domain whose clocks are stopped takes
no part. -/
def syncDomain (s : State) (d : Nat) : State :=
  let m := domOf s d
  let t := domTime s d
  if m.stop ≠ .none then s
  else if t ≤ s.clk.master then modDom s d fun m => { m with frozen := none, offset := s.clk.master - BitVec.ofNat 64 s.clk.ticks }
  else modDom s d fun m => { m with frozen := some t }

/-- TIME_SYNC (12 R384, R385): at every 100th reference tick the master, after any load, is sent to every domain. -/
def execTimeSync (s : State) : Outcome State Fault Refusal :=
  if s.clk.ticks % 100 ≠ 0 ∨ s.pins.refLost = true then .next s
  else .next ((List.range 99).foldl syncDomain (takeLoad s))

/-- A copy over one reference period that brings the master to `master` and the ticks to `ticks` (12 R384): one that stands still
because it was ahead goes on once the master has caught up; one whose clocks are stretched may fall behind, by at most 10 ticks: a free
value. -/
def tickCopy (free : Nat) (before master : BitVec 64) (ticks : Nat) (d : Nat) (m : Dom) : Dom :=
  match m.frozen with
  | some t => if m.stop = .none ∧ t ≤ master then { m with frozen := none, offset := master - BitVec.ofNat 64 ticks } else m
  | none =>
    let t := m.offset + BitVec.ofNat 64 (ticks - 1)
    if m.stretched && decide (before - t < 10) && Config.stretchLag free d then { m with offset := m.offset - 1 } else m

/-- The slew of one reference period in 2^-16 ticks, rounded toward zero so that it never exceeds its bound (10 R341). -/
def slewStep (slew : Int) : Int := Int.tdiv (slew * 65536) 1000000

/-- One reference period: the master advances with its slew (12 R383, 10 R341), and the copies with it (12 R384). Without the reference
nothing counts. -/
def tick (s : State) : State :=
  if s.pins.refLost ∨ s.pins.reset then s
  else
    let f := (s.clk.frac.toNat : Int) + 65536 + slewStep s.clk.slew
    let master := s.clk.master + BitVec.ofInt 64 (f / 65536)
    let dom := s.clk.dom.map fun p => (p.1, tickCopy s.free s.clk.master master (s.clk.ticks + 1) p.1 p.2)
    let s1 := if s.clk.dom.any fun p => p.2.stretched then drawn s else s
    { s1 with clk := { s1.clk with ticks := s.clk.ticks + 1, master := master, frac := BitVec.ofInt 16 (f % 65536), dom := dom } }

/-! ## Droop (12 R382, 16 R478) -/

/-- The 100 µs window that a reference tick lies in; windows are counted from the release (log entry 63). -/
def sagWindowOf (ticks : Nat) : Nat := ticks / 10000

/-- A core cycle stretched to the maximum is counted in its window (12 R382). -/
def countSag (ticks : Nat) (m : Dom) : Dom :=
  if m.sagWindow = sagWindowOf ticks then { m with sagged := m.sagged + 1 }
  else { m with sagWindow := sagWindowOf ticks, sagged := 1, sagDone := false }

/-- DROOP_STRETCHING (12 R382): the supply of crew `q`, in mV, in one core cycle. Below the level of its step the oscillator
stretches the cycle, and it restores the period above. At a level that is a value of the part the stretch reaches its maximum; below
it the behaviour is not defined (16 R478). In a stop no core cycle passes. -/
def execDroopStretching (q : CrewIx) (mv : Nat) (s : State) : Outcome State Fault Refusal :=
  let need := stepMv (domOf s q.val).step
  if (domOf s q.val).stop ≠ .none then .next s
  else if need ≤ mv then .next (modDom s q.val fun m => { m with stretched := false })
  else if mv < Config.maxStretchMv need then .fault .supplyBelowDefined
  else
    let s1 := modDom s q.val fun m =>
      let m := { m with stretched := true, droop := satInc m.droop }
      if mv = Config.maxStretchMv need then countSag s.clk.ticks m else m
    .next (if (domOf s q.val).stretched then s1 else crossingMoves s1 q.val)

/-- A status record of crew `q` by a hardware monitor (15 R496). -/
def crewRec (s : State) (q code : Nat) : Record :=
  { bareRec 5 code (domTime s q) 0 with unit := unitRef 1 s.chain.node (q / 48) (q % 48) 0 0 }

/-- The frequency of a step, in MHz (12 R377). -/
def stepMhz (i : Nat) : Nat := [2500, 2250, 2000, 1750, 1500, 1000, 500].getD i 500

/-- More than 5 % of the core cycles of the window in hand have been stretched to the maximum: a window has 100 core cycles for each
MHz of the step (12 R382). -/
def droopSustained (s : State) (q : Nat) : Bool :=
  let m := domOf s q
  m.sagWindow == sagWindowOf s.clk.ticks && !m.sagDone && decide (100 * stepMhz m.step < 20 * m.sagged)

/-- SUSTAINED_DROOP (12 R382): a status event on the fault path, once a window, which Snivan handles (12 R393). -/
def execSustainedDroop (q : CrewIx) (s : State) : Outcome State Fault Refusal :=
  if droopSustained s q.val then
    .next (modDom (report s (crewRec s q.val sustainedDroopCode)) q.val fun m => { m with cool := 0, sagDone := true })
  else .next s

/-! ## Temperature (12 R393, R394) -/

/-- Snivan's loop over a junction sample: the protection index and the run of cool samples (12 R393). -/
def protect (m : Dom) (t : Int) : Dom :=
  if 95 < t then { m with prot := min 6 (m.prot + 1), cool := 0 }
  else if t ≤ 90 then
    if m.cool + 1 = 10 then { m with prot := m.prot - 1, cool := 0 } else { m with cool := m.cool + 1 }
  else { m with cool := 0 }

/-- A hardware row of 12 R378 takes hold of crew `q`: a stop in progress toward a faster step is retargeted (12 R396). -/
def retarget (s : State) (q : Nat) : State :=
  let m := domOf s q
  if m.stop = .step ∧ m.target < limitStep s then modDom s q fun m => { m with target := limitStep s, stopTick := s.clk.ticks } else s

/-- The thermal clamp of crew `q` (12 R393): above 103 °C it takes hold, at 98 °C or below it lets go. -/
def clamp (s : State) (q : Nat) (t : Int) : State :=
  if 103 < t ∧ (domOf s q).clamped = false then
    let s1 := modDom s q fun m => { m with clamped := true }
    retarget (report { s1 with pwr := { s1.pwr with clamps := satInc s1.pwr.clamps } } (crewRec s1 q thermClamp)) q
  else if t ≤ 98 then modDom s q fun m => { m with clamped := false }
  else s

/-- JUNCTION_SENSOR_SAMPLE (12 R393, R394): the sample of crew `q`. Snivan's loop runs from Ready on, and not while Snivan restarts. -/
def execJunctionSample (q : CrewIx) (tj : Byte) (s : State) : Outcome State Fault Refusal :=
  if halfBoated s (q.val / 48) then .next s
  else
    let t := tj.toInt
    let loop := s.glb.ready && s.glb.fw == .ready
    let s1 := modDom s q.val fun m => let m := { m with tj := tj }; if loop then protect m t else m
    let s2 := { s1 with pwr := { s1.pwr with tjMax := if s1.pwr.tjMax.toInt < t then tj else s1.pwr.tjMax } }
    let s3 := lowerRails (clamp s2 q.val t)
    .next (if 110 ≤ t then tripThermal s3 q.val tj else s3)

/-- THERMTRIP (12 R394): a junction sensor at 110 °C or above. -/
def execThermtrip (q : CrewIx) (tj : Byte) (s : State) : Outcome State Fault Refusal :=
  if 110 ≤ tj.toInt then .next (tripThermal s q.val tj) else .next s

/-! ## Loss of clocks (12 R376) -/

/-- CLK_REFLOST (12 R376): every domain except management stops, and the chip is in weigh-enough. -/
def execClkReflost (s : State) : Outcome State Fault Refusal :=
  if s.pins.refLost then .next s
  else
    let s1 := { s with pins := { s.pins with refLost := true } }
    .next (raiseAlert (chipHalt (stopAll s1) 5 clkReflostCode 0) 5 true)

/-- CLK_UNLOCK (12 R376): a generator that has locked loses lock in service. -/
def execClkUnlock (d : DomIx) (s : State) : Outcome State Fault Refusal :=
  if (domOf s d.val).locked then .next (unlockDomain s d.val) else .next s

end Sys2Proof.Machine
end

