-- ==== Sys2Proof/Machine/Engine.lean ====
section
/-!
DEFINITION. The DMA and send engines of a seat (09 R286-R293) and RELEASE (07 R245, R246). The times of their local phases depend
on the network; they are bounded below as the spec says, by the banks and the room in the outbound buffer, and free above (log entry 1).
-/
namespace Sys2Proof.Machine
open Host (Outcome)

/-- ENGINE_START (09 R292): the engine takes its next descriptor once the previous local phase, and any RELEASE, is over. -/
def execEngineStart (w : SeatIx) (e : EngIx) (s : State) : Outcome State Fault Refusal :=
  let x := seatOf s w.val
  let g := x.eng e
  match g.queue with
  | [] => .next s
  | j :: q =>
    let t := max j.issued g.freeAt
    if g.cur.isNone && g.releasing.isNone && runsAt x t && stillBefore x t && clocked s w.val then
      let x1 := x.putEng e { g with queue := q, cur := some { j with start := t }, sent := 0, lastAt := 0 }
      .next (putSeat s w.val (noteRoom x1 (if e = 0 then 2 else 3)))
    else .next s

/-- Smallest scope that holds a destination (07 R245): 0 seat, 1 crew, 2 half, 3 chip, 4 fleet. -/
def scopeOf (node w l d : Nat) : Nat :=
  let own := crewOf w
  if eNode d ≠ node then 4
  else if eHalf d ≠ halfOf w then 3
  else if eSpace d = 8 then 2
  else if sMcast d = 2 ∧ dOp d = opSend then 2
  else if eHalf d * 48 + eCrew d ≠ own then 2
  else if sMcast d = 1 ∧ dOp d = opSend then 1
  else if eSeat d ≠ l then 1
  else 0

/-- One packet to be made: type, offset in the destination space, the values of its own fields, and its data. -/
structure Draft where
  ty : Nat
  off : Nat
  fields : Nat := 0
  data : List Granule := []

/-- The header of an engine's packet (09 R274). -/
def engineHdr (s : State) (w : Nat) (x : Seat) (e : EngIx) (tag : Nat) (d : Nat) (a : Draft) : BitVec 512 :=
  let r := tget {} (x.eng e).routes (eRoute d)
  let away := eNode d ≠ s.chain.node
  let heat := if dOp d = opWord then wDheat d else if dOp d = opFinish then fDheat d else sDheat d
  let tagOf := match runOf s x.cox.run with
    | some run => run.tag.toNat
    | none => 0
  let mc := if dOp d = opSend then sMcast d else 0
  BitVec.ofNat 512 (pack [(0, 4, a.ty), (8, 12, tag), (20, 16, x.cox.epoch.toNat),
    (36, 64, fabricAddr (eNode d) (eHalf d) (eCrew d) (eSeat d) (eSpace d) a.off), (100, 32, (seatUnit s w x.cox.logical).toNat),
    (132, 2, e.val), (134, 2, mc), (193, 5, a.data.length), (198, 4, r.wpn), (202, 96, r.wps.toNat),
    (370, 12, if away then heat else 0), (382, 16, if away then tagOf else 0)]
    ||| (if mc = 0 then 0 else pack [(136, 48, r.mask.toNat)]) ||| a.fields)

/-- A packet is placed in the engine's outbound buffer in core cycle `t`: it takes the next tag, and awaits its answer (09 R274, R292). -/
def sendDraft (s : State) (w : Nat) (e : EngIx) (j : Job) (t : Nat) (a : Draft) : State :=
  let x := seatOf s w
  let g := x.eng e
  let d := j.raw.toNat
  let o : Outst := { tag := g.tag, epoch := x.cox.epoch, isWrite := a.ty != tyRead, scope := scopeOf s.chain.node w x.cox.logical d,
                     idx := j.idx, beat := j.beat }
  putSeat s w (x.putEng e
    { g with out := g.out ++ [o], tag := (g.tag + 1) % 4096, sent := g.sent + 1, lastAt := t + 1,
             outbox := g.outbox ++ flitsOf { sender := some w, entered := false } ⟨engineHdr s w x e g.tag d a, a.data⟩ })

/-- The local phase of the running descriptor ends in core cycle `t`, with its completion (09 R293). -/
def finishEngine (s : State) (w : Nat) (e : EngIx) (j : Job) (t : Nat) : State :=
  let x := seatOf s w
  let x1 := x.putEng e { x.eng e with cur := none, freeAt := t + 1 }
  putSeat s w { x1 with cox := { x1.cox with fin := x1.cox.fin ++ [{ j with doneAt := t }] } }

/-- The outbound buffer has room for a packet of `n` granules: it holds 64 granules and 16 headers (09 R292). -/
def outboxRoom (g : Eng) (n : Nat) : Bool :=
  let heads := (g.outbox.filter fun f => f.head.isSome).length
  decide (heads < 16 ∧ g.outbox.length - heads + n ≤ 64)

/-- The meaning of an engine row: nothing changes unless the engine runs a descriptor with opcode `op`. -/
def engineRow (op : Nat) (w : SeatIx) (e : EngIx) (s : State) (f : Seat → Job → State) : Outcome State Fault Refusal :=
  let x := seatOf s w.val
  match (x.eng e).cur with
  | some j => if dOp j.raw.toNat = op ∧ dClass j.raw.toNat ≠ clsSync ∧ clocked s w.val = true then .next (f x j) else .next s
  | none => .next s

/-- The running descriptor's next packet is placed in core cycle `t`, and with the last of `n` packets the local phase ends (09 R292,
R293). Without room it waits. A halted seat's engine makes no access and no request after the core cycle of the halt (06 R193). -/
def transmit (s : State) (w : Nat) (e : EngIx) (x : Seat) (j : Job) (n t : Nat) (a : Draft) : State :=
  let g := x.eng e
  if runsAt x t = false then putSeat s w (x.putEng e { g with cur := none })
  else if stillBefore x t = false ∨ outboxRoom g a.data.length = false then s
  else
    let s1 := sendDraft (drawn s) w e j t a
    if g.sent + 1 < n then s1 else finishEngine s1 w e j t

/-- Core cycle of what a descriptor may do `k` core cycles after its start: a forced refresh in between moves it on (05 R174). -/
def engAt (x : Seat) (j : Job) (k : Nat) : Nat := runTime x.cox j.start (j.start + k)

/-- The first core cycle from `t` on that lies outside the heat's forced refreshes. -/
def outsideGaps (x : Seat) (t : Nat) : Nat := x.cox.gaps.foldl (fun t g => if g.1 ≤ t ∧ t < g.1 + g.2 then g.1 + g.2 else t) t

/-- The first core cycle from `t` on in which no access of the MX units or the vector engine holds the banks (09 R292), looked for over
4,096 cycles. -/
def freeCycle (x : Seat) : Nat → Nat → Nat
  | 0, t => t
  | k + 1, t =>
    let t := outsideGaps x t
    if (knownSpans x).any fun p => p.has t then freeCycle x k (t + 1) else t

/-- The core cycle after the reads of `n` granules from granule `g` of the transfer on: each no earlier than start + 2g, after the one
before it (whose cycle plus 1 is `p`), and with its banks free (09 R292). -/
def readsEnd (x : Seat) (j : Job) : Nat → Nat → Nat → Nat
  | 0, _, p => p
  | n + 1, g, p => readsEnd x j n (g + 1) (freeCycle x 4096 (max (engAt x j (2 * g)) p) + 1)

/-- The first core cycle in which the next packet may be begun: after the one before it, and after a wait for room, for the other engine's
reads or for the network, which is a free value (log entry 1). -/
def packetFrom (s : State) (g : Eng) (j : Job) : Nat := max j.start g.lastAt + Config.engineWait s.free

/-- Granules `lo` to `lo + n - 1` of core memory. -/
def coreGranules (x : Seat) (lo n : Nat) : List Granule := (List.range n).map fun k => mgran x.core (lo + k)

/-- Packets of a transfer of `len` granules (09 R288). -/
def partCount (len : Nat) : Nat := (len + 15) / 16

/-- Packet `p` of a SEND of granules 16p onwards (09 R288). -/
def sendPacket (x : Seat) (j : Job) (p : Nat) : Draft :=
  let d := j.raw.toNat
  { ty := tyWrite, off := 64 * ((sRemote d j.c + 16 * p) % 2 ^ 26),
    fields := pack [(184, 8, if sLcen d then sLctr d else 0), (192, 1, b2n (sLcen d))],
    data := coreGranules x ((sLocal d j.c).toNat + 16 * p) (min 16 (sLen d - 16 * p)) }

/-- Packet `p` of a GET: the count in MASK, the local granule in WORD (09 R274, R275, R288). -/
def getPacket (j : Job) (p : Nat) : Draft :=
  let d := j.raw.toNat
  { ty := tyRead, off := 64 * ((sRemote d j.c + 16 * p) % 2 ^ 26),
    fields := pack [(136, 48, min 16 (sLen d - 16 * p)), (184, 8, if sLcen d then sLctr d else 0), (192, 1, b2n (sLcen d)),
      (298, 32, (sLocal d j.c).toNat + 16 * p)] }

/-- The packet of a WORD (09 R289). -/
def wordPacket (j : Job) : Draft :=
  let d := j.raw.toNat
  { ty := tyWord, off := (if eSpace d = 8 then poolWindow else 0) + 4 * wIndex d j.c, fields := pack [(298, 32, wValue d)] }

/-- The packet of a FINISH: DEST names the counter (09 R290, 05 R157, R179). -/
def finishPacket (j : Job) : Draft :=
  let d := j.raw.toNat
  { ty := tyFinish, off := (if eSpace d = 8 then poolWindow else 0) + 8 * fCtrn d,
    fields := pack [(298, 32, fValue d), (330, 32, fCount d j.c), (362, 8, fSlack d)] }

/-- SEND (09 R288, R292): the next packet of the running SEND, once its granules have been read. -/
def execSend (w : SeatIx) (e : EngIx) (s : State) : Outcome State Fault Refusal :=
  engineRow opSend w e s fun x j =>
    let g := x.eng e
    let a := sendPacket x j g.sent
    transmit s w.val e x j (partCount (sLen j.raw.toNat)) (readsEnd x j a.data.length (16 * g.sent) (packetFrom s g j) - 1) a

/-- The core cycle of the next header: one in a network cycle, which is two core cycles (09 R292). -/
def headerAt (s : State) (x : Seat) (g : Eng) (j : Job) : Nat := outsideGaps x (max (engAt x j (2 * g.sent)) (packetFrom s g j))

/-- GET (09 R288, R292): the next packet of the running GET. -/
def execGet (w : SeatIx) (e : EngIx) (s : State) : Outcome State Fault Refusal :=
  engineRow opGet w e s fun x j =>
    let g := x.eng e
    transmit s w.val e x j (partCount (sLen j.raw.toNat)) (headerAt s x g j) (getPacket j g.sent)

/-- WORD (09 R289). -/
def execWord (w : SeatIx) (e : EngIx) (s : State) : Outcome State Fault Refusal :=
  engineRow opWord w e s fun x j => transmit s w.val e x j 1 (headerAt s x (x.eng e) j) (wordPacket j)

/-- FINISH (09 R290, 07 R242). -/
def execFinish (w : SeatIx) (e : EngIx) (s : State) : Outcome State Fault Refusal :=
  engineRow opFinish w e s fun x j => transmit s w.val e x j 1 (headerAt s x (x.eng e) j) (finishPacket j)

/-- RSET (09 R287, R292): the register is loaded in the start cycle. -/
def execRset (w : SeatIx) (e : EngIx) (s : State) : Outcome State Fault Refusal :=
  engineRow opRset w e s fun x j =>
    if runsAt x j.start = false ∨ stillBefore x j.start = false then s else
    let d := j.raw.toNat
    let r : Route := { wpn := rWpn d, wps := BitVec.ofNat 96 (rWps d), mask := BitVec.ofNat 48 (rMask d) }
    let g := x.eng e
    finishEngine (putSeat s w.val (x.putEng e { g with routes := tput g.routes (rReg d) r })) w.val e j j.start

/-- RELEASE (07 R246): the engine starts nothing later until it has completed. -/
def execRelease (w : SeatIx) (e : EngIx) (s : State) : Outcome State Fault Refusal :=
  let x := seatOf s w.val
  let g := x.eng e
  match g.cur with
  | some j =>
    if runsAt x j.start = true ∧ clocked s w.val = true ∧ dClass j.raw.toNat = clsSync ∧ dOp j.raw.toNat = opRelease then
      .next (putSeat s w.val (x.putEng e { g with cur := none, releasing := some j }))
    else .next s
  | none => .next s

/-- RELEASE_COMPLETE (07 R246): every earlier write of the engine to a destination inside SCOPE has been acknowledged. When is a free
value (log entry 1). -/
def execReleaseComplete (w : SeatIx) (e : EngIx) (s : State) : Outcome State Fault Refusal :=
  let x := seatOf s w.val
  let g := x.eng e
  match g.releasing with
  | some j =>
    let t := outsideGaps x (j.start + Config.engineWait s.free)
    if (g.out.all fun o => !(o.isWrite && decide (o.scope ≤ yScope j.raw.toNat))) && runsAt x t && stillBefore x t && clocked s w.val then
      .next (finishEngine (putSeat (drawn s) w.val (x.putEng e { g with releasing := none })) w.val e j t)
    else .next s
  | none => .next s

end Sys2Proof.Machine
end

