-- ==== Sys2Proof/Machine/Fault.lean ====
section
/-!
DEFINITION. Faults and recovery (15): the chip log, Snivan's handling of its records, fences, weigh-enough by command and its
clearing.
-/
namespace Sys2Proof.Machine
open Host (Outcome)

/-! ## Records as bytes (15 R453) -/

/-- The 64 bytes of a record, as a number. -/
def recordNat (r : Record) : Nat :=
  pack [(0, 32, r.seq.toNat), (32, 32, r.time.toNat), (64, 16, r.code.toNat), (80, 8, r.kind.toNat), (88, 8, r.flags.toNat),
    (96, 32, r.unit.toNat), (128, 8, r.phys.toNat), (136, 8, r.ctx.toNat), (144, 16, r.heat.toNat), (160, 16, r.epoch.toNat),
    (176, 16, r.run.toNat), (192, 16, r.desc.toNat), (208, 48, r.beat.toNat), (256, 48, r.cycle.toNat), (304, 16, r.count.toNat),
    (320, 64, r.loops.toNat), (384, 128, r.detail.toNat)]

/-! ## The chip log (15 R458, R459) -/

/-- The record in slot `n` of FLT_LOG. -/
def logSlot (s : State) (n : Nat) : Record := tget {} s.flt.log (n % 1024)

/-- The log holds the record with number `n`. -/
def logHas (s : State) (n : Word) : Bool := n != 0 && (logSlot s n.toNat).seq == n

/-- What the starter does with a record that the log has numbered: the heat of a seat's FIRST copy, or of a record charged to it, is
to be aborted with SEAT_FAULT, and the first number to arrive is the cause (01 R26, R35, 15 R468). -/
def chargeHeat (s : State) (r : Record) (n : Word) : State :=
  if (r.kind = 0 ∨ r.kind = 2) ∧ r.heat ≠ 0xFFFF then
    modHeat s r.run.toNat r.heat.toNat fun x =>
      if x.phase = .dispatched ∧ x.epoch = r.epoch ∧ x.abortReq = none then { x with abortReq := some (16, n) } else x
  else s

/-- A WATCHDOG or LATE_LANDING record is the causing record of its heat's hold (15 R462). -/
def fillHold (s : State) (r : Record) (n : Word) : State :=
  if r.code = 0x111 ∨ r.code = 0x112 then
    { s with flt := { s.flt with holds := s.flt.holds.map fun c =>
        if c.seq = none ∧ c.run = r.run.toNat ∧ c.heat = r.heat.toNat then { c with seq := some n } else c } }
  else s

/-- The seat that a record names, where it names one by its physical index. -/
def recSeat (r : Record) : Nat := (fld r.unit.toNat 16 1 * 48 + fld r.unit.toNat 10 6) * 24 + r.phys.toNat

/-- Two copies of one fault's record (15 R453). -/
def sameFault (a b : Record) : Bool :=
  a.code == b.code && a.heat == b.heat && a.epoch == b.epoch && a.run == b.run && a.desc == b.desc && a.cycle == b.cycle

/-- A seat's FIRST or LAST whose copy is logged carries the copy's number (15 R453 SEQ). -/
def numberSeat (s : State) (r : Record) (n : Word) : State :=
  if r.kind = 0 ∧ r.phys ≠ 0xFF then
    modSeat s (recSeat r) fun x => if sameFault x.first r then { x with first := { x.first with seq := n } } else x
  else if r.kind = 1 then
    modSeat s (recSeat r) fun x => if sameFault x.last r then { x with last := { x.last with seq := n } } else x
  else s

/-- The arbiter accepts a record: it is numbered and takes its slot, overwriting the record there (15 R458, R459). -/
def acceptRecord (s : State) (r : Record) : State :=
  let n := nextSeq s.flt.lastSeq
  let old := logSlot s n.toNat
  let over_ := old.seq != 0 && seqAfter old.seq s.flt.ackSeq
  let s1 := { s with flt := { s.flt with
    lastSeq := n, log := tput s.flt.log (n.toNat % 1024) { r with seq := n },
    overrun := if over_ then satInc s.flt.overrun else s.flt.overrun } }
  let s2 := raiseEvent s1 0
  let s3 := if over_ then raiseEvent s2 1 else s2
  let s4 := if r.code = 0x201 then raiseEvent s3 4 else s3
  fillHold (chargeHeat (numberSeat s4 r n) r n) r n

/-- FAULT_RECORD_LOGGED (15 R458): the fault-log arbiter accepts record `i` of the fault path. Its choice among those that wait is not
specified (01 R34). -/
def execRecordLogged (i : Nat) (s : State) : Outcome State Fault Refusal :=
  match s.flt.path[i]? with
  | some r => .next (acceptRecord { s with flt := { s.flt with path := dropAt s.flt.path i } } r)
  | none => .next s

/-- FLT_ACK_SEQ_WRITE (15 R459). -/
def execAckSeqWrite (val : Word) (s : State) : Outcome State Fault Refusal := .next { s with flt := { s.flt with ackSeq := val } }

/-- The number before `n` in the sequence (01 R33). -/
def prevSeq (n : Word) : Word := if n ≤ 1 then 0xFFFFFFFF else n - 1

/-- The records held, from the `k`th latest on, in log order. -/
def heldFrom (s : State) : Nat → Word → List Record
  | 0, _ => []
  | k + 1, n => if logHas s n then heldFrom s k (prevSeq n) ++ [logSlot s n.toNat] else []

/-- The records that a read from number `first` returns, at most `n`: a first number that has been overwritten begins at the oldest
record held, one not yet given finds none (15 R459). -/
def logFrom (s : State) (first : Word) (n : Nat) : List Record :=
  let held := heldFrom s 1024 s.flt.lastSeq
  if seqAfter first s.flt.lastSeq then []
  else if logHas s first then (held.dropWhile fun r => r.seq != first).take n else held.take n

/-- Write a command's buffer: host memory at `a`, or the I3C port's reply data, whose address is ignored (14 R451). -/
def writeBuffer (s : State) (src a : Nat) (bs : List Byte) : State :=
  if src = i3cSrc then { s with cq := { s.cq with i3cData := mwrites [] 0 bs } }
  else { s with hostMem := mwrites s.hostMem a bs }

/-- LOG_READ (15 R459, 13 R421): `ok` is false where the host's buffer cannot be written. -/
def execLogRead (src : SrcIx) (ok : Bool) (s : State) : Outcome State Fault Refusal :=
  commandRow s src.val 0x41 fun c =>
    let n := cb c 0x14 2
    if n = 0 ∨ 1024 < n then answer s src.val c stBadParameter 0
    else if ok = false ∧ src.val ≠ i3cSrc then answer s src.val c stHostAccess 0
    else
      let first := w32 (cb c 0x10 4)
      let rs := logFrom s first n
      let next := match rs.getLast? with
        | some r => nextSeq r.seq
        | none => first
      let s1 := writeBuffer s src.val (cb c 0x18 8) (rs.map fun r => bytesOf (recordNat r) 64).flatten
      answer s1 src.val c stSuccess (pack [(0, 16, rs.length), (32, 32, next.toNat), (64, 32, s.flt.overrun.toNat)])

/-- SEAT_LAST_LOGGED (15 R457): once the class of its aborted heat has drained, a halted seat sends its LAST record, if faults followed
the first, and returns to having no heat. -/
def execSeatLastLogged (w : SeatIx) (s : State) : Outcome State Fault Refusal :=
  let x := seatOf s w.val
  let k := classOf s (x.cox.epoch.toNat % 64)
  if x.cox.state = .halted ∧ ¬ (k.epoch = x.cox.epoch ∧ k.state ≠ 0) then
    let s1 := if x.first.count ≠ 0 then report s { x.last with kind := 1 } else s
    .next (modSeat s1 w.val Seat.rest)
  else .next s

/-! ## Fences (15 R470-R472, 14 R441, 09 R283) -/

/-- A heat occupies seat `w`: it is dispatched there. -/
def seatHeat (s : State) (w : Nat) : Option (Nat × Nat) :=
  ((liveHeats s).find? fun e => e.2.2.phase == .dispatched && !e.2.2.freed && e.2.2.seats.contains w).map fun e => (e.1, e.2.1)

/-- The record of a fence (15 R470): PHYS, and the logical unit where the seat has one. -/
def fenceRec (s : State) (w : Nat) : Record :=
  let r := (chipRec s 4 fenceApplied 0).ofSeat (match logicalOf s w with
    | some l => seatUnit s w l
    | none => 0) w
  { r with flags := r.flags ||| 4 }

/-- Seat `w` is fenced: marked in every copy of the map, its heat aborted, and logged (15 R470). -/
def fenceOne (s : State) (w : Nat) : State :=
  let s1 := modMap s (crewOf w) fun m => { m with fenced := setBit m.fenced (w % 24), due := true }
  let s2 := match seatHeat s w with
    | some p => abortHeat s1 p.1 p.2 19 0
    | none => s1
  report s2 (fenceRec s2 w)

/-- Bytes 0-23 of a fence log entry (14 R441). -/
def fenceBytes (e : FenceEnt) : List Byte :=
  bytesOf (pack [(0, 16, e.seq), (16, 32, e.unit.toNat), (48, 8, e.cause), (128, 64, e.time.toNat)]) 24

/-- What the signature of a fence log entry covers (14 R441). -/
def fenceHash (s : State) (e : FenceEnt) : BitVec 384 := Config.sha384 (bytesOf s.sec.deviceId.toNat 16 ++ fenceBytes e)

/-- Append a fence to the fence log, unless it holds 256 entries (14 R441). -/
def recordFence (s : State) (w cause : Nat) : State :=
  let f := s.sec.flash
  if 256 ≤ f.fences.length then s
  else
    let e : FenceEnt := { seq := f.fences.length, unit := unitRef 0 s.chain.node (halfOf w) (crewOf w % 48) (w % 24) 1, cause := cause,
                          time := s.clk.master }
    let e := { e with sig := Config.ecdsaSign s.sec.secret (fenceHash s e) s.free }
    let s1 := drawn s
    { s1 with sec := { s1.sec with flash := { f with fences := f.fences ++ [e] } } }

/-- FENCE_SEAT needs to do nothing about a seat that is disabled or fenced (15 R470). -/
def fenceNeedless (s : State) (w : Nat) : Bool := (seatOf s w).disabled || seatFenced s w

/-- FENCE_SEAT (15 R470, 14 R441, 13 R419): each seat of the unit that is neither disabled nor fenced is fenced, and recorded with cause 1
where flag 0 asks. The command runs in the background (13 R411). -/
def execFenceSeat (src : SrcIx) (s : State) : Outcome State Fault Refusal :=
  lateRow s src.val 0x32 fun c =>
    let u := cUnit c
    let keep := bit (cb c 0x10 1) 0
    if unitBad s u 0 3 true then finishBg s src.val c stBadUnit (badUnitResult u)
    else if 1 < cb c 0x10 1 then finishBg s src.val c stBadParameter 0
    else
      let ws := (unitSeats s u).filter fun w => !fenceNeedless s w
      let room := 256 - s.sec.flash.fences.length
      let s1 := ws.foldl (fun s w => if keep then recordFence (fenceOne s w) w 1 else fenceOne s w) s
      finishBg s1 src.val c (if keep = true ∧ room < ws.length then 0x58 else stSuccess) (2 ^ 64 * ws.length)

/-! ## Handling of records (15 R461-R464, R471) -/

/-- The number of the record that Snivan handles next: log order (15 R463). -/
def nextHandled (s : State) : Option Word := if s.flt.handled = s.flt.lastSeq then none else some (nextSeq s.flt.handled)

/-- A record that marks its context (15 R461, 09 R495). -/
def marksContext (r : Record) : Bool :=
  let c := r.code.toNat
  r.ctx != 0xFF &&
  (((r.kind == 0 || r.kind == 2) && decide (1 ≤ c ∧ c ≤ 0x70)) || (decide (0x80 ≤ c ∧ c ≤ 0x82) && r.heat != 0xFFFF) ||
    c == 0x111 || c == 0x112)

/-- Mark context `c` faulted (15 R461). -/
def markContext (s : State) (c : Nat) : State := { s with flt := { s.flt with faulted := setBit s.flt.faulted c } }

/-- The holds that wait for record `n` mark their contexts and are released (15 R462). -/
def releaseHolds (s : State) (n : Word) : State :=
  let due := s.flt.holds.filter fun c => c.seq == some n
  due.foldl (fun s c => markContext s c.ctx) { s with flt := { s.flt with holds := s.flt.holds.filter fun c => c.seq != some n } }

/-- The log's record of a seat that is fenced for it carries FLAGS bit 2 (15 R453). -/
def flagFenced (s : State) (r : Record) : State :=
  { s with flt := { s.flt with log := tput s.flt.log (r.seq.toNat % 1024) { r with flags := r.flags ||| 4 } } }

/-- Snivan's actions on a record (15 R461, R471, 12 R393): its context's mark, the fence of a seat with a hardware fault, the
protection index after a sustained droop. -/
def actOn (s : State) (r : Record) : State :=
  let s1 := if marksContext r then markContext s r.ctx.toNat else s
  if 0x80 ≤ r.code ∧ r.code ≤ 0x82 ∧ r.phys ≠ 0xFF ∧ r.kind ≠ 4 then
    if fenceNeedless s1 (recSeat r) then s1 else recordFence (fenceOne (flagFenced s1 r) (recSeat r)) (recSeat r) 3
  else if r.code = 0x204 ∧ s.glb.ready = true then
    modDom s1 (fld r.unit.toNat 16 1 * 48 + fld r.unit.toNat 10 6) fun m => { m with prot := min 6 (m.prot + 1), cool := 0 }
  else s1

/-- RECORD_HANDLING (15 R461-R464): Snivan handles the next record in log order, each whole, so that no later record of its context
overtakes it. The record that stopped the previous Snivan only marks its context. -/
def execRecordHandling (s : State) : Outcome State Fault Refusal :=
  match nextHandled s with
  | none => .next s
  | some n =>
    if s.glb.fw ≠ .ready then .next s
    else
      let r := logSlot s n.toNat
      let s1 := releaseHolds { s with flt := { s.flt with handled := n } } n
      if logHas s n = false then .next s1
      else if s.glb.skip = some n then
        let s2 := { s1 with glb := { s1.glb with skip := none } }
        .next (if r.ctx = 0xFF then s2 else markContext s2 r.ctx.toNat)
      else .next (actOn s1 r)

/-- SNIVAN_HANDLER (15 R464): the handler of the record in hand traps or takes more than 100 ms. -/
def execSnivanHandler (puf : Bool) (s : State) : Outcome State Fault Refusal :=
  match nextHandled s with
  | none => .next s
  | some n =>
    if s.glb.fw ≠ .ready then .next s
    else
      let s1 := raiseAlert (chipHalt s 5 snivanHandlerCode (detail 0 0 0 n.toNat 0)) 3 false
      .next (restartSnivan { s1 with glb := { s1.glb with skip := some n } } 2 puf)

/-! ## Weigh-enough by command (15 R466-R469, 14 R450) -/

/-- WEIGH_ENOUGH (15 R466, 14 R450): of the chip, or at fleet level of the fleet along the chain. -/
def execWeighEnough (src : SrcIx) (s : State) : Outcome State Fault Refusal :=
  commandRow s src.val 0x30 fun c =>
    let u := cUnit c
    if unitBad s u 3 4 false then answer s src.val c stBadUnit (badUnitResult u)
    else
      let s1 := chipHalt s 4 weCommand 0
      answer (if uLevel u = 4 then fleetHalt s1 else s1) src.val c stSuccess 0

/-- FAULT_CLEAR with what = 0 (15 R469). -/
def execFaultClearContext (src : SrcIx) (s : State) : Outcome State Fault Refusal :=
  commandRow s src.val 0x31 fun c =>
    let k := cb c 0x11 1
    if cb c 0x10 1 ≠ 0 then s
    else if 15 < k then answer s src.val c stBadParameter 0
    else if (ctxOf s k).state = .free then answer s src.val c stNoContext 0
    else answer { s with flt := { s.flt with faulted := clrBit s.flt.faulted k } } src.val c stSuccess 0

/-- The cause of the weigh-enough is one that only RESET_N clears (15 R467). -/
def clearOnlyByReset (c : BitVec 16) : Bool := c == 0x300 || c == 0x301 || c == 0x302

/-- The weigh-enough is cleared (15 R465, R467): ALERT_N stays asserted for a condition that only RESET_N ends. -/
def clearHalt (s : State) : State :=
  { s with
    glb := { s.glb with halted := false },
    chain := { s.chain with fleetHalt := false },
    flt := { s.flt with haltCode := 0, alert := if s.flt.alertHold then s.flt.alert else 0 },
    pins := { s.pins with alert := s.pins.alert && s.flt.alertHold } }

/-- FAULT_CLEAR with what = 1 (15 R467, 12 R397). -/
def execFaultClearWeighEnough (src : SrcIx) (s : State) : Outcome State Fault Refusal :=
  commandRow s src.val 0x31 fun c =>
    if cb c 0x10 1 ≠ 1 then s
    else if s.pwr.haltActive then answer s src.val c stHalted 0
    else if (s.str.classes.any fun p => p.2.state == 2) || clearOnlyByReset s.flt.haltCode then answer s src.val c stBusy 0
    else answer (clearHalt s) src.val c stSuccess 0

end Sys2Proof.Machine
end

