-- ==== Sys2Proof/Machine/Graph.lean ====
section
/-!
DEFINITION. Reading and checking a heat graph (07 R216-R223, R250, 02 R73, 08 R254, 10 R327-R328), in the order of 07 R219.
-/
namespace Sys2Proof.Machine
open Host (Outcome)

/-- A byte range: first byte and length. -/
abbrev Region := Nat × Nat

/-- Two byte ranges share a byte. -/
def Region.meets (a b : Region) : Bool := decide (a.1 < b.1 + b.2 ∧ b.1 < a.1 + a.2)

/-- No two regions of the list share a byte. -/
def disjointAll : List Region → Bool
  | [] => true
  | a :: t => (t.all fun b => !a.meets b) && disjointAll t

/-- One entry of each value of the list. -/
def dedup : List Region → List Region
  | [] => []
  | a :: t => if t.contains a then dedup t else a :: dedup t

/-- A graph region: the pool that holds it and where it begins (07 R216). -/
structure Src where
  mem : Mem
  off : Nat

/-- `n` bytes at offset `a` of the graph image, little-endian. -/
def Src.rd (g : Src) (a n : Nat) : Nat := mrd g.mem (g.off + a) n

/-- The bytes of a range of the graph image. -/
def Src.bytes (g : Src) (a n : Nat) : List Byte := mbytes g.mem (g.off + a) n

/-! ## Header and tables (07 R216, R217) -/

def gMagic (g : Src) : Nat := g.rd 0 4
def gMajor (g : Src) : Nat := g.rd 4 1
def gMinor (g : Src) : Nat := g.rd 5 1
def gGrade (g : Src) : Nat := g.rd 6 1
def gHeats (g : Src) : Nat := g.rd 8 2
def gImages (g : Src) : Nat := g.rd 0xA 2
def gHeatTable (g : Src) : Nat := g.rd 0xC 4
def gImageTable (g : Src) : Nat := g.rd 0x10 4
def gBytes (g : Src) : Nat := g.rd 0x14 4
/-- FABRIC_TABLE of minors 1 and 2 (10 R327), 0 for none. -/
def gFabric (g : Src) : Nat := if gMinor g = 0 then 0 else g.rd 0x18 4

/-- Image table entry `n` (07 R217). -/
def gImage (g : Src) (n : Nat) : ImageRef :=
  let a := gImageTable g + 16 * n
  { off := g.rd a 4, count := g.rd (a + 4) 2, crc := w32 (g.rd (a + 12) 4) }

/-- The image table. -/
def gImageList (g : Src) : List ImageRef := (List.range (gImages g)).map (gImage g)

/-- The fabric route table region (10 R327). -/
def fabricRegion (g : Src) : List Region := if gFabric g = 0 then [] else [(gFabric g, g.rd (gFabric g + 4) 4)]

/-- Every region of the image whose overlap R219 refuses; images named twice count once. -/
def gRegions (g : Src) : List Region :=
  [(0, 0x40), (gHeatTable g, 512 * gHeats g), (gImageTable g, 16 * gImages g)] ++ fabricRegion g
    ++ dedup ((gImageList g).map fun i => (i.off, 32 * i.count))

/-- The first check of R219 fails, but for the header CRC: MAGIC, the ranges, GRAPH_BYTES and the overlaps. -/
def headerBad (g : Src) (room : Nat) : Bool :=
  gMagic g != 0x4E574748 ||
  gHeats g == 0 || decide (4096 < gHeats g) || gImages g == 0 || decide (4096 < gImages g) ||
  gHeatTable g % 512 != 0 || gImageTable g % 16 != 0 || gFabric g % 64 != 0 ||
  decide (0x4000000 < gBytes g) || decide (room < gBytes g) ||
  ((gImageList g).any fun i => i.off % 32 != 0 || i.count == 0 || decide (1024 < i.count)) ||
  ((gRegions g).any fun r => decide (gBytes g < r.1 + r.2)) ||
  !disjointAll (gRegions g)

/-- The header CRC, over bytes 0x00-0x3B and the heat table (07 R216). -/
def headerCrcBad (g : Src) : Bool := crc32c (g.bytes 0 0x3C ++ g.bytes (gHeatTable g) (512 * gHeats g)) != w32 (g.rd 0x3C 4)

/-- A reserved field of the header or of the image table is nonzero (07 R216, R217, 10 R327). -/
def headerReserved (g : Src) : Bool :=
  g.rd 7 1 != 0 || (gMinor g == 0 && g.rd 0x18 4 != 0) || g.rd 0x1C 32 != 0 ||
  (List.range (gImages g)).any fun n => g.rd (gImageTable g + 16 * n + 6) 6 != 0

/-! ## Heat descriptors (07 R221-R223) -/

/-- Offset of heat descriptor `i`. -/
def hdAt (g : Src) (i : Nat) : Nat := gHeatTable g + 512 * i

/-- Heat descriptor `i` (07 R221). -/
def parseHeat (g : Src) (i : Nat) : HeatDesc :=
  let a := hdAt g i
  { flags := g.rd a 2, succ := fld (g.rd (a + 2) 2) 0 12, ctx := g.rd (a + 4) 1,
    roles := (List.range (g.rd (a + 5) 1)).map fun r =>
      (fld (g.rd (a + 0x30 + 4 * r) 4) 0 24, g.rd (a + 0x50 + 2 * r) 2,
       (List.range 96).filter fun q => bit (g.rd (a + 0x60 + q) 1) r),
    watchdog := g.rd (a + 8) 4, seed := BitVec.ofNat 64 (g.rd (a + 0x10) 8),
    thresholds := (List.range 4).map fun k => w32 (g.rd (a + 0x20 + 4 * k) 4),
    deps := (List.range 8).map fun k => BitVec.ofNat 128 (g.rd (a + 0xC0 + 16 * k) 16),
    digest := (List.range (g.rd (a + 6) 1)).map fun k => BitVec.ofNat 64 (g.rd (a + 0x140 + 8 * k) 8) }

/-- DIGEST, HAS_SUCCESSOR and IS_SUCCESSOR of FLAGS (07 R221). -/
def HeatDesc.hasDigest (d : HeatDesc) : Bool := bit d.flags 0
def HeatDesc.hasSucc (d : HeatDesc) : Bool := bit d.flags 1
def HeatDesc.isSucc (d : HeatDesc) : Bool := bit d.flags 2

/-- A fixed field of heat descriptor `i` breaks R221. -/
def heatFieldsBad (g : Src) (i : Nat) : Bool :=
  let a := hdAt g i
  let fl := g.rd a 2
  let n := g.rd (a + 5) 1
  decide (8 ≤ fl) || fld (g.rd (a + 2) 2) 12 4 != 0 || (!bit fl 1 && g.rd (a + 2) 2 != 0) || decide (15 < g.rd (a + 4) 1) ||
  n == 0 || decide (8 < n) || decide (16 < g.rd (a + 6) 1) || (!bit fl 0 && g.rd (a + 6) 1 != 0) ||
  g.rd (a + 7) 1 != 0 || g.rd (a + 0xC) 4 != 0 || g.rd (a + 0x18) 8 != 0 || g.rd (a + 0x1C0) 64 != 0 ||
  ((List.range 8).any fun r =>
    let m := g.rd (a + 0x30 + 4 * r) 4
    let im := g.rd (a + 0x50 + 2 * r) 2
    if r < n then decide (2 ^ 24 ≤ m) || decide (gImages g ≤ im) else m != 0 || im != 0) ||
  ((List.range 96).any fun q => decide (2 ^ n ≤ g.rd (a + 0x60 + q) 1)) ||
  ((List.range 16).any fun k => decide (g.rd (a + 6) 1 ≤ k) && g.rd (a + 0x140 + 8 * k) 8 != 0)

/-- Logical seats per crew of a grade (00 R2). -/
def gradeSeats (grade : Nat) : Nat := if grade = 0 then 24 else if grade = 1 then 23 else 22

/-- The roles of a heat break R222: an empty role, a mask bit at or above the grade's count, or two roles that share a seat. -/
def rolesBad (grade : Nat) (d : HeatDesc) : Bool :=
  (d.roles.any fun r => r.1 == 0 || r.2.2.isEmpty || decide (2 ^ gradeSeats grade ≤ r.1)) ||
  ((d.roles.zipIdx).any fun a => (d.roles.zipIdx).any fun b =>
    decide (a.2 < b.2) && (a.1.1 &&& b.1.1) != 0 && a.1.2.2.any fun q => b.1.2.2.contains q)

/-- A dependence entry of heat `i` breaks R223. -/
def depBad (grade i : Nat) (d : DepRaw) : Bool :=
  let k := depKind d
  let f := depFlags d
  let u := depUnit d
  if k = 0 then d != 0
  else if k = 1 then decide (1 < f) || decide (i ≤ depArg d) || u != 0 || depValue d != 0
  else if k = 2 then (f != 0 && f != 4) || decide (63 < depArg d) || uLevel u != 0 || uPhys u || fld u 17 12 != 0 || fld u 0 4 != 0 ||
    decide (47 < uCrew u) || decide (gradeSeats grade ≤ uSeat u) || decide (2 ^ 32 ≤ depValue d)
  else if k = 3 then (f != 0 && f != 4) || decide (255 < depArg d) || uLevel u != 2 || fld u 17 12 != 0 || fld u 0 16 != 0 ||
    decide (2 ^ 32 ≤ depValue d)
  else if k = 4 then (f != 0 && f != 2) || depArg d != 0 || u != 0
  else true

/-- Fields of a fabric address (13 R409). -/
def faKind (a : Nat) : Nat := fld a 62 2
def faNode (a : Nat) : Nat := fld a 50 12
def faHalf (a : Nat) : Nat := fld a 49 1
def faCrew (a : Nat) : Nat := fld a 43 6
def faSeat (a : Nat) : Nat := fld a 38 5
def faSpace (a : Nat) : Nat := fld a 34 4
def faOff (a : Nat) : Nat := fld a 0 34

/-- A DIGEST_LIST entry breaks R250. -/
def digestBad (d : HeatDesc) (x : BitVec 64) : Bool :=
  let a := x.toNat
  faKind a != 0 || faOff a % 32 != 0 ||
  (if faSpace a = 1 then
     decide (47 < faCrew a) || decide (0x60000 < faOff a + 32) || !((places d).any fun p => p.q == faHalf a * 48 + faCrew a && p.l == faSeat a)
   else if faSpace a = 8 then decide (0x50000800 < faOff a + 32)
   else true)

/-- The successor of heat `i` breaks R73 or R221. -/
def successorBad (ds : List HeatDesc) (i : Nat) (d : HeatDesc) : Bool :=
  (d.hasSucc && (decide (d.succ ≤ i) || match ds[d.succ]? with
    | none => true
    | some t => t.hasSucc)) ||
  (let namers := (ds.filter fun e => e.hasSucc && e.succ == i).length
   decide (1 < namers) || (d.isSucc != (namers == 1)))

/-- Heat `i` breaks a rule of the fourth check of R219. -/
def heatBad (g : Src) (ds : List HeatDesc) (i : Nat) (d : HeatDesc) : Bool :=
  heatFieldsBad g i || rolesBad (gGrade g) d || (d.deps.any (depBad (gGrade g) i)) || (d.digest.any (digestBad d)) ||
  successorBad ds i d

/-! ## The fabric route table (10 R327, R328) -/

/-- Number of route entries. -/
def gRoutes (g : Src) : Nat := if gFabric g = 0 then 0 else g.rd (gFabric g) 2

/-- Route entry `k` (10 R327). -/
def parseRoute (g : Src) (k : Nat) : RouteEnt :=
  let b := gFabric g
  let a := b + 0x10 + 16 * k
  let isSet := g.rd (a + 2) 1 == 1
  let n := g.rd (a + 3) 1
  { key := fld (g.rd a 2) 0 12, isSet := isSet, count := n, hops := BitVec.ofNat 64 (g.rd (a + 4) 8),
    members := if isSet then (List.range n).map fun m => fld (g.rd (b + fld (g.rd (a + 4) 8) 0 32 + 2 * m) 2) 0 12 else [] }

/-- A route entry breaks R327 or R328. -/
def routeBad (s : State) (g : Src) (rs : List RouteEnt) (k : Nat) (r : RouteEnt) : Bool :=
  let b := gFabric g
  let a := b + 0x10 + 16 * k
  let hops := r.hops.toNat
  fld (g.rd a 2) 12 4 != 0 || decide (1 < g.rd (a + 2) 1) || g.rd (a + 0xC) 4 != 0 || r.key == s.chain.node ||
  decide (1 < (rs.filter fun t => t.key == r.key).length) ||
  (if r.isSet then
     gMinor g != 2 || r.count == 0 || decide (64 < r.count) || fld hops 32 32 != 0 || hops % 2 != 0 ||
     decide (g.rd (b + 4) 4 < hops + 2 * r.count) ||
     r.members.any fun m => !(rs.any fun t => !t.isSet && t.key == m)
   else
     r.count == 0 || decide (16 < r.count) || (List.range 16).any fun j =>
       if j < r.count then decide (5 < fld hops (4 * j) 3) else fld hops (4 * j) 4 != 0)

/-- The route table breaks R328. -/
def routesBad (s : State) (g : Src) : Bool :=
  if gFabric g = 0 then false
  else
    let b := gFabric g
    let n := g.rd (b + 4) 4
    let rs := (List.range (gRoutes g)).map (parseRoute g)
    gRoutes g == 0 || decide (1024 < gRoutes g) || g.rd (b + 2) 2 != 0 || g.rd (b + 8) 4 != 0 ||
    decide (n < 0x10 + 16 * gRoutes g) ||
    crc32c (g.bytes b 0xC ++ g.bytes (b + 0x10) (n - 0x10)) != w32 (g.rd (b + 0xC) 4) ||
    (rs.zipIdx).any fun p => routeBad s g rs p.2 p.1

/-! ## GRAPH_SUBMIT's checks in order (07 R218, R219) -/

/-- The pool segment that holds byte `a` serves requests (05 R181, R182): powered, ready and neither closed nor dead. -/
def segServes (p : Pool) (a : Nat) : Bool :=
  let g := a / 0x4000000
  decide (g < 20) && p.on.getLsbD g && p.ready.getLsbD g

/-- Every segment of a byte range serves requests. -/
def rangeServes (p : Pool) (a n : Nat) : Bool :=
  (List.range 20).all fun g => !(Region.meets (0x4000000 * g, 0x4000000) (a, n)) || segServes p (0x4000000 * g)

/-- The refusal of a submission, with its RESULT, if there is one (07 R218, R219, 10 R328). -/
def submitRefusal (s : State) (half off : Nat) : Option (Nat × Nat) :=
  let p := poolOf s half
  let g : Src := { mem := p.mem, off := off }
  let room := 0x50000000 - off
  if s.glb.gradeValid = false then some (stWrongGrade, 0)
  else if halfBoated s half then some (stHalfOff, 0)
  else if segServes p off = false then some (stSegmentAsleep, 0)
  else if gMagic g ≠ 0x4E574748 ∨ room < gBytes g then some (stBadGraph, 0xFFFF)
  else if rangeServes p off (gBytes g) = false then some (stSegmentAsleep, 0)
  else if headerBad g room || headerCrcBad g then some (stBadGraph, 0xFFFF)
  else if gMajor g ≠ 1 ∨ 2 < gMinor g then some (stFormatVersion, 0)
  else if gGrade g ≠ s.glb.grade.toNat then some (stWrongGrade, 0)
  else if headerReserved g || routesBad s g then some (stBadGraph, 0xFFFF)
  else
    let ds := (List.range (gHeats g)).map (parseHeat g)
    ((ds.zipIdx).find? fun x => heatBad g ds x.2 x.1).map fun x => (stBadGraph, x.2)

/-- The graph as the starter keeps it. -/
def parseGraph (s : State) (half off : Nat) : Graph :=
  let g : Src := { mem := (poolOf s half).mem, off := off }
  { half := half, off := off, bytes := gBytes g, heats := (List.range (gHeats g)).map (parseHeat g), images := gImageList g,
    routes := (List.range (gRoutes g)).map (parseRoute g) }

end Sys2Proof.Machine
end

