-- ==== Sys2Proof/Machine/Heat.lean ====
section
/-!
DEFINITION. The starter (07): graphs and runs, preloading, readiness, dispatch, start, completion, abort, abandonment, watchdogs
and the draining of classes.
-/
namespace Sys2Proof.Machine
open Host (Outcome)

/-! ## Graphs and runs -/

/-- The lowest graph number that no submitted graph holds (13 R421). -/
def freeGraph (s : State) : Option Nat := (List.range 16).find? fun n => (tfind s.str.graphs n).isNone

/-- GRAPH_SUBMIT (07 R216-R219, 13 R421). The region of a half in Easy is read once the half has woken (07 R218). -/
def execGraphSubmit (src : SrcIx) (s : State) : Outcome State Fault Refusal :=
  commandRow s src.val 0x20 fun c =>
    let half := cb c 0x10 1
    let off := cb c 0x18 8
    if 1 < half ∨ off % 4096 ≠ 0 ∨ 0x50000000 ≤ off then answer s src.val c stBadParameter 0
    else if halfEasy s half then holdRead s half
    else match freeGraph s with
      | none => answer s src.val c stGraphLimit 0
      | some n =>
        match submitRefusal s half off with
        | some (st, r) => answer s src.val c st r
        | none => answer { s with str := { s.str with graphs := tput s.str.graphs n (parseGraph s half off) } } src.val c stSuccess n

/-- GRAPH_RELEASE (13 R421, R416): refused where no such graph is submitted, or a live run uses it. -/
def execGraphRelease (src : SrcIx) (s : State) : Outcome State Fault Refusal :=
  commandRow s src.val 0x21 fun c =>
    let n := cb c 0x10 1
    if (tfind s.str.graphs n).isNone then answer s src.val c stNoGraph 0
    else if s.str.runs.any fun p => p.2.graph == n then answer s src.val c stGraphInUse 0
    else answer { s with str := { s.str with graphs := tdel s.str.graphs n } } src.val c stSuccess 0

/-- The contexts that a graph's heats name, in ascending order (13 R421). -/
def graphContexts (g : Graph) : List Nat := (List.range 16).filter fun c => g.heats.any fun d => d.ctx == c

/-- The CURRENT generation's number of a context (11 R357). -/
def currentGen (x : Ctx) : Option Nat :=
  if x.g0.state = .current then some x.g0.num else if x.g1.state = .current then some x.g1.num else none

/-- The refusal of a binding (11 R357): NO_CONTEXT for a FREE context, NO_GENERATION for one with no CURRENT generation. -/
def bindRefusal (s : State) : List Nat → Option Nat
  | [] => none
  | c :: cs =>
    if (ctxOf s c).state = .free then some stNoContext
    else if (currentGen (ctxOf s c)).isNone then some stNoGeneration
    else bindRefusal s cs

/-- The next RUN_ID after `n`: modulo 2^16, skipping 0 and the numbers of live runs (13 R421), of which there are at most 16. -/
def nextRunId (s : State) : Nat → Nat → Nat
  | 0, n => n
  | k + 1, n =>
    let m := (n + 1) % 65536
    if m = 0 ∨ (runOf s m).isSome then nextRunId s k m else m

/-- The counter targets of a heat at admission (07 R224). -/
def admitTargets (s : State) (d : HeatDesc) : List Word :=
  d.deps.map fun e =>
    if isCounterDep e then w32 (depValue e) + (if depFlags e = 4 then (depCounter s e).getD 0 else 0) else 0

/-- RUN (07 R220, R224, 11 R357, 12 R397, 16 R492): admits a run, binds its generations and makes its heats pending. -/
def execRun (src : SrcIx) (s : State) : Outcome State Fault Refusal :=
  commandRow s src.val 0x22 fun c =>
    let n := cb c 0x10 1
    let ring := cb c 0x12 1
    let tag := BitVec.ofNat 16 (cb c 0x14 2)
    if haltRefuses s then answer s src.val c stHalted 0
    else if s.glb.ready = false then answer s src.val c stBusy 0
    else if 1 < cb c 0x11 1 ∨ 15 < ring then answer s src.val c stBadParameter 0
    else match tfind s.str.graphs n with
      | none => answer s src.val c stNoGraph 0
      | some g =>
        if (cqrOf s ring).enable = false then answer s src.val c stRing 0
        else if 16 ≤ s.str.runs.length then answer s src.val c stRunLimit 0
        else if tag ≠ 0 ∧ (s.str.runs.any fun p => p.2.tag == tag) = true then answer s src.val c stRunTagBusy 0
        else
          let ctxs := graphContexts g
          match bindRefusal s ctxs with
          | some st => answer s src.val c st 0
          | none =>
            let id := nextRunId s 18 s.str.runId
            let gens : Tbl Nat := ctxs.map fun k => (k, (currentGen (ctxOf s k)).getD 0)
            let run : Run :=
              { graph := n, tag := tag, t0 := BitVec.ofNat 64 (cb c 0x18 8), seed := BitVec.ofNat 64 (cb c 0x20 8), ring := ring,
                every := bit (cb c 0x11 1) 0, gens := gens, admitted := s.str.admits,
                heats := g.heats.map fun d => { targets := admitTargets s d } }
            let s1 := { s with str := { s.str with runs := tput s.str.runs id run, runId := id, admits := s.str.admits + 1 } }
            let named := ctxs.foldl (fun m k => m + 2 ^ k) 0
            let bound := gens.foldl (fun m p => m + p.2 * 2 ^ (8 * p.1)) 0
            answer2 (latchDeps s1) src.val c stSuccess (id + 2 ^ 16 * named) bound

/-- The heats of a run in phase `p`. -/
def countPhase (x : Run) (p : Phase → Bool) : Nat := (x.heats.filter fun h => p h.phase).length

/-- CANCEL (07 R231, R232, 13 R421): the dispatched heats are aborted, the rest abandoned, and the reply follows the run's end. -/
def execCancel (src : SrcIx) (s : State) : Outcome State Fault Refusal :=
  commandRow s src.val 0x23 fun c =>
    let r := cb c 0x10 2
    match runOf s r with
    | none => answer s src.val c stNoRun 0
    | some x =>
      let s1 := modRun (goBackground s src.val) r fun x =>
        { x with cancel := some (src.val, cCid c), nAbort := countPhase x (· == .dispatched),
                 nAbandon := countPhase x fun p => p == .pending || p == .ready }
      if x.cancel.isSome then s else cancelRun s1 r 20

/-! ## Preloading (07 R227, 06 R209) -/

/-- The crew of a seat runs in Row: it is not in Paddle, and its half is in neither Easy nor Boated (12 R388). -/
def crewInRow (s : State) (q : Nat) : Bool := !(domOf s q).paddle && !halfEasy s (q / 48) && !halfBoated s (q / 48)

/-- Run `a`, heat `i` comes before run `b`, heat `j` in preload order (07 R227). -/
def preloadBefore (s : State) (a i b j : Nat) : Bool :=
  let x := ((runOf s a).getD {}).admitted
  let y := ((runOf s b).getD {}).admitted
  decide (x < y) || (x == y && decide (i < j))

/-- Heat `h` of run `r` waits to be preloaded into seat `w`. -/
def wantsPage (s : State) (r h w : Nat) (x : Heat) : Bool :=
  (x.phase == .pending || x.phase == .ready) && !x.pre.contains w && (places (hdOf s r h)).any fun p => placeSeat s p == some w

/-- An earlier heat waits for the seat (07 R227). -/
def preloadWaits (s : State) (r h w : Nat) : Bool :=
  (liveHeats s).any fun e => preloadBefore s e.1 e.2.1 r h && wantsPage s e.1 e.2.1 w e.2.2

/-- The page that the next heat is loaded into (06 R209, 07 R227): one not in use, page 0 where neither is (log entry 31). -/
def freePage (x : Seat) : Option (Fin 2) :=
  if x.cox.use0.isNone then some 0 else if x.cox.use1.isNone then some 1 else none

/-- PRELOAD (07 R217, R227, 06 R209): loads heat `h`'s page image into seat `w`, with zeros after it, once its turn and a page
have come; a failed CRC or read abandons the heat with IMAGE_CRC. A crew in Paddle or a half in Easy is woken first (07 R218, 12
R390). -/
def execPreload (r h : Nat) (w : SeatIx) (s : State) : Outcome State Fault Refusal :=
  let x := (heatOf s r h).getD { phase := .abandoned }
  let place := (places (hdOf s r h)).find? fun p => placeSeat s p == some w.val
  match place, freePage (seatOf s w.val), graphOf s r with
  | some p, some pg, some g =>
    if wantsPage s r h w.val x && !preloadWaits s r h w.val && !(mapOf s (crewOf w.val)).due && !halfBoated s (halfOf w.val) then
      if halfEasy s g.half || halfEasy s (halfOf w.val) then .next (wakeHalf (holdRead s g.half) (halfOf w.val))
      else if (domOf s (crewOf w.val)).paddle then .next (modDom s (crewOf w.val) fun m => { m with waking := true })
      else match g.images[p.image]? with
      | none => .next (abandonHeat s r h 5 0)
      | some im =>
        let pool := poolOf s g.half
        let a := g.off + im.off
        let n := 32 * im.count
        if rangeServes pool a n && crc32c (mbytes pool.mem a n) == im.crc then
          let s1 := modSeat (touchCrew s (crewOf w.val)) w.val fun z =>
            let m := mclear z.desc (pg.val * 0x8000) 0x8000
            let z := { z with desc := mcopy m (pg.val * 0x8000) pool.mem a n }
            { z with cox := if pg = 0 then { z.cox with use0 := some (r, h) } else { z.cox with use1 := some (r, h) } }
          .next (modHeat s1 r h fun x => { x with pre := x.pre ++ [w.val] })
        else .next (abandonHeat s r h 5 0)
    else .next s
  | _, _, _ => .next s

/-! ## Dependences (07 R224, 02 R70-R72) -/

/-- The heat that names `h` as its guard successor (07 R221). -/
def namer (s : State) (r h : Nat) : Option Nat :=
  (graphOf s r).bind fun g => findIdx (fun d => d.hasSucc && d.succ == h) g.heats

/-- The phase of heat `i` of run `r`. -/
def phaseOf (s : State) (r i : Nat) : Phase := ((heatOf s r i).getD {}).phase

/-- The guard flag of heat `i` of run `r`. -/
def guardOf (s : State) (r i : Nat) : Bool := ((heatOf s r i).getD {}).gflag

/-- A heat dependence is met (07 R224; 02 R71 with AFTER_GUARD, and never where the guard successor has failed, 02 R72). -/
def heatDepMet (s : State) (r i : Nat) (after : Bool) : Bool :=
  let p := phaseOf s r i
  let d := hdOf s r i
  if after then
    !(d.hasSucc && (phaseOf s r d.succ).failed) &&
      (p == .skipped || (p == .completed && (!d.hasSucc || !guardOf s r i || phaseOf s r d.succ == .completed)))
  else p == .completed || p == .skipped

/-- The heat whose failure means that a heat dependence can no longer be met (07 R231, 02 R72). -/
def heatDepFails (s : State) (r i : Nat) (after : Bool) : Bool :=
  let d := hdOf s r i
  (phaseOf s r i).failed || (after && d.hasSucc && (phaseOf s r d.succ).failed)

/-- Dependence number `k` of heat `h` is met (07 R224). -/
def depMet (s : State) (r : Nat) (x : Heat) (d : DepRaw) (k : Nat) : Bool :=
  depKind d == 0 || x.met.getLsbD k || (depKind d == 1 && heatDepMet s r (depArg d) (depFlags d == 1))

/-- A guard successor's implied dependence (02 R70): its namer has completed with its guard flag set. -/
def namerMet (s : State) (r h : Nat) : Bool :=
  match namer s r h with
  | none => true
  | some n => phaseOf s r n == .completed && guardOf s r n

/-- Every dependence of a heat is met (07 R224, R226). -/
def depsMet (s : State) (r h : Nat) (x : Heat) : Bool :=
  namerMet s r h && ((hdOf s r h).deps.zipIdx).all fun p => depMet s r x p.1 p.2

/-- HEAT_READY (07 R226, 01 R33): the dispatch arbiter accepts the heat and numbers it. -/
def execHeatReady (r h : Nat) (s : State) : Outcome State Fault Refusal :=
  match heatOf s r h with
  | some x =>
    if x.phase = .pending ∧ depsMet s r h x = true then
      let n := nextSeq s.str.dsn
      .next (modHeat { s with str := { s.str with dsn := n } } r h fun x => { x with phase := .ready, dsn := n })
    else .next s
  | none => .next s

/-- The time of a time dependence (07 R224). -/
def depTime (run : Run) (d : DepRaw) : BitVec 64 :=
  if depFlags d = 2 then BitVec.ofNat 64 (depValue d) else run.t0 + BitVec.ofNat 64 (depValue d)

/-- TIME_DEPENDENCE_MET (07 R224): the starter's copy of the time base has reached the time, and the dependence stays met. -/
def execTimeDependence (r h d : Nat) (s : State) : Outcome State Fault Refusal :=
  match runOf s r, heatOf s r h, (hdOf s r h).deps[d]? with
  | some run, some x, some e =>
    if x.phase = .pending ∧ depKind e = 4 ∧ depTime run e ≤ domTime s 98 then
      .next (modHeat s r h fun x => { x with met := setBit x.met d })
    else .next s
  | _, _, _ => .next s

/-! ## Abandonment (07 R231) -/

/-- The failed predecessor of a pending heat: the heat that names it as successor, or a heat dependence that can no longer be
met. -/
def failedPred (s : State) (r h : Nat) (x : Heat) : Option Nat :=
  match (namer s r h).filter fun n => (phaseOf s r n).failed with
  | some n => some n
  | none => (((hdOf s r h).deps.zipIdx).find? fun p =>
      depKind p.1 == 1 && !x.met.getLsbD p.2 && heatDepFails s r (depArg p.1) (depFlags p.1 == 1)).map fun p => depArg p.1

/-- An unmet seat-counter dependence names a seat that its crew does not present (07 R224). -/
def depSeatGone (s : State) (r h : Nat) (x : Heat) : Bool :=
  ((hdOf s r h).deps.zipIdx).any fun p => depKind p.1 == 2 && !x.met.getLsbD p.2 && (depCounter s p.1).isNone

/-- HEAT_ABANDON (07 R231): PREDECESSOR or SEATS_UNAVAILABLE, for a heat that will not run. The other causes are taken where they
arise: at dispatch, at preload and at cancellation. -/
def execHeatAbandon (r h : Nat) (s : State) : Outcome State Fault Refusal :=
  match heatOf s r h with
  | some x =>
    if x.phase ≠ .pending then .next s
    else match failedPred s r h x with
      | some n => .next (abandonHeat s r h 1 n)
      | none => if depSeatGone s r h x then .next (abandonHeat s r h 4 0) else .next s
  | none => .next s

/-! ## Dispatch (07 R228, R233-R235) -/

/-- A seat is free for a heat: no heat runs or is dispatched there (07 R228). -/
def seatIdle (x : Seat) : Bool := x.cox.state == .noHeat && x.cox.dispatched.isNone

/-- A request for Easy or Boated on half `k` or on the chip is pending (12 R389). -/
def lowerPending (s : State) (k : Nat) : Bool :=
  s.pwr.reqs.any fun q => decide (2 ≤ q.state) && (unitHalves q.unit.toNat).contains k

/-- A heat waits for nothing but a class (07 R228): it is ready, its crews are not to be reassigned and every copy holds their maps (09
R282, R283; log entry 69), each seat that is
presented is preloaded and idle, its context is not held (15 R462), and no board or power rule holds dispatch back (12 R389,
R397, 16 R492). -/
def dispatchable (s : State) (r h : Nat) (x : Heat) : Bool :=
  let d := hdOf s r h
  x.phase == .ready && s.glb.ready && !s.pwr.haltActive && !(s.flt.holds.any fun c => c.ctx == d.ctx) &&
  (places d).all fun p =>
    !(mapOf s p.q).due && !(s.noc.mapLag.any fun e => e.1 == p.q) && !halfEasy s (p.q / 48) && !lowerPending s (p.q / 48) &&
    match placeSeat s p with
    | none => true
    | some w => halfBoated s (p.q / 48) || (x.pre.contains w && seatIdle (seatOf s w))

/-- The generation of a context that a run has bound. -/
def boundGen (s : State) (run : Run) (c : Nat) : Option Gen :=
  match tfind run.gens c with
  | none => none
  | some n =>
    let x := ctxOf s c
    if x.g0.num = n ∧ x.g0.state ≠ .empty then some x.g0 else if x.g1.num = n ∧ x.g1.state ≠ .empty then some x.g1 else none

/-- A generation is complete (11 R355). -/
def Gen.complete (g : Gen) : Bool := g.state != .empty && g.failed.isEmpty && !g.lostMap

/-- The starter's checks at dispatch, in order (07 R228): the cause of the abandonment. -/
def dispatchCheck (s : State) (run : Run) (d : HeatDesc) : Option Nat :=
  if s.flt.faulted.getLsbD d.ctx then some 2
  else if ((boundGen s run d.ctx).map Gen.complete).getD false = false then some 3
  else if (places d).any fun p => halfBoated s (p.q / 48) || match placeSeat s p with
    | none => true
    | some w => seatFenced s w || (seatOf s w).disabled then some 4
  else none

/-- The free classes (07 R235). -/
def freeClasses (s : State) : List Nat := (List.range 64).filter fun k => (classOf s k).state == 0

/-- Another heat that waits for nothing but a class has a lower dispatch sequence number (07 R228). -/
def overtaken (s : State) (r h : Nat) (x : Heat) : Bool :=
  (liveHeats s).any fun e => (e.1 != r || e.2.1 != h) && decide (e.2.2.dsn < x.dsn) && dispatchable s e.1 e.2.1 e.2.2

/-- BAR0 offset of seat `w`'s registers (13 R404, R407). -/
abbrev seatBar0 (w : Nat) : Nat := 0x1000000 + 0x1000 * w

/-- The header of a START message to seat `w` (09 R274, R275, 13 R409): a register address and epoch 0, from the starter (log entry 69). -/
def startHdr (s : State) (w : Nat) : BitVec 512 :=
  BitVec.ofNat 512 (pack [(0, 4, tyStart), (36, 64, pack [(62, 2, 2), (50, 12, s.chain.node), (0, 26, seatBar0 w)]),
    (100, 32, (unitRef 3 s.chain.node 0 0 0 0).toNat), (132, 2, 3)])

/-- The START message enters the mesh at the north edge port of the seat's column (09 R272, R279). -/
def sendStart (s : State) (w : Nat) : State :=
  let n := nodeHost + (coordOf w).1
  push s n 0 vcCtl (flitsOf { goal := .seat w, entry := n } ⟨startHdr s w, []⟩)

/-- Block map of seat `w`: plan block to physical block (11 R349). -/
def seatBlocks (g : Gen) (w : Nat) : Tbl Nat := (g.alloc.filter fun p => p.1 / 96 == w).map fun p => (p.1 % 96, p.2)

/-- What dispatch sets at one seat (07 R228 steps 4 and 5, 15 R457, 05 R155): landing block, records, the heat's identity; and the
start message. -/
def dispatchSeat (s : State) (r h : Nat) (run : Run) (d : HeatDesc) (epoch : BitVec 16) (g : Gen) (p : Place) (w : Nat) : State :=
  let s1 := modSeat s w fun x =>
    { x with
      lnd := { x.lnd with ctr := [], flag := [], held := [], granules := 0 }, first := {}, last := {},
      cox := { x.cox with dispatched := some (r, h), started := false, epoch := epoch, heat := h, run := r, ctx := d.ctx,
                          gen := g.num, blocks := seatBlocks g w, seed := d.seed ^^^ run.seed, ordinal := p.ordinal, logical := p.l,
                          thresholds := d.thresholds,
                          filling := x.cox.filling || (x.cox.lastCtx != none && x.cox.lastCtx != some d.ctx) } }
  let s2 := modDom s1 (crewOf w) fun m => if m.paddle then { m with waking := true } else m
  sendStart s2 w

/-- HEAT_DISPATCH (07 R228): the checks, a free class (which one is a free value), the epoch, its installation in every table, the
landing resets and the start messages. Without a free class the heat waits (07 R253). -/
def execHeatDispatch (r h : Nat) (s : State) : Outcome State Fault Refusal :=
  match runOf s r, heatOf s r h with
  | some run, some x =>
    let d := hdOf s r h
    if dispatchable s r h x = false then .next s
    else
      let free := freeClasses s
      if free = [] then
        if x.waited then .next s
        else .next (modHeat { s with str := { s.str with waits := satInc s.str.waits } } r h fun x => { x with waited := true })
      else if overtaken s r h x then .next s
      else match dispatchCheck s run d, boundGen s run d.ctx with
        | some cause, _ => .next (abandonHeat s r h cause 0)
        | none, none => .next (abandonHeat s r h 3 0)
        | none, some g =>
          let k := (free[Config.freeClass s.free % free.length]?).getD 0
          let seq := if (classOf s k).seq = 1023 then 1 else (classOf s k).seq + 1
          let epoch := BitVec.ofNat 16 (seq * 64 + k)
          let s1 := modClass (drawn s) k fun c => { c with state := 1, epoch := epoch, seq := seq, run := r, heat := h }
          let seats := (places d).filterMap fun p => (placeSeat s p).map fun w => (p, w)
          let s2 := latchDeps (seats.foldl (fun s p => dispatchSeat s r h run d epoch g p.1 p.2) s1)
          let s3 := modHeat s2 r h fun x =>
            { x with phase := .dispatched, cls := k, epoch := epoch, seats := seats.map (·.2), finished := [], startTick := s.clk.ticks,
                     waited := false }
          .next (modCtx s3 d.ctx fun c => { c with used := (domTime s 98).toNat })
  | _, _ => .next s

/-- One access of the data window to core memory that has waited. -/
def landAccess (w : Nat) (s : State) (a : Nat × Option Word) : State := match a.2 with
  | some v => modSeat s w fun x => coreWrite x a.1 (bytesOf v.toNat 4)
  | none => { s with glb := { s.glb with readData := mword (seatOf s w).core a.1 } }

/-- The window accesses that have waited take place in their order (05 R154, R155). -/
def landWindow (s : State) (w : Nat) : State :=
  (seatOf s w).winWait.foldl (landAccess w) (modSeat s w fun x => { x with winWait := [] })

/-- CORE_MEMORY_FILL (05 R155): core memory of a seat whose previous heat was of another context becomes zero. A fill that a dispatch has
begun goes on where the heat is aborted first. -/
def execCoreFill (w : SeatIx) (s : State) : Outcome State Fault Refusal :=
  let x := seatOf s w.val
  if x.cox.filling && !seatRuns x && crewInRow s (crewOf w.val) && clocked s w.val then
    .next (landWindow (putSeat s w.val { x with core := [], cox := { x.cox with filling := false } }) w.val)
  else .next s

/-- The page that holds the image of heat `h` of run `r` on a seat. -/
def pageOf (x : Seat) (r h : Nat) : Option (Fin 2) :=
  if x.cox.use0 = some (r, h) then some 0 else if x.cox.use1 = some (r, h) then some 1 else none

/-- The state of a seat at core cycle 0 of a heat (06 R211, 03 R81, R110, 04 R113, R146, 02 R66, 09 R286). -/
def begun (x : Seat) (pg : Fin 2) : Seat :=
  { x with
    cox := { x.cox with
      state := .walking, hold := .none, page := pg, next := 0, base := 0, prev := 0, lastIdx := 0, beat := 0, cycle := 0,
      loops := [], ctr := [], ctrAt := [], due := [], cmp := [], held := none, roomAt := none, cur := none, done := [],
      issuedAt := [], fin := [], winValid := true, acq := 0, rest := 0xFFFFFFFF, heldQueue := 0, heldCatch := 0, heldRefresh := 0,
      issued := 0, predFalse := 0, gaps := [], collide := 0, guard := [], tripped := 0, lastCtx := some x.cox.ctx, haltAt := 0,
      dispatched := none, started := false },
    mxa := {}, vec := {},
    dma := { x.dma with routes := [], issueRoutes := [], queue := [], cur := none, freeAt := 0, releasing := none },
    net := { x.net with routes := [], issueRoutes := [], queue := [], cur := none, freeAt := 0, releasing := none } }

/-- HEAT_START (06 R211): the seat begins the heat that was dispatched to it, once its start message has come, any fill is done and
its crew is in Row. -/
def execHeatStart (w : SeatIx) (s : State) : Outcome State Fault Refusal :=
  let x := seatOf s w.val
  match x.cox.dispatched with
  | some (r, h) =>
    match pageOf x r h with
    | some pg =>
      if x.cox.started && !x.cox.filling && x.cox.state == .noHeat && crewInRow s (crewOf w.val)
          && clocked s w.val then
        .next (putSeat s w.val (begun x pg))
      else .next s
    | none => .next s
  | none => .next s

/-! ## Completion (07 R230, R250, 02 R69, R70) -/

/-- No packet of the heat's seats that carries its epoch awaits an answer (07 R230). -/
def allAnswered (s : State) (seats : List Nat) (epoch : BitVec 16) : Bool :=
  seats.all fun w => ((seatOf s w).dma.out ++ (seatOf s w).net.out).all fun o => o.epoch != epoch

/-- The 32-bit word at a fabric address of this chip, in core memory or a pool (07 R250). -/
def fabricWord (s : State) (a : Nat) : Word :=
  let o := faOff a
  if faSpace a = 1 then
    match physOf s (faHalf a * 48 + faCrew a) (faSeat a) with
    | some w => mword (seatOf s w).core o
    | none => 0
  else if o < 0x50000000 then mword (poolOf s (faHalf a)).mem o
  else
    let n := (o - 0x50000000) / 8
    if o % 8 = 0 then tget 0 (poolOf s (faHalf a)).lnd.ctr n else tget 0 (poolOf s (faHalf a)).lnd.flag n

/-- One step of the finish-line digest (07 R250). -/
def digestStep (d : BitVec 64) (crc : Word) : BitVec 64 := ((d.rotateLeft 13) ^^^ crc.setWidth 64) * 0x00000100000001B3

/-- The finish-line digest of a heat (07 R250). -/
def digestOf (s : State) (d : HeatDesc) : BitVec 64 := d.digest.foldl (fun v a => digestStep v (fabricWord s (a.toNat + 0x1C))) 0

/-- Skip a guard successor (02 R70): its pages are released, and its entry is posted where the run asked for every heat's. -/
def skipHeat (s : State) (r h : Nat) : State :=
  match heatOf s r h, runOf s r with
  | some x, some run =>
    if x.phase = .pending ∨ x.phase = .ready then
      let s1 := modHeat (releasePages s r h x.pre) r h fun x => { x with phase := .skipped }
      if run.every then postHeat s1 r h 0 0 else s1
    else s
  | _, _ => s

/-- The heat's seats have done: totals and digest are formed and the seats are freed (02 R69, 07 R250). -/
def freeHeat (s : State) (r h : Nat) (x : Heat) : State :=
  let d := hdOf s r h
  let g := gather s x.seats
  let dg := if d.hasDigest then some (digestOf s d) else none
  modHeat (endOnSeats s r h x.seats) r h fun x => { x with freed := true, gmask := g.1, gflag := g.1 != 0, totals := g.2, digest := dg }

/-- HEAT_COMPLETE (07 R230): every seat has finished and every request is answered. While the ring's hold queue is full only the
seats are freed (13 R412). Then the epoch retires, the entry is handed over, and the guard successor is decided (02 R70). -/
def execHeatComplete (r h : Nat) (s : State) : Outcome State Fault Refusal :=
  match runOf s r, heatOf s r h with
  | some run, some x =>
    if x.phase = .dispatched ∧ x.abortReq = none ∧
        (x.freed || ((x.seats.all fun w => x.finished.contains w && (seatOf s w).cox.state == .pastEnd) && allAnswered s x.seats x.epoch)) = true then
      let d := hdOf s r h
      let s1 := if x.freed then s else freeHeat s r h x
      let y := (heatOf s1 r h).getD {}
      let posts := run.every || y.gflag || d.hasDigest
      if posts && holdFull s run.ring then .next s1
      else
        let s2 := modHeat (retire s1 x.cls x.epoch) r h fun x => { x with phase := .completed }
        let s3 := if posts then postHeat s2 r h 0 0 else s2
        let s4 := if d.hasSucc && !y.gflag then skipHeat s3 r d.succ else s3
        .next (settleRun s4 r)
    else .next s
  | _, _ => .next s

/-- HEAT_ABORT (07 R232, 01 R26): the starter aborts a heat whose fault record the log has numbered. -/
def execHeatAbort (r h : Nat) (s : State) : Outcome State Fault Refusal :=
  match (heatOf s r h).bind (·.abortReq) with
  | some (cause, seq) => .next (abortHeat s r h cause seq)
  | none => .next s

/-- A seat of the heat is held at a CATCH, or holds a finish (07 R237). -/
def lateSeat (x : Seat) : Bool := (x.cox.state == .walking && x.cox.hold == .catch) || !x.lnd.held.isEmpty

/-- HEAT_WATCHDOG (07 R237): WATCHDOG reference ticks after the start message, LATE_LANDING or WATCHDOG. -/
def execHeatWatchdog (r h : Nat) (s : State) : Outcome State Fault Refusal :=
  match heatOf s r h with
  | some x =>
    let n := (hdOf s r h).watchdog
    if x.phase = .dispatched ∧ x.freed = false ∧ n ≠ 0 ∧ x.startTick + n ≤ s.clk.ticks then
      .next (abortHeat s r h (if x.seats.any fun w => lateSeat (seatOf s w) then 18 else 17) 0)
    else .next s
  | none => .next s

/-- No engine of the chip has an unanswered packet of class `k` (07 R235). -/
def classDrained (s : State) (k : Nat) : Bool :=
  (s.str.lag.all fun e => e.2.1 != k) &&
  s.seats.all fun p => (p.2.dma.out ++ p.2.net.out).all fun o => o.epoch != (classOf s k).epoch

/-- CLASS_FREE (07 R235): every table has acknowledged, and every engine's count for the class is 0. -/
def execClassFree (k : Fin 64) (s : State) : Outcome State Fault Refusal :=
  if (classOf s k.val).state = 2 ∧ classDrained s k.val = true then .next (modClass s k.val fun c => { c with state := 0 })
  else .next s

end Sys2Proof.Machine
end

