-- ==== Sys2Proof/Machine/Power.lean ====
section
/-!
DEFINITION. Power (12 R378, R388-R392, 05 R179-R182): the power ladder, its requests and wakes, the step ceilings, the power cap,
the time role, and the segments of the pools.
-/
namespace Sys2Proof.Machine
open Host (Outcome)

/-! ## Conditions of the lower states (12 R389) -/

/-- A heat is dispatched on a seat of crew `q`. -/
def crewLoaded (s : State) (q : Nat) : Bool :=
  (liveHeats s).any fun e => e.2.2.phase == .dispatched && !e.2.2.freed && e.2.2.seats.any fun w => crewOf w == q

/-- No flit waits in a buffer whose node and port `f` picks. -/
def buffersEmpty (s : State) (f : Nat → Nat → Bool) : Bool := s.noc.buf.all fun e => !f (e.1 / 64) (e.1 / 4 % 16) || e.2.flits.isEmpty

/-- Every local port of crew `q` is empty: nothing waits at its seats, and nothing of theirs waits to enter the mesh. -/
def portsEmpty (s : State) (q : Nat) : Bool :=
  (s.noc.arrive.all fun d => match d.target with
    | .seat w => crewOf w != q
    | _ => true) &&
  buffersEmpty s (fun n p => decide (n < nodeSwitch) && crewOf n == q && (p == 0 || decide (9 ≤ p))) &&
  (List.range 24).all fun i => let x := seatOf s (24 * q + i); x.dma.outbox.isEmpty && x.net.outbox.isEmpty

/-- A buffer of half `h`'s routers, or a queue toward the half: of a row switch, an edge port or a pool link. -/
def ofHalf (h n p : Nat) : Bool :=
  if n < nodeSwitch then halfOf n == h
  else if n < nodeHost then p == 4 + h || p == 6 + h
  else if n < nodeLink then ((n - nodeHost) % 96) / 48 == h
  else p == 0 && landing n 0 0 == .dest (.pool h)

/-- The routers of half `h` and the queues toward it are empty (09 R299). -/
def halfQuiet (s : State) (h : Nat) : Bool := buffersEmpty s (ofHalf h)

/-- The Paddle conditions of crew `q`. A page load is one step, so that none is in progress between steps. -/
def paddleMay (s : State) (q : Nat) : Bool := !crewLoaded s q && portsEmpty s q

/-- A generation has a block in half `h` (11 R354). -/
def Gen.inHalf (g : Gen) (h : Nat) : Bool := g.alloc.any fun p => halfOf (p.1 / 96) == h

/-- The mark of a whole half among the blocks that wait for a zero fill (11 R352, 12 R391). -/
abbrev fillHalf (h : Nat) : Nat := 221184 + h

/-- Load-engine, scrub or diagnostic work is pending in half `h`. -/
def halfWork (s : State) (h : Nat) : Bool :=
  (s.ctxs.loads.any fun j => match genNum s j.ctx j.gen with
    | some g => g.inHalf h
    | none => false) ||
  (s.ctxs.zeroing.any fun b => b == fillHalf h || (decide (b < 221184) && halfOf (b / 96) == h)) ||
  s.seats.any fun p => halfOf p.1 == h && !p.2.wst.work.isEmpty

/-- The Easy conditions of half `h`. -/
def easyMay (s : State) (h : Nat) : Bool :=
  ((List.range 48).all fun c => paddleMay s (48 * h + c)) && !halfWork s h && halfQuiet s h &&
  s.noc.arrive.all fun d => d.target != .pool h

/-- The Boated conditions of half `h`: the Easy conditions, and no submitted graph in its pool (07 R218). -/
def boatedMay (s : State) (h : Nat) : Bool := easyMay s h && s.str.graphs.all fun g => g.2.half != h

/-! ## Entering a lower state (12 R388, R391, 11 R354) -/

/-- Crew `q` enters Paddle. -/
def enterPaddle (s : State) (q : Nat) : State := modDom s q fun m => { m with paddle := true, waking := false }

/-- The generators of the crews of half `h` stop. -/
def stopHalf (s : State) (h : Nat) : State :=
  (List.range 48).foldl (fun s c =>
    modDom (stopDomain s (48 * h + c)) (48 * h + c) fun m => { m with paddle := false, waking := false, stretched := false }) s

/-- Set the state of half `h`, with no wake under way. -/
def setHalf (s : State) (h n : Nat) : State :=
  { s with pwr := { s.pwr with half := tset 0 s.pwr.half h n, waking := tset false s.pwr.waking h false } }

/-- Half `h` enters Easy. -/
def enterEasy (s : State) (h : Nat) : State := setHalf (stopHalf s h) h 2

/-- Every segment of a generation with a block in half `h` has failed with POWER_LOST (11 R354). -/
def Gen.powerLost (g : Gen) (h : Nat) : Gen :=
  let kept := g.failed.filter fun p => decide (p.1 < g.segs)
  let lost := (List.range g.segs).filter fun i => !(g.failed.any fun p => p.1 == i)
  if g.state ≠ .empty ∧ g.inHalf h = true then
    { g with failed := kept ++ lost.map fun i => (i, segPowerLost), recs := [] }
  else g

/-- The generations with a block in half `h` are incomplete (11 R354). -/
def losePower (s : State) (h : Nat) : State :=
  { s with ctxs := { s.ctxs with ctx := s.ctxs.ctx.map fun p => (p.1, bothGens p.2 fun g => g.powerLost h) } }

/-- What a seat keeps in Boated: what production test and self-test said of it. -/
def Seat.unpowered (x : Seat) : Seat := { disabled := x.disabled, failed := x.failed }

/-- Half `h` enters Boated: its memories are lost, its pages with them, and its tables of live epochs (12 R388, 11 R354). -/
def enterBoated (s : State) (h : Nat) : State :=
  let s1 := losePower (setHalf (stopHalf s h) h 3) h
  { s1 with
    seats := s1.seats.map fun p => if halfOf p.1 = h then (p.1, p.2.unpowered) else p,
    pools := tput s1.pools h { dead := (poolOf s1 h).dead, on := 0, ready := 0 },
    str := { s1.str with
      lag := s1.str.lag.filter fun e => !(decide (e.1 < 2304) && halfOf e.1 == h) && e.1 != poolTable h,
      runs := s1.str.runs.map fun p => (p.1, { p.2 with heats := p.2.heats.map fun x =>
        { x with pre := x.pre.filter fun w => halfOf w != h } }) } }

/-- Power states of the PCI Express link: L0, ASPM L1 and its L1.1 substate (13 R400, R402). -/
def linkPower (s : State) : Nat := if s.pwr.chipBoated = false then 0 else if l11Enabled s then 11 else 1

/-- The chip enters Boated: the seam, the fabric complex and the host complex's data path are unpowered, and the PCI Express link takes
its lowest power state, `linkPower`, from which an access wakes it for as long as it lasts (12 R388, 13 R402). -/
def enterChipBoated (s : State) : State :=
  let s1 := (List.range 12).foldl (fun s p => if (portOf s p).state = .off then s else portOff s p) s
  let s2 := stopDomain (stopDomain s1 96) 97
  { s2 with pwr := { s2.pwr with chipBoated := true } }

/-! ## Power requests (12 R389) -/

/-- Crew `q` is in Row, with no wake under way. -/
def crewAwake (s : State) (q : Nat) : Bool := crewInRow s q && !(domOf s q).waking && !tget false s.pwr.waking (q / 48)

/-- The state of crew `q`: 0 Row, 1 Paddle, 2 Easy, 3 Boated. -/
def crewState (s : State) (q : Nat) : Nat :=
  if halfBoated s (q / 48) then 3 else if halfEasy s (q / 48) then 2 else if (domOf s q).paddle then 1 else 0

/-- The members of a request, as unit references: crews for Row and Paddle, halves for Easy and Boated (01 R20). -/
def reqMembers (s : State) (r : PwrReq) : List (Nat × Word) :=
  if r.state ≤ 1 then (unitCrews r.unit.toNat).map fun q => (q, unitRef 1 s.chain.node (q / 48) (q % 48) 0 0)
  else (unitHalves r.unit.toNat).map fun h => (h, unitRef 2 s.chain.node h 0 0 0)

/-- Member `m` has performed the request. -/
def memberDone (s : State) (r : PwrReq) (m : Nat) : Bool :=
  if r.state = 0 then crewAwake s m else if r.state = 1 then crewState s m == 1 && !(domOf s m).waking
  else tget 0 s.pwr.half m == r.state && !tget false s.pwr.waking m

/-- The request is met: every member has performed it, and the chip has for a chip-level Boated. -/
def reqMet (s : State) (r : PwrReq) : Bool :=
  ((reqMembers s r).all fun m => memberDone s r m.1) && (r.state != 3 || uLevel r.unit.toNat != 3 || s.pwr.chipBoated)

/-- Snivan answers every request that is met; while it restarts, the answers wait (01 R27). -/
def settleReqs (s : State) : State :=
  if s.glb.fw ≠ .ready then s else
  let met := s.pwr.reqs.filter (reqMet s)
  let s1 := { s with pwr := { s.pwr with reqs := s.pwr.reqs.filter fun r => !reqMet s r } }
  met.foldl (fun s r => answerLate s r.src r.cid stSuccess 0) s1

/-- Begin the wake of crew `q` for a request to state `n` (12 R390): of its half from Easy or Boated, of the crew from Paddle. -/
def wakeFor (s : State) (q n : Nat) : State :=
  if crewState s q ≤ n then s
  else if 2 ≤ crewState s q then { s with pwr := { s.pwr with waking := tput s.pwr.waking (q / 48) true } }
  else modDom s q fun m => { m with waking := true }

/-- Two requests share a crew. -/
def reqsMeet (a b : PwrReq) : Bool := (unitCrews a.unit.toNat).any fun q => (unitCrews b.unit.toNat).contains q

/-- POWER_STATE (12 R389, 07 R218): the request is kept until it is met; a higher one wakes the unit and supersedes lower ones, which
are answered BUSY. Boated is refused while a graph lies in the half's pool. -/
def execPowerState (src : SrcIx) (s : State) : Outcome State Fault Refusal :=
  commandRow s src.val 0x38 fun c =>
    let n := cb c 0x10 1
    let u := cUnit c
    if unitBad s u (if n ≤ 1 then 1 else 2) 3 false then answer s src.val c stBadUnit (badUnitResult u)
    else if 3 < n then answer s src.val c stBadParameter 0
    else if n = 3 ∧ (s.str.graphs.any fun g => (unitHalves u).contains g.2.half) = true then answer s src.val c stBusy 0
    else
      let r : PwrReq := { unit := w32 u, state := n, src := src.val, cid := cCid c, tick := s.clk.ticks }
      let old := s.pwr.reqs.filter fun o => decide (n < o.state) && reqsMeet o r
      let s1 := goBackground s src.val
      let s2 := { s1 with pwr := { s1.pwr with reqs := (s1.pwr.reqs.filter fun o => !(decide (n < o.state) && reqsMeet o r)) ++ [r] } }
      let s3 := old.foldl (fun s o => answerLate s o.src o.cid stBusy 0) s2
      settleReqs ((unitCrews u).foldl (fun s q => wakeFor s q n) s3)

/-- Member `m` of a request enters the lower state if its conditions hold. -/
def enterMember (r : PwrReq) (s : State) (m : Nat) : State :=
  if r.state = 1 then (if crewAwake s m && paddleMay s m then enterPaddle s m else s)
  else if r.state ≤ tget 0 s.pwr.half m ∨ tget false s.pwr.waking m = true then s
  else if r.state = 2 then (if easyMay s m then enterEasy s m else s)
  else if r.state = 3 then (if boatedMay s m then enterBoated s m else s)
  else s

/-- A chip-level Boated request is entered once both halves are in Boated and the replay buffers are empty (12 R389). -/
def enterChip (r : PwrReq) (s : State) : State :=
  if r.state = 3 ∧ uLevel r.unit.toNat = 3 ∧ s.pwr.chipBoated = false ∧ (halfBoated s 0 && halfBoated s 1) = true ∧
      ((List.range 12).all fun p => (portOf s p).unacked.isEmpty) = true then enterChipBoated s
  else s

/-- POWER_STATE_ENTRY (12 R389): Snivan enters the members of pending request `i` whose conditions hold. -/
def execPowerStateEntry (i : Nat) (s : State) : Outcome State Fault Refusal :=
  match s.pwr.reqs[i]? with
  | some r =>
    if s.glb.fw = .ready then .next (settleReqs (enterChip r (((reqMembers s r).map (·.1)).foldl (enterMember r) s))) else .next s
  | none => .next s

/-- POWER_REQUEST_TIMEOUT (12 R389, 01 R19): a request not met in 100 ms, ten million ticks, is withdrawn. It is answered BUSY, or
PARTIAL where some members of a group have performed it; the first that has not is the first in ascending half and crew (log entry 26). -/
def execPowerRequestTimeout (i : Nat) (s : State) : Outcome State Fault Refusal :=
  match s.pwr.reqs[i]? with
  | some r =>
    if s.glb.fw = .ready ∧ r.tick + 10000000 ≤ s.clk.ticks then
      let ms := reqMembers s r
      let late := ms.filter fun m => !memberDone s r m.1
      let s1 := { s with pwr := { s.pwr with reqs := dropAt s.pwr.reqs i } }
      if late.length = 0 ∨ late.length = ms.length then .next (answerLate s1 r.src r.cid stBusy 0)
      else .next (answerLate s1 r.src r.cid stPartial (late.length + 2 ^ 32 * ((late.head?.map fun m => m.2.toNat).getD 0)))
    else .next s
  | none => .next s

/-- AUTO_PADDLE (12 R389): Snivan puts a crew that has met the Paddle conditions for PWR_PADDLE_IDLE_US into Paddle. -/
def execAutoPaddle (q : CrewIx) (s : State) : Outcome State Fault Refusal :=
  if s.pwr.autoPaddle = true ∧ s.glb.fw = .ready ∧ crewAwake s q.val = true ∧ paddleMay s q.val = true ∧
      (domOf s q.val).idleAt + 100 * s.pwr.idleUs.toNat ≤ s.clk.ticks then
    .next (settleReqs (enterPaddle s q.val))
  else .next s

/-! ## Wakes (12 R390, R391) -/

/-- A heat waits only for half `h` to leave Easy (12 R390). -/
def heatAwaitsHalf (s : State) (h : Nat) : Bool :=
  let t := { s with pwr := { s.pwr with half := tset 0 s.pwr.half h 0 } }
  (liveHeats s).any fun e => dispatchable t e.1 e.2.1 e.2.2 && !dispatchable s e.1 e.2.1 e.2.2

/-- A wake event stands for crew `q` in Paddle: a held packet, or a heat dispatched onto it. -/
def crewWanted (s : State) (q : Nat) : Bool :=
  (s.noc.buf.any fun e => decide (e.1 / 64 < nodeSwitch ∧ e.1 / 4 % 16 < 5) && crewOf (e.1 / 64) == q && e.2.noted) ||
  (List.range 24).any fun p => (seatOf s (24 * q + p)).cox.dispatched.isSome

/-- A wake event stands for half `h` in Easy: a held packet, or a heat that is becoming dispatchable. -/
def halfWanted (s : State) (h : Nat) : Bool :=
  !buffersEmpty s (fun n p => decide (nodeSwitch ≤ n) && ofHalf h n p) || heatAwaitsHalf s h

/-- WAKE_REQUEST (12 R390): a wake event starts the return of a crew in Paddle or of a half in Easy. Requests, BAR2 accesses and
window accesses start it in their own steps. -/
def execWakeRequest (unit : Word) (s : State) : Outcome State Fault Refusal :=
  let u := unit.toNat
  if uLevel u = 1 ∧ uCrew u < 48 then
    if (domOf s (uQ u)).paddle && crewWanted s (uQ u) then .next (modDom s (uQ u) fun m => { m with waking := true }) else .next s
  else if uLevel u = 2 then
    if halfEasy s (uHalf u) && halfWanted s (uHalf u) then .next (wakeHalf s (uHalf u)) else .next s
  else .next s

/-- The generator of domain `d` runs again, where nothing else stops it, and its copy is corrected (12 R384). -/
def startDomain (s : State) (d : Nat) : State :=
  if (domOf s d).locked = false ∨ s.pins.refLost = true ∨ s.pins.thermtrip = true then s
  else modDom s d fun m => { m with stop := .none, frozen := none, offset := s.clk.master - BitVec.ofNat 64 s.clk.ticks }

/-- The crews of half `h` run again. -/
def startHalf (s : State) (h : Nat) : State := (List.range 48).foldl (fun s c => startDomain s (48 * h + c)) s

/-- The seats with each of those of half `h` changed by `f`. -/
def halfSeats (s : State) (h : Nat) (f : Seat → Seat) : Tbl Seat :=
  s.seats.filter (fun p => decide (p.1 < 1152 * h)) ++
  ((List.range 1152).map fun i => (1152 * h + i, f (seatOf s (1152 * h + i)))) ++
  s.seats.filter (fun p => decide (1152 * (h + 1) ≤ p.1))

/-- Refresh goes on from reference tick `t` with no debt (05 R169, R175). -/
def Wst.afresh (x : Wst) (t : Nat) : Wst := { x with debt := [], accrued := t + 1 }

/-- A half leaves Easy: the debt of every bank is 0 (05 R175), and what was held goes on. -/
def leaveEasy (s : State) (h : Nat) : State :=
  let s1 := setHalf (startHalf s h) h 0
  let seats := halfSeats s1 h fun x => { x with wst := x.wst.afresh s.clk.ticks }
  let s2 := modPool { s1 with seats := seats } h fun p => { p with bar2Held := [] }
  (poolOf s h).bar2Held.foldl (fun s a => bar2Pool s h a.1 a.2.1 a.2.2) s2

/-- The zero fills of a whole weight store, block by block (11 R352, 12 R391). -/
def storeFill : List SideWork := (List.range 96).map fun b => .fill (1024 * b) 1024

/-- The seats with the zero fills of every weight store of half `h` in hand. -/
def fillSeats (s : State) (h : Nat) : Tbl Seat :=
  halfSeats s h fun x => { x with wst := { x.wst.afresh s.clk.ticks with work := x.wst.work ++ storeFill } }

/-- A half leaves Boated (12 R391): its memories are zero, its weight stores are being filled, and its segments are asleep. With the
chip, the ports start again from DETECT. -/
def leaveBoated (s : State) (h : Nat) : State :=
  let s1 := losePower (setHalf (startHalf s h) h 0) h
  let z := if s1.ctxs.zeroing.contains (fillHalf h) then s1.ctxs.zeroing else s1.ctxs.zeroing ++ [fillHalf h]
  let s2 := { s1 with ctxs := { s1.ctxs with zeroing := z }, seats := fillSeats s1 h }
  if s2.pwr.chipBoated then
    let s3 := startDomain (startDomain { s2 with pwr := { s2.pwr with chipBoated := false } } 96) 97
    (List.range 12).foldl (fun s p => modPort s p fun x =>
      { x with state := if x.state = .off ∧ x.en = true ∧ mayTrain s = true then .detect else x.state }) s3
  else s2

/-- WAKE_COMPLETE (12 R388, R391): a crew or a half that wakes reaches Row after its exit time, which is the step's own occasion. -/
def execWakeComplete (unit : Word) (s : State) : Outcome State Fault Refusal :=
  let u := unit.toNat
  if uLevel u = 1 ∧ uCrew u < 48 then
    let m := domOf s (uQ u)
    if m.paddle && m.waking then
      .next (settleReqs (modDom s (uQ u) fun m => { m with paddle := false, waking := false, idleAt := s.clk.ticks }))
    else .next s
  else if uLevel u = 2 ∧ tget false s.pwr.waking (uHalf u) = true then
    if halfBoated s (uHalf u) then .next (settleReqs (leaveBoated s (uHalf u)))
    else if halfEasy s (uHalf u) then .next (settleReqs (leaveEasy s (uHalf u)))
    else .next s
  else .next s

/-! ## Steps, cap and role -/

/-- SET_STEP (12 R378): the host's ceiling of each crew of the unit. -/
def execSetStep (src : SrcIx) (s : State) : Outcome State Fault Refusal :=
  commandRow s src.val 0x39 fun c =>
    let n := cb c 0x10 1
    let u := cUnit c
    if unitBad s u 1 3 false then answer s src.val c stBadUnit (badUnitResult u)
    else if 6 < n then answer s src.val c stBadParameter 0
    else answer (lowerRails ((unitCrews u).foldl (fun s q => modDom s q fun m => { m with ceiling := n }) s)) src.val c stSuccess 0

/-- Give the part a time role (10 R340): the master's DEPTH is 0; a follower has no lock until samples come. -/
def setRole (s : State) (role : BitVec 2) (up : BitVec 4) : State :=
  if s.fab.role = role ∧ s.fab.upstream = up then s
  else { s with fab := { s.fab with role := role, upstream := up, depth := if role = 1 then 0 else 0xFF, locked := false, offsets := [] },
                clk := { s.clk with slew := 0 } }

/-- TIME_ROLE (10 R340, 13 R421). -/
def execTimeRole (src : SrcIx) (s : State) : Outcome State Fault Refusal :=
  commandRow s src.val 0x3A fun c =>
    if 2 < cb c 0x10 1 ∨ 11 < cb c 0x11 1 then answer s src.val c stBadParameter 0
    else answer (setRole s (BitVec.ofNat 2 (cb c 0x10 1)) (BitVec.ofNat 4 (cb c 0x11 1))) src.val c stSuccess 0

/-- The cap in force: PWR_CAP_W within 300 and 1,500 (12 R399). -/
def capWatts (s : State) : Nat := max 300 (min 1500 s.pwr.capW.toNat)

/-- POWER_CAP_MEASURE (12 R392): Snivan reads the voltages of VDD_W and VDD_E, in mV, and their currents, in mA. The average is over the
last ten measurements, 1 ms, or over those there are. -/
def execPowerCapMeasure (mvW maW mvE maE : Nat) (s : State) : Outcome State Fault Refusal :=
  if s.glb.ready = false ∨ s.glb.fw ≠ .ready then .next s
  else
    let watts := (mvW * maW + mvE * maE) / 1000000
    let xs := ((watts + s.pwr.otherW.toNat) :: s.pwr.samples).take 10
    let sum := xs.foldl (· + ·) 0
    let n := xs.length
    let cap := capWatts s
    let low := if sum * 100 < 95 * cap * n then s.pwr.lowRun + 1 else 0
    let up := decide (cap * n < sum) && decide (s.clk.cap < 6)
    .next <| lowerRails { s with
      pwr := { s.pwr with samples := xs, vdd := [mvW % 65536, mvE % 65536], packageW := BitVec.ofNat 16 (sum / n), lowRun := low,
                          capEvents := if up then satInc s.pwr.capEvents else s.pwr.capEvents },
      clk := { s.clk with cap := if up then s.clk.cap + 1 else if 10 ≤ low then s.clk.cap - 1 else s.clk.cap } }

/-! ## Pool segments (05 R179-R182, 07 R218) -/

/-- A submitted graph lies in segment `g` of the pool of half `h` (07 R218). -/
def graphInSeg (s : State) (h g : Nat) : Bool :=
  s.str.graphs.any fun p => p.2.half == h && Region.meets (0x4000000 * g, 0x4000000) (p.2.off, p.2.bytes)

/-- The pool of half `h` is powered, and its controller runs. -/
def poolRuns (s : State) (h : Nat) : Bool := !halfEasy s h && !halfBoated s h

/-- SEGMENT_POWER_DOWN (05 R180, 07 R218): Snivan begins to close a segment that no submitted graph lies in. -/
def execSegmentPowerDown (h : HalfIx) (g : SegIx) (s : State) : Outcome State Fault Refusal :=
  let p := poolOf s h.val
  if s.glb.fw = .ready ∧ poolRuns s h.val = true ∧ p.ready.getLsbD g.val = true ∧ p.closing.getLsbD g.val = false ∧
      graphInSeg s h.val g.val = false then
    .next (modPool s h.val fun p => { p with closing := setBit p.closing g.val, closeAt := tput p.closeAt g.val s.clk.ticks })
  else .next s

/-- SEGMENT_CLOSE (05 R180): the segment closes and is asleep, its contents lost. The region of a graph submitted meanwhile stays served
until the graph's release (07 R218). After 100 µs, ten thousand ticks, the close is
counted as a timeout; before, that 2 µs have passed with no request is the step's own occasion. -/
def execSegmentClose (h : HalfIx) (g : SegIx) (s : State) : Outcome State Fault Refusal :=
  if (poolOf s h.val).closing.getLsbD g.val && !graphInSeg s h.val g.val then
    .next (modPool s h.val fun p =>
      { p with closing := clrBit p.closing g.val, on := clrBit p.on g.val, ready := clrBit p.ready g.val,
               closeAt := tdel p.closeAt g.val, mem := mclear p.mem (0x4000000 * g.val) 0x4000000,
               timeouts := if tget 0 p.closeAt g.val + 10000 ≤ s.clk.ticks then satInc p.timeouts else p.timeouts })
  else .next s

/-- SEGMENT_WAKE (05 R182): Snivan powers a segment, and its zero fill starts. A segment that failed training stays off (16 R491). -/
def execSegmentWake (h : HalfIx) (g : SegIx) (s : State) : Outcome State Fault Refusal :=
  let p := poolOf s h.val
  if s.glb.fw = .ready ∧ poolRuns s h.val = true ∧ p.on.getLsbD g.val = false ∧ p.dead.getLsbD g.val = false then
    .next (modPool s h.val fun p => { p with on := setBit p.on g.val, mem := mclear p.mem (0x4000000 * g.val) 0x4000000 })
  else .next s

/-- SEGMENT_READY (05 R182): the zero fill ends, and the segment serves requests. -/
def execSegmentReady (h : HalfIx) (g : SegIx) (s : State) : Outcome State Fault Refusal :=
  if (poolOf s h.val).on.getLsbD g.val then .next (modPool s h.val fun p => { p with ready := setBit p.ready g.val }) else .next s

end Sys2Proof.Machine
end

