-- ==== Sys2Proof/Machine/Matrix.lean ====
section
/-!
DEFINITION. The matrix array (03): its four units, loads into the shadow blade and the slots, swaps and passes, the sums of a
pass, and drains.
-/
namespace Sys2Proof.Machine
open Host (Outcome)

/-! ## Unit starts (03 R79, R80) -/

/-- A slot is ready in core cycle `t`. -/
def slotReady (m : Mxa) (k t : Nat) : Bool := (tfind m.slots k).isSome && decide (tget 0 m.slotAt k ≤ t)

/-- The faults at the start of an MX descriptor (03 R93, R108). An ALOAD that starts in the core cycle of the slot's last broadcast meets
a row still to broadcast (log entry 65). -/
def mxStartEvents (x : Seat) (j : Job) : List Ev :=
  let d := j.raw.toNat
  let m := x.mxa
  let busy (n : Nat) : Bool := if n = 0 then m.sh0.isSome else if n = 1 then m.sh1.isSome else m.sh0.isSome || m.sh1.isSome
  if dOp d = opBload then (if busy (blNib d) then [(j.start, mxShadowBusy, 2, 0, noWord, 0, j)] else [])
  else if dOp d = opDiag then
    (if busy 0 then [(j.start, mxShadowBusy, 2, 0, noWord, 0, j)] else [])
      ++ (if slotReady m (dgSlot d) j.start = false then [(j.start, mxSlotEmpty, 2, 0, noWord, 0, j)]
          else if 1 < tagFmt (tget {} m.slots (dgSlot d)).tag then [(j.start, mxTableFormat, 2, 0, noWord, 0, j)] else [])
  else if dOp d = opAload then (if j.start < tget 0 m.slotUse (alSlot d) then [(j.start, mxSlotBusy, 3, 0, noWord, 0, j)] else [])
  else []

/-- First core cycle in which the unit is free again (03 R103). -/
def mxBusyUntil (d start : Nat) : Nat :=
  if dOp d = opBload then start + 34
  else if dOp d = opDiag then start + 2
  else if dOp d = opAload then start + 18
  else if dOp d = opProduct then start + (passTable (prTable d)).length * max (prRows d) 4
  else if drCore d then start + 135 else start + 5 + 2 * drRows d

/-- Core cycles from the start of a PRODUCT to the start of pass `p`, counted from 0 (03 R103). -/
def passOff (j : Job) (p : Nat) : Nat := p * max (prRows j.raw.toNat) 4

/-- Start of pass `p` (03 R82, R103). -/
def passAt (x : Seat) (j : Job) (p : Nat) : Nat := mxAt x j (passOff j p)

/-- The core cycle after the last broadcast of each slot that a PRODUCT reads (03 R108 MX_SLOT_BUSY). -/
def slotUses (t : Tbl Nat) (j : Job) : Tbl Nat :=
  ((passTable (prTable j.raw.toNat)).zipIdx).foldl (fun t p =>
    tmod 0 t (prA j.raw.toNat + p.1.slot) fun u => max u (j.start + passOff j p.2 + prRows j.raw.toNat)) t

/-- The first queued job of a unit, and the queue without it. -/
def takeUnit (u : Nat) : List Job → Option (Job × List Job)
  | [] => none
  | j :: t => if mxUnit (dOp j.raw.toNat) = u then some (j, t) else (takeUnit u t).map fun r => (r.1, j :: r.2)

/-- MX_UNIT_START (03 R80, R108): an idle unit takes its next descriptor. -/
def execMxUnitStart (w : SeatIx) (u : UnitIx) (s : State) : Outcome State Fault Refusal :=
  let x := seatOf s w.val
  if tfind x.mxa.cur u.val = none ∧ clocked s w.val = true then
    match takeUnit u.val x.mxa.queue with
    | none => .next s
    | some (j, q) =>
      let d := j.raw.toNat
      let start := max j.issued (tget 0 x.mxa.freeAt u.val)
      if runsAt x start = false ∨ stillBefore x start = false then .next s else
      let j := { j with start := start }
      let m := x.mxa
      let m := { m with queue := q, cur := tput m.cur u.val j, freeAt := tput m.freeAt u.val (mxBusyUntil d start),
                        startAt := tput m.startAt u.val start }
      let m := if dOp d = opProduct then { m with pass := 0, passDue := false, slotUse := slotUses m.slotUse j } else m
      let es := mxStartEvents x j
      let m := if dOp d = opAload ∧ es.isEmpty = true then { m with slots := tdel m.slots (alSlot d) } else m
      let s1 := putSeat s w.val (noteRoom { x with mxa := m } 0)
      let rest : List Ev := if dOp d = opBload ∧ x.cox.rest.getLsbD (bloadBank j) = true then
        [(start, wstRestConflict, 10, 0, (blAddr d j.c).toNat, 0, j)] else []
      .next (raiseEvents s1 w.val (es ++ rest))
  else .next s

/-! ## Running a unit's descriptor -/

/-- The unit's job has run and completes at the end of core cycle `t` (03 R104). -/
def mxDone (x : Seat) (u : Nat) (j : Job) (t : Nat) : Seat :=
  { x with mxa := { x.mxa with cur := tdel x.mxa.cur u }, cox := { x.cox with fin := x.cox.fin ++ [{ j with doneAt := t }] } }

/-- The unit's job ends in a fault. -/
def mxStop (x : Seat) (u : Nat) : Seat := { x with mxa := { x.mxa with cur := tdel x.mxa.cur u } }

/-- Run the job of unit `u` where it has the opcode: its faults `ev`, or without any its effect `eff`, which is over in core cycle
`over_`. In a halted seat only what is over by the core cycle of the halt has its effect, and only faults up to it arise (03 R83);
what lies after the beginning of a forced refresh waits for its end (03 R82). -/
def mxRow (op u : Nat) (w : Nat) (s : State) (over_ : Seat → Job → Nat) (ev : Seat → Job → List Ev) (eff : Seat → Job → State) :
    Outcome State Fault Refusal :=
  let x := seatOf s w
  match tfind x.mxa.cur u with
  | some j =>
    if dOp j.raw.toNat = op ∧ clocked s w = true then
      if (ev x j).isEmpty = false then
        if stillBefore x (beforeEvents (ev x j) 0) then .next (raiseEvents (putSeat s w (mxStop x u)) w (ev x j)) else .next s
      else if runsAt x (over_ x j) then if stillBefore x (over_ x j) then .next (eff x j) else .next s
      else .next (putSeat s w (mxStop x u))
    else .next s
  | none => .next s

/-- BLOAD (03 R98, R103): the tile is read through the block map, its tag compared in t + 3 and its CRC in t + 33, and the
nibble is ready from t + 34. -/
def execBload (w : SeatIx) (s : State) : Outcome State Fault Refusal :=
  mxRow opBload 0 w.val s (fun x j => mxAt x j 33)
    (fun x j =>
      let d := j.raw.toNat
      let g := (blAddr d j.c).toNat
      let want := mkTag x.cox.ctx x.cox.gen kindWeight (blFmt d) (tileIdx (blTidx d) j.c (blTstep d))
      tileChecks (weightTile x g) kindWeight want j 2 g (mxAt x j 3) (mxAt x j 33))
    fun x j =>
      let d := j.raw.toNat
      let tile := asTile (weightTile x (blAddr d j.c).toNat)
      let m := x.mxa
      let m := if blNib d = 1 then m else { m with sh0 := some tile, shAt0 := mxAt x j 34 }
      let m := if blNib d = 0 then m else { m with sh1 := some tile, shAt1 := mxAt x j 34 }
      putSeat s w.val (mxDone { x with mxa := m } 0 j (mxAt x j 33))

/-- ALOAD (03 R99, R103): tag compared in t + 1, CRC in t + 19, the slot ready from t + 20. -/
def execAload (w : SeatIx) (s : State) : Outcome State Fault Refusal :=
  mxRow opAload 1 w.val s (fun x j => mxAt x j 19)
    (fun x j =>
      let d := j.raw.toNat
      let g := (alAddr d j.c).toNat
      let want := mkTag x.cox.ctx 0 kindNarrow (alFmt d) (tileIdx (alTidx d) j.c (alTstep d))
      tileChecks (coreTile x g kindNarrow) kindNarrow want j 3 g (mxAt x j 1) (mxAt x j 19) ++ bankEvents x j)
    fun x j =>
      let d := j.raw.toNat
      let t := coreTile x (alAddr d j.c).toNat kindNarrow
      let m := { x.mxa with slots := tput x.mxa.slots (alSlot d) (asTile t), slotAt := tput x.mxa.slotAt (alSlot d) (mxAt x j 20) }
      putSeat s w.val (addSpans (mxDone { x with mxa := m } 1 j (mxAt x j 19)) j)

/-- The N0 tile that DIAG makes of row `r` of a slot (03 R93). -/
def diagTile (a : Tile) (r : Nat) : Tile :=
  let payload := (List.range 64).foldl (fun m j =>
    let addr := 32 * j + j / 2
    mwrite m addr (mread m addr ||| BitVec.ofNat 8 (nibAt a r j <<< (4 * (j % 2))))) []
  let scales := (List.range 64).foldl (fun m j =>
    mwrite (mwrite m (64 * (j / 32) + j) (mread a.scales (2 * r + j / 32))) (64 * (1 - j / 32) + j) 0x7F) []
  { tag := a.tag, payload := payload, scales := scales }

/-- DIAG (03 R93): N0 of the shadow is ready from t + 2, and N1 is not touched. -/
def execDiag (w : SeatIx) (s : State) : Outcome State Fault Refusal :=
  mxRow opDiag 0 w.val s (fun x j => mxAt x j 1) (fun _ _ => []) fun x j =>
    let d := j.raw.toNat
    let m := { x.mxa with sh0 := some (diagTile (tget {} x.mxa.slots (dgSlot d)) (dgRow d)), shAt0 := mxAt x j 2 }
    putSeat s w.val (mxDone { x with mxa := m } 0 j (mxAt x j 1))

/-! ## Passes (03 R84-R92) -/

/-- Formats that the slots of a table may hold (03 R91): whether slot offset `k` may hold format `f`. -/
def actFmtOk (t k f : Nat) : Bool :=
  let a8 := t % 2 == 1 && decide (t < 4) || (decide (8 ≤ t) && (t - 8) / 2 % 2 == 1)
  if a8 then (if k % 2 = 0 then f == fmtI8H else f == fmtI8L) else f == fmtI4 || f == fmtF4

/-- Formats that the nibbles may hold, for a table with real sequence `t` (03 R91). -/
def wtFmtOk (t n f : Nat) : Bool :=
  if t < 2 then f == fmtI4 || f == fmtF4 || f == fmtI2 || f == fmtT2
  else if t < 4 then (f == fmtQ4) || (if n = 1 then f == fmtI8H else f == fmtI8L)
  else if t < 12 then f == fmtI4 || f == fmtF4
  else if n = 1 then f == fmtI8H else f == fmtI8L

/-- The slots that a table reads, as offsets. -/
def tableSlotSet (t : Nat) : List Nat := ((passTable t).map (·.slot)).dedup
/-- The nibbles that a table reads. -/
def tableNibSet (t : Nat) : List Nat := ((passTable t).map (·.nib)).dedup

/-- Nibble `n` of the active blade. -/
def activeNib (m : Mxa) (n : Nat) : Option Tile := if n = 0 then m.act0 else m.act1

/-- The formats held by the operands that a table reads, slots then nibbles; an operand of another pass that is empty has none to check,
and one not yet ready has its tile's (log entry 65). -/
def heldFmts (m : Mxa) (d : Nat) : List (Bool × Nat × Nat) :=
  (tableSlotSet (prTable d)).filterMap (fun k => (tfind m.slots (prA d + k)).map fun t => (false, k, tagFmt t.tag))
    ++ (tableNibSet (prTable d)).filterMap (fun n => (activeNib m n).map fun t => (true, n, tagFmt t.tag))

/-- The operands of a complex table whose formats must agree do (03 R91): a and b in 0x08, 0x09, 0x0C and 0x0D, and c and d in
0x08-0x0B. -/
def pairsOk (m : Mxa) (d : Nat) : Bool :=
  let t := prTable d
  let same (l : List Nat) : Bool := match l with
    | [] => true
    | f :: r => r.all (· == f)
  let slots := ((heldFmts m d).filter fun e => !e.1).map fun e => e.2.2
  let nibs := ((heldFmts m d).filter fun e => e.1).map fun e => e.2.2
  (if t = 8 ∨ t = 9 ∨ t = 12 ∨ t = 13 then same slots else true) && (if 8 ≤ t ∧ t < 12 then same nibs else true)
    && (if t = 2 ∨ t = 3 then nibs.all (· == fmtQ4) || nibs.all (· != fmtQ4) else true)

/-- The nibble holds 2-bit weights. -/
def twoBit (m : Mxa) (n : Nat) : Bool := match activeNib m n with
  | some t => tagFmt t.tag == fmtI2 || tagFmt t.tag == fmtT2
  | none => false

/-- The passes from pass `p` up to the next swap. -/
def untilSwap (d p : Nat) : List Pass :=
  match (passTable (prTable d)).drop p with
  | [] => []
  | a :: t => a :: t.takeWhile fun b => !b.swap

/-- Pass `p` begins with a swap (03 R92). -/
def swapsAt (d p : Nat) : Bool := (p == 0 && prSwap0 d) || (((passTable (prTable d))[p]?).map (·.swap)).getD false

/-- The shadow is ready for a swap in core cycle `t`: every nibble that the passes up to the next swap read is ready, and no load
into the shadow is in progress (03 R92). -/
def swapReady (m : Mxa) (d p t : Nat) : Bool :=
  let need (n : Nat) : Bool := (untilSwap d p).any fun a => a.nib == n
  let load := match tfind m.cur 0 with
    | some j => decide (j.start < t)
    | none => false
  !load && (m.sh0.isNone || decide (m.shAt0 ≤ t)) && (m.sh1.isNone || decide (m.shAt1 ≤ t))
    && (!need 0 || m.sh0.isSome) && (!need 1 || m.sh1.isSome)

/-- The shadow blade becomes the active blade and is left empty (03 R77, R92). -/
def swapBlades (m : Mxa) : Mxa := { m with act0 := m.sh0, act1 := m.sh1, sh0 := none, sh1 := none }

/-- The faults at the start of pass `p` in core cycle `t`, after any swap (03 R56, R86, R91, R108). -/
def passEvents (m : Mxa) (j : Job) (p t : Nat) : List Ev :=
  let d := j.raw.toNat
  match (passTable (prTable d))[p]? with
  | none => []
  | some a =>
    let held := heldFmts m d
    let fmtBad := held.any (fun e => if e.1 then !wtFmtOk (prTable d) e.2.1 e.2.2 else !actFmtOk (prTable d) e.2.1 e.2.2)
      || !pairsOk m d || (twoBit m a.nib && prB d + a.bank == 3)
    (if (activeNib m a.nib).isNone then [(t, mxBladeNotReady, 4, 0, noWord, 0, j)] else [])
      ++ (if slotReady m (prA d + a.slot) t = false then [(t, mxSlotEmpty, 4, 0, noWord, 0, j)] else [])
      ++ (if prI32 d ∧ held.any (fun e => e.2.2 == fmtF4) = true then [(t, mxOperandFormat, 4, 0, noWord, 0, j)]
          else if fmtBad then [(t, mxTableFormat, 4, 0, noWord, 0, j)] else [])

/-- The faults at the start of pass `p` in core cycle `t`, a swap's among them (03 R92, R108): all that arise, of an unready swap's blade
one, in one core cycle (15 R456). -/
def startEvents (m : Mxa) (j : Job) (p t : Nat) : List Ev :=
  let d := j.raw.toNat
  if swapsAt d p then
    if swapReady m d p t then passEvents (swapBlades m) j p t
    else (t, mxBladeNotReady, 4, 0, noWord, 0, j) :: (passEvents (swapBlades m) j p t).filter fun e => e.2.1 != mxBladeNotReady
  else passEvents m j p t

/-- PASS_START (03 R91, R92, R103): the swap, if there is one, the checks of the pass, and its counts. The pass keeps the tiles that it
reads. -/
def execPassStart (w : SeatIx) (s : State) : Outcome State Fault Refusal :=
  let x := seatOf s w.val
  match tfind x.mxa.cur 2 with
  | none => .next s
  | some j =>
    let d := j.raw.toNat
    let p := x.mxa.pass
    let t := passAt x j p
    match (passTable (prTable d))[p]? with
    | none => .next s
    | some a =>
      if runsAt x t = true ∧ stillBefore x t = true ∧ clocked s w.val = true ∧ x.mxa.passDue = false then
        let es := startEvents x.mxa j p t
        let m := if swapsAt d p then swapBlades x.mxa else x.mxa
        if es.isEmpty then
          .next (putSeat s w.val { x with mxa :=
            { m with passDue := true, passSlot := tfind m.slots (prA d + a.slot), passNib := activeNib m a.nib,
                     passCount := satInc m.passCount, rowCount := m.rowCount + BitVec.ofNat 64 (prRows d),
                     busyRows := m.busyRows + prRows d, rowRuns := m.rowRuns ++ [(t, t + prRows d)] } })
        else .next (raiseEvents (putSeat s w.val (mxStop x 2)) w.val es)
      else .next s

/-! ## The sums of a pass (02 R52-R56, 03 R84-R86) -/

/-- The integer view of activation element (r, k) of a slot. -/
def actView (a : Tile) (r k : Nat) : Int := nibView (tagFmt a.tag) true (nibAt a r k)

/-- The integer view of weight cell (k, j) of nibble `n`; for 2-bit weights of output column `m` of 128. -/
def wtView (b : Tile) (n k m : Nat) (two : Bool) : Int :=
  if two then twoView (tagFmt b.tag == fmtT2) (fld (nibAt b k (m / 2)) (2 * (m % 2)) 2)
  else if tagFmt b.tag = fmtQ4 then
    let c := (mread b.book (nibAt b k m)).toNat
    nibView fmtQ4 (n == 1) (if n = 1 then c / 16 else c % 16)
  else nibView (tagFmt b.tag) true (nibAt b k m)

/-- The exact sum S of block `b` (02 R52). -/
def blockSum (a bl : Tile) (n r m blk : Nat) (two : Bool) : Int :=
  (List.range 32).foldl (fun s i => s + actView a r (32 * blk + i) * wtView bl n (32 * blk + i) m two) 0

/-- Key of accumulator `row`, `col` of `bank`. -/
def accKey (bank row col : Nat) : Nat := bank * 4096 + row * 64 + col

/-- Add the two block sums of output column `m` into its accumulator; the result counts wraps (02 R54, R56). -/
def accStep (a bl : Tile) (ps : Pass) (i32 two : Bool) (bank row : Nat) (st : Tbl Word × Nat) (m : Nat) : Tbl Word × Nat :=
  let key := accKey (bank + m / 64) row (m % 64)
  let cell := if two then m / 2 else m
  (List.range 2).foldl (fun st blk =>
    let sum := blockSum a bl ps.nib row m blk two
    let acc := tget 0 st.1 key
    if i32 then
      let r := accAddInt acc ps.neg sum ps.shift
      (tset 0 st.1 key r.1, st.2 + r.2)
    else
      let ea := (mread a.scales (2 * row + blk)).toNat
      let ew := (mread bl.scales (64 * blk + cell)).toNat
      let o := fmtOff (tagFmt a.tag) + fmtOff (tagFmt bl.tag) + ps.shift
      (tset 0 st.1 key (accAdd acc (blockTerm ps.neg sum ea ew o)), st.2)) st

/-- One row of a pass. -/
def rowStep (a bl : Tile) (ps : Pass) (i32 two : Bool) (bank row : Nat) (acc : Tbl Word) : Tbl Word × Nat :=
  (List.range (if two then 128 else 64)).foldl (accStep a bl ps i32 two bank row) (acc, 0)

/-- CLR (03 R101): the target rows of a bank are set to +0 before that bank's first term. -/
def clearRows (acc : Tbl Word) (bank row0 rows : Nat) : Tbl Word :=
  acc.filter fun e => decide (e.1 < accKey bank row0 0) || decide (accKey bank (row0 + rows) 0 ≤ e.1)

/-- The words of an accumulator row. -/
def accRow (acc : Tbl Word) (bank row : Nat) : List Word := (List.range 64).map fun c => tget 0 acc (accKey bank row c)

/-- What the rows of a pass leave: the accumulators, their contents before each update, and the wraps of each row. -/
abbrev PassRun := Tbl Word × List (Nat × Nat × Nat × List Word) × List (Nat × Nat)

/-- Row `r` of a pass updates its accumulators in core cycle `t` (03 R84, R101, R103). -/
def passRow (m : Mxa) (d p : Nat) (ps : Pass) (r t : Nat) (st : PassRun) : PassRun :=
  let row := prRow0 d + r
  let bank := prB d + ps.bank
  let a := m.passSlot.getD {}
  let bl := m.passNib.getD {}
  let two := tagFmt bl.tag == fmtI2 || tagFmt bl.tag == fmtT2
  let banks := if two then [bank, bank + 1] else [bank]
  let clears := prClr d && ((passTable (prTable d)).take p).all fun q => q.bank != ps.bank
  let acc := if clears then banks.foldl (fun acc b => clearRows acc b row 1) st.1 else st.1
  let q := rowStep a bl ps (prI32 d) two bank row acc
  (q.1, st.2.1 ++ banks.map (fun b => (t, b, row, accRow st.1 b row)), if q.2 = 0 then st.2.2 else st.2.2 ++ [(q.2, t)])

/-- The earliest core cycle in which a DRAIN that has not run may still read. -/
def drainFrom (x : Seat) : Nat :=
  match tfind x.mxa.cur 3 with
  | some j => j.start
  | none => match takeUnit 3 x.mxa.queue with
    | some (j, _) => max j.issued (tget 0 x.mxa.freeAt 3)
    | none => max x.cox.cycle (tget 0 x.mxa.freeAt 3)

/-- PRODUCT (03 R84, R101, R103): the sums of the pass that has started, row by row; after the last pass the job completes at the end of
S(N) + 8 + R. In a halted seat the rows of the core cycles up to the halt are updated (03 R83). -/
def execProduct (w : SeatIx) (s : State) : Outcome State Fault Refusal :=
  let x := seatOf s w.val
  match tfind x.mxa.cur 2 with
  | none => .next s
  | some j =>
    let d := j.raw.toNat
    let p := x.mxa.pass
    let over_ := mxAt x j (passOff j p + 8 + prRows d)
    if clocked s w.val = false ∨ stillBefore x over_ = false then .next s
    else match x.mxa.passDue, (passTable (prTable d))[p]? with
    | true, some ps =>
      let run := (List.range (prRows d)).foldl (fun (st : PassRun) r =>
        let t := mxAt x j (passOff j p + 9 + r)
        if runsAt x t then passRow x.mxa d p ps r t st else st) (x.mxa.acc, x.mxa.past.filter (fun e => decide (drainFrom x ≤ e.1)), [])
      let last := p + 1 == (passTable (prTable d)).length
      let m := { x.mxa with acc := run.1, past := run.2.1, passDue := false, passSlot := none, passNib := none,
                            pass := if last then 0 else p + 1 }
      let x1 := if runsAt x over_ = false then mxStop { x with mxa := m } 2
        else if last then mxDone { x with mxa := m } 2 j over_ else { x with mxa := m }
      .next (run.2.2.foldl (fun s e => guardRaise s w.val 3 e.1 true j e.2) (putSeat s w.val x1))
    | _, _ => if runsAt x over_ then .next s else .next (putSeat s w.val (mxStop x 2))

/-! ## DRAIN (03 R102, R103, R109) -/

/-- An accumulator row as a read in core cycle `t` sees it: no update of that core cycle or a later one (03 R103, R109). -/
def rowAt (m : Mxa) (bank row t : Nat) : List Word :=
  match m.past.find? fun e => decide (t ≤ e.1) && e.2.1 == bank && e.2.2.1 == row with
  | some e => (List.range 64).map fun c => e.2.2.2.getD c 0
  | none => accRow m.acc bank row

/-- One row of a DRAIN to the operand cache through W1: two entries; an entry that W0 writes in the same vector cycle keeps the
W0 data and is counted (04 R114). -/
def drainRow (ws : List Word) (e v : Nat) (o : Vec) : Vec :=
  (List.range 2).foldl (fun o h =>
    if o.w0.any (fun p => p.hits (e + h) v) then { o with collide := satInc o.collide }
    else opcWrite o (v, e + h, ((ws.drop (32 * h)).take 32).map some)) o

/-- The bytes of half row `k` of a drained full tile: columns 0-31 of row k div 2 for even k, columns 32-63 for odd k. -/
def halfRow (ws : List Word) (k : Nat) : List Byte := ((ws.drop (32 * (k % 2))).take 32).flatMap fun v => bytesOf v.toNat 4

/-- DRAIN (03 R102, R103): row ROW0 + i is read in t + 2i. A seat that halts before the end has written what its write cycles up to the
halt wrote, and to core memory no trailer (03 R83). -/
def execDrain (w : SeatIx) (s : State) : Outcome State Fault Refusal :=
  let x := seatOf s w.val
  match tfind x.mxa.cur 3 with
  | none => .next s
  | some j =>
    let d := j.raw.toNat
    let over_ := mxAt x j (if drCore d then 134 else 4 + 2 * drRows d)
    let live := runsAt x over_
    if clocked s w.val = false ∨ stillBefore x over_ = false then .next s
    else if drCore d then
      let g := (drAt d j.c).toNat
      let es := bankEvents x j
      let stop := if live then beforeEvents es over_ else x.cox.haltAt
      let x1 := (List.range 128).foldl (fun x k =>
        if mxAt x j (6 + k) ≤ stop then coreWrite x (64 * g + 128 * k) (halfRow (rowAt x.mxa (drBank d) (k / 2) (mxAt x j (2 * (k / 2)))) k) else x) x
      if live = true ∧ es.isEmpty = true then
        let tag := mkTag x.cox.ctx 0 kindFull (if drI32 d then fmtI32 else fmtFp32) (tileIdx (drTidx d) j.c (drTstep d))
        let tile := sealTile (mslice x1.core (64 * g) 0x4000) kindFull tag 0 0 x.cox.epoch.toNat
        let x2 := coreWrite x1 (64 * g + 0x4000) (mbytes tile 0x4000 32)
        .next (putSeat s w.val (addSpans (mxDone x2 3 j over_) j))
      else .next (raiseEvents (putSeat s w.val (mxStop x1 3)) w.val es)
    else
      let e := (drAt d j.c).toNat
      let rows := (List.range (drRows d)).filter fun i => runsAt x (mxAt x j (6 + 2 * i))
      let o := rows.foldl (fun o i =>
        drainRow (rowAt x.mxa (drBank d) (drRow0 d + i) (mxAt x j (2 * i))) (e + 2 * i) (mxAt x j (6 + 2 * i) / 2) o) x.vec
      let o := { o with w1 := o.w1 ++ cutRuns x j.start [{ v := (j.start + 6) / 2, e := e, n := 2 * rows.length, per := 2 }] }
      let x1 := { x with vec := o }
      .next (putSeat s w.val (if live then mxDone x1 3 j over_ else mxStop x1 3))

end Sys2Proof.Machine
end

