-- ==== Sys2Proof/Machine/Store.lean ====
section
/-!
DEFINITION. The weight store (05 R168-R178, R183): refresh debt, rest slots, forced refreshes, the side port with its load, repair,
diagnostic and scrub work, and the DRAM temperature.
-/
namespace Sys2Proof.Machine
open Host (Outcome)

/-! ## Refresh (05 R168-R174) -/

/-- Refresh debt of bank `b` (05 R169). -/
def debtOf (x : Seat) (b : Nat) : Nat := tget 0 x.wst.debt b

/-- A bank's debt has reached 128 (05 R174). -/
def mustRefresh (x : Seat) : Bool := (List.range 32).any fun b => decide (128 ≤ debtOf x b)

/-- The half's weight stores are refreshed by their controllers: not in self-refresh, and powered (05 R175). -/
def refreshes (s : State) (w : Nat) : Bool := !halfEasy s (halfOf w) && !halfBoated s (halfOf w)

/-- Reference ticks between accrual instants (05 R169). -/
def accrualTicks (hot : Bool) : Nat := if hot then 3125 else 6250

/-- The first accrual instant after tick `t` of a crew whose phase is `p` (05 R169). -/
def nextAccrual (hot : Bool) (p t : Nat) : Nat := t + accrualTicks hot - (t + accrualTicks hot - p % accrualTicks hot) % accrualTicks hot

/-- The next accrual instant of a seat in a crew of phase `p` (05 R169). -/
def dueAccrual (t : Wst) (p : Nat) : Nat := if t.accrued = 0 then p else nextAccrual t.hot p (t.accrued - 1)

/-- The debt of every bank rises by 16 at an accrual instant (05 R169). -/
def accrueAll (t : Wst) (at_ : Nat) : Wst :=
  { t with debt := (List.range 32).foldl (fun d b => tset 0 d b (tget 0 t.debt b + 16)) t.debt, accrued := at_ + 1 }

/-- REFRESH_ACCRUAL (05 R169): at an accrual instant the debt of every bank rises by 16. The crew's first instant fixes the phase, which
Snivan chooses (log entry 66). A forced refresh that is due comes first (05 R174). -/
def execRefreshAccrual (w : SeatIx) (s : State) : Outcome State Fault Refusal :=
  let x := seatOf s w.val
  let p := (domOf s (crewOf w.val)).accrual.getD s.clk.ticks
  if mustRefresh x = true ∨ refreshes s w.val = false ∨ s.clk.ticks < dueAccrual x.wst p then .next s
  else .next (modWst (modDom s (crewOf w.val) fun m => { m with accrual := some p }) w.val fun t => accrueAll t (dueAccrual t p))

/-- The beat that lies `ahead` beats after the last one presented; the beat counter stands still while it is held (06 R191). -/
def beatNow (x : Seat) (ahead : Nat) : Nat := if x.cox.state = .walking ∧ x.cox.held = none then x.cox.beat + ahead else x.cox.beat

/-- A rest slot of bank `b` with a known rest of at least `n` beats (05 R172). -/
def restSlot (x : Seat) (b ahead n : Nat) : Bool :=
  atRest x b && match knownRest x b (beatNow x ahead) with
    | none => true
    | some k => decide (n ≤ k)

/-- REFRESH_OPERATION (05 R169, R172, R173): one operation in a rest slot of at least 225 beats lowers the bank's debt by one. -/
def execRefreshOperation (w : SeatIx) (b : BankIx) (ahead : Nat) (s : State) : Outcome State Fault Refusal :=
  let x := seatOf s w.val
  if 0 < debtOf x b.val ∧ x.wst.forcing = none ∧ refreshes s w.val = true ∧ restSlot x b.val ahead 225 = true then
    .next (modWst s w.val fun t => { t with debt := tset 0 t.debt b.val (tget 0 t.debt b.val - 1), ops := satInc t.ops })
  else .next s

/-- FORCED_REFRESH (05 R174): a bank's debt has reached 128, and the refresh begins in core cycle `c`, on a vector-cycle boundary. It
waits for a clock-step stop to end, be it in progress or pending (12 R396). -/
def execForcedRefresh (w : SeatIx) (c : Nat) (s : State) : Outcome State Fault Refusal :=
  let x := seatOf s w.val
  if mustRefresh x = true ∧ x.wst.forcing = none ∧ refreshes s w.val = true ∧ clocked s w.val = true ∧
      hardPending s (crewOf w.val) = false ∧ c % 2 = 0 ∧ x.cox.cycle ≤ c then
    .next (modWst s w.val fun t => { t with forcing := some c, forced := satInc t.forced })
  else .next s

/-- Core cycles of halt at a step (05 R174). -/
def haltCycles (step : Nat) : Nat := [1800, 1620, 1440, 1260, 1080, 720, 360].getD step 360

/-! ### Core cycles in which the units stand still (03 R82, 04 R115) -/

/-- A job that has started at or after `c` starts later; its completion too. -/
def Job.late (c n : Nat) (j : Job) : Job := { j with start := Machine.late c n j.start, doneAt := Machine.late c n j.doneAt }

/-- Cycles of a run, first and the one after the last, are cut at `c`, and the rest moves on. -/
def runLate (c n : Nat) (r : Nat × Nat) : List (Nat × Nat) :=
  if r.2 ≤ c then [r] else if c ≤ r.1 then [(r.1 + n, r.2 + n)] else [(r.1, c), (c + n, r.2 + n)]

/-- A run that goes on through a halt of `n` cycles from `c` is longer by it. -/
def spanLate (c n : Nat) (r : Nat × Nat) : Nat × Nat := (late c n r.1, if c < r.2 then r.2 + n else r.2)

/-- The MX units stand still for `n` core cycles from `c` (03 R82). What a running job does from `c` on lies later by `mxAt`. -/
def Mxa.late (c n : Nat) (m : Mxa) : Mxa :=
  { m with
    shAt0 := Machine.late c n m.shAt0, shAt1 := Machine.late c n m.shAt1,
    slotAt := m.slotAt.map fun p => (p.1, Machine.late c n p.2), slotUse := m.slotUse.map fun p => (p.1, Machine.late c n p.2),
    freeAt := m.freeAt.map fun p => (p.1, Machine.late c n p.2),
    past := m.past.map fun e => (Machine.late c n e.1, e.2), rowRuns := m.rowRuns.flatMap (runLate c n) }

/-- The vector engine stands still for `n` core cycles from `c`; both are even (04 R115). What a running job does from `c` on lies later
by `veAt`; a descriptor that lies between its start and its completion does so in the halt too (04 R146). -/
def Vec.late (c n : Nat) (v : Vec) : Vec :=
  let vl := Machine.late (c / 2) (n / 2)
  { v with
    readEnd := vl v.readEnd, w0End := vl v.w0End, coreEnd := Machine.late c n v.coreEnd,
    doneEnd := vl v.doneEnd, written := v.written.map fun p => (p.1, vl p.2), w0 := v.w0.flatMap (WPort.late (c / 2) (n / 2)),
    busy := v.busy + (v.busyRuns.filter fun r => decide (r.1 < c / 2 ∧ c / 2 < r.2)).length * (n / 2),
    busyRuns := v.busyRuns.map (spanLate (c / 2) (n / 2)), readRuns := v.readRuns.flatMap (runLate (c / 2) (n / 2)),
    w1 := v.w1.flatMap (WPort.late (c / 2) (n / 2)), pend := v.pend.map fun p => (vl p.1, p.2), spans := v.spans.flatMap (Span.late c n) }

/-- An engine stands still for `n` core cycles from `c`. -/
def Eng.late (c n : Nat) (e : Eng) : Eng :=
  { e with freeAt := Machine.late c n e.freeAt }

/-- The cox stands still (06 R191): time is moved to `c`, with the holds counted so far, and then past the halt. A CATCH is tested anew
in the first core cycle after it. -/
def Cox.late (c n : Nat) (x : Cox) : Cox :=
  if x.state ≠ .walking then
    { x with gaps := x.gaps ++ [(c, n)], fin := x.fin.map (Job.late c n), due := x.due.map fun p => (Machine.late c n p.1, p.2) }
  else
    let d := c - x.cycle
    let held := x.held.isSome
    { x with
      gaps := x.gaps ++ [(c, n)]
      hold := if x.hold = .catch then .none else x.hold
      beat := if held then x.beat else x.beat + d
      cycle := c + n
      heldQueue := match x.hold with
        | .queue _ => satAdd x.heldQueue d
        | _ => x.heldQueue
      heldCatch := if x.hold = .catch then satAdd x.heldCatch d else x.heldCatch
      heldRefresh := satAdd x.heldRefresh n
      roomAt := x.roomAt.map (Machine.late c n)
      fin := x.fin.map (Job.late c n)
      due := x.due.map fun p => (Machine.late c n p.1, p.2) }

/-- Up to 8 operations in every bank with a debt (05 R174). -/
def refreshAll (t : Wst) : Wst := { t with debt := (List.range 32).foldl (fun d b => tset 0 d b (tget 0 t.debt b - 8)) t.debt, forcing := none }

/-- FORCED_REFRESH_END (05 R174, 06 R191): up to 8 operations in every bank, and the seat goes on after the halt. -/
def execForcedRefreshEnd (w : SeatIx) (s : State) : Outcome State Fault Refusal :=
  let x := seatOf s w.val
  match x.wst.forcing with
  | none => .next s
  | some c =>
    let n := haltCycles (domOf s (crewOf w.val)).step
    .next (putSeat s w.val { x with
      wst := refreshAll x.wst, cox := x.cox.late c n, mxa := x.mxa.late c n, vec := x.vec.late c n,
      dma := x.dma.late c n, net := x.net.late c n })

/-! ## The side port (05 R150, R151, R173, R176-R178, R183) -/

/-- The bank of a physical granule (05 R149). -/
def bankOf (g : Nat) : Nat := g / 3072 % 32

/-- The order of background work: the load engine's writes and zero fills, diagnostic reads, scrub reads (05 R173). -/
def workRank : SideWork → Nat
  | .write _ _ => 0
  | .fill _ _ => 0
  | .diag _ => 1
  | .scrub _ _ => 2

/-- The granule that a piece of work moves next. -/
def workGranule : SideWork → Nat
  | .write g _ => g
  | .fill f _ => f
  | .diag g => g
  | .scrub f k => f + k

/-- A piece of work may start: its bank is in a rest slot of at least 8 beats, with no debt to refresh first, even where the slot is too
short for a refresh operation (05 R172, R173; log entry 67). -/
def workMay (x : Seat) (ahead : Nat) (k : SideWork) : Bool :=
  debtOf x (bankOf (workGranule k)) == 0 && restSlot x (bankOf (workGranule k)) ahead 8

/-- The piece of work that starts next, by index: the lowest rank first, and within it the oldest. -/
def nextWork (x : Seat) (ahead : Nat) : Option Nat :=
  let try_ (r : Nat) : Option Nat := findIdx (fun k => workRank k == r && workMay x ahead k) x.wst.work
  match try_ 0 with
  | some i => some i
  | none => match try_ 1 with
    | some i => some i
    | none => try_ 2

/-- The scrubber's next tile after the one at `f` (05 R176): a pass ends with the last. -/
def scrubNext (t : Wst) (f : Nat) : Wst :=
  match t.extents.find? (fun e => decide (f < e)) with
  | some e => { t with scrubAt := e }
  | none => { t with scrubAt := (t.extents.head?).getD 0, passes := satInc t.passes }

/-- A write to granule `g` abandons the scrub of a tile that holds it (05 R178). -/
def scrubYields (g : Nat) (t : Wst) : Wst :=
  match t.work.find? (fun k => match k with
    | .scrub f _ => decide (f ≤ g ∧ g < f + 35)
    | _ => false) with
  | some (.scrub f k) => scrubNext { t with work := t.work.filter (· != .scrub f k) } f
  | _ => t

/-- A BLOAD that has started and reads physical granule `g` is marked (05 R178, 07 R249). -/
def tornLoad (x : Seat) (g : Nat) : Seat :=
  match tfind x.mxa.cur 0 with
  | some j =>
    let a := (blAddr j.raw.toNat j.c).toNat
    if dOp j.raw.toNat = opBload ∧ ((List.range 35).any fun i => physGranule x.cox.blocks (a + i) == some g) = true then
      { x with mxa := { x.mxa with cur := tput x.mxa.cur 0 { j with torn := true } } }
    else x
  | none => x

/-- Write granule `g` of the weight store (05 R151, R178). -/
def storeWrite (x : Seat) (g : Nat) (d : Granule) : Seat :=
  let y := tornLoad x g
  { y with store := mwrGran y.store g d, wst := scrubYields g y.wst }

/-- The context whose generation holds block `b` of seat `w` (05 R177). -/
def blockOwner (s : State) (w b : Nat) : Option Nat :=
  (s.ctxs.ctx.find? fun p => (p.2.g0.alloc ++ p.2.g1.alloc).any fun a => a.1 / 96 == w && a.2 == b).map (·.1)

/-- The weak-tile report of the tile at physical granule `f` (05 R177, 15 R454, R496). -/
def weakReport (s : State) (w f tag : Nat) : State :=
  let x := seatOf s w
  let r := (chipRec s 4 weakTile (detail 0 0 0 f tag)).ofSeat (seatUnit s w ((logicalOf s w).getD x.cox.logical)) w
  report s { r with ctx := match blockOwner s w (f / 1024) with
    | some c => BitVec.ofNat 8 c
    | none => 0xFF }

/-- The last granule of a tile has been read: its CRC is checked (05 R176, R177). -/
def scrubEnd (s : State) (w f : Nat) : State :=
  let x := seatOf s w
  let m := mslice x.store (64 * f) 2240
  let s1 := modWst s w fun t => scrubNext t f
  if tileCrc m kindWeight == BitVec.ofNat 32 (tileStored m kindWeight) then s1
  else weakReport (modWst s1 w fun t => { t with weak := satInc t.weak, weakLast := f }) w f (tileTag m kindWeight)

/-- A diagnostic read completes (05 R183): the granule while debug access is unlocked for diagnostic reads (14 R443), else all ones and
a count. -/
def diagRead (s : State) (w g : Nat) : State :=
  if s.sec.unlocked && s.sec.scope.getLsbD 1 then
    if g < 98304 then modWst s w fun t => { t with diagDone := true, diagData := mgran (seatOf s w).store g }
    else modWst (drawn s) w fun t => { t with diagDone := true, diagData := Config.absentGranule s.free }
  else modWst s w fun t => { t with diagDone := true, diagData := BitVec.allOnes 512, diagRefused := satInc t.diagRefused }

/-- The granules that a fill has still to write after granule `f`, of `n` (11 R351). -/
def restFill (x : Seat) (f n : Nat) : Seat :=
  if n ≤ 1 then x else { x with wst := { x.wst with work := .fill (f + 1) (n - 1) :: x.wst.work } }

/-- SIDE_PORT_TRANSFER (05 R150, R173): the side port moves the next granule of its work. A tile that the scrubber has begun is read to its
end when WST_SCRUB_EN is cleared meanwhile (05 R176; log entry 67). -/
def execSidePortTransfer (w : SeatIx) (ahead : Nat) (s : State) : Outcome State Fault Refusal :=
  let x := seatOf s w.val
  if refreshes s w.val = false then .next s
  else match nextWork x ahead with
  | none => .next s
  | some i =>
    let s1 := modWst s w.val fun t => { t with work := dropAt t.work i }
    match x.wst.work[i]? with
    | some (.write g d) => .next (modSeat s1 w.val fun x => storeWrite x g d)
    | some (.fill f n) => .next (modSeat s1 w.val fun x => storeWrite (restFill x f n) f 0)
    | some (.diag g) => .next (diagRead s1 w.val g)
    | some (.scrub f k) =>
      if k + 1 < 35 then .next (modWst s1 w.val fun t => { t with work := t.work ++ [.scrub f (k + 1)] })
      else .next (scrubEnd s1 w.val f)
    | none => .next s

/-- The first granule of the tile that the scrubber reads, or reads next (05 R176, R183). -/
def scrubTarget (t : Wst) : Option Nat := match t.extents.find? (fun e => decide (t.scrubAt ≤ e)) with
  | some e => some e
  | none => t.extents.head?

/-- SCRUB_TILE (05 R176): the scrubber begins its next tile, at most one in each 64 µs, which is 6,400 reference ticks. -/
def execScrubTile (w : SeatIx) (s : State) : Outcome State Fault Refusal :=
  let t := (seatOf s w.val).wst
  let busy := t.work.any fun k => workRank k == 2
  if t.scrubEn = true ∧ busy = false ∧ (t.scrubTick = 0 ∨ t.scrubTick + 6399 ≤ s.clk.ticks) then
    match scrubTarget t with
    | some f => .next (modWst s w.val fun t => { t with scrubAt := f, work := t.work ++ [.scrub f 0], scrubTick := s.clk.ticks + 1 })
    | none => .next s
  else .next s

/-- WST_DIAG_GO (05 R183): a write of 1 asks for the granule that WST_DIAG_GRANULE names. A disabled seat's window takes no write
(00 R1, 13 R407; log entry 53). -/
def execWstDiagGo (w : SeatIx) (val : Word) (s : State) : Outcome State Fault Refusal :=
  if val.getLsbD 0 = true ∧ (seatOf s w.val).disabled = false then .next (modWst s w.val fun t => { t with diagDone := false, work := t.work ++ [.diag t.diagG.toNat] })
  else .next s

/-- The interval that a sensor reading brings into force (05 R168): above 85 °C the 16 ms one, at 82 °C or below the 32 ms one. The accrual
instants of a new interval count from then on (05 R169). -/
def setHot (x : Wst) (phase : Option Nat) (now : Nat) (t : Int) : Wst :=
  let hot := if 85 < t then true else if t ≤ 82 then false else x.hot
  let taken := match phase with
    | some p => decide (now < dueAccrual x p)
    | none => false
  { x with hot := hot, accrued := if hot ≠ x.hot ∧ taken = true then now + 1 else x.accrued }

/-- DRAM_SENSOR_SAMPLE (05 R168, 12 R398): above 85 °C the 16 ms interval comes into force, at 82 °C or below the 32 ms interval. -/
def execDramSample (q : CrewIx) (t : Byte) (s : State) : Outcome State Fault Refusal :=
  let s1 := modDom s q.val fun m => { m with tdram := t }
  .next ((List.range 24).foldl (fun s p => modWst s (q.val * 24 + p) fun x => setHot x (domOf s q.val).accrual s.clk.ticks t.toInt) s1)

end Sys2Proof.Machine
end

