-- ==== Sys2Proof/Machine/Load.lean ====
section
/-!
DEFINITION. Contexts, shards and generations (11): creating and evicting contexts, shard images, loads and repairs, switching, and
the zero fills of released blocks.
-/
namespace Sys2Proof.Machine
open Host (Outcome)

/-! ## Contexts (11 R345-R347) -/

/-- CONTEXT_CREATE (11 R346). -/
def execContextCreate (src : SrcIx) (s : State) : Outcome State Fault Refusal :=
  commandRow s src.val 0x10 fun c =>
    let k := cb c 0x10 1
    let p := cb c 0x11 1
    if 15 < k ∨ 7 < p then answer s src.val c stBadParameter 0
    else if (ctxOf s k).state ≠ .free then answer s src.val c stContextBusy 0
    else if (tfind s.sec.stateRec.pubs p).isNone then answer s src.val c stNoPublisher 0
    else answer (modCtx s k fun _ => { state := .created, slot := p, used := s.clk.master.toNat }) src.val c stSuccess 0

/-- A live run has a heat that names context `k` and has not ended (11 R347). -/
def ctxNamed (s : State) (k : Nat) : Bool := (liveHeats s).any fun e => (hdOf s e.1 e.2.1).ctx == k && !e.2.2.phase.ended

/-- A load or repair of context `k` is queued or running. -/
def ctxLoading (s : State) (k : Nat) : Bool := s.ctxs.loads.any fun j => j.ctx == k

/-- No live run binds a generation of context `k` any more: a later context of the same number is another (11 R357, R359). -/
def unbind (s : State) (k : Nat) : State :=
  { s with str := { s.str with runs := s.str.runs.map fun p => (p.1, { p.2 with gens := tdel p.2.gens k }) } }

/-- Evict context `k`: both generations are released, and everything about it is forgotten, its mark included (11 R347). -/
def evictCtx (s : State) (k : Nat) : State :=
  let s1 := unbind (modCtx (releaseGen (releaseGen s k false) k true) k fun _ => {}) k
  { s1 with flt := { s1.flt with faulted := clrBit s1.flt.faulted k } }

/-- EVICT (11 R347). -/
def execEvict (src : SrcIx) (s : State) : Outcome State Fault Refusal :=
  commandRow s src.val 0x14 fun c =>
    let k := cb c 0x10 1
    if 15 < k then answer s src.val c stBadParameter 0
    else if (ctxOf s k).state = .free then answer s src.val c stNoContext 0
    else if ctxNamed s k || ctxLoading s k then answer s src.val c stContextBusy 0
    else answer (evictCtx s k) src.val c stSuccess 0

/-! ## Generations (11 R355-R359) -/

/-- GENERATION_SWITCH on one slot: READY becomes CURRENT, CURRENT becomes RETIRING (11 R358). -/
def Gen.switch (g : Gen) : Gen :=
  match g.state with
  | .ready => { g with state := .current }
  | .current => { g with state := .retiring }
  | .empty | .loading | .retiring => g

/-- The READY generation of a context. -/
def readyGen (x : Ctx) : Option Gen := if x.g0.state = .ready then some x.g0 else if x.g1.state = .ready then some x.g1 else none

/-- GENERATION_SWITCH (11 R358, R359). -/
def execGenerationSwitch (src : SrcIx) (s : State) : Outcome State Fault Refusal :=
  commandRow s src.val 0x13 fun c =>
    let k := cb c 0x10 1
    if haltRefuses s then answer s src.val c stHalted 0
    else if 15 < k then answer s src.val c stBadParameter 0
    else if (ctxOf s k).state = .free then answer s src.val c stNoContext 0
    else match readyGen (ctxOf s k) with
      | none => answer s src.val c stNotReady 0
      | some g =>
        if g.num = cb c 0x11 1 ∧ g.complete = true then
          answer (releaseRetired (modCtx s k fun x => bothGens x Gen.switch) k) src.val c stSuccess 0
        else answer s src.val c stNotReady 0

/-! ## The shard image (11 R360-R365) -/

def shGrade (m : Mem) : Nat := mrd m 5 1
def shModel (m : Mem) : BitVec 128 := BitVec.ofNat 128 (mrd m 8 16)
def shVersion (m : Mem) : Nat := mrd m 0x18 4
def shSegs (m : Mem) : Nat := mrd m 0x20 4
def shTiles (m : Mem) : Nat := mrd m 0x24 4
def shStream (m : Mem) : Nat := mrd m 0x28 8
def shStreamAt (m : Mem) : Nat := mrd m 0x30 8
def shKeysAt (m : Mem) : Nat := mrd m 0x38 4
def shBytes (m : Mem) : Nat := mrd m 0x3C 4

/-- MANIFEST_BYTES for a number of segments (11 R361). -/
def manifestBytes (segs : Nat) : Nat := 0x6D00 + 64 * segs

/-- BLOCK_MAP entry of logical seat `l` of crew `q`, 96 bits (11 R362). -/
def shBlocks (m : Mem) (q l : Nat) : Nat := mrd m (0x100 + 12 * (24 * q + l)) 12

/-- Entry `i` of the segment table: SHA-384 of the ciphertext, and GCM tag (11 R363). -/
def shSegment (m : Mem) (i : Nat) : BitVec 384 × BitVec 128 :=
  (BitVec.ofNat 384 (mrd m (0x6D00 + 64 * i) 48), BitVec.ofNat 128 (mrd m (0x6D00 + 64 * i + 48) 16))

/-- ENTRY_COUNT of the key block, none where its header is not one (11 R364). -/
def keyEntries (m : Mem) : Option Nat :=
  let a := shKeysAt m
  let n := mrd m (a + 4) 2
  if mrd m a 4 = 0x4E574B42 ∧ 1 ≤ n ∧ n ≤ 4096 then some n else none

/-- Two extents of the image overlap. -/
def extentsMeet (a n b k : Nat) : Bool := decide (a < b + k ∧ b < a + n)

/-- The header is not one of 11 R361, or the image is longer than its source (11 R370 step 2). The key block's own header is judged with
the key. -/
def manifestBad (m : Mem) (len : Nat) : Bool :=
  let n := shSegs m
  let keys := 64 + 1728 * (keyEntries m).getD 0
  mrd m 0 4 != 0x4E57534D || mrd m 4 1 != 1 || decide (2 < shGrade m) || mrd m 6 2 != 0 || mrd m 0x44 188 != 0 ||
  decide (mrd m 0x1E 2 = 0) || decide (4096 < mrd m 0x1E 2) || decide (mrd m 0x1E 2 ≤ mrd m 0x1C 2) ||
  decide (n = 0) || decide (16384 < n) || decide (shStream m < 1048576 * (n - 1) + 2272) || decide (1048576 * n < shStream m) ||
  decide (shStreamAt m % 4096 ≠ 0) || decide (shBytes m ≠ manifestBytes n) || decide (shKeysAt m % 64 ≠ 0) ||
  decide (shKeysAt m < shBytes m + 4096) || decide (shStreamAt m < shBytes m + 4096) ||
  extentsMeet (shKeysAt m) keys (shStreamAt m) (shStream m) ||
  decide (len < shStreamAt m + shStream m) || decide (len < shKeysAt m + keys) ||
  ((List.range 96).any fun q => (List.range 24).any fun l => decide (gradeSeats (shGrade m) ≤ l) && shBlocks m q l != 0)

/-- The manifest hash (11 R360). -/
def shHash (m : Mem) (n : Nat) : BitVec 384 := Config.sha384 (mbytes m 0 (manifestBytes n))

/-- Which signatures fail, as bits 1 (ECDSA) and 2 (LMS) of the reply's flags (11 R370 step 3, 13 R421). -/
def sigFlags (s : State) (k : Nat) (m : Mem) (n : Nat) : Nat :=
  match tfind s.sec.stateRec.pubs (ctxOf s k).slot with
  | none => 6
  | some p =>
    let h := shHash m n
    2 * b2n (!Config.ecdsaVerify p.1 h (sigAt m (manifestBytes n))) + 4 * b2n (!Config.lmsVerify p.2 h (lmsAt m (manifestBytes n + 96)))

/-- The ASCII string "Nywiell shard key" (11 R365). -/
def keyInfo : List Byte := [0x4E, 0x79, 0x77, 0x69, 0x65, 0x6C, 0x6C, 0x20, 0x73, 0x68, 0x61, 0x72, 0x64, 0x20, 0x6B, 0x65, 0x79]

/-- The content key of entry `a` of the key block (11 R365), none where the unwrap fails. -/
def unwrapEntry (s : State) (m : Mem) (a : Nat) (hash : BitVec 384) : Option (BitVec 256) :=
  let z := Config.ecdh s.sec.secret (BitVec.ofNat 776 (mrd m (a + 8) 97))
  let k := Config.kemOpen s.sec.secret (mbytes m (a + 0x69) 1568)
  let kek := Config.hkdf (bytesOf z.toNat 48 ++ bytesOf k.toNat 32) hash (keyInfo ++ bytesOf s.sec.keyId.toNat 8)
  Config.keyUnwrap kek (BitVec.ofNat 320 (mrd m (a + 0x689) 40))

/-- The first entry of the key block that is for this device (11 R365). -/
def keyEntry (s : State) (m : Mem) : Option Nat :=
  let at_ (i : Nat) : Nat := shKeysAt m + 64 + 1728 * i
  ((List.range ((keyEntries m).getD 0)).find? fun i => mrd m (at_ i) 8 == s.sec.keyId.toNat).map at_

/-! ## Allocation (11 R348, R353, R371) -/

/-- The plan blocks of a BLOCK_MAP entry, in ascending order. -/
def blockList (mask : Nat) : List Nat := (List.range 96).filter (bit mask)

/-- The block map by physical seat, as the seat map now stands; none where a seat is not present (11 R370 step 4). -/
def mapSeats (s : State) (m : Mem) : Option (List (Nat × List Nat)) :=
  let cells := (List.range 96).flatMap fun q => (List.range 24).map fun l => (q, l)
  (cells.filter fun p => shBlocks m p.1 p.2 != 0).mapM fun p => (physOf s p.1 p.2).map fun w => (w, blockList (shBlocks m p.1 p.2))

/-- Every generation of every context. -/
def allGens (s : State) : List Gen := s.ctxs.ctx.flatMap fun p => [p.2.g0, p.2.g1]

/-- The blocks of bank `b` of seat `w` that no generation holds; those that are being zero-filled count as free (11 R353). -/
def freeBlocks (s : State) (w b : Nat) : List Nat :=
  [3 * b, 3 * b + 1, 3 * b + 2].filter fun k => !((allGens s).any fun g => g.alloc.any fun p => p.1 / 96 == w && p.2 == k)

/-- Blocks that bank `b` of seat `w` lacks for the plan blocks `ps`. -/
def bankShort (s : State) (w : Nat) (ps : List Nat) (b : Nat) : Nat := (ps.filter fun p => p / 3 == b).length - (freeBlocks s w b).length

/-- Blocks that the whole allocation lacks. -/
def shortfall (s : State) (need : List (Nat × List Nat)) : Nat :=
  need.foldl (fun n e => (List.range 32).foldl (fun n b => n + bankShort s e.1 e.2 b) n) 0

/-- The allocation of one seat: in ascending plan block order, the lowest free block of the same bank (11 R353). -/
def allocSeat (s : State) (w : Nat) (ps : List Nat) : List (Nat × Nat) :=
  (List.range 32).flatMap fun b => ((ps.filter fun p => p / 3 == b).zip (freeBlocks s w b)).map fun p => (w * 96 + p.1, p.2)

/-- Contexts that may be evicted for a load of `k`, least recently used first, ties to the lower number (11 R371). -/
def eligible (s : State) (k : Nat) : List Nat :=
  let cs := (List.range 16).filter fun c => c != k && (ctxOf s c).state != .free && !ctxNamed s c && !ctxLoading s c
  cs.foldl (fun l c => (l.takeWhile fun d => decide ((ctxOf s d).used ≤ (ctxOf s c).used)) ++ c ::
    (l.dropWhile fun d => decide ((ctxOf s d).used ≤ (ctxOf s c).used))) []

/-- Evict each context of the list whose release lessens the shortfall, until it is gone (11 R371); the mask of those evicted. -/
def evictFor (s : State) (need : List (Nat × List Nat)) : List Nat → State × Nat
  | [] => (s, 0)
  | c :: cs =>
    if shortfall s need = 0 then (s, 0)
    else
      let t := evictCtx s c
      if shortfall t need < shortfall s need then
        let r := evictFor t need cs
        (r.1, r.2 + 2 ^ c)
      else evictFor s need cs

/-- Room for a load of context `k`: the state after any eviction, and the mask; none without room (11 R353, R371). -/
def makeRoom (s : State) (k : Nat) (need : List (Nat × List Nat)) (may : Bool) : Option (State × Nat) :=
  if shortfall s need = 0 then some (s, 0)
  else if may = false then none
  else
    let es := eligible s k
    if shortfall (es.foldl evictCtx s) need = 0 then some (evictFor s need es) else none

/-! ## SHARD_LOAD (11 R370) -/

/-- Debug access is unlocked, or about to be (14 R443). -/
def debugOpen (s : State) : Bool := s.sec.unlocked || s.sec.unlockWait.isSome

/-- The image of a load or repair command: from a pool, or what the host's memory gave; else the refusal of its source (13 R416). -/
def loadImage (s : State) (c : Nat) (img : Option Mem) : Mem ⊕ Nat :=
  let half := cb c 0x12 1
  let off := cb c 0x18 8
  let len := cb c 0x20 8
  if bit (cb c 0x11 1) 1 then
    if 1 < half ∨ poolWindow < off + len then .inr stBadParameter
    else if halfBoated s half then .inr stHalfOff
    else if ((List.range 20).any fun g => decide (g * 0x4000000 < off + len ∧ off < (g + 1) * 0x4000000) && !segOpen (poolOf s half) (g * 0x4000000)) = true then
      .inr stSegmentAsleep
    else .inl (mslice (poolOf s half).mem off len)
  else match img with
    | some m => .inl m
    | none => .inr stHostAccess

/-- The source of a command is a pool whose half is in Easy: the command waits while the half wakes (09 R299, 12 R390). -/
def sourceAsleep (s : State) (c : Nat) : Bool := bit (cb c 0x11 1) 1 && decide (cb c 0x12 1 ≤ 1) && halfEasy s (cb c 0x12 1)

/-- The load engine is done with the job at the head of its queue. -/
def dropLoad (s : State) : State := { s with ctxs := { s.ctxs with loads := s.ctxs.loads.drop 1 } }

/-- A load or repair is answered without having run: `turn` says that its command has waited for its turn, so that the reply is late and
its place in the queue is given up (11 R370). -/
def loadAnswer (turn : Bool) (s : State) (src c status result : Nat) : State :=
  if turn then answerLate (dropLoad s) src (cCid c) status result else answer s src c status result

/-- A refused load; the four refusals of 15 R473 are logged. -/
def refuseLoadCommand (turn : Bool) (s : State) (src c k status result : Nat) : State :=
  let logged := status == stBadSignature || status == stNoKey || status == stKeyUnwrap || status == stRollback
  let r := { chipRec s 4 loadRefused (detail src 0 status (cCid c) 0) with ctx := BitVec.ofNat 8 k }
  loadAnswer turn (if logged then report s r else s) src c status result

/-- Job `j` runs at the load engine: in the place of the command that waited, or as a background command that has just begun (11 R370). -/
def runJob (turn : Bool) (s : State) (src : Nat) (j : LoadJob) : State :=
  if turn then { s with ctxs := { s.ctxs with loads := j :: s.ctxs.loads.drop 1 } }
  else goBackground { s with ctxs := { s.ctxs with loads := s.ctxs.loads ++ [j] } } src

/-- A command waits for its turn at the load engine: loads and repairs run one at a time, in the order of their acceptance (11 R370). -/
def queueLoad (s : State) (src c : Nat) (repair : Bool) : State :=
  let j : LoadJob := { repair := repair, waiting := some c, ctx := cb c 0x10 1, src := src, cid := cCid c, gen := if repair then cb c 0x13 1 else 0 }
  goBackground { s with ctxs := { s.ctxs with loads := s.ctxs.loads ++ [j] } } src

/-- The command of source `src` and opcode `op` whose turn at the load engine has come (11 R370). -/
def loadTurn (s : State) (src op : Nat) : Option Nat :=
  match s.ctxs.loads with
  | [] => none
  | j :: _ => if s.glb.fw = .ready ∧ j.src = src ∧ mayReply s src = true then j.waiting.filter fun c => cOpcode c == op else none

/-- A row of the load engine: the command whose turn has come, or else the one that `src` has read. -/
def loadRow (s : State) (src op : Nat) (f : Bool → Nat → State) : Outcome State Fault Refusal :=
  match loadTurn s src op with
  | some c => .next (f true c)
  | none => commandRow s src op (f false)

/-- What a load carries: key, segment table, stream. -/
def newJob (c src k gen : Nat) (m : Mem) (key : BitVec 256) (todo : List Nat) : LoadJob :=
  { ctx := k, gen := gen, src := src, cid := cCid c, todo := todo, key := key, nonce := BitVec.ofNat 32 (mrd m 0x40 4), stream := shStream m,
    table := (List.range (shSegs m)).map (shSegment m),
    pool := if bit (cb c 0x11 1) 1 then some (cb c 0x12 1, cb c 0x18 8 + shStreamAt m) else none }

/-- The next generation number of a context (11 R356). -/
def nextGen (x : Ctx) : Nat := x.lastGen % 255 + 1

/-- The load is accepted: the generation enters LOADING in the EMPTY slot, and its segments are queued (11 R356, R370). -/
def startLoad (turn : Bool) (s : State) (src c k : Nat) (m : Mem) (need : List (Nat × List Nat)) (mask : Nat) (key : BitVec 256) : State :=
  let n := nextGen (ctxOf s k)
  let g : Gen :=
    { state := .loading, num := n, alloc := need.flatMap fun e => allocSeat s e.1 e.2, hash := shHash m (shSegs m), model := shModel m,
      version := shVersion m, segs := shSegs m, tiles := shTiles m }
  let s1 := modCtx s k fun x =>
    let x := { x with state := .resident, lastGen := n }
    if x.g0.state = .empty then { x with g0 := g } else { x with g1 := g }
  runJob turn s1 src { newJob c src k n m key (List.range (shSegs m)) with evicted := mask }

/-- Steps 2 to 6 of a load of context `k` (11 R370). -/
def checkLoad (turn : Bool) (s : State) (src c k : Nat) (m : Mem) : State :=
  let x := ctxOf s k
  let n := shSegs m
  if manifestBad m (cb c 0x20 8) then loadAnswer turn s src c stBadManifest 0
  else if sigFlags s k m n ≠ 0 then refuseLoadCommand turn s src c k stBadSignature (2 ^ 16 * sigFlags s k m n)
  else if shGrade m ≠ s.glb.grade.toNat then loadAnswer turn s src c stWrongGrade 0
  else if x.model.isSome ∧ x.model ≠ some (shModel m) then loadAnswer turn s src c stWrongModel 0
  else if shVersion m < x.version then refuseLoadCommand turn s src c k stRollback 0
  else match mapSeats s m with
    | none => loadAnswer turn s src c stSeatsUnavailable 0
    | some need =>
      match makeRoom s k need (bit (cb c 0x11 1) 0) with
      | none => loadAnswer turn s src c stNoSpace 0
      | some r =>
        match keyEntry s m with
        | none => refuseLoadCommand turn r.1 src c k stNoKey (2 ^ 96 * r.2)
        | some a =>
          match unwrapEntry s m a (shHash m n) with
          | none => refuseLoadCommand turn r.1 src c k stKeyUnwrap (2 ^ 96 * r.2)
          | some key => startLoad turn r.1 src c k m need r.2 key

/-- SHARD_LOAD (11 R356, R370, R371, 12 R397, 14 R440, R443). `img` is the image from its first byte to the end of its key block, none where
the host's memory cannot be read. Behind another load the command waits, and takes R370's steps when its turn comes (log entry 70). -/
def execShardLoad (src : SrcIx) (img : Option Mem) (s : State) : Outcome State Fault Refusal :=
  loadRow s src.val 0x11 fun turn c =>
    let k := cb c 0x10 1
    if haltRefuses s then loadAnswer turn s src.val c stHalted 0
    else if debugOpen s then loadAnswer turn s src.val c 0x59 0
    else if 15 < k ∨ 3 < cb c 0x11 1 then loadAnswer turn s src.val c stBadParameter 0
    else if s.glb.gradeValid = false then loadAnswer turn s src.val c stWrongGrade 0
    else if (ctxOf s k).state = .free then loadAnswer turn s src.val c stNoContext 0
    else if turn = false ∧ ctxLoading s k = true then answer s src.val c stLoadBusy 0
    else if turn = false ∧ s.ctxs.loads ≠ [] then queueLoad s src.val c false
    else if (ctxOf s k).g0.state ≠ .empty ∧ (ctxOf s k).g1.state ≠ .empty then loadAnswer turn s src.val c stGenerationBusy 0
    else if sourceAsleep s c then holdRead s (cb c 0x12 1)
    else match loadImage s c img with
      | .inr st => loadAnswer turn s src.val c st 0
      | .inl m => checkLoad turn s src.val c k m

/-! ## TILE_REPAIR (11 R374) -/

/-- The segments that a repair names. -/
def repairList (c segs : Nat) : List Nat :=
  if bit (cb c 0x11 1) 0 then List.range segs else (List.range (cb c 0x14 1)).map fun i => cb c (0x28 + 2 * i) 2

/-- A repair's checks on its image, for generation `g` of context `k`. -/
def checkRepair (turn : Bool) (s : State) (src c k : Nat) (g : Gen) (m : Mem) : State :=
  if shHash m g.segs ≠ g.hash then loadAnswer turn s src c stWrongManifest 0
  else if manifestBad m (cb c 0x20 8) then loadAnswer turn s src c stBadManifest 0
  else if sigFlags s k m g.segs ≠ 0 then refuseLoadCommand turn s src c k stBadSignature (2 ^ 16 * sigFlags s k m g.segs)
  else match keyEntry s m with
    | none => refuseLoadCommand turn s src c k stNoKey 0
    | some a =>
      match unwrapEntry s m a g.hash with
      | none => refuseLoadCommand turn s src c k stKeyUnwrap 0
      | some key => runJob turn s src { newJob c src k g.num m key (repairList c g.segs) with repair := true }

/-- TILE_REPAIR (11 R370, R374, 12 R397); behind another load it waits (log entry 70). -/
def execTileRepair (src : SrcIx) (img : Option Mem) (s : State) : Outcome State Fault Refusal :=
  loadRow s src.val 0x12 fun turn c =>
    let k := cb c 0x10 1
    if haltRefuses s then loadAnswer turn s src.val c stHalted 0
    else if 15 < k ∨ 3 < cb c 0x11 1 ∨ 12 < cb c 0x14 1 then loadAnswer turn s src.val c stBadParameter 0
    else if (ctxOf s k).state = .free then loadAnswer turn s src.val c stNoContext 0
    else if turn = false ∧ ctxLoading s k = true then answer s src.val c stLoadBusy 0
    else if turn = false ∧ s.ctxs.loads ≠ [] then queueLoad s src.val c true
    else match genNum s k (cb c 0x13 1) with
      | none => loadAnswer turn s src.val c stNoGeneration 0
      | some g =>
        if (repairList c g.segs).any fun i => decide (g.segs ≤ i) then loadAnswer turn s src.val c stBadParameter 0
        else if sourceAsleep s c then holdRead s (cb c 0x12 1)
        else match loadImage s c img with
          | .inr st => loadAnswer turn s src.val c st 0
          | .inl m => checkRepair turn s src.val c k g m

/-! ## Segments and records (11 R366-R368, R372) -/

/-- Length of segment `i` (11 R366). -/
def segLen (j : LoadJob) (i : Nat) : Nat := min 1048576 (j.stream - 1048576 * i)

/-- The nonce of segment `i`: NONCE_PREFIX, then `i` as an 8-byte big-endian integer (11 R366). -/
def segNonce (j : LoadJob) (i : Nat) : List Byte := bytesOf j.nonce.toNat 4 ++ (bytesOf i 8).reverse

/-- Where a record goes: seat and physical granule; none where a check of 11 R368 fails. `a` is the record's offset. -/
def recordPlace (s : State) (g : Gen) (m : Mem) (a : Nat) : Option (Nat × Nat) :=
  let q := mrd m (a + 2) 1 * 48 + mrd m (a + 3) 1
  let p := mrd m (a + 8) 4
  let t := mslice m (a + 32) 2240
  let tag := tileTag t kindWeight
  if mrd m a 2 ≠ 0x5754 ∨ 1 < mrd m (a + 2) 1 ∨ 47 < mrd m (a + 3) 1 ∨ mrd m (a + 5) 3 ≠ 0 ∨ mrd m (a + 12) 20 ≠ 0 ∨ 989 < p % 1024 ∨ 96 ≤ p / 1024 then none
  else if fld tag 0 20 ≠ 0x10000 ∨ 6 < fld tag 20 4 ∨ fld tag 48 16 ≠ 0 ∨ tileStored t kindWeight ≠ (tileCrc t kindWeight).toNat then none
  else (physOf s q (mrd m (a + 4) 1)).bind fun w => (tfind g.alloc (w * 96 + p / 1024)).map fun b => (w, b * 1024 + p % 1024)

/-- The tile as it is written: CONTEXT, GENERATION and a fresh CRC (11 R368). -/
def stampTile (t : Mem) (k gen : Nat) : Mem :=
  let m1 := mwr t 0x880 2 (k + 256 * gen)
  mwr m1 0x89C 4 (tileCrc m1 kindWeight).toNat

/-- Hand a tile to the side port, granule by granule (05 R151, R173). -/
def storeTile (s : State) (w f : Nat) (t : Mem) : State :=
  modWst s w fun x => { x with work := x.work ++ (List.range 35).map fun i => .write (f + i) (mgran t i) }

/-- Process the records of a decrypted segment from number `i` on, at most `n` of them (11 R367, R368): the state, the tiles written, and
whether every check passed. -/
def walkRecords (g : Gen) (k : Nat) (m : Mem) (len : Nat) : Nat → Nat → State → List (Nat × Nat) → State × List (Nat × Nat) × Bool
  | 0, i, s, ts => (s, ts, (mslice m (2272 * i) (len - 2272 * i)).isEmpty)
  | n + 1, i, s, ts =>
    let a := 2272 * i
    if len < a + 2272 ∨ mrd m a 2 = 0 then (s, ts, (mslice m a (len - a)).isEmpty)
    else match recordPlace s g m a with
      | none => (s, ts, false)
      | some p => walkRecords g k m len n (i + 1) (storeTile s p.1 p.2 (stampTile (mslice m (a + 32) 2240) k g.num)) (ts ++ [p])

/-- Bytes as a memory of their own, from address 0. -/
def memOf (bs : List Byte) : Mem := ((bs.zipIdx).filter fun p => p.1 != 0).map fun p => (p.2, p.1)

/-- Change the running load. -/
def modLoad (s : State) (f : LoadJob → LoadJob) : State :=
  { s with ctxs := { s.ctxs with loads := modAt f s.ctxs.loads 0 } }

/-- A segment whose ciphertext was right: its records are written, and its failure is cleared, or it fails with CONTENT (11 R367, R368,
R374). -/
def segPassed (s : State) (j : LoadJob) (g : Gen) (i : Nat) (plain : List Byte) : State :=
  let r := walkRecords g j.ctx (memOf plain) (segLen j i) 461 0 s []
  let s1 := modLoad r.1 fun j => { j with tiles := j.tiles ++ r.2.1 }
  if r.2.2 then modGenNum s1 j.ctx j.gen fun x => { x with failed := x.failed.filter fun p => p.1 != i, recs := tput x.recs i r.2.1.length }
  else segmentFails s1 j i segContent

/-- Process segment `i` of the running load from its ciphertext (11 R372). -/
def loadSegment (s : State) (j : LoadJob) (g : Gen) (i : Nat) (cipher : Option Mem) : State :=
  match cipher with
  | none => segmentFails s j i segMissing
  | some m =>
    let bs := mbytes m 0 (segLen j i)
    let t := j.table.getD i (0, 0)
    if Config.sha384 bs ≠ t.1 then segmentFails s j i segHash
    else match Config.gcmOpen j.key (segNonce j i) g.hash bs t.2 with
      | none => modLoad (j.todo.foldl (fun s n => segmentFails s j n segKeyMismatch) s) fun j => { j with todo := [] }
      | some plain => segPassed s j g i plain

/-- A block of the generation waits for its zero fill, or lies in a half in Boated, whose stores are filled when it wakes (11 R353, R354, 12
R391; log entry 70). -/
def genZeroing (s : State) (g : Gen) : Bool :=
  (g.alloc.any fun p => halfBoated s (halfOf (p.1 / 96))) || s.ctxs.zeroing.any fun b => g.alloc.any fun p => b == fillHalf (halfOf (p.1 / 96)) || b == p.1 / 96 * 96 + p.2

/-- The ciphertext of segment `i` from its source: a pool gives none where the half is off or a segment asleep. -/
def segSource (s : State) (j : LoadJob) (i : Nat) (img : Option Mem) : Option Mem :=
  match j.pool with
  | none => img
  | some (h, a) =>
    let lo := a + 1048576 * i
    if halfBoated s h || !segOpen (poolOf s h) lo || !segOpen (poolOf s h) (lo + segLen j i - 1) then none
    else some (mslice (poolOf s h).mem lo (segLen j i))

/-- LOAD_SEGMENT (11 R372): the running load processes its next segment. `img` is the ciphertext that the host's memory gave, none where the
read failed three times. -/
def execLoadSegment (img : Option Mem) (s : State) : Outcome State Fault Refusal :=
  match s.ctxs.loads with
  | [] => .next s
  | j :: _ =>
    match j.todo, genNum s j.ctx j.gen with
    | i :: rest, some g =>
      if genZeroing s g then .next s
      else match j.pool with
        | some (h, _) =>
          if halfEasy s h then .next (holdRead s h)
          else .next (loadSegment (modLoad s fun j => { j with todo := rest }) { j with todo := i :: rest } g i (segSource s j i img))
        | none => .next (loadSegment (modLoad s fun j => { j with todo := rest }) { j with todo := i :: rest } g i img)
    | _, _ => .next s

/-! ## The end of a load (11 R356, R367, R370, R373) -/

/-- Nothing that a load has written waits for the side port. -/
def writesLanded (s : State) : Bool := s.seats.all fun p => p.2.wst.work.all fun k => match k with
  | .write _ _ => false
  | .fill _ _ => true
  | .diag _ => true
  | .scrub _ _ => true

/-- Insert into a rising list. -/
def insertUp (n : Nat) : List Nat → List Nat
  | [] => [n]
  | x :: xs => if n < x then n :: x :: xs else if n = x then x :: xs else x :: insertUp n xs

/-- The tiles that a load wrote are resident: Snivan gives them to the scrubber (05 R176). -/
def giveExtents (s : State) (ts : List (Nat × Nat)) : State :=
  ts.foldl (fun s p => modWst s p.1 fun x => { x with extents := insertUp p.2 x.extents }) s

/-- TILE_COUNT is compared once no segment has failed (11 R367). -/
def checkCount (s : State) (j : LoadJob) (g : Gen) : State :=
  if g.failed.isEmpty ∧ g.recs.foldl (fun n p => n + p.2) 0 ≠ g.tiles then segmentFails s j (g.segs - 1) segContent else s

/-- LOADING ends: the generation is CURRENT where the context has none, else READY; MODEL_ID is fixed and the version record raised (11
R356, R370 step 8). -/
def settleLoad (s : State) (j : LoadJob) (g : Gen) : State :=
  let none_ := (currentGen (ctxOf s j.ctx)).isNone
  let s1 := modGenNum s j.ctx j.gen fun x => { x with state := if none_ then .current else .ready }
  modCtx s1 j.ctx fun x => { x with model := some (x.model.getD g.model), version := max x.version g.version }

/-- Failed segments of a generation, and the first of them, as the replies give them (13 R421). -/
def failedResult (g : Gen) : Nat :=
  let idx := (g.failed.map (·.1)).foldl min 0xFFFFFFFF
  pack [(16, 8, b2n g.complete), (32, 32, g.failed.length), (64, 32, idx)]

/-- SLOT_STATE of a reply (13 R421). -/
def slotState (g : Gen) : Nat := if g.state = .loading then 1 else if g.state = .ready then 2 else if g.state = .current then 3 else 0

/-- Snivan completes the running load: reply and effects at one moment (11 R370 step 8, R373, R374). -/
def finishLoad (s : State) (j : LoadJob) (g : Gen) : State :=
  let s1 := checkCount s j g
  let s2 := if j.repair then s1 else settleLoad s1 j g
  let s3 := giveExtents (dropLoad s2) j.tiles
  let g' := (genNum s3 j.ctx j.gen).getD {}
  let status := if j.stopped then stStopped else stSuccess
  if j.repair then answerLate s3 j.src j.cid status (failedResult g')
  else answerLate s3 j.src j.cid status (failedResult g' + pack [(0, 8, j.gen), (8, 8, slotState g'), (96, 16, j.evicted)])

/-- LOAD_COMPLETE (11 R370, R374): the running load has no segment left, and every write has landed. A repair whose generation has been
released meanwhile ends with NO_GENERATION (log entry 70). -/
def execLoadComplete (s : State) : Outcome State Fault Refusal :=
  match s.ctxs.loads with
  | [] => .next s
  | j :: _ =>
    if s.glb.fw = .ready ∧ j.waiting = none ∧ mayReply s j.src = true then
      match genNum s j.ctx j.gen with
      | none => .next (answerLate (dropLoad s) j.src j.cid stNoGeneration 0)
      | some g => if j.todo.isEmpty = true ∧ writesLanded s = true then .next (finishLoad s j g) else .next s
    else .next s

/-! ## Zero fills (11 R352, 12 R391, 14 R443) -/

/-- A debug token that waited for the zero fills takes effect: debug access is unlocked, and that is logged (14 R443, 15 R473). -/
def settleUnlock (s : State) : State :=
  match s.sec.unlockWait with
  | some sc =>
    if s.ctxs.zeroing.isEmpty then
      report { s with sec := { s.sec with unlockWait := none, unlocked := true, scope := sc } } (chipRec s 4 debugUnlock 0)
    else s
  | none => s

/-- A mark of the zero-fill list belongs to half `h`. -/
def fillIn (h b : Nat) : Bool := b == fillHalf h || (decide (b < 221184) && halfOf (b / 96) == h)

/-- Zero-fill writes into granules `lo` up to `hi` of a weight store have still to be made. -/
def fillDue (x : Seat) (lo hi : Nat) : Bool :=
  x.wst.work.any fun k => match k with
    | .fill f n => decide (f < hi ∧ lo < f + n)
    | .write _ _ => false
    | .diag _ => false
    | .scrub _ _ => false

/-- Block `b` of a weight store holds zeros in every granule, and no fill of it is due (11 R352). -/
def blockFilled (x : Seat) (b : Nat) : Bool := !fillDue x (1024 * b) (1024 * b + 1024) && (mslice x.store (65536 * b) 65536).isEmpty

/-- Every weight store of half `h` holds zeros, and no fill of one is due. -/
def storesFilled (s : State) (h : Nat) : Bool :=
  s.seats.all fun p => halfOf p.1 != h || (p.2.store.isEmpty && !fillDue p.2 0 98304)

/-- The mark `k` leaves the zero-fill list. -/
def fillDone (s : State) (k : Nat) : State := { s with ctxs := { s.ctxs with zeroing := s.ctxs.zeroing.filter (· != k) } }

/-- BLOCK_ZERO_FILL (11 R351, R352, 12 R391): the fill of one released block completes, or of the stores of a half that left Boated (k = 221184 +
half), once the side port has written every zero. The block is free again. A half in Easy or Boated fills nothing. -/
def execBlockZeroFill (k : Nat) (s : State) : Outcome State Fault Refusal :=
  if s.ctxs.zeroing.contains k = false then .next s
  else if k < 221184 then
    if refreshes s (k / 96) = true ∧ blockFilled (seatOf s (k / 96)) (k % 96) = true then .next (settleUnlock (fillDone s k)) else .next s
  else if refreshes s (1152 * (k - 221184)) = true ∧ storesFilled s (k - 221184) = true then .next (settleUnlock (fillDone s k))
  else .next s

end Sys2Proof.Machine
end

