-- ==== Sys2Proof/Machine/Pins.lean ====
section
/-!
DEFINITION. The pins (16 R480-R489, 12 R395-R397, 13 R401): reset and power-good, the host's fundamental reset, the two board inputs,
and the TAP.
-/
namespace Sys2Proof.Machine
open Host (Outcome)

/-! ## Reset (16 R480-R488) -/

/-- An instruction that the TAP holds only while debug access is unlocked, which a reset ends (14 R443, 16 R489). -/
def tapInReset : TapIr → TapIr
  | .other _ => .bypass
  | .bypass => .bypass
  | .idcode => .idcode
  | .samplePreload => .samplePreload
  | .extest => .extest
  | .extestPulse => .extestPulse
  | .extestTrain => .extestTrain
  | .clamp => .clamp
  | .highz => .highz

/-- An instruction of the boundary that the TAP holds only in reset (16 R489). -/
def tapInService : TapIr → TapIr
  | .extest | .extestPulse | .extestTrain | .clamp | .highz => .bypass
  | .bypass => .bypass
  | .idcode => .idcode
  | .samplePreload => .samplePreload
  | .other n => .other n

/-- An assertion of RESET_N is taken: everything is reset but the alert code, the board flash and what the board holds on the pins
(16 R487, 15 R465). What the host's memory received and the commands that wait are not the part's. -/
def resetPart (s : State) : State :=
  let r := State.reset
  { r with
    pending := s.pending, hostMem := s.hostMem, free := s.free,
    sec := { r.sec with flash := s.sec.flash },
    flt := { r.flt with alertPrev := if s.pins.reset then s.flt.alertPrev else s.flt.alert },
    pins := { r.pins with
      pwrgd := s.pins.pwrgd, perst := s.pins.perst, cold := s.pins.cold, strap := s.pins.strap, pufOk := s.pins.pufOk,
      tap := tapInReset s.pins.tap, tapCode := s.pins.tapCode } }

/-- RESET_N_ASSERT (16 R487): `ns` is how long the pin has been asserted; from 10 µs on the assertion is taken. -/
def execResetAssert (ns : Nat) (s : State) : Outcome State Fault Refusal :=
  .next (if ns < 10000 then s else resetPart s)

/-- The release of RESET_N takes effect (16 R486, R487, R490, 14 R443): the strap is sampled, the host complex and management lock,
the time base starts at 0, and the ROM draws its nonce and begins. -/
def releaseNow (s : State) : State :=
  let s1 := [98, 99].foldl (fun s d => modDom s d fun m => { m with locked := true }) s
  let s2 := { s1 with
    free := s1.free + 1,
    chain := { s1.chain with head := s1.pins.strap },
    pins := { s1.pins with reset := false, released := false, cold := false, link := !s1.pins.perst, tap := tapInService s1.pins.tap },
    glb := { s1.glb with nonce := Config.bootNonce s1.free, stage := 1 } }
  romBoot s2 (if s.pins.cold then 0 else 1) s.pins.pufOk

/-- A release that is held takes effect once all four power-good inputs are asserted (16 R482, R487). -/
def tryRelease (s : State) : State := if s.pins.reset = true ∧ s.pins.released = true ∧ s.pins.pwrgd = 0xF then releaseNow s else s

/-- RESET_N_RELEASE (16 R486, R487): `head` is the strap, `puf` whether the PUF will reconstruct, `flash` the contents of the board
flash where the board has changed them. That REFCLK has run for 100 µs is the step's own occasion. -/
def execResetRelease (flash : Option Flash) (puf head : Bool) (s : State) : Outcome State Fault Refusal :=
  if s.pins.reset = true ∧ s.pins.released = false then
    .next (tryRelease { s with
      sec := { s.sec with flash := flash.getD s.sec.flash },
      pins := { s.pins with released := true, strap := head, pufOk := puf } })
  else .next s

/-- PWRGD_ASSERT (16 R480): group `g` + 1 is good. -/
def execPwrgdAssert (g : Fin 4) (s : State) : Outcome State Fault Refusal :=
  .next (tryRelease { s with pins := { s.pins with pwrgd := setBit s.pins.pwrgd g.val } })

/-- Power-good `g` is lost: the part is in reset until it returns; RESET_N is released still if it was (16 R482). -/
def powerLost (s : State) (g : Nat) : State :=
  let s1 := resetPart s
  { s1 with pins := { s1.pins with
      pwrgd := clrBit s1.pins.pwrgd g, released := !s.pins.reset || s.pins.released,
      tap := if g = 0 ∨ g = 2 then tapInService s1.pins.tap else s1.pins.tap } }

/-- PWRGD_DEASSERT (16 R482): group `g` + 1 has not been good for `ns`. From 1 µs on it resets the part; a loss of PWRGD_AON loses
everything, the alert code included. -/
def execPwrgdDeassert (g : Fin 4) (ns : Nat) (s : State) : Outcome State Fault Refusal :=
  if g = 0 then
    let s1 := powerLost s 0
    .next { s1 with flt := { s1.flt with alertPrev := 0 }, pins := { s1.pins with cold := true, tap := .bypass } }
  else if ns < 1000 then .next s
  else .next (powerLost s g.val)

/-! ## The host's fundamental reset (13 R401, 16 R484) -/

/-- PERST_N_ASSERT: what a Function Level Reset does, and the link goes down. -/
def execPerstAssert (s : State) : Outcome State Fault Refusal :=
  let s1 := if s.pins.reset then s else functionReset s
  .next { s1 with pins := { s1.pins with perst := true, link := false } }

/-- PERST_N_DEASSERT: the link trains, once the host complex's generator has locked. -/
def execPerstDeassert (s : State) : Outcome State Fault Refusal :=
  .next { s with pins := { s.pins with perst := false, link := (domOf s 98).locked } }

/-! ## HALT_N and PWR_LIMIT_N (12 R395-R397, 16 R488) -/

/-- HALT_N_ASSERT (12 R395, R397): from 1 µs on the assertion is qualified: a chip weigh-enough, and a fleet's with PWR_HALT_FLEET.
One that comes after a qualified deassertion, while the input is still treated as asserted, is chatter. -/
def execHaltAssert (ns : Nat) (s : State) : Outcome State Fault Refusal :=
  if s.pins.reset = true ∨ ns < 1000 then .next s
  else if s.pwr.haltActive then
    .next (if s.pwr.haltLoose then { s with pwr := { s.pwr with haltLoose := false, haltChatter := satInc s.pwr.haltChatter } } else s)
  else
    let s1 := boardHalt { s with pwr := { s.pwr with haltActive := true, haltLoose := false } } weHaltN
    .next (if s1.pwr.haltFleet then fleetHalt s1 else s1)

/-- HALT_N_DEASSERT (12 R395): qualified from 1 µs on; from 100 µs on the input is treated as deasserted. -/
def execHaltDeassert (ns : Nat) (s : State) : Outcome State Fault Refusal :=
  if s.pins.reset = true ∨ ns < 1000 ∨ s.pwr.haltActive = false then .next s
  else if ns < 100000 then .next { s with pwr := { s.pwr with haltLoose := true } }
  else .next { s with pwr := { s.pwr with haltActive := false, haltLoose := false } }

/-- PWR_LIMIT_N_ASSERT (12 R395, R396): a stop in progress toward a faster step is retargeted; the others follow as the hardware row
of 12 R378 takes hold. -/
def execLimitAssert (ns : Nat) (s : State) : Outcome State Fault Refusal :=
  if s.pins.reset = true ∨ ns < 1000 then .next s
  else if s.pwr.limitActive then
    .next (if s.pwr.limitLoose then { s with pwr := { s.pwr with limitLoose := false, limitChatter := satInc s.pwr.limitChatter } } else s)
  else .next ((List.range 96).foldl retarget { s with pwr := { s.pwr with limitActive := true, limitLoose := false } })

/-- PWR_LIMIT_N_DEASSERT (12 R395, R396). -/
def execLimitDeassert (ns : Nat) (s : State) : Outcome State Fault Refusal :=
  if s.pins.reset = true ∨ ns < 1000 ∨ s.pwr.limitActive = false then .next s
  else if ns < 100000 then .next { s with pwr := { s.pwr with limitLoose := true } }
  else .next { s with pwr := { s.pwr with limitActive := false, limitLoose := false } }

/-! ## Boundary scan (16 R489) -/

/-- IDCODE: stepping, part number 0x2300, manufacturer code, 1. -/
def idcode : Word := Config.idStepping ++ (0x2300 : BitVec 16) ++ Config.jedecCode ++ (1 : BitVec 1)

/-- The boundary instructions are available: RESET_N asserted, with groups 1 and 3 up. -/
def boundaryFree (s : State) : Bool := s.pins.reset && s.pins.pwrgd.getLsbD 0 && s.pins.pwrgd.getLsbD 2

/-- The instruction that the TAP loads for `ir`. -/
def tapLoads (s : State) (ir : TapIr) : TapIr :=
  match ir with
  | .bypass | .idcode | .samplePreload => ir
  | .extest | .extestPulse | .extestTrain | .clamp | .highz => if boundaryFree s then ir else .bypass
  | .other _ => if s.sec.unlocked && s.sec.scope.getLsbD 0 then ir else .bypass

/-- TAP_INSTRUCTION (16 R489). -/
def execTapInstruction (ir : TapIr) (s : State) : Outcome State Fault Refusal :=
  .next { s with pins := { s.pins with
    tap := tapLoads s ir, tapCode := if ir = .idcode then idcode else s.pins.tapCode } }

end Sys2Proof.Machine
end

