-- ==== Sys2Proof/Machine/Startup.lean ====
section
/-!
DEFINITION. Start-up (16 R488-R493, 14 R439-R441): the stages that follow the ROM, the grade record and the fence log.
-/
namespace Sys2Proof.Machine
open Host (Outcome)

/-- Start-up stands at the end of stage `n`: a Snivan that has not failed it brings it further (16 R490). -/
def startupAt (s : State) (n : Nat) : Bool := s.glb.fw == .starting && s.glb.stage == n && !s.glb.startFailed

/-- A failure stops start-up where it stands, and Snivan becomes ready at once (16 R491). -/
def startupFails (s : State) : State := becomeReady { s with glb := { s.glb with startFailed := true } }

/-- Enter stage `n`. -/
def toStage (s : State) (n : Nat) : State := { s with glb := { s.glb with stage := n } }

/-! ## Rails and clocks (16 R488, R490) -/

/-- The step at which the crews and the seam lock (16 R488). -/
def startStep (s : State) : Nat := if s.pwr.limitActive then limitStep s else 0

/-- Domain `d` locks at step `i`, and its copy of the time base starts from the master. -/
def lockDomain (i : Nat) (s : State) (d : Nat) : State :=
  modDom s d fun m =>
    { m with locked := true, stop := .none, frozen := none, step := if d ≤ 96 then i else 0, offset := s.clk.master - BitVec.ofNat 64 s.clk.ticks }

/-- RAILS_AND_CLOCKS: both rails are set and settle, and the crews, the seam and the fabric complex lock. `bad` lists the domains whose
generators fail to lock within 1 ms. -/
def execRailsAndClocks (bad : List Nat) (s : State) : Outcome State Fault Refusal :=
  if startupAt s 2 then
    let i := startStep s
    let v := needMv s i
    let s1 := { s with pwr := { s.pwr with want := [v, v], supply := [v, v], vdd := [v, v] } }
    let s2 := (List.range 98).foldl (lockDomain i) s1
    let failed := (List.range 98).filter fun d => bad.contains d
    if failed.isEmpty then .next (toStage s2 3) else .next (startupFails (failed.foldl unlockDomain s2))
  else .next s

/-! ## Crossings, memories and seats (16 R490, R491) -/

/-- The least and the greatest calibrated latency of the crossing FIFOs (09 R302). -/
def latencyRange (s : State) : Nat × Nat :=
  fifos.foldl (fun r k => let l := latencyOf s k; (min r.1 l, max r.2 l)) (latencyOf s (fifos.headD 0), 0)

/-- CROSSING_CALIBRATION (09 R296): each crossing FIFO's latency, `base` but for those that `lats` lists by key 16 × router + port. Outside
3-6 cycles the failure is logged as CLK_UNLOCK with domain `d`, and no clock stops. -/
def execCrossingCalibration (base : Nat) (lats : Tbl Nat) (d : DomIx) (s : State) : Outcome State Fault Refusal :=
  if startupAt s 3 then
    let r := latencyRange { s with noc := { s.noc with latBase := base, lat := lats } }
    let s1 := { s with noc := { s.noc with latBase := base, lat := lats, minLat := r.1, maxLat := r.2, xing := [] } }
    if 3 ≤ r.1 ∧ r.2 ≤ 6 then .next (toStage s1 4)
    else .next (startupFails (raiseAlert (chipHalt s1 5 clkUnlockCode (detail d.val (domOf s d.val).tj.toNat 0 0 0)) 6 true))
  else .next s

/-- Mark the seats of `bad` failed. -/
def markFailed (s : State) (bad : List Nat) : State :=
  ((List.range 2304).filter fun w => bad.contains w).foldl (fun s w => modSeat s w fun x => { x with failed := true }) s

/-- The segment `g` of half `h` has failed training: it stays off. -/
def segmentDead (s : State) (h g : Nat) : State :=
  modPool s h fun p => { p with dead := setBit p.dead g, on := clrBit p.on g, ready := clrBit p.ready g }

/-- DRAM_TRAINING: `bad` lists the seats whose banks fail, and 2304 + 20 × half + segment for a pool segment that fails. -/
def execDramTraining (bad : List Nat) (s : State) : Outcome State Fault Refusal :=
  if startupAt s 4 then
    let segs := (List.range 40).filter fun k => bad.contains (2304 + k)
    .next (toStage (segs.foldl (fun s k => segmentDead s (k / 20) (k % 20)) (markFailed s bad)) 5)
  else .next s

/-- Self-test leaves zeros in a seat's SRAM and landing block. -/
def Seat.tested (x : Seat) : Seat :=
  { x with core := [], desc := [], vec := { x.vec with opc := [] }, lnd := { x.lnd with ctr := [], flag := [] } }

/-- SEAT_SELF_TEST: `bad` lists the seats that fail. -/
def execSeatSelfTest (bad : List Nat) (s : State) : Outcome State Fault Refusal :=
  if startupAt s 5 then
    .next (toStage (markFailed { s with seats := s.seats.map fun p => (p.1, p.2.tested) } bad) 6)
  else .next s

/-! ## The grade record (14 R439-R441, 00 R1-R3) -/

/-- GRADE of the record. -/
def recGrade (s : State) : Nat := mrd s.sec.flash.grade 5 1

/-- The record disables physical seat `p` of crew `q`. -/
def recDisables (s : State) (q p : Nat) : Bool := bit (mrd s.sec.flash.grade (0x20 + 4 * q) 4) p

/-- The enabled physical seats of crew `q` by the record: as many as the grade needs, the lowest first; none where the record fails its
check (00 R3, 14 R440). -/
def recSeats (s : State) (q : Nat) : List Nat := ((List.range 24).filter fun p => !recDisables s q p).take (gradeSeats (recGrade s))

/-- The grade record passes its check (14 R440). -/
def gradePasses (s : State) : Bool :=
  s.glb.recordOk && (List.range 96).all fun q => decide (gradeSeats (recGrade s) ≤ (recSeats s q).length)

/-- Write the disabled marks: every seat that `keep` does not hold. -/
def disableSeats (s : State) (keep : Nat → List Nat) : State :=
  ((List.range 2304).filter fun w => !(keep (w / 24)).contains (w % 24)).foldl (fun s w => modSeat s w fun x => { x with disabled := true }) s

/-- The fence log up to the first entry whose SEQ or signature is wrong (14 R441). -/
def validFences (s : State) : List FenceEnt :=
  ((s.sec.flash.fences.zipIdx).takeWhile fun p =>
    p.1.seq == p.2 && Config.ecdsaVerify (Config.attestKey s.sec.secret) (fenceHash s p.1) p.1.sig).map (·.1)

/-- A fence of the log is applied: it is marked in the map. -/
def applyFence (s : State) (e : FenceEnt) : State :=
  let u := e.unit.toNat
  if uCrew u < 48 ∧ uSeat u < 24 then modMap s (uQ u) fun m => { m with fenced := setBit m.fenced (uSeat u) } else s

/-- The fence log is applied; an entry that ends it is logged (14 R441). -/
def applyFences (s : State) : State :=
  let good := validFences s
  let s1 := good.foldl applyFence s
  if good.length < s.sec.flash.fences.length then report s1 (chipRec s1 4 fenceLogBad 0) else s1

/-- The record of a seat that failed self-test or training (15 R453, R454, R496): PHYS, and no unit, since no map gives the seat a
logical number yet; the seat is fenced for it. -/
def selfTestRec (s : State) (w : Nat) : Record :=
  let r := (chipRec s 4 seatSelfTestCode (detail 0 0 0 noWord 0)).ofSeat 0 w
  { r with flags := r.flags ||| 4 }

/-- A seat that failed, and is neither disabled nor fenced, is fenced with cause SELF_TEST (14 R440). -/
def fenceFailed (s : State) (w : Nat) : State :=
  if (seatOf s w).failed = true ∧ fenceNeedless s w = false then recordFence (fenceOne (report s (selfTestRec s w)) w) w 2 else s

/-- The seat map is first written, with every fence in force (09 R282). -/
def writeMap (s : State) : State :=
  (List.range 96).foldl (fun s q => modMap s q fun m => { m with phys := crewSeats s q, due := false }) s

/-- The grade record and the fence log are checked and applied (14 R440). -/
def applyGrade (s : State) : State :=
  if gradePasses s then
    let s1 := { s with glb := { s.glb with grade := BitVec.ofNat 8 (recGrade s), gradeValid := true } }
    let s2 := applyFences (disableSeats s1 (recSeats s1))
    writeMap ((s2.seats.map (·.1)).foldl fenceFailed s2)
  else disableSeats { s with glb := { s.glb with grade := 0xFF, gradeValid := false } } fun _ => []

/-- FILL_AND_GRADE: stores and pools are zero, the record is applied, the rails are set for the crews' steps, Snivan is ready, and the
head takes node 0 as enumeration begins (16 R490, 14 R448). -/
def execFillAndGrade (s : State) : Outcome State Fault Refusal :=
  if startupAt s 6 then
    let s1 := { s with
      seats := s.seats.map fun p => (p.1, { p.2 with store := [] }), pools := s.pools.map fun p => (p.1, { p.2 with mem := [] }) }
    let s2 := applyGrade s1
    let s3 := [0, 1].foldl (fun s h => setRail s h (needMv s (lowestSoft s h))) s2
    let s4 := serveReady (toStage s3 7)
    .next (if s4.chain.head then takeNode s4 0 else s4)
  else .next s

/-! ## Ready (16 R490, R493) -/

/-- A port no longer keeps the device from Ready: ACTIVE, DOWN, or 50 ms, five million ticks, in DETECT. -/
def portSettled (s : State) (p : Nat) : Bool :=
  let x := portOf s p
  !x.en || x.state == .active || x.state == .down || (x.state == .detect && decide (s.glb.stageTick + 5000000 ≤ s.clk.ticks))

/-- FABRIC_TRAINING_END: the device is ready, and each ceiling takes effect (12 R378, R380). -/
def execFabricTrainingEnd (s : State) : Outcome State Fault Refusal :=
  if s.glb.stage = 8 ∧ ((List.range 12).all (portSettled s)) = true then
    .next (lowerRails { s with glb := { s.glb with stage := 9, ready := true, readyTime := s.clk.master.setWidth 32 } })
  else .next s

end Sys2Proof.Machine
end

