-- ==== Sys2Proof/Machine/Trust.lean ====
section
/-!
DEFINITION. Identity and trust (14): attestation, firmware and the other signed images, Snivan's restarts, recovery, the I3C port and
IDE.
-/
namespace Sys2Proof.Machine
open Host (Outcome)

/-! ## Status codes of 14 R446 -/

abbrev stImageFormat : Nat := 0x50
abbrev stUpdateBusy : Nat := 0x55
abbrev stFlashWrite : Nat := 0x56
abbrev stLmsExhausted : Nat := 0x57

/-! ## Attestation (14 R444, R445) -/

/-- Signatures that one LMS tree gives (14 R445). -/
abbrev treeSize : Nat := 1048576

/-- The 128 bytes of a fence log entry (14 R441). -/
def fenceEntry (e : FenceEnt) : List Byte := fenceBytes e ++ bytesOf e.sig.toNat 96 ++ bytesOf 0 8

/-- GRADE_HASH of the report (14 R444). -/
def gradeHash (s : State) : BitVec 384 :=
  Config.sha384 (mbytes s.sec.flash.grade 0 0x200 ++ (validFences s).flatMap fenceEntry)

/-- The generation that is CURRENT, and the other one where it is live. -/
def genPair (x : Ctx) : Gen × Gen := if x.g1.state = .current then (x.g1, x.g0) else if x.g0.state = .current then (x.g0, x.g1) else
  ({}, if x.g0.state = .empty then x.g1 else x.g0)

/-- The 80 bytes of context `k` in the report (14 R444): the states count 0 FREE, 1 CREATED, 2 RESIDENT. -/
def ctxEntry (s : State) (k : Nat) : List Byte :=
  let x := ctxOf s k
  let p := genPair x
  if x.state = .free then bytesOf 0 80
  else bytesOf (if x.state = .created then 1 else 2) 1 ++ bytesOf p.1.num 1 ++ bytesOf p.2.num 1 ++ bytesOf x.slot 1 ++ bytesOf 0 4 ++
    bytesOf (x.model.getD 0).toNat 16 ++ bytesOf x.version 4 ++ bytesOf 0 4 ++ bytesOf p.1.hash.toNat 48

/-- Bytes 0x000-0x5BF of the report (14 R444). -/
def reportBody (s : State) (nonce index : Nat) : List Byte :=
  let r := s.sec.stateRec
  let flags := b2n s.glb.recovery + 2 * b2n s.sec.unlocked + 4 * b2n s.glb.gradeValid + 8 * b2n s.glb.trial
  bytesOf 0x4E574154 4 ++ bytesOf 1 1 ++ bytesOf (if s.glb.gradeValid then s.glb.grade.toNat else 0xFF) 1 ++
    bytesOf (if s.chain.valid then s.chain.node else 0xFFFF) 2 ++ bytesOf s.sec.deviceId.toNat 16 ++ bytesOf nonce 32 ++
    bytesOf s.clk.master.toNat 8 ++ bytesOf (index + 2 ^ 24 * r.tree) 4 ++ bytesOf flags 4 ++ bytesOf Config.romVersion.toNat 4 ++
    bytesOf s.glb.fwVersion.toNat 4 ++ bytesOf s.glb.fwSvn.toNat 4 ++ bytesOf r.minSvn 4 ++ bytesOf s.glb.fwHash.toNat 48 ++
    bytesOf (gradeHash s).toNat 48 ++ bytesOf (validFences s).length 2 ++ bytesOf 0 6 ++ (List.range 16).flatMap (ctxEntry s)

/-- The whole report, with its two signatures (14 R444). -/
def attestReport (s : State) (nonce index : Nat) : List Byte :=
  let body := reportBody s nonce index
  let h := Config.sha384 body
  let lms := Config.lmsSign s.sec.secret s.sec.stateRec.tree index h
  body ++ bytesOf (Config.ecdsaSign s.sec.secret h s.free).toNat 96 ++ bytesOf lms.length 4 ++ lms

/-- ATTEST (14 R444, R445): the index is advanced in the state record before anything is signed. `ok` is false where the host's buffer
cannot be written, `fl` where the flash cannot. -/
def execAttest (src : SrcIx) (ok fl : Bool) (s : State) : Outcome State Fault Refusal :=
  lateRow s src.val 0x48 fun c =>
    let r := s.sec.stateRec
    if treeSize ≤ r.index then finishBg s src.val c stLmsExhausted 0
    else if fl = false then finishBg s src.val c stFlashWrite 0
    else
      let s1 := writeRec s { r with index := r.index + 1 }
      let rep := attestReport s1 (cb c 0x10 32) r.index
      if ok = false ∧ src.val ≠ i3cSrc then finishBg (drawn s1) src.val c stHostAccess 0
      else finishBg (writeBuffer (drawn s1) src.val (cb c 0x30 8) rep) src.val c stSuccess rep.length

/-! ## FW_UPDATE (14 R433, R442, R443, R445) -/

/-- The checks that every FW_UPDATE makes on its image of TYPE `ty` (14 R429, R433): its refusal. -/
def updateRefusal (s : State) (c : Nat) (m : Mem) (ty : Nat) : Option Nat :=
  if 1 < cb c 0x10 1 then some stBadParameter
  else if s.glb.activate then some stUpdateBusy
  else imRefusal s m ty (cb c 0x20 8)

/-- A FW_UPDATE row's command: it begins in the background, or is refused while another runs (13 R411, 14 R433). -/
def updateStart (s : State) (src : Nat) (f : Nat → State) : Outcome State Fault Refusal :=
  match commandOf s src 0x49 with
  | some c => if s.cq.bg.any fun p => cOpcode p.2 == 0x49 then .next (answer s src c stUpdateBusy 0) else .next (beginBg s src c)
  | none => match bgOf s src 0x49 with
    | some c => .next (f c)
    | none => .next s

/-- A FW_UPDATE row for images of TYPE `ty`: it answers the command where the image is of its type. -/
def updateRow (src : SrcIx) (img : Option Mem) (ty : Nat) (s : State) (f : Nat → Mem → State) : Outcome State Fault Refusal :=
  updateStart s src.val fun c =>
    match img with
    | none => s
    | some m =>
      if imType m = ty then
        match updateRefusal s c m ty with
        | some st => finishBg s src.val c st 0
        | none => f c m
      else s

/-- Write a firmware slot. -/
def putSlotImage (s : State) (n : Fin 2) (m : Mem) : State :=
  let f := s.sec.flash
  { s with sec := { s.sec with flash := if n = 0 then { f with slotA := m } else { f with slotB := m } } }

/-- FW_UPDATE (14 R433): a TYPE 1 image goes to the slot that is not running; an image of no known type is refused here. `fl` is false where
the flash write or its read-back fails, which leaves the slot erased. -/
def execFwUpdate (src : SrcIx) (img : Option Mem) (fl : Bool) (s : State) : Outcome State Fault Refusal :=
  updateStart s src.val fun c =>
    match img with
    | none => finishBg s src.val c stHostAccess 0
    | some m =>
      if 2 ≤ imType m ∧ imType m ≤ 4 then s
      else
        let n : Fin 2 := 1 - s.glb.bootSlot
        match updateRefusal s c m 1 with
        | some st => finishBg s src.val c st 0
        | none =>
          if fl = false then finishBg (putSlotImage s n []) src.val c stFlashWrite 0
          else
            let s1 := putSlotImage s n (mslice m 0 (cb c 0x20 8))
            finishBg { s1 with glb := { s1.glb with activate := bit (cb c 0x10 1) 0 } } src.val c stSuccess n.val

/-- Enrolment entry `i`: slot, ECDSA key, LMS key (14 R442). -/
def enrolEntry (m : Mem) (i : Nat) : Nat × BitVec 776 × BitVec 448 :=
  let a := 0x40 + 160 * i
  (mrd m a 1, BitVec.ofNat 776 (mrd m (a + 7) 97), BitVec.ofNat 448 (mrd m (a + 104) 56))

/-- The body does not hold one to eight entries of 14 R442. -/
def enrolBad (m : Mem) : Bool :=
  let b := imBody m
  b == 0 || b % 160 != 0 || decide (1280 < b) ||
    (List.range (b / 160)).any fun i => decide (7 < (enrolEntry m i).1) || mrd m (0x41 + 160 * i) 6 != 0

/-- The publisher slots after a whole body is applied: all-zero keys empty a slot (14 R442). -/
def enrol (m : Mem) (pubs : Tbl (BitVec 776 × BitVec 448)) : Tbl (BitVec 776 × BitVec 448) :=
  (List.range (imBody m / 160)).foldl (fun t i => let e := enrolEntry m i; tset (0, 0) t e.1 e.2) pubs

/-- PUBLISHER_ENROLMENT (14 R442): the whole body in one state-record write, unless a slot would change to which a context is bound. -/
def execPublisherEnrolment (src : SrcIx) (img : Option Mem) (fl : Bool) (s : State) : Outcome State Fault Refusal :=
  updateRow src img 2 s fun c m =>
    let r := s.sec.stateRec
    let t := enrol m r.pubs
    if enrolBad m then finishBg s src.val c stImageFormat 0
    else if s.ctxs.ctx.any fun p => p.2.state != .free && tfind t p.2.slot != tfind r.pubs p.2.slot then finishBg s src.val c stUpdateBusy 0
    else if fl = false then finishBg s src.val c stFlashWrite 0
    else finishBg (writeRec s { r with pubs := t }) src.val c stSuccess 0

/-- DEBUG_TOKEN (14 R443): for this boot's nonce, with no run live and no load in progress; every context is evicted, and debug access is
unlocked once the zero fills are complete. -/
def execDebugToken (src : SrcIx) (img : Option Mem) (s : State) : Outcome State Fault Refusal :=
  updateRow src img 3 s fun c m =>
    if mrd m 0x40 8 ≠ s.glb.nonce.toNat then finishBg s src.val c (Config.refusalStatus 0).toNat 0
    else if !s.str.runs.isEmpty || !s.ctxs.loads.isEmpty then finishBg s src.val c stUpdateBusy 0
    else
      let s1 := ((List.range 16).filter fun k => (ctxOf s k).state != .free).foldl evictCtx s
      finishBg (settleUnlock { s1 with sec := { s1.sec with unlockWait := some (BitVec.ofNat 2 (mrd m 0x48 4)) } }) src.val c stSuccess 0

/-- CERTIFICATE_RENEWAL (14 R445): accepted if the image's LMS key is the one derived for the next tree. -/
def execCertificateRenewal (src : SrcIx) (img : Option Mem) (fl : Bool) (s : State) : Outcome State Fault Refusal :=
  updateRow src img 4 s fun c m =>
    let r := s.sec.stateRec
    if Config.renewalKey (mbytes m 0x40 (imBody m)) ≠ Config.attestLms s.sec.secret (r.tree + 1) then
      finishBg s src.val c (Config.refusalStatus 1).toNat 0
    else if fl = false then finishBg s src.val c stFlashWrite 0
    else finishBg (writeRec s { r with tree := r.tree + 1, index := 0 }) src.val c stSuccess 0

/-! ## Snivan's starts (14 R431-R434, 01 R27) -/

/-- FW_ACTIVATE (14 R434): once the reply has been posted, the slot that was written is named active, in trial, and the ROM starts it. -/
def execFwActivate (puf : Bool) (s : State) : Outcome State Fault Refusal :=
  if s.glb.activate = true ∧ s.glb.fw = .ready then
    let s1 := writeRec s { s.sec.stateRec with active := 1 - s.glb.bootSlot, trial := true }
    .next (restartSnivan { s1 with glb := { s1.glb with activate := false, wdTrial := false } } 3 puf)
  else .next s

/-- SNIVAN_READY (01 R27, 14 R434): a Snivan started again in service is ready. In start-up, stage 6 or a failure makes it so. -/
def execSnivanReady (s : State) : Outcome State Fault Refusal :=
  .next (if s.glb.fw = .starting ∧ (7 ≤ s.glb.stage ∨ s.glb.startFailed = true) then becomeReady s else s)

/-- GLB_RECOVERY_GO (14 R431): the ROM verifies the recovery window's image, and starts Snivan from it if it passes. -/
def execRecoveryGo (val : Word) (s : State) : Outcome State Fault Refusal :=
  if val.getLsbD 0 = false ∨ s.glb.fw ≠ .recovery then .next s
  else match imRefusal s s.glb.recWin 1 (min 1048576 s.glb.recLen.toNat) with
    | some st => .next { s with glb := { s.glb with recStatus := BitVec.ofNat 7 st } }
    | none => .next (toStage2 (startFrom { s with glb := { s.glb with recStatus := 2 } } s.glb.recWin 4 0 false))

/-- The watchdog may have expired: 250 ms, 25 million reference ticks, have passed since Snivan was started (14 R432). What services it since
is Snivan's own, and the step's occasion. -/
def watchdogMay (s : State) : Bool := (s.glb.fw == .ready || s.glb.fw == .starting) && decide (s.glb.fwTick + 25000000 ≤ s.clk.ticks)

/-- MGMT_WATCHDOG (14 R432): Snivan has not serviced the watchdog within 250 ms, or has not become ready within 2 s of its start. -/
def execMgmtWatchdog (puf : Bool) (s : State) : Outcome State Fault Refusal :=
  if watchdogMay s = true then
    let s1 := raiseAlert (chipHalt s 5 mgmtWatchdogCode 0) 2 false
    .next (restartSnivan { s1 with glb := { s1.glb with wdTrial := s.glb.wdTrial || s.glb.trial, activate := false } } 2 puf)
  else .next s

/-! ## The I3C port and IDE (14 R451, 13 R403) -/

/-- The port acknowledges its address. -/
def i3cAnswers (s : State) : Bool := s.pins.i3cAddr.isSome && s.glb.fw == .ready

/-- DYNAMIC_ADDRESS_ASSIGNMENT (14 R451). -/
def execDynamicAddress (addr : BitVec 7) (s : State) : Outcome State Fault Refusal :=
  if s.pins.reset then .next s else .next { s with pins := { s.pins with i3cAddr := some addr } }

/-- I3C_PRIVATE_WRITE (14 R451): a 64-byte command, once the one before has been served; it is ordered with those of the rings (13 R411). -/
def execI3cWrite (data : List Byte) (s : State) : Outcome State Fault Refusal :=
  let q := sqOf s i3cSrc
  let c := BitVec.ofNat 512 (data.foldr (fun b n => b.toNat + 256 * n) 0)
  if i3cAnswers s = true ∧ data.length = 64 ∧ q.cur = none then
    .next (readCommand { s with cq := { s.cq with i3cReply := none, i3cData := [] } } i3cSrc c)
  else .next s

/-- I3C_PRIVATE_READ (14 R451): the reply, in one slot or two, then its buffer data, 4,096 bytes in all. -/
def execI3cRead (s : State) : Outcome State Fault Refusal :=
  match i3cAnswers s, s.cq.i3cReply with
  | true, some r =>
    let head := bytesOf r.toNat (if bit r.toNat 2 then 64 else 32)
    .next { s with cq := { s.cq with i3cReply := none, i3cOut := head ++ mbytes s.cq.i3cData 0 (4096 - head.length) } }
  | _, _ => .next s

/-- IDE_KM (13 R403): the selective IDE stream is set up. -/
def execIdeKm (s : State) : Outcome State Fault Refusal :=
  .next (if s.glb.fw = .ready then { s with sec := { s.sec with ide := true } } else s)

end Sys2Proof.Machine
end

