-- ==== Sys2Proof/Machine/Regs.lean ====
section
/-!
DEFINITION. BAR0 (13 R404-R407 and the register tables of every chapter): what each register reads as, the writes of its RW fields, the
MSI-X table, the seat windows, and TELEMETRY.
-/
namespace Sys2Proof.Machine
open Host (Outcome)

/-! ## Seat windows (13 R407, 03 R110, 04 R146, 05 R183, 06 R215, 07 R252) -/

/-- SEAT_POWER and CLK_DOM_POWER (12 R388). -/
def powerCode (s : State) (q : Nat) : Nat := crewState s q

/-- A word at offset `o` of the SEAT block of seat `w`. -/
def seatBlock (s : State) (w o : Nat) : Option Nat :=
  let x := seatOf s w
  match o with
  | 0x000 => some (pack [(17, 1, halfOf w), (11, 6, crewOf w % 48), (6, 5, (logicalOf s w).getD 31), (0, 5, w % 24)])
  | 0x004 => some (pack [(2, 2, powerCode s (crewOf w)), (1, 1, b2n (seatFenced s w)), (0, 1, b2n x.disabled)])
  | 0x008 => some x.winSpace.toNat
  | 0x00C => some (2 ^ 10 * x.winBase.toNat)
  | _ => none

/-- COX_STATE (06 R215). -/
def CoxState.code : CoxState → Nat
  | .noHeat => 0
  | .walking => 1
  | .pastEnd => 2
  | .halted => 3

/-- COX_HALT_CAUSE and COX_HALT_QUEUE (06 R215). -/
def holdCode (x : Seat) : Nat × Nat :=
  if x.wst.forcing.isSome && (x.cox.state == .walking || x.cox.state == .pastEnd) then (3, 0)
  else match x.cox.hold with
    | .none => (0, 0)
    | .queue q => (1, q.val)
    | .catch => (2, 0)

/-- A word at offset `o` of the COX block (06 R215). A loop level that is not active reads 0 (log entry 64). -/
def coxBlock (x : Seat) (o : Nat) : Option Nat :=
  let c := x.cox
  match o with
  | 0x000 => some (pack [(30, 2, c.state.code), (27, 3, (holdCode x).1), (25, 2, (holdCode x).2), (22, 3, c.loops.length), (21, 1, c.page.val),
      (20, 1, b2n c.use1.isSome), (19, 1, b2n c.use0.isSome), (0, 10, c.next)])
  | 0x004 => some (fld c.beat 0 32)
  | 0x008 => some (fld c.beat 32 16)
  | 0x00C => some (fld c.cycle 0 32)
  | 0x010 => some (fld c.cycle 32 16)
  | 0x014 => some c.heldQueue.toNat
  | 0x018 => some c.heldCatch.toNat
  | 0x01C => some c.heldRefresh.toNat
  | 0x020 => some c.issued.toNat
  | 0x024 => some c.predFalse.toNat
  | 0x028 => some (pack [(24, 8, x.net.queue.length), (16, 8, x.dma.queue.length), (8, 8, x.vec.queue.length), (0, 8, x.mxa.queue.length)])
  | 0x02C => some (pack ((List.range 8).map fun k => (k, 1, b2n (cmpOut c k))))
  | 0x030 => some c.pageRefused.toNat
  | 0x034 => some c.collide.toNat
  | 0x090 => some (tget 0 c.guard 0).toNat
  | 0x094 => some (tget 0 c.guard 1).toNat
  | 0x098 => some (tget 0 c.guard 2).toNat
  | 0x09C => some (tget 0 c.guard 3).toNat
  | 0x0A0 => some c.tripped.toNat
  | 0x0A4 => some (pack [(16, 16, c.epoch.toNat), (0, 12, c.heat)])
  | 0x0A8 => some (c.ctx % 256)
  | _ =>
    if 0x040 ≤ o ∧ o < 0x080 then some (tget 0 c.ctr ((o - 0x040) / 4)).toNat
    else if 0x080 ≤ o ∧ o < 0x090 then
      match c.loops[(o - 0x080) / 4]? with
      | some l => some (pack [(16, 16, l.iter), (0, 16, l.count)])
      | none => some 0
    else none

/-- A tile's index in its tag (05 R163), 0 where there is no tile. -/
def tidxOf (t : Option Tile) : Nat := (t.map fun t => fld t.tag.toNat 24 24).getD 0

/-- Cycles of the runs `l` that lie at cycle `now` or after it. -/
def yetToCome (l : List (Nat × Nat)) (now : Nat) : Nat := (l.map fun r => r.2 - max r.1 now).sum

/-- A word at offset `o` of the MXA block (03 R110), at the heat core cycle at which the seat stands: a unit is busy from the start of its
descriptor until it is free, and the rows are those broadcast before that core cycle. -/
def mxaBlock (x : Seat) (o : Nat) : Option Nat :=
  let m := x.mxa
  let now := x.cox.cycle
  let ahead := yetToCome m.rowRuns now
  match o with
  | 0x000 => some (pack ([(7, 1, b2n (m.sh1.isSome && decide (m.shAt1 ≤ now))), (6, 1, b2n (m.sh0.isSome && decide (m.shAt0 ≤ now))),
      (5, 1, b2n m.act1.isSome), (4, 1, b2n m.act0.isSome)] ++
      ((List.range 4).map fun k => (8 + k, 1, b2n ((tfind m.slots k).isSome && decide (tget 0 m.slotAt k ≤ now)))) ++
      (List.range 4).map fun u => (u, 1, b2n (decide (tget 0 m.startAt u ≤ now ∧ now < tget 0 m.freeAt u)))))
  | 0x004 => some (tidxOf m.act0)
  | 0x008 => some (tidxOf m.act1)
  | 0x00C => some m.passCount.toNat
  | 0x010 => some (fld (m.rowCount.toNat - ahead) 0 32)
  | 0x014 => some (fld (m.rowCount.toNat - ahead) 32 32)
  | 0x018 => some (min (now - (m.busyRows - ahead)) 0xFFFFFFFF)
  | 0x01C => some m.bloads.toNat
  | _ => none

/-- A word at offset `o` of the VEC block (04 R146), at the vector cycle at which the seat stands: its counts are those of the vector
cycles before. -/
def vecBlock (x : Seat) (o : Nat) : Option Nat :=
  let v := x.vec
  let now := x.cox.cycle / 2
  match o with
  | 0x000 => some (pack ((List.range 8).map (fun k => (16 + k, 1, b2n (tfind v.curves k).isSome)) ++
      [(5, 1, b2n (v.busyRuns.any fun r => decide (r.1 ≤ now ∧ now < r.2))), (0, 5, v.queue.length)]))
  | 0x004 => some v.descs.toNat
  | 0x008 => some (v.reads.toNat - yetToCome v.readRuns now)
  | 0x00C => some (min (now - (v.busy - yetToCome v.busyRuns now)) 0xFFFFFFFF)
  | 0x010 => some v.oor.toNat
  | 0x014 => some v.collide.toNat
  | 0x018 => some v.curveOut.toNat
  | 0x01C => some v.lastCount.toNat
  | _ => none

/-- A word at offset `o` of the WST block (05 R183). -/
def wstBlock (x : Seat) (o : Nat) : Option Nat :=
  let t := x.wst
  match o with
  | 0x000 => some (pack [(8, 1, b2n t.hot), (0, 8, (List.range 32).foldl (fun m b => max m (debtOf x b)) 0)])
  | 0x004 => some (pack ((List.range 32).map fun b => (b, 1, b2n (atRest x b))))
  | 0x008 => some t.forced.toNat
  | 0x00C => some t.ops.toNat
  | 0x010 => some t.passes.toNat
  | 0x014 => some (fld ((scrubTarget t).getD 0) 0 17)
  | 0x018 => some t.weak.toNat
  | 0x01C => some (fld t.weakLast 0 17)
  | 0x020 => some t.refused.toNat
  | 0x024 => some (b2n t.scrubEn)
  | 0x030 => some t.diagG.toNat
  | 0x034 => some (2 * b2n t.diagDone)
  | 0x038 => some t.diagRefused.toNat
  | _ => if 0x040 ≤ o ∧ o < 0x080 ∧ o % 4 = 0 then some (fld t.diagData.toNat (8 * (o - 0x040)) 32) else none

/-- A word at offset `o` of the LND block (07 R252). -/
def lndBlock (x : Seat) (o : Nat) : Option Nat :=
  let l := x.lnd
  match o with
  | 0x000 => some l.stale.toNat
  | 0x004 => some (fld l.held.length 0 4)
  | 0x008 => some l.dropped.toNat
  | 0x00C => some l.granules.toNat
  | 0x010 => some l.nacks.toNat
  | _ => none

/-- Byte offset in its space of the data-window word at `o` (13 R407). -/
def winByte (x : Seat) (o : Nat) : Nat := 1024 * x.winBase.toNat + o % 1024 / 4 * 4

/-- The data window's word: core memory, descriptor memory, or 0 for a reserved space and beyond the memory's end (13 R407, 05 R147). -/
def winRead (x : Seat) (o : Nat) : Nat :=
  if seatSpan x.winSpace.toNat (winByte x o) 4 4 then mrd (if x.winSpace = 1 then x.core else x.desc) (winByte x o) 4 else 0

/-- A word of the window of seat `w` at window offset `o` (13 R407); none where it is reserved. -/
def windowRead (s : State) (w o : Nat) : Option Nat :=
  let x := seatOf s w
  let v :=
    if o < 0x100 then seatBlock s w o
    else if o < 0x200 then coxBlock x (o - 0x100)
    else if o < 0x280 then mxaBlock x (o - 0x200)
    else if o < 0x300 then vecBlock x (o - 0x280)
    else if o < 0x400 then wstBlock x (o - 0x300)
    else if o < 0x800 then lndBlock x (o - 0x400)
    else if o < 0x840 then some (fld (recordNat x.first) (8 * (o - 0x800)) 32)
    else if o < 0x880 then some (fld (recordNat x.last) (8 * (o - 0x840)) 32)
    else if o < 0xC00 then none
    else some (winRead x o)
  if x.disabled ∧ 8 ≤ o then v.map fun _ => 0 else v

/-! ## The blocks of BAR0 -/

/-- Low and high word of a wide field. -/
def lo32 (n : Nat) : Nat := fld n 0 32
def hi32 (n : Nat) : Nat := fld n 32 32

/-- A word of the GLB block (13 R406, 14 R452, 16 R493). -/
def glbRead (s : State) (o : Nat) : Option Nat :=
  let g := s.glb
  let c := s.chain
  match o with
  | 0x000 => some (0x27C5 + 2 ^ 16 * g.device.toNat)
  | 0x004 => some (pack [(8, 8, Config.stepping.toNat), (0, 8, g.grade.toNat)])
  | 0x008 => some 0x102
  | 0x00C => some 0x20001
  | 0x010 => some g.fwVersion.toNat
  | 0x014 => some (lo32 s.sec.keyId.toNat)
  | 0x018 => some (hi32 s.sec.keyId.toNat)
  | 0x01C => some (pack [(3, 1, b2n g.recovery), (2, 1, b2n g.halted), (1, 1, b2n g.flr), (0, 1, b2n (g.fw == .ready))])
  | 0x020 => some g.events.toNat
  | 0x024 => some g.eventMask.toNat
  | 0x028 => some g.bad.toNat
  | 0x040 => some (pack [(8, 8, g.bootCause.toNat), (4, 1, b2n g.gradeValid), (3, 1, b2n s.sec.unlocked), (2, 1, b2n g.trial), (0, 1, g.bootSlot.val)])
  | 0x044 => some g.fwSvn.toNat
  | 0x048 => some (lo32 s.sec.stateRec.minSvn)
  | 0x04C => some (pack [(24, 8, s.sec.stateRec.tree), (0, 21, treeSize - s.sec.stateRec.index)])
  | 0x050 => some (lo32 g.nonce.toNat)
  | 0x054 => some (hi32 g.nonce.toNat)
  | 0x058 => some (pack [(31, 1, b2n c.valid), (30, 1, b2n c.head), (29, 1, b2n c.ring), (16, 13, c.size), (0, 1, b2n c.fleetHalt)])
  | 0x05C => some c.errors.toNat
  | 0x060 => some c.halts.toNat
  | 0x064 => some c.conflicts.toNat
  | 0x070 => some g.recLen.toNat
  | 0x074 => some (2 * g.recStatus.toNat)
  | 0x078 => some (pack [(8, 4, g.stage), (1, 1, b2n g.startFailed), (0, 1, b2n g.ready)])
  | 0x07C => some g.readyTime.toNat
  | _ => none

/-- A word of a submission ring's registers (13 R410). -/
def sqRead (q : Sq) (o : Nat) : Option Nat :=
  match o with
  | 0x00 => some (2 ^ 12 * q.baseLo.toNat)
  | 0x04 => some q.baseHi.toNat
  | 0x08 => some (pack [(31, 1, b2n q.enable), (4, 4, q.cq.toNat), (0, 4, q.size.toNat)])
  | 0x0C => some q.tail.toNat
  | 0x10 => some q.head.toNat
  | 0x14 => some (pack [(16, 1, b2n q.opened), (0, 16, q.version.toNat)])
  | _ => none

/-- A word of a completion ring's registers (13 R410). -/
def cqrRead (q : Cqr) (o : Nat) : Option Nat :=
  match o with
  | 0x00 => some (2 ^ 12 * q.baseLo.toNat)
  | 0x04 => some q.baseHi.toNat
  | 0x08 => some (pack [(31, 1, b2n q.enable), (16, 6, q.vector.toNat), (0, 4, q.size.toNat)])
  | 0x0C => some q.head.toNat
  | 0x10 => some q.tail.toNat
  | 0x14 => some (pack [(16, 16, q.coalUs.toNat), (0, 16, q.coalCount.toNat)])
  | 0x18 => some q.stalls.toNat
  | _ => none

/-- CQ_FEED_STATE (13 R410). -/
def feedState (q : Feed) : Nat := if q.stopped then 2 else if q.enable && (!q.prog.isEmpty || q.head != q.tail) then 1 else 0

/-- A word of a feed ring's registers (13 R410). -/
def feedRead (q : Feed) (o : Nat) : Option Nat :=
  match o with
  | 0x00 => some (2 ^ 12 * q.baseLo.toNat)
  | 0x04 => some q.baseHi.toNat
  | 0x08 => some (pack [(31, 1, b2n q.enable), (4, 4, q.cq.toNat), (0, 4, q.size.toNat)])
  | 0x0C => some q.tail.toNat
  | 0x10 => some q.head.toNat
  | 0x14 => some (feedState q)
  | 0x18 => some q.granules.toNat
  | _ => none

/-- A word of the CQ block (13 R410). -/
def cqRead (s : State) (o : Nat) : Option Nat :=
  if o < 0x800 then sqRead (sqOf s (o / 0x80)) (o % 0x80)
  else if o < 0x1000 then cqrRead (cqrOf s ((o - 0x800) / 0x80)) (o % 0x80)
  else if o < 0x1400 then feedRead (feedOf s ((o - 0x1000) / 0x80)) (o % 0x80)
  else none

/-- A word of the STR block (07 R253). -/
def strRead (s : State) (o : Nat) : Option Nat :=
  match o with
  | 0x000 => some (pack [(16, 5, s.str.runs.length), (8, 7, 64 - (s.str.classes.filter fun p => p.2.state != 0).length),
      (0, 7, ((liveHeats s).filter fun e => e.2.2.phase == .dispatched).length)])
  | 0x004 => some s.str.dsn.toNat
  | 0x008 => some s.str.stale.toNat
  | 0x00C => some s.str.dropped.toNat
  | 0x010 => some s.str.waits.toNat
  | 0x014 => some s.str.aborts.toNat
  | 0x018 => some s.str.abandons.toNat
  | _ =>
    if 0x100 ≤ o ∧ o < 0x200 then
      some (pack [(16, 2, (classOf s ((o - 0x100) / 4)).state), (0, 16, (classOf s ((o - 0x100) / 4)).epoch.toNat)])
    else none

/-- A word of the FLT block (15 R474). -/
def fltRead (s : State) (o : Nat) : Option Nat :=
  let f := s.flt
  match o with
  | 0x000 => some (pack [(16, 16, f.haltCode.toNat), (8, 8, f.alert.toNat), (0, 8, f.alertPrev.toNat)])
  | 0x004 => some f.lastSeq.toNat
  | 0x008 => some f.ackSeq.toNat
  | 0x00C => some f.overrun.toNat
  | 0x010 => some f.handled.toNat
  | 0x014 => some (pack ((0, 16, f.faulted.toNat) :: (List.range 16).map fun k => (16 + k, 1, b2n (f.holds.any fun h => h.ctx == k))))
  | 0x018 => some f.seatFaults.toNat
  | 0x01C => some ((List.range 96).foldl (fun n q => n + ((List.range 24).filter fun p => (mapOf s q).fenced.getLsbD p).length) 0)
  | _ => if 0x10000 ≤ o ∧ o < 0x20000 then some (fld (recordNat (tget {} f.log ((o - 0x10000) / 64))) (8 * (o % 64)) 32) else none

/-- A word of the CLK and PWR block (12 R398, R399). -/
def clkRead (s : State) (o : Nat) : Option Nat :=
  let c := s.clk
  let p := s.pwr
  let m := domOf s c.sel.toNat
  match o with
  | 0x000 => some (lo32 c.master.toNat)
  | 0x004 => some c.latchHi.toNat
  | 0x008 => some (2 ^ 16 * c.latchFrac.toNat)
  | 0x010 => some c.setLo.toNat
  | 0x014 => some c.setHi.toNat
  | 0x018 => some 0
  | 0x01C => some c.refused.toNat
  | 0x020 => some c.sel.toNat
  | 0x024 => some (pack [(18, 2, if c.sel.toNat < 96 then powerCode s c.sel.toNat else 0), (17, 1, b2n (m.stop != .none)), (16, 1, b2n m.locked),
      (15, 1, b2n m.clamped), (12, 3, m.prot), (8, 3, m.ceiling), (0, 3, if c.sel.toNat ≤ 96 then m.step else 7)])
  | 0x028 => some m.droop.toNat
  | 0x02C => some m.steps.toNat
  | 0x030 => some (pack [(8, 8, m.tj.toNat), (0, 8, m.tdram.toNat)])
  | 0x040 => some (pack [(4, 3, c.cap), (0, 3, c.limit.toNat)])
  | 0x100 => some (pack [(6, 2, tget 0 p.half 1), (4, 2, tget 0 p.half 0), (3, 1, b2n p.autoPaddle), (2, 1, b2n p.haltFleet), (1, 1, b2n p.haltActive),
      (0, 1, b2n p.limitActive)])
  | 0x104 => some p.limitChatter.toNat
  | 0x108 => some p.haltChatter.toNat
  | 0x10C => some (pack [(16, 16, p.packageW.toNat), (0, 16, p.capW.toNat)])
  | 0x110 => some p.capEvents.toNat
  | 0x114 => some (pack [(16, 16, p.otherW.toNat), (0, 16, p.idleUs.toNat)])
  | 0x118 => some p.tjMax.toNat
  | 0x11C => some p.clamps.toNat
  | 0x120 => some (pack [(16, 16, p.vdd.getD 1 0), (0, 16, p.vdd.getD 0 0)])
  | _ => none

/-- FAB_PORT_WIDTH (10 R344). -/
def widthCode (n : Nat) : Nat := if n = 8 then 3 else if n = 4 then 2 else if n = 2 then 1 else 0

/-- FAB_FAILED_OVER: the traffic of port `p` is on its partner (10 R324, R344). -/
def failedOver (s : State) (p : Nat) : Bool := !portLive s p && portLive s (partner p) && !(pairOf s (p / 2)).split

/-- A word of port `p`'s registers (10 R344). -/
def portRead (s : State) (p o : Nat) : Option Nat :=
  let x := portOf s p
  let win (k : Nat) : Nat := (tget {} x.credit k).window
  match o with
  | 0x00 => some (pack [(28, 4, x.cause), (24, 4, x.partnerPort), (12, 12, x.partnerNode), (11, 1, b2n x.mismatch),
      (10, 1, b2n (tget {} s.fab.pairs (p / 2)).split), (9, 1, b2n (failedOver s p)), (7, 2, widthCode x.width), (4, 3, x.laneset), (0, 4, x.state.code)])
  | 0x04 => some (b2n x.en)
  | 0x08 => some (pack [(8, 8, x.version), (0, 8, x.rtt)])
  | 0x0C => some (pack [(16, 16, win 0), (0, 16, win 1)])
  | 0x10 => some (pack [(16, 16, win 2), (0, 16, win 3)])
  | 0x14 => some x.fecOk.toNat
  | 0x18 => some x.fecBad.toNat
  | 0x1C => some x.crcErrs.toNat
  | 0x20 => some x.replays.toNat
  | 0x24 => some x.dups.toNat
  | 0x28 => some x.pairDup.toNat
  | 0x2C => some x.excess.toNat
  | 0x30 => some x.fastCount.toNat
  | 0x34 => some x.otherCount.toNat
  | 0x38 => some x.failovers.toNat
  | 0x3C => some x.trainFails.toNat
  | _ => none

/-- A word of the FAB block (10 R343, R344). -/
def fabRead (s : State) (o : Nat) : Option Nat :=
  let f := s.fab
  match o with
  | 0x000 => some s.chain.node
  | 0x004 => some 0x2120
  | 0x008 => some (pack [(16, 8, f.depth.toNat), (8, 1, b2n f.locked), (2, 4, f.upstream.toNat), (0, 2, f.role.toNat)])
  | 0x00C => some f.offset.toNat
  | 0x010 => some f.steps.toNat
  | 0x014 => some f.ftags.length
  | 0x018 => some f.expired.toNat
  | 0x01C => some f.dupRsp.toNat
  | 0x020 => some f.reissues.toNat
  | 0x024 => some f.givenUp.toNat
  | 0x030 => some (tget 0 f.nacks 8).toNat
  | 0x034 => some (tget 0 f.nacks 9).toNat
  | 0x038 => some (tget 0 f.nacks 10).toNat
  | 0x03C => some (tget 0 f.nacks 11).toNat
  | _ => if 0x1000 ≤ o ∧ o < 0x1C00 then portRead s ((o - 0x1000) / 0x100) (o % 0x100) else none

/-- A word of the NOC block (09 R302). -/
def nocRead (s : State) (o : Nat) : Option Nat :=
  let n := s.noc
  let m := mapOf s n.mapSel.toNat
  match o with
  | 0x000 => some (pack [(8, 3, (domOf s 96).step), (5, 1, b2n (halfBoated s 1)), (4, 1, b2n (halfBoated s 0)), (3, 1, b2n (halfEasy s 1)),
      (2, 1, b2n (halfEasy s 0))])
  | 0x004 => some n.wakes.toNat
  | 0x008 => some n.seamHeld.toNat
  | 0x00C => some n.skips.toNat
  | 0x02C => some n.xingBp.toNat
  | 0x030 => some (pack [(4, 4, n.maxLat), (0, 4, n.minLat)])
  | 0x034 => some n.eccOk.toNat
  | 0x038 => some n.eccBad.toNat
  | 0x040 => some n.mapGen.toNat
  | 0x044 => some n.mapSel.toNat
  | 0x048 => some (pack [(8, 24, m.fenced.toNat), (0, 5, m.phys.length)])
  | _ =>
    if 0x010 ≤ o ∧ o < 0x02C then some (tget 0 n.nacks ((o - 0x010) / 4 + 1)).toNat
    else if 0x04C ≤ o ∧ o < 0x05C then some (pack ((List.range 6).map fun k => (5 * k, 5, m.phys.getD (6 * ((o - 0x04C) / 4) + k) 31)))
    else none

/-- A word of the POOL block (05 R184). -/
def poolRead (s : State) (o : Nat) : Option Nat :=
  let p := poolOf s (o / 0x1000)
  if 0x2000 ≤ o then none
  else match o % 0x1000 with
  | 0x000 => some p.on.toNat
  | 0x004 => some p.ready.toNat
  | 0x008 => some p.asleep.toNat
  | 0x00C => some p.bar2Dropped.toNat
  | 0x010 => some p.timeouts.toNat
  | _ => none

/-- The window of BAR0 offset `off`: seat and window offset (13 R404, R407). -/
def windowOf (off : Nat) : Option (Nat × Nat) :=
  if 0x1000000 ≤ off ∧ off < 0x1900000 then some ((off - 0x1000000) / 0x1000, off % 0x1000) else none

/-- The recovery window (14 R431). -/
def isRecoveryWin (off : Nat) : Bool := decide (0x700000 ≤ off ∧ off < 0x800000)

/-- A word of the MSI-X table (13 R406): the mask bit in the fourth word of a vector. -/
def msixRead (s : State) (k : Nat) : Nat := if k % 4 = 3 then b2n (s.cq.masked.getLsbD (k / 4)) else (tget 0 s.cq.msix k).toNat

/-- What BAR0 reads as at a word's offset; none for a reserved offset (13 R404-R406). In recovery only the GLB block and the recovery window are
served (14 R431). -/
def bar0Read (s : State) (off : Nat) : Option Nat :=
  if off % 4 ≠ 0 then none
  else if 0x1000 ≤ off ∧ off < 0x1400 then some (msixRead s ((off - 0x1000) / 4))
  else if off = 0x2000 ∨ off = 0x2004 then some (fld s.cq.pba.toNat (8 * (off - 0x2000)) 32)
  else if off < 0x100000 then glbRead s off
  else if s.glb.fw = .recovery then (if isRecoveryWin off then some (mrd s.glb.recWin (off - 0x700000) 4) else none)
  else if off < 0x200000 then cqRead s (off - 0x100000)
  else if off < 0x300000 then strRead s (off - 0x200000)
  else if off < 0x400000 then fltRead s (off - 0x300000)
  else if off < 0x500000 then clkRead s (off - 0x400000)
  else if off < 0x600000 then fabRead s (off - 0x500000)
  else if off < 0x700000 then nocRead s (off - 0x600000)
  else if off < 0x800000 then none
  else if off < 0x900000 then poolRead s (off - 0x800000)
  else (windowOf off).bind fun p => windowRead s p.1 p.2

/-! ## Writes -/

/-- The state after an operation, unchanged where it stops. -/
def outState (s : State) : Outcome State Fault Refusal → State
  | .next t => t
  | .fault _ => s
  | .refused _ => s

/-- A write to a submission ring's word (13 R410): BASE and SIZE_LOG2 are kept while ENABLE reads 1. -/
def sqWrite (s : State) (n o : Nat) (v : Word) : State :=
  let on := (sqOf s n).enable
  match o with
  | 0x00 => modSq s n fun q => if on then q else { q with baseLo := (v >>> 12).setWidth 20 }
  | 0x04 => modSq s n fun q => if on then q else { q with baseHi := v }
  | 0x08 =>
    let s1 := modSq s n fun q => { q with cq := (v >>> 4).setWidth 4, size := if on then q.size else v.setWidth 4 }
    if v.getLsbD 31 then enableSq s1 n else if on then disableSq s1 n else s1
  | 0x0C => modSq s n fun q => { q with tail := v.setWidth 12 }
  | _ => s

/-- A write to a completion ring's word (13 R410). -/
def cqrWrite (s : State) (n o : Nat) (v : Word) : State :=
  let on := (cqrOf s n).enable
  match o with
  | 0x00 => modCqr s n fun q => if on then q else { q with baseLo := (v >>> 12).setWidth 20 }
  | 0x04 => modCqr s n fun q => if on then q else { q with baseHi := v }
  | 0x08 =>
    let s1 := modCqr s n fun q => { q with vector := (v >>> 16).setWidth 6, size := if on then q.size else v.setWidth 4 }
    if v.getLsbD 31 then enableCqr s1 n else if on then disableCqr s1 n else s1
  | 0x0C => modCqr s n fun q => { q with head := v.setWidth 12 }
  | 0x14 => modCqr s n fun q => { q with coalUs := (v >>> 16).setWidth 16, coalCount := v.setWidth 16 }
  | _ => s

/-- A write to a feed ring's word (13 R410). -/
def feedWrite (s : State) (n o : Nat) (v : Word) : State :=
  let on := (feedOf s n).enable
  match o with
  | 0x00 => modFeed s n fun q => if on then q else { q with baseLo := (v >>> 12).setWidth 20 }
  | 0x04 => modFeed s n fun q => if on then q else { q with baseHi := v }
  | 0x08 =>
    let s1 := modFeed s n fun q => { q with cq := (v >>> 4).setWidth 4, size := if on then q.size else v.setWidth 4 }
    if v.getLsbD 31 then enableFeed s1 n else if on then disableFeed s1 n else s1
  | 0x0C => modFeed s n fun q => { q with tail := v.setWidth 12 }
  | 0x14 => outState s (execFeedResume (Fin.ofNat 8 n) v s)
  | _ => s

/-- A write to the CQ block. -/
def cqWrite (s : State) (o : Nat) (v : Word) : State :=
  if o < 0x800 then sqWrite s (o / 0x80) (o % 0x80) v
  else if o < 0x1000 then cqrWrite s ((o - 0x800) / 0x80) (o % 0x80) v
  else feedWrite s ((o - 0x1000) / 0x80) (o % 0x80) v

/-- A write to the GLB block (13 R406, 14 R452). -/
def glbWrite (s : State) (o : Nat) (v : Word) : State :=
  match o with
  | 0x020 => outState s (execEventsClear v s)
  | 0x024 => { s with glb := { s.glb with eventMask := v.setWidth 5 } }
  | 0x070 => { s with glb := { s.glb with recLen := v.setWidth 21 } }
  | 0x074 => outState s (execRecoveryGo v s)
  | _ => s

/-- A write to the CLK and PWR block (12 R398, R399). -/
def clkWrite (s : State) (o : Nat) (v : Word) : State :=
  match o with
  | 0x010 => { s with clk := { s.clk with setLo := v } }
  | 0x014 => { s with clk := { s.clk with setHi := v } }
  | 0x018 => outState s (execClkTimeLoad v s)
  | 0x020 => { s with clk := { s.clk with sel := v.setWidth 7 } }
  | 0x040 => { s with clk := { s.clk with limit := v.setWidth 3 } }
  | 0x100 => { s with pwr := { s.pwr with autoPaddle := v.getLsbD 3, haltFleet := v.getLsbD 2 } }
  | 0x10C => { s with pwr := { s.pwr with capW := BitVec.ofNat 16 (max 300 (min 1500 (v.toNat % 65536))) } }
  | 0x114 => { s with pwr := { s.pwr with otherW := (v >>> 16).setWidth 16, idleUs := v.setWidth 16 } }
  | _ => s

/-- A write to a port's control register (10 R344): its three fields act in order of their bits. -/
def portWrite (s : State) (p : PortIx) (v : Word) : State :=
  let s1 := outState s (execFabPortEnWrite p v s)
  let s2 := outState s1 (execFabPortRetrain p v s1)
  outState s2 (execFabPortRetrainFull p v s2)

/-- A write to the FAB block (10 R343, R344). -/
def fabWrite (s : State) (o : Nat) (v : Word) : State :=
  if o = 0x008 then setRole s (v.setWidth 2) ((v >>> 2).setWidth 4)
  else if 0x1000 ≤ o ∧ o % 0x100 = 4 then portWrite s (Fin.ofNat 12 ((o - 0x1000) / 0x100)) v
  else s

/-- A window access wakes its crew from Paddle (12 R390). -/
def wakeWindow (s : State) (w : Nat) : State :=
  if (domOf s (crewOf w)).paddle then modDom s (crewOf w) fun m => { m with waking := true } else s

/-- A write through the data window of seat `w` (13 R407, 05 R147, R151, R155, 06 R210): a page in use or space 0 refuses it, and it waits
during a core-memory fill. The window has no way to space 4, which SEAT_WIN_SPACE cannot select (log entry 68). -/
def windowWrite (s : State) (w o : Nat) (v : Word) : State :=
  let x := seatOf s w
  let sp := x.winSpace.toNat
  let a := winByte x o
  if x.disabled = true ∨ halfBoated s (halfOf w) = true then s
  else if sp = 0 then countRefusal s w 0 nkAddress
  else if seatSpan sp a 4 4 = false then s
  else if sp = 1 ∧ x.cox.filling = true then modSeat s w fun x => { x with winWait := x.winWait ++ [(a, some v)] }
  else if sp = 2 ∧ pageBusy x a 4 = true then modCox s w fun c => { c with pageRefused := satInc c.pageRefused }
  else modSeat s w fun x => seatWrite x sp a (bytesOf v.toNat 4)

/-- A write to the window of seat `w` at window offset `o` (13 R407, 05 R183). -/
def seatRegWrite (s : State) (w o : Nat) (v : Word) : State :=
  if (seatOf s w).disabled then s
  else if 0xC00 ≤ o then windowWrite s w o v
  else match o with
  | 0x008 => modSeat s w fun x => { x with winSpace := v.setWidth 2 }
  | 0x00C => modSeat s w fun x => { x with winBase := (v >>> 10).setWidth 9 }
  | 0x324 => modWst s w fun t => { t with scrubEn := v.getLsbD 0 }
  | 0x330 => modWst s w fun t => { t with diagG := v.setWidth 17 }
  | 0x334 => outState s (execWstDiagGo (Fin.ofNat 2304 w) v s)
  | _ => s

/-- A write of a word to BAR0 at an offset that is not reserved. -/
def bar0Write (s : State) (off : Nat) (v : Word) : State :=
  if off < 0x100000 then glbWrite s off v
  else if off < 0x200000 then cqWrite s (off - 0x100000) v
  else if off < 0x300000 then s
  else if off < 0x400000 then (if off = 0x300008 then outState s (execAckSeqWrite v s) else s)
  else if off < 0x500000 then clkWrite s (off - 0x400000) v
  else if off < 0x600000 then fabWrite s (off - 0x500000) v
  else if off < 0x700000 then (if off = 0x600044 then { s with noc := { s.noc with mapSel := v.setWidth 7 } } else s)
  else match windowOf off with
    | some p => wakeWindow (seatRegWrite s p.1 p.2 v) p.1
    | none => s

/-- A word of the MSI-X table (13 R406): a vector that is unmasked while its pending bit is set is raised, as the base specification of
PCI Express has it. -/
def msixWrite (s : State) (k : Nat) (v : Word) : State :=
  let n := k / 4
  if k % 4 ≠ 3 then { s with cq := { s.cq with msix := tset 0 s.cq.msix k v } }
  else if v.getLsbD 0 then { s with cq := { s.cq with masked := setBit s.cq.masked n } }
  else
    let s1 := { s with cq := { s.cq with masked := clrBit s.cq.masked n, pba := clrBit s.cq.pba n } }
    if s.cq.pba.getLsbD n then raiseVector s1 n else s1

/-- A write to the MSI-X table, of one word or two; the PBA is not written. -/
def msixAccess (s : State) (off size : Nat) (v : BitVec 64) : State :=
  if 0x1400 ≤ off then s
  else
    let s1 := msixWrite s ((off - 0x1000) / 4) (v.setWidth 32)
    if size = 8 then msixWrite s1 ((off - 0x1000) / 4 + 1) ((v >>> 32).setWidth 32) else s1

/-- The MSI-X table and PBA, which take the accesses that the base specification allows (13 R405, R406). -/
def isMsix (off size : Nat) : Bool :=
  ((decide (0x1000 ≤ off ∧ off < 0x1400)) || (decide (0x2000 ≤ off ∧ off < 0x2008))) && (size == 4 || size == 8) && off % size == 0

/-- An access to BAR0 has a size or alignment that is not served, or a reserved offset (13 R405). -/
def bar0Bad (s : State) (off size : Nat) : Bool := !isMsix off size && (size != 4 || off % 4 != 0 || (bar0Read s off).isNone)

/-- A read of `size` bytes of BAR0: its data, all bits 0 where it is refused (13 R405). A seat's window wakes its crew (12 R390). -/
def registerRead (s : State) (off size : Nat) : State :=
  if bar0Bad s off size then badAccess { s with glb := { s.glb with readData := 0 } }
  else
    let s1 := { s with glb := { s.glb with
      readData := w32 ((bar0Read s off).getD 0), readHigh := if size = 8 then w32 ((bar0Read s (off + 4)).getD 0) else s.glb.readHigh } }
    match windowOf off with
    | some p => wakeWindow s1 p.1
    | none => s1

/-- A write of `size` bytes to BAR0 that is not refused (13 R405). -/
def registerPut (s : State) (off size : Nat) (val : BitVec 64) : State :=
  let v := val.setWidth 32
  if isMsix off size then msixAccess s off size val
  else if s.glb.fw = .recovery ∧ isRecoveryWin off = true then
    { s with glb := { s.glb with recWin := mwr s.glb.recWin (off - 0x700000) 4 v.toNat } }
  else bar0Write s off v

/-- REGISTER_WRITE (13 R405): `size` bytes at BAR0 offset `off`. A bad size, alignment or offset is dropped and counted. In recovery BAR0
serves only the GLB block and the recovery window (14 R431). With no value it is a read of the same shape, for which the table has no row (log
entry 59). -/
def execRegisterWrite (off size : Nat) (val : Option (BitVec 64)) (s : State) : Outcome State Fault Refusal :=
  match val with
  | none => .next (registerRead s off size)
  | some v => if bar0Bad s off size then .next (badAccess s) else .next (registerPut s off size v)

/-- SEAT_WINDOW_ACCESS (13 R407, 05 R154): a read or write of the word at `off` of the data window. During a core-memory fill an access
to core memory waits for its end. -/
def execSeatWindowAccess (w : SeatIx) (off : Nat) (wr : Option Word) (s : State) : Outcome State Fault Refusal :=
  let s1 := wakeWindow s w.val
  if off % 4 ≠ 0 ∨ 1024 ≤ off then .next (badAccess s)
  else match wr with
  | some v => .next (windowWrite s1 w.val off v)
  | none =>
    let x := seatOf s w.val
    if x.disabled = false ∧ x.cox.filling = true ∧ x.winSpace = 1 ∧ seatSpan 1 (winByte x off) 4 4 = true then
      .next (modSeat s1 w.val fun x => { x with winWait := x.winWait ++ [(winByte x off, none)] })
    else .next { s1 with glb := { s1.glb with readData := if x.disabled then 0 else w32 (winRead x off) } }

/-! ## TELEMETRY (13 R421) -/

/-- The blocks that TELEMETRY copies: BAR0 offset and length, in bit order. -/
def teleBlocks : List (Nat × Nat) :=
  [(0, 0x80), (0x200000, 0x200), (0x300000, 0x20), (0x400000, 0x124), (0x500000, 0x1B40), (0x600000, 0x5C), (0x800000, 0x1014)]

/-- One block's copy: offset, length, registers; reserved words read 0. -/
def teleBlock (s : State) (b : Nat × Nat) : List Byte :=
  bytesOf b.1 4 ++ bytesOf b.2 4 ++ (List.range (b.2 / 4)).flatMap fun k => bytesOf ((bar0Read s (b.1 + 4 * k)).getD 0) 4

/-- The whole blocks that fit, in order, and whether all did. -/
def teleFit (s : State) : Nat → List (Nat × Nat) → List Byte × Bool
  | _, [] => ([], true)
  | room, b :: bs =>
    if room < b.2 + 8 then ([], false)
    else
      let r := teleFit s (room - (b.2 + 8)) bs
      (teleBlock s b ++ r.1, r.2)

/-- TELEMETRY (13 R421): `ok` is false where the host's buffer cannot be written. -/
def execTelemetry (src : SrcIx) (ok : Bool) (s : State) : Outcome State Fault Refusal :=
  commandRow s src.val 0x40 fun c =>
    let mask := cb c 0x10 2
    if 127 < mask then answer s src.val c stBadParameter 0
    else if ok = false ∧ src.val ≠ i3cSrc then answer s src.val c stHostAccess 0
    else
      let bs := ((teleBlocks.zipIdx).filter fun p => bit mask p.2).map (·.1)
      let r := teleFit s (cb c 0x20 4) bs
      answer (writeBuffer s src.val (cb c 0x18 8) r.1) src.val c (if r.2 then stSuccess else stBadParameter) r.1.length

end Sys2Proof.Machine
end

