-- ==== Sys2Proof/Machine/Lanes.lean ====
section
/-!
DEFINITION. The lane arithmetic of the vector engine (04 R116, R117), curve tables (04 R128-R131), reductions and rankings
(04 R136, R137).
-/
namespace Sys2Proof.Machine

/-- Significand bits of a result of TYPE `ty` (04 R116). -/
def tyBits (ty : Nat) : Nat := if ty = tyBf then pBf else pFp

/-- MIN of words that are not NaN; MIN(-0, +0) is -0 (04 R117). -/
def fpMinW (a b : Word) : Word := if fpLt a b then a else if fpLt b a then b else if fpNeg a then a else b
/-- MAX of words that are not NaN; MAX(-0, +0) is +0 (04 R117). -/
def fpMaxW (a b : Word) : Word := if fpLt b a then a else if fpLt a b then b else if fpNeg a then b else a
/-- MIN with NaN. -/
def fpMin (a b : Word) : Word := if fpIsNan a || fpIsNan b then fpNan else fpMinW a b
/-- MAX with NaN. -/
def fpMax (a b : Word) : Word := if fpIsNan a || fpIsNan b then fpNan else fpMaxW a b
/-- Absolute value (04 R117). -/
def fpAbs (a : Word) : Word := if fpIsNan a then fpNan else a &&& 0x7FFFFFFF
/-- Negation (04 R117). -/
def fpNegate (a : Word) : Word := if fpIsNan a then fpNan else fpFlip a

/-- Two's complement minimum. -/
def intMin (a b : Word) : Word := if a.toInt ≤ b.toInt then a else b
/-- Two's complement maximum. -/
def intMax (a b : Word) : Word := if a.toInt ≤ b.toInt then b else a

/-- FP32 to I32 with RNE and saturation; NaN gives 0 (04 R117). -/
def fpToInt (a : Word) : Word :=
  if fpIsNan a then 0
  else if fpIsInf a then (if fpNeg a then 0x80000000 else 0x7FFFFFFF)
  else
    let m : Int := rneTo (fpMant a) (fpExp a) 0
    let v := if fpNeg a then -m else m
    if 2 ^ 31 ≤ v then 0x7FFFFFFF else if v < -(2 ^ 31) then 0x80000000 else BitVec.ofInt 32 v

/-- CMP: SUB 0 EQ, 1 NE, 2 LT, 3 LE, 4 GT, 5 GE, 6 UNORD (04 R117, R122). -/
def cmpHolds (ty sub : Nat) (a b : Word) : Bool :=
  if ty = tyI32 then
    match sub with
    | 0 => a == b
    | 1 => a != b
    | 2 => decide (a.toInt < b.toInt)
    | 3 => decide (a.toInt ≤ b.toInt)
    | 4 => decide (b.toInt < a.toInt)
    | 5 => decide (b.toInt ≤ a.toInt)
    | _ => false
  else if fpIsNan a || fpIsNan b then sub == 1 || sub == 6
  else
    match sub with
    | 0 => fpEq a b
    | 1 => !fpEq a b
    | 2 => fpLt a b
    | 3 => fpLt a b || fpEq a b
    | 4 => fpLt b a
    | 5 => fpLt b a || fpEq a b
    | _ => false

/-- SHIFT: SUB 0 SHL, 1 LSR, 2 ASR, by bits [4:0] of S2 (04 R117). -/
def shiftWord (sub : Nat) (a b : Word) : Word :=
  let n := b.toNat % 32
  match sub with
  | 0 => a <<< n
  | 1 => a >>> n
  | _ => a.sshiftRight n

/-- One element of an element-wise operation (04 R117, R118). -/
def elemOp (op ty sub : Nat) (a b c : Word) : Word :=
  let p := tyBits ty
  let i := ty == tyI32
  match op with
  | 0x01 => if ty = tyBf then fpConv p a else a
  | 0x02 => if i then a + b else fpAdd p a b
  | 0x03 => if i then a - b else fpSub p a b
  | 0x04 => if i then a * b else fpMul p a b
  | 0x05 => if i then a * b + c else fpFma p a b c
  | 0x06 => if i then intMin a b else fpConv p (fpMin a b)
  | 0x07 => if i then intMax a b else fpConv p (fpMax a b)
  | 0x08 => if i then (if a.toInt < 0 then -a else a) else fpConv p (fpAbs a)
  | 0x09 => if i then -a else fpConv p (fpNegate a)
  | 0x0A => if cmpHolds ty sub a b then 1 else 0
  | 0x0B => if c = 0 then b else a
  | 0x0C => a &&& b
  | 0x0D => a ||| b
  | 0x0E => a ^^^ b
  | 0x0F => shiftWord sub a b
  | _ => if i then fpToInt a else fpOfInt p a.toInt

/-! ## Curves (04 R129-R131) -/

/-- Coefficient `k` of segment `s`. -/
def coeff (img : Mem) (s k : Nat) : Word := mword img (0x40 + 16 * s + 4 * k)

/-- horner(s, f) (04 R130). -/
def horner (img : Mem) (s : Nat) (f : Word) : Word :=
  fpFma pFp (fpFma pFp (fpFma pFp (coeff img s 3) f (coeff img s 2)) f (coeff img s 1)) f (coeff img s 0)

/-- A word times 2^k, rounded once. -/
def fpScale (y : Word) (k : Int) : Word :=
  if fpIsNan y then fpNan else if fpIsInf y then y else roundFp pFp (fpNeg y) (fpMant y) (fpExp y + k)

/-- floor of a finite word. -/
def fpFloor (x : Word) : Int :=
  let m : Int := fpMant x
  let v := if fpNeg x then -m else m
  if 0 ≤ fpExp x then v * 2 ^ (fpExp x).toNat else v / 2 ^ (-fpExp x).toNat

/-- Mode 0 (04 R130, R131): the value, and 1 where the element lies outside the segment range. -/
def curveLinear (img : Mem) (x : Word) : Word × Nat :=
  let u := fpMul pFp (fpSub pFp x (mword img 4)) (mword img 8)
  if fpIsNan u then (fpNan, 0)
  else if fpLt u 0 then
    (match (mread img 1).toNat with
      | 0 => horner img 0 u
      | 1 => mword img 0x14
      | _ => fpFma pFp (mword img 0x10) x (mword img 0x14), 1)
  else if fpLt u 0x42800000 then
    let s := fpFloor u
    (horner img s.toNat (fpSub pFp u (fpOfInt pFp s)), 0)
  else
    (match (mread img 2).toNat with
      | 0 => horner img 63 (fpSub pFp u 0x427C0000)
      | 1 => mword img 0x1C
      | _ => fpFma pFp (mword img 0x18) x (mword img 0x1C), 1)

/-- Exponent and position in the significand of a finite nonzero x = m × 2^e: e, and the segment and fraction of (m - 1) × n. -/
def splitX (x : Word) (n : Nat) : Int × Nat × Word :=
  let l := Nat.log2 (fpMant x)
  let num := (fpMant x - 2 ^ l) * n
  ((l : Int) + fpExp x, num / 2 ^ l, roundFp pFp false (num % 2 ^ l) (-(l : Int)))

/-- CURVE of one element (04 R130, R131): the FP32 value, and 1 where VEC_CURVE_OUT counts it. -/
def curveEval (img : Mem) (x : Word) : Word × Nat :=
  if fpIsNan x then (fpNan, 0)
  else
    match (mread img 0).toNat with
    | 0 => curveLinear img x
    | 1 =>
      if fpIsZero x then (fpInf (fpNeg x), 0)
      else if fpIsInf x then (fpZero (fpNeg x), 0)
      else
        let r := splitX x 64
        let h := horner img r.2.1 r.2.2
        (fpScale (if fpNeg x then fpNegate h else h) (-r.1), 0)
    | 2 =>
      if fpIsZero x then (fpInf false, 0)
      else if fpNeg x then (fpNan, 0)
      else if fpIsInf x then (0, 0)
      else
        let r := splitX x 32
        let odd := r.1 % 2 == 1
        let e := if odd then r.1 - 1 else r.1
        (fpScale (horner img (if odd then 32 + r.2.1 else r.2.1) r.2.2) (-(e / 2)), 0)
    | 3 =>
      if fpIsZero x then (fpInf true, 0)
      else if fpNeg x then (fpNan, 0)
      else if fpIsInf x then (fpInf false, 0)
      else
        let r := splitX x 64
        (fpFma pFp (fpOfInt pFp r.1) (mword img 0x0C) (horner img r.2.1 r.2.2), 0)
    | _ =>
      let t := fpMul pFp x (mword img 0x0C)
      if fpIsNan t then (fpNan, 0)
      else if !fpLt t 0x43000000 then (fpInf false, 0)
      else if fpLt t 0xC3160000 then (0, 0)
      else
        let n0 := fpFloor t
        let f0 := fpSub pFp t (fpOfInt pFp n0)
        let up := f0 == 0x3F800000
        let n := if up then n0 + 1 else n0
        let w := fpMul pFp (if up then 0 else f0) 0x42800000
        let s := fpFloor w
        (fpScale (horner img s.toNat (fpSub pFp w (fpOfInt pFp s))) n, 0)

/-- A curve image's header breaks 04 R129. -/
def curveBad (img : Mem) : Bool :=
  let b (i : Nat) : Nat := (mread img i).toNat
  decide (4 < b 0) || decide (2 < b 1) || decide (2 < b 2) || b 3 != 0
    || (decide (1 ≤ b 0 ∧ b 0 ≤ 4) && (b 1 != 0 || b 2 != 0)) || mrd img 0x20 28 != 0

/-- CRC-32C of a curve image (04 R129). -/
def curveCrc (img : Mem) : Word := crc32c (mbytes img 0 0x3C ++ mbytes img 0x40 0x400)

/-! ## Reductions (04 R136) -/

/-- The identity of ROP (0 SUM, 1 MAX, 2 MIN, 3 ABSMAX) for inactive elements. -/
def ropIdent (rop : Nat) (i32 : Bool) : Word :=
  if rop = 1 then (if i32 then 0x80000000 else 0xFF800000) else if rop = 2 then (if i32 then 0x7FFFFFFF else 0x7F800000) else 0

/-- What ROP takes of an active element: its magnitude for ABSMAX. An FP32 NaN is taken as the canonical one (02 R49), which shows in a
group of one entry. -/
def ropTake (rop : Nat) (i32 : Bool) (x : Word) : Word :=
  if i32 then (if rop = 3 ∧ x.toInt < 0 then -x else x)
  else if fpIsNan x then fpNan else if rop = 3 then fpAbs x else x

/-- Two elements under ROP; I32 magnitudes of ABSMAX compare as unsigned. -/
def ropApply (rop : Nat) (i32 : Bool) (a b : Word) : Word :=
  match rop with
  | 0 => if i32 then a + b else fpAdd pFp a b
  | 1 => if i32 then intMax a b else fpMax a b
  | 2 => if i32 then intMin a b else fpMin a b
  | _ => if i32 then (if a.toNat ≤ b.toNat then b else a) else fpMax a b

/-- One level of the lane tree: neighbours 2i and 2i + 1. -/
def pairUp (f : Word → Word → Word) : List Word → List Word
  | a :: b :: t => f a b :: pairUp f t
  | l => l

/-- The tree over 32 lanes, five levels. -/
def laneTree (f : Word → Word → Word) (l : List Word) : Word :=
  ((pairUp f (pairUp f (pairUp f (pairUp f (pairUp f l))))).head?).getD 0

/-- Left fold of a nonempty list from its first element. -/
def foldWords (f : Word → Word → Word) : List Word → Word
  | [] => 0
  | a :: t => t.foldl f a

/-- Axis 0: every entry by the lane tree, then entries in ascending order. -/
def reduceLanes (f : Word → Word → Word) (es : List (List Word)) : Word := foldWords f (es.map (laneTree f))

/-- Axis 1: lane by lane, entries in ascending order. -/
def reduceEntries (f : Word → Word → Word) (es : List (List Word)) : List Word :=
  (List.range 32).map fun l => foldWords f (es.map fun e => (e[l]?).getD 0)

/-! ## Rankings (04 R137) -/

/-- `a` ranks strictly above `b`. -/
def ranksAbove (i32 : Bool) (a b : Word) : Bool :=
  if i32 then decide (b.toInt < a.toInt)
  else if fpIsNan b then false
  else if fpIsNan a then true
  else fpLt b a

/-- Insert behind every element that ranks equal or above. -/
def rankIns (i32 : Bool) (e : Word × Nat) : List (Word × Nat) → List (Word × Nat)
  | [] => [e]
  | f :: t => if ranksAbove i32 e.1 f.1 then e :: f :: t else f :: rankIns i32 e t

/-- The K highest of a group's active elements, with their indices; positions with no value are filled (04 R137). -/
def topk (i32 : Bool) (k : Nat) (xs : List (Word × Nat)) : List (Word × Word) :=
  let r := (xs.foldl (fun l e => rankIns i32 e l) []).take k
  let vals := r.map fun e => (if !i32 && fpIsNan e.1 then fpNan else e.1, w32 e.2)
  vals ++ List.replicate (32 - vals.length) (if i32 then 0x80000000 else 0xFF800000, 0xFFFFFFFF)

end Sys2Proof.Machine
end

