-- ==== Sys2Proof/Machine/Vector.lean ====
section
/-!
DEFINITION. The vector engine (04): the start rule, the streams of entries through the read ports and W0, and every VE
operation. Vector cycle v spans heat core cycles 2v and 2v + 1 (R111).
-/
namespace Sys2Proof.Machine
open Host (Outcome)

/-! ## Times, in vector cycles from the start (04 R118, R125, R135-R137) -/

/-- Latency L of a streaming operation. -/
def veLat (op : Nat) : Nat := if op = 0x05 ∨ op = 0x29 then 4 else if op = 0x18 then 6 else if op = 0x2C then 5 else 3

/-- Vector cycles with an operand-cache read. -/
def veReadLen (d : Nat) : Nat :=
  let op := dOp d
  if op = 0x2A then vSlen d + vN d
  else if op = 0x2C then (if vMen d then vN d else 0)
  else if op = 0x30 then 2 * vRows d
  else if op = 0x33 then 128
  else if op = 0x19 ∨ op = 0x31 ∨ op = 0x32 then 0
  else vN d

/-- First W0 write. -/
def veW0First (d : Nat) : Option Nat :=
  let op := dOp d
  if op = 0x19 ∨ op = 0x30 ∨ op = 0x33 then none
  else some (
    if op = 0x2A then vSlen d + 3
    else if op = 0x20 then (if vAxis d then vG d - 1 + 4 else min (vN d) (32 * vG d) - 1 + 6)
    else if op = 0x21 then 13
    else if op = 0x28 then vN d + 4
    else if op = 0x31 then (if vQfmt d = 2 then 19 else 10)
    else if op = 0x32 then 66
    else veLat op)

/-- Last W0 write. -/
def veW0Last (d : Nat) : Nat :=
  let op := dOp d
  if op = 0x2A then vSlen d + vN d + 2
  else if op = 0x20 then (if vAxis d then vN d - 1 + 4 else vN d - 1 + 6)
  else if op = 0x21 then vN d + 12
  else if op = 0x28 then 2 * vN d + 3
  else if op = 0x31 then (if vQfmt d = 2 then 19 else 10) + 2 * vRows d - 1
  else if op = 0x32 then 65 + 2 * vRows d
  else vN d - 1 + veLat op

/-- Last vector cycle before completion. -/
def veDone (d : Nat) : Nat :=
  let op := dOp d
  if op = 0x19 then 5
  else if op = 0x30 then quantAt d + (if vQfmt d = 2 then 17 else 8)
  else if op = 0x33 then 131
  else veW0Last d

/-- First and last core cycle of core-memory accesses, counted from core cycle 2v. -/
def veCoreSpan (d : Nat) : Option (Nat × Nat) :=
  let op := dOp d
  if op = 0x19 then some (0, 8)
  else if op = 0x30 then some (2 * quantAt d, 2 * quantAt d + (if vQfmt d = 2 then 35 else 17))
  else if op = 0x31 then some (0, if vQfmt d = 2 then 35 else 17)
  else if op = 0x32 then some (0, 128)
  else if op = 0x33 then some (5, 263)
  else none

/-- The first vector cycle in which a descriptor may start: in queue order, no earlier than the previous one (04 R124). -/
def veStartAt (x : Seat) (j : Job) : Nat :=
  let o := x.vec
  let d := j.raw.toNat
  let a := max (max (runTime x.cox j.issued (2 * ((j.issued + 1) / 2)) / 2) o.readEnd) o.startFrom
  let b := match veW0First d with
    | some f => o.w0End - f
    | none => 0
  let c := match veCoreSpan d with
    | some p => (o.coreEnd - p.1 + 1) / 2
    | none => 0
  let e := if o.prevCt ∨ dOp d = 0x19 then o.doneEnd else 0
  max (max a b) (max c e)

/-- The write run of a descriptor through W0, where it writes consecutive entries one a vector cycle (04 R114). -/
def veRun0 (d c v : Nat) : List WPort :=
  let op := dOp d
  let dst := (vEntry d c 3 (vD d)).toNat
  match veW0First d with
  | none => []
  | some f =>
    if op = 0x31 ∨ op = 0x32 then
      [{ v := v + f, e := dst, n := 2 * min (vRows d) 32 }]
        ++ (if 32 < vRows d then [{ v := v + f + 64, e := vDb d, n := 2 * (vRows d - 32) }] else [])
    else if op = 0x20 then
      (if vAxis d then (List.range (vN d / vG d)).map fun g => { v := v + (g + 1) * vG d - 1 + 4, e := dst + g, n := 1 }
       else (List.range ((vN d / vG d + 31) / 32)).map fun k => { v := v + min (vN d) (32 * vG d * (k + 1)) - 1 + 6, e := dst + k, n := 1 })
    else [{ v := v + f, e := dst, n := vN d }]

/-- Entries of a W0 run that a W1 run writes in the same vector cycle (04 R114). -/
def collisions (o : Vec) (r : List WPort) : Nat :=
  (r.map fun p => ((List.range p.n).filter fun k => o.w1.any fun q => q.hits (p.e + k) (p.v + k / p.per)).length).sum

/-- VE_START (04 R124): the engine starts its next descriptor; a CURVE whose slot is empty faults at its start (R144). -/
def execVeStart (w : SeatIx) (s : State) : Outcome State Fault Refusal :=
  let x := seatOf s w.val
  match x.vec.queue with
  | [] => .next s
  | j :: q =>
    let v := veStartAt x j
    if runsAt x (2 * v) = true ∧ x.vec.cur = none ∧ stillBefore x (2 * v) = true ∧ clocked s w.val = true then
      let d := j.raw.toNat
      let o := x.vec
      let j := { j with start := v }
      let runs := veRun0 d j.c v
      let w0 := match veW0First d with
        | some _ => v + veW0Last d + 1
        | none => 0
      let core := match veCoreSpan d with
        | some p => 2 * v + p.2 + 1
        | none => 0
      let fin := v + veDone d + 1
      let o' : Vec :=
        { o with queue := q, cur := some j, readEnd := if veReadLen d = 0 then o.readEnd else v + veReadLen d,
                 w0End := max o.w0End w0, coreEnd := max o.coreEnd core, doneEnd := max o.doneEnd fin, startFrom := v,
                 prevCt := dOp d == 0x19, reads := satAdd o.reads (veReadLen d), busy := o.busy + (fin - max v o.doneEnd),
                 busyRuns := o.busyRuns ++ [(max v o.doneEnd, max v (max fin o.doneEnd))], readRuns := o.readRuns ++ [(v, v + veReadLen d)],
                 w0 := o.w0 ++ runs, pend := loseW1 runs o.pend, collide := satAdd o.collide (collisions o runs) }
      let x1 := noteRoom { x with vec := o' } 1
      if dOp d = 0x18 ∧ (tfind o.curves (vCslot d)).isNone then
        .next (jobFault (putSeat s w.val { x1 with vec := { o' with cur := none } }) w.val j veCurveEmpty 6 (2 * v) 0 noWord 0)
      else .next (putSeat s w.val x1)
    else .next s

/-! ## Streams -/

/-- One write through W0: vector cycle, entry, lanes. -/
abbrev W0 := Nat × Nat × List (Option Word)

/-- What the stream has done: the engine, what the operation carries along, and the entry and vector cycle of an unwritten read. -/
abbrev Strm (α : Type) := Vec × α × Option (Nat × Nat)

/-- Run `n` reads: read i takes place in vector cycle `v i` on the entries `reads i`, and `step` gives what is carried on and the writes
made. A read of an entry not yet written ends the stream (06 R206). -/
def stream {α : Type} (v : Nat → Nat) (n : Nat) (reads : Nat → List Nat) (step : α → Vec → Nat → α × List W0) (st0 : Strm α) : Strm α :=
  (List.range n).foldl (fun st i =>
    match st.2.2 with
    | some _ => st
    | none =>
      let o := opcSettle st.1 (v i)
      match (reads i).find? fun e => !readable o e (v i) with
      | some e => (o, st.2.1, some (v i, e))
      | none =>
        let r := step st.2.1 o i
        (r.2.foldl opcWrite o, r.1, none)) st0

/-- The core cycle at whose end a started job completes (04 R125). -/
def veOver (x : Seat) (j : Job) : Nat := veCoreAt x j (2 * veDone j.raw.toNat + 1)

/-- The job ends: it completes at the end of vector cycle `v` + the opcode's time (04 R125). -/
def veFinish (x : Seat) (j : Job) (o : Vec) : Seat :=
  { x with vec := { o with cur := none },
           cox := { x.cox with fin := x.cox.fin ++ [{ j with doneAt := veOver x j }] } }

/-- The job is over by the core cycle of a halt of its seat, if the seat has halted (04 R115). -/
def veLive (x : Seat) (j : Job) : Bool := runsAt x (veOver x j)

/-- Of the `n` reads of a stream from `k` vector cycles after the start, those that a halted seat has made (04 R115). -/
def readsMade (x : Seat) (j : Job) (k n : Nat) : Nat := ((List.range n).filter fun i => runsAt x (2 * veAt x j (k + i))).length

/-- The stream of a job: its reads from `k` vector cycles after its start. -/
def jobStream {α : Type} (x : Seat) (j : Job) (k n : Nat) (reads : Nat → List Nat) (step : α → Vec → Nat → α × List W0) (st0 : Strm α) :
    Strm α := stream (fun i => veAt x j (k + i)) (readsMade x j k n) reads step st0

/-- The job ends in a fault or with its seat. -/
def veStop (x : Seat) : Seat := { x with vec := { x.vec with cur := none } }

/-- Run `f` on the engine's job where it has opcode `op`; what lies after the beginning of a forced refresh waits for its end (04 R115). -/
def veRow (op : Nat) (w : Nat) (s : State) (f : Seat → Job → State) : Outcome State Fault Refusal :=
  let x := seatOf s w
  match x.vec.cur with
  | some j =>
    if dOp j.raw.toNat = op ∧ clocked s w = true ∧ stillBefore x (veOver x j) = true then .next (f x j) else .next s
  | none => .next s

/-- The end of a stream: the job completes, or the umpire faults it (06 R206), or it stops with its seat (04 R115). What `g` counts
stands for the reads made. -/
def veEnd {α : Type} (s : State) (w : Nat) (x : Seat) (j : Job) (st : Strm α) (g : Vec → α → Vec) : State :=
  match st.2.2 with
  | none => putSeat s w (if veLive x j then veFinish x j (g st.1 st.2.1) else veStop { x with vec := g st.1 st.2.1 })
  | some (v, e) => jobFault (putSeat s w (veStop { x with vec := g st.1 st.2.1 })) w j umpUnwrittenRead 1 (2 * v) 0 e 0

/-- Element index `i` of the strip is active, given the mask word (04 R121). -/
def activeElem (d tail i : Nat) (mask : Word) : Bool := !(vTen d && decide (tail ≤ i)) && !(vMen d && mask == 0)

/-- The mask entries read with strip entry `i`. -/
def maskReads (d i : Nat) : List Nat := if vMen d then [vM d + i] else []

/-- Which lanes of strip entry `i` are active. -/
def activeLanes (d tail : Nat) (o : Vec) (i : Nat) : List Bool :=
  (List.range 32).map fun l => activeElem d tail (32 * i + l) (tget 0 o.opc ((vM d + i) * 32 + l))

/-- A lane that is not active: +0 with MZ, else it keeps its contents (04 R121). -/
def inactive (d : Nat) : Option Word := if vMz d then some 0 else none

/-- Element-wise results of entry `i`. -/
def elemLanes (d c tail : Nat) (o : Vec) (i : Nat) : List (Option Word) :=
  let s1 := (vEntry d c 2 (vS1 d)).toNat + i
  let s2 := (vEntry d c 1 (vS2 d)).toNat + stripOff (vP2 d) i
  let s3 := (vEntry d c 0 (vS3 d)).toNat + stripOff (vP3 d) i
  ((activeLanes d tail o i).zipIdx).map fun p =>
    if p.1 then
      let a := tget 0 o.opc (s1 * 32 + p.2)
      let b := if vIsel d = 1 then vImm d else tget 0 o.opc (s2 * 32 + p.2)
      let e := if vIsel d = 2 then vImm d else tget 0 o.opc (s3 * 32 + p.2)
      some (elemOp (dOp d) (vType d) (vSub d) a b e)
    else inactive d

/-- The entries that an element-wise operation reads with strip entry `i` (04 R118, R122). -/
def elemReads (d c i : Nat) : List Nat :=
  [(vEntry d c 2 (vS1 d)).toNat + i]
    ++ (if 2 ≤ veSources (dOp d) ∧ vIsel d ≠ 1 then [(vEntry d c 1 (vS2 d)).toNat + stripOff (vP2 d) i] else [])
    ++ (if 3 ≤ veSources (dOp d) ∧ vIsel d ≠ 2 then [(vEntry d c 0 (vS3 d)).toNat + stripOff (vP3 d) i] else [])
    ++ maskReads d i

/-- An element-wise operation (04 R117, R121, R125). -/
def runElem (op : Nat) (w : Nat) (s : State) : Outcome State Fault Refusal :=
  veRow op w s fun x j =>
    let d := j.raw.toNat
    let dst := (vEntry d j.c 3 (vD d)).toNat
    let st : Strm Unit := jobStream x j 0 (vN d) (elemReads d j.c)
      (fun a o i => (a, [(veAt x j (i + veLat op), dst + i, elemLanes d j.c j.tail o i)])) (x.vec, (), none)
    veEnd s w x j st fun o _ => o

/-- MOV (04 R117): a copy, or rounding to BF16. -/
def execMov (w : SeatIx) (s : State) : Outcome State Fault Refusal := runElem 0x01 w.val s
/-- ADD (04 R118). -/
def execVadd (w : SeatIx) (s : State) : Outcome State Fault Refusal := runElem 0x02 w.val s
/-- SUB: S1 − S2 (04 R118). -/
def execVsub (w : SeatIx) (s : State) : Outcome State Fault Refusal := runElem 0x03 w.val s
/-- MUL (04 R118). -/
def execVmul (w : SeatIx) (s : State) : Outcome State Fault Refusal := runElem 0x04 w.val s
/-- FMA: S1 × S2 + S3 with one rounding (04 R118). -/
def execFma (w : SeatIx) (s : State) : Outcome State Fault Refusal := runElem 0x05 w.val s
/-- MIN (04 R117). -/
def execVmin (w : SeatIx) (s : State) : Outcome State Fault Refusal := runElem 0x06 w.val s
/-- MAX (04 R117). -/
def execVmax (w : SeatIx) (s : State) : Outcome State Fault Refusal := runElem 0x07 w.val s
/-- ABS (04 R117). -/
def execVabs (w : SeatIx) (s : State) : Outcome State Fault Refusal := runElem 0x08 w.val s
/-- NEG (04 R117). -/
def execVneg (w : SeatIx) (s : State) : Outcome State Fault Refusal := runElem 0x09 w.val s
/-- CMP (04 R117): I32 1 or 0. -/
def execCmp (w : SeatIx) (s : State) : Outcome State Fault Refusal := runElem 0x0A w.val s
/-- SEL (04 R117): S1 where the S3 word is nonzero, else S2. -/
def execSel (w : SeatIx) (s : State) : Outcome State Fault Refusal := runElem 0x0B w.val s
/-- AND (04 R118). -/
def execVand (w : SeatIx) (s : State) : Outcome State Fault Refusal := runElem 0x0C w.val s
/-- OR (04 R118). -/
def execVor (w : SeatIx) (s : State) : Outcome State Fault Refusal := runElem 0x0D w.val s
/-- XOR (04 R118). -/
def execVxor (w : SeatIx) (s : State) : Outcome State Fault Refusal := runElem 0x0E w.val s
/-- SHIFT (04 R117). -/
def execShift (w : SeatIx) (s : State) : Outcome State Fault Refusal := runElem 0x0F w.val s
/-- CVT (04 R117). -/
def execCvt (w : SeatIx) (s : State) : Outcome State Fault Refusal := runElem 0x10 w.val s

/-- CURVE (04 R130, R131): every active element through the table of its slot. -/
def execCurve (w : SeatIx) (s : State) : Outcome State Fault Refusal :=
  veRow 0x18 w.val s fun x j =>
    let d := j.raw.toNat
    let img := tget [] x.vec.curves (vCslot d)
    let s1 := (vEntry d j.c 2 (vS1 d)).toNat
    let dst := (vEntry d j.c 3 (vD d)).toNat
    let st : Strm Nat := jobStream x j 0 (vN d) (fun i => (s1 + i) :: maskReads d i)
      (fun out o i =>
        let r := ((activeLanes d j.tail o i).zipIdx).map fun p =>
          if p.1 then
            let y := curveEval img (tget 0 o.opc ((s1 + i) * 32 + p.2))
            (some (if vType d = tyBf then fpConv pBf y.1 else y.1), y.2)
          else (inactive d, 0)
        (out + (r.map (·.2)).sum, [(veAt x j (i + 6), dst + i, r.map (·.1))])) (x.vec, 0, none)
    veEnd s w.val x j st fun o n => { o with curveOut := satAdd o.curveOut n }

/-- CTLOAD (04 R128, R129): the image's CRC is compared in core cycle 2v + 10, then its header; the slot is ready from v + 6. A bank
conflict that stops it leaves the slot empty as those checks do (log entry 65). -/
def execCtload (w : SeatIx) (s : State) : Outcome State Fault Refusal :=
  veRow 0x19 w.val s fun x j =>
    let d := j.raw.toNat
    let g := (vCore d j.c).toNat
    let img := mslice x.core (64 * g) 1088
    let t := veCoreAt x j 10
    let crc := curveCrc img
    let bad : List Ev :=
      if mrd img 0x3C 4 ≠ crc.toNat then [checkEv j 6 g t true (pack [(0, 32, mrd img 0x3C 4), (32, 32, crc.toNat)])]
      else if curveBad img then [(t, veCurveImage, 6, 0, g, 0, j)]
      else []
    let es := bad ++ bankEvents x j
    if es.isEmpty && !veLive x j then putSeat s w.val (veStop x)
    else if es.isEmpty then
      putSeat s w.val (addSpans (veFinish x j { x.vec with curves := tput x.vec.curves (vCslot d) img }) j)
    else raiseEvents (putSeat s w.val (veStop { x with vec := { x.vec with curves := tdel x.vec.curves (vCslot d) } })) w.val es

/-- REDUCE (04 R136). -/
def execReduce (w : SeatIx) (s : State) : Outcome State Fault Refusal :=
  veRow 0x20 w.val s fun x j =>
    let d := j.raw.toNat
    let i32 := vType d == tyI32
    let rop := vRop d
    let s1 := (vEntry d j.c 2 (vS1 d)).toNat
    let dst := (vEntry d j.c 3 (vD d)).toNat
    let g := vG d
    let n := vN d
    let f := ropApply rop i32
    let st : Strm (List (List Word) × List Word) := jobStream x j 0 n (fun i => (s1 + i) :: maskReads d i)
      (fun a o i =>
        let lanes := ((activeLanes d j.tail o i).zipIdx).map fun p =>
          if p.1 then ropTake rop i32 (tget 0 o.opc ((s1 + i) * 32 + p.2)) else ropIdent rop i32
        let grp := a.1 ++ [lanes]
        if (i + 1) % g = 0 then
          if vAxis d then
            (([], []), [(veAt x j ((i / g + 1) * g - 1 + 4), dst + i / g, (reduceEntries f grp).map some)])
          else
            let sc := a.2 ++ [reduceLanes f grp]
            if sc.length = 32 ∨ i + 1 = n then
              (([], []), [(veAt x j (i + 6), dst + i / g / 32, (List.range 32).map fun l => some ((sc[l]?).getD 0))])
            else (([], sc), [])
        else ((grp, a.2), [])) (x.vec, ([], []), none)
    veEnd s w.val x j st fun o _ => o

/-- TOPK (04 R137). -/
def execTopk (w : SeatIx) (s : State) : Outcome State Fault Refusal :=
  veRow 0x21 w.val s fun x j =>
    let d := j.raw.toNat
    let i32 := vType d == tyI32
    let s1 := (vEntry d j.c 2 (vS1 d)).toNat
    let dst := (vEntry d j.c 3 (vD d)).toNat
    let st : Strm (List (Word × Nat)) := jobStream x j 0 (vN d) (fun i => (s1 + i) :: maskReads d i)
      (fun a o i =>
        let xs := ((activeLanes d j.tail o i).zipIdx).filterMap fun p =>
          if p.1 then some (tget 0 o.opc ((s1 + i) * 32 + p.2), 32 * (i % 2) + p.2) else none
        if i % 2 = 0 then (xs, [])
        else
          let r := topk i32 (vK d) (a ++ xs)
          let b := i - 1
          ([], [(veAt x j (b + 13), dst + b, r.map fun e => some e.1), (veAt x j (b + 14), dst + b + 1, r.map fun e => some e.2)]))
      (x.vec, [], none)
    veEnd s w.val x j st fun o _ => o

/-- Counter writes that took effect by the core cycle of the seat's halt (04 R115, R133). -/
def haltSettle (x : Seat) : Seat := { x with cox := settle x.cox (x.cox.haltAt + 1) }

/-- COMPRESS (04 R133): the active elements packed, the rest +0, and their count to CDST at the end of vector cycle v + N + 3. -/
def execCompress (w : SeatIx) (s : State) : Outcome State Fault Refusal :=
  veRow 0x28 w.val s fun x j =>
    let d := j.raw.toNat
    let s1 := (vEntry d j.c 2 (vS1 d)).toNat
    let dst := (vEntry d j.c 3 (vD d)).toNat
    let n := vN d
    let st : Strm (List Word) := jobStream x j 0 n (fun i => (s1 + i) :: maskReads d i)
      (fun a o i =>
        (a ++ ((activeLanes d j.tail o i).zipIdx).filterMap fun p =>
          if p.1 then some (if vIdx d then w32 (32 * i + p.2) else tget 0 o.opc ((s1 + i) * 32 + p.2)) else none, []))
      (x.vec, [], none)
    match st.2.2 with
    | some _ => veEnd s w.val x j st fun o _ => o
    | none =>
      let xs := st.2.1
      let at_ := 2 * veAt x j (n + 3) + 1
      if runsAt x at_ = false then putSeat s w.val (veStop x) else
      let o := (List.range n).foldl (fun o k =>
        opcWrite o (veAt x j (n + 4 + k), dst + k, (List.range 32).map fun l => some ((xs[32 * k + l]?).getD 0))) st.1
      let x1 := { x with cox := { x.cox with due := x.cox.due ++ [(at_, vCdst d, w32 xs.length)] } }
      let o1 := { o with lastCount := w32 xs.length }
      putSeat s w.val (if veLive x j then veFinish x1 j o1 else veStop (haltSettle { x1 with vec := o1 }))

/-- EXPAND (04 R134): active element i takes dense element j, the number of active elements before i. -/
def execExpand (w : SeatIx) (s : State) : Outcome State Fault Refusal :=
  veRow 0x29 w.val s fun x j =>
    let d := j.raw.toNat
    let s1 := (vEntry d j.c 2 (vS1 d)).toNat
    let dst := (vEntry d j.c 3 (vD d)).toNat
    let st : Strm (List Word × Nat) := jobStream x j 0 (vN d) (fun i => (s1 + i) :: maskReads d i)
      (fun a o i =>
        let dense := a.1 ++ entryOf o (s1 + i)
        let r := (activeLanes d j.tail o i).foldl (fun (b : Nat × List (Option Word)) act =>
          if act then (b.1 + 1, b.2 ++ [some ((dense[b.1]?).getD 0)]) else (b.1, b.2 ++ [inactive d])) (a.2, [])
        ((dense, r.1), [(veAt x j (i + 4), dst + i, r.2)])) (x.vec, ([], 0), none)
    veEnd s w.val x j st fun o _ => o

/-- GATHER (04 R135): window entries in v to v + SLEN - 1, then index and mask entries; an index outside reads +0 and counts. -/
def execGather (w : SeatIx) (s : State) : Outcome State Fault Refusal :=
  veRow 0x2A w.val s fun x j =>
    let d := j.raw.toNat
    let s1 := (vEntry d j.c 2 (vS1 d)).toNat
    let s2 := (vEntry d j.c 1 (vS2 d)).toNat
    let dst := (vEntry d j.c 3 (vD d)).toNat
    let k := vSlen d
    let win : Strm (List Word × Nat) := jobStream x j 0 k (fun i => [s1 + i])
      (fun a o i => ((a.1 ++ entryOf o (s1 + i), a.2), [])) (x.vec, ([], 0), none)
    let st : Strm (List Word × Nat) := jobStream x j k (vN d) (fun i => (s2 + i) :: maskReads d i)
      (fun a o i =>
        let r := ((activeLanes d j.tail o i).zipIdx).map fun p =>
          if p.1 then
            let ix := (tget 0 o.opc ((s2 + i) * 32 + p.2)).toInt
            if 0 ≤ ix ∧ ix < 32 * k then (some ((a.1[ix.toNat]?).getD 0), 0) else (some (0 : Word), 1)
          else (inactive d, 0)
        ((a.1, a.2 + (r.map (·.2)).sum), [(veAt x j (k + i + 3), dst + i, r.map (·.1))])) win
    veEnd s w.val x j st fun o a => { o with oor := satAdd o.oor a.2 }

/-- RAND (04 R143): the generator's values for tile index T and elements from EBASE. -/
def execRand (w : SeatIx) (s : State) : Outcome State Fault Refusal :=
  veRow 0x2C w.val s fun x j =>
    let d := j.raw.toNat
    let dst := (vEntry d j.c 3 (vD d)).toNat
    let t := tileIdx (vRtidx d) j.c (vRtstep d)
    let st : Strm Unit := jobStream x j 0 (vN d) (maskReads d)
      (fun a o i =>
        let lanes := ((activeLanes d j.tail o i).zipIdx).map fun p =>
          if p.1 then
            let r := rnd24 x.cox.seed t ((vEbase d + 32 * i + p.2) % 4096)
            some (if vType d = tyI32 then w32 r else roundFp pFp false r (-24))
          else inactive d
        (a, [(veAt x j (i + 5), dst + i, lanes)])) (x.vec, (), none)
    veEnd s w.val x j st fun o _ => o

/-! ## Tiles in and out (04 R138-R142) -/

/-- Operand-cache entry that holds entry `k` of a tile: first strip `a`, second strip `b` (04 R138). -/
def tileEntry (a b k : Nat) : Nat := if k < 64 then a + k else b + (k - 64)

/-- Write chunks of 128 bytes, each in its core cycle, those up to core cycle `stop`. -/
def writeChunks (x : Seat) (stop : Nat) (cs : List (Nat × Nat × List Byte)) : Seat :=
  cs.foldl (fun x c => if c.1 ≤ stop then coreWrite x c.2.1 c.2.2 else x) x

/-- A tile of `len` bytes cut into chunks of 128 bytes, the k-th in core cycle `t k`. -/
def chunks (t : Nat → Nat) (a len : Nat) (m : Mem) : List (Nat × Nat × List Byte) :=
  (List.range ((len + 127) / 128)).map fun k => (t k, a + 128 * k, mbytes m (128 * k) (min 128 (len - 128 * k)))

/-- Nibbles packed into bytes, lower element in the low bits (02 R42). -/
def packNibs : List Nat → List Byte
  | a :: b :: t => BitVec.ofNat 8 (a % 16 + 16 * (b % 16)) :: packNibs t
  | _ => []

/-- One narrow plane from the blocks of its entries: codes (through `f`) and scales, then trailer and CRC (04 R140). -/
def narrowPlane (f : Nat → Nat) (blocks : List (Nat × List Nat)) (tag clip flush epoch : Nat) : Mem :=
  let m := ((blocks.zipIdx).foldl (fun m p => mwrites m (16 * p.2) (packNibs (p.1.2.map f))) [])
  let m := (List.range 128).foldl (fun m k => mwrite m (0x800 + k) (BitVec.ofNat 8 (((blocks[k]?).map (·.1)).getD 0x7F))) m
  sealTile m kindNarrow tag clip flush epoch

/-- QUANTIZE (02 R58-R63, 04 R140): blocks of 32, complete tiles with trailer and CRC; NONFINITE counts the NaN blocks whose codes have
been written, CLIP and FLUSH when the descriptor completes. Code granules are written in ascending order, and a NaN block of an I8
tile counts with its granule of the high plane (log entry 65). -/
def execQuantize (w : SeatIx) (s : State) : Outcome State Fault Refusal :=
  let x := seatOf s w.val
  match x.vec.cur with
  | none => .next s
  | some j =>
    let d := j.raw.toNat
    if dOp d ≠ 0x30 ∨ clocked s w.val = false ∨ stillBefore x (veOver x j) = false then .next s
    else
      let live := veLive x j
      let a := (vEntry d j.c 2 (vS1 d)).toNat
      let b := (vEntry d j.c 1 (vS2 d)).toNat
      let q := vQfmt d
      let t := tileIdx (vTidx d) j.c (vTstep d)
      let st : Strm (List (Nat × List Nat × Nat × Nat × Bool)) := jobStream x j 0 (2 * vRows d) (fun k => [tileEntry a b k])
        (fun l o k => (l ++ [quantBlock q (vStoch d) (fun i => rnd24 x.cox.seed t (32 * k + i)) (entryOf o (tileEntry a b k))], []))
        (x.vec, [], none)
      match st.2.2 with
      | some (v, e) =>
        .next (jobFault (putSeat s w.val (veStop x)) w.val j umpUnwrittenRead 1 (2 * v) 0 e 0)
      | none =>
        let bl := st.2.1
        let blocks := bl.map fun e => (e.1, e.2.1)
        let clips := (bl.map fun e => e.2.2.1).sum
        let flushes := (bl.map fun e => e.2.2.2.1).sum
        let ep := x.cox.epoch.toNat
        let g := (vCore d j.c).toNat
        let t0 (k : Nat) : Nat := veCoreAt x j (2 * quantAt d + k)
        let cs := if q = 2 then
            chunks t0 (64 * g) 2208 (narrowPlane (· / 16) blocks (mkTag x.cox.ctx 0 kindNarrow fmtI8H t) clips flushes ep)
              ++ chunks (fun k => t0 (18 + k)) (64 * (g + 35)) 2208
                (narrowPlane (· % 16) blocks (mkTag x.cox.ctx 0 kindNarrow fmtI8L ((t + 1) % 2 ^ 24)) clips flushes ep)
          else chunks t0 (64 * g) 2208 (narrowPlane id blocks (mkTag x.cox.ctx 0 kindNarrow q t) clips flushes ep)
        let es := bankEvents x j
        let stop := if live then beforeEvents es (veOver x j) else x.cox.haltAt
        let x1 := writeChunks x stop cs
        let nans (s : State) : State := (bl.zipIdx).foldl (fun s p =>
          if p.1.2.2.2.2 = true ∧ t0 (p.2 / 8) ≤ stop then guardRaise s w.val 2 1 true j (t0 (p.2 / 8)) else s) s
        if live = true ∧ es.isEmpty = true then
          let j1 := { j with clips := clips, flushes := flushes }
          .next (nans (putSeat s w.val (addSpans (veFinish x1 j1 { x1.vec with opc := st.1.opc, pend := st.1.pend }) j)))
        else .next (raiseEvents (nans (putSeat s w.val (veStop x1))) w.val es)

/-- VSTORE (04 R142): entry j goes to core memory in core cycle 2v + 2j + 5, the trailer in 2v + 263. -/
def execVstore (w : SeatIx) (s : State) : Outcome State Fault Refusal :=
  let x := seatOf s w.val
  match x.vec.cur with
  | none => .next s
  | some j =>
    let d := j.raw.toNat
    if dOp d ≠ 0x33 ∨ clocked s w.val = false ∨ stillBefore x (veOver x j) = false then .next s
    else
      let live := veLive x j
      let a := (vEntry d j.c 2 (vS1 d)).toNat
      let b := (vEntry d j.c 1 (vS2 d)).toNat
      let g := (vCore d j.c).toNat
      let st : Strm (List (List Word)) := jobStream x j 0 128 (fun k => [tileEntry a b k])
        (fun l o k => (l ++ [entryOf o (tileEntry a b k)], [])) (x.vec, [], none)
      let un : List Ev := match st.2.2 with
        | some (v, e) => [(2 * v, umpUnwrittenRead, 1, 0, e, 0, j)]
        | none => []
      let es := un ++ bankEvents x j
      let stop := if live then beforeEvents es (veOver x j) else x.cox.haltAt
      let cs := (st.2.1.zipIdx).map fun p =>
        (veCoreAt x j (2 * p.2 + 5), 64 * g + 128 * p.2, p.1.flatMap fun v => bytesOf v.toNat 4)
      let x1 := writeChunks x stop cs
      if live = true ∧ es.isEmpty = true then
        let tag := mkTag x.cox.ctx 0 kindFull (if vType d = tyI32 then fmtI32 else fmtFp32) (tileIdx (vTidx d) j.c (vTstep d))
        let tile := sealTile (mslice x1.core (64 * g) 0x4000) kindFull tag 0 0 x.cox.epoch.toNat
        let x2 := coreWrite x1 (64 * g + 0x4000) (mbytes tile 0x4000 32)
        .next (putSeat s w.val (addSpans (veFinish x2 j { x2.vec with opc := st.1.opc, pend := st.1.pend }) j))
      else .next (raiseEvents (putSeat s w.val (veStop x1)) w.val es)

/-- The integer view of element `l` of entry `k` of a narrow tile, of an I8 pair where `lo` is its low plane (02 R64). -/
def narrowView (q : Nat) (hi lo : Tile) (k l : Nat) : Int :=
  let r := k / 2
  let c := 32 * (k % 2) + l
  if q = 2 then signedCode 4 (nibAt hi r c) * 16 + (nibAt lo r c : Int) else nibView q true (nibAt hi r c)

/-- DEQUANTIZE (02 R64, 04 R141): every plane is checked before the first entry is written. -/
def execDequantize (w : SeatIx) (s : State) : Outcome State Fault Refusal :=
  veRow 0x31 w.val s fun x j =>
    let d := j.raw.toNat
    let q := vQfmt d
    let g := (vCore d j.c).toNat
    let t := tileIdx (vTidx d) j.c (vTstep d)
    let hi := coreTile x g kindNarrow
    let lo := coreTile x (g + 35) kindNarrow
    let want (f i : Nat) : Nat := mkTag x.cox.ctx 0 kindNarrow f i
    let ck := tileChecks hi kindNarrow (want (if q = 2 then fmtI8H else q) t) j 6 g (veCoreAt x j 1) (veCoreAt x j 19)
      ++ (if q = 2 then tileChecks lo kindNarrow (want fmtI8L ((t + 1) % 2 ^ 24)) { j with torn := j.tornLow } 6 (g + 35) (veCoreAt x j 19) (veCoreAt x j 37) else [])
    let es := ck ++ bankEvents x j
    if es.isEmpty && !veLive x j then putSeat s w.val (veStop x)
    else if es.isEmpty then
      let th := asTile hi
      let tl := asTile lo
      let dst := (vEntry d j.c 3 (vD d)).toNat
      let p := tyBits (vType d)
      let off : Int := if q = 2 then -6 else fmtOff q
      let lat := if q = 2 then 19 else 10
      let o := (List.range (2 * vRows d)).foldl (fun o k =>
        opcWrite o (veAt x j (lat + k), tileEntry dst (vDb d) k, (List.range 32).map fun l =>
          some (elemValue p (narrowView q th tl k l) off (mread th.scales k).toNat))) x.vec
      putSeat s w.val (addSpans (veFinish x j o) j)
    else raiseEvents (putSeat s w.val (veStop x)) w.val es

/-- VLOAD (04 R141): a full tile, checked, then its words copied. -/
def execVload (w : SeatIx) (s : State) : Outcome State Fault Refusal :=
  veRow 0x32 w.val s fun x j =>
    let d := j.raw.toNat
    let g := (vCore d j.c).toNat
    let m := coreTile x g kindFull
    let want := mkTag x.cox.ctx 0 kindFull (if vType d = tyI32 then fmtI32 else fmtFp32) (tileIdx (vTidx d) j.c (vTstep d))
    let es := tileChecks m kindFull want j 6 g (veCoreAt x j 1) (veCoreAt x j 130) ++ bankEvents x j
    if es.isEmpty && !veLive x j then putSeat s w.val (veStop x)
    else if es.isEmpty then
      let dst := (vEntry d j.c 3 (vD d)).toNat
      let o := (List.range (2 * vRows d)).foldl (fun o k =>
        opcWrite o (veAt x j (66 + k), tileEntry dst (vDb d) k, (List.range 32).map fun l => some (mword m (128 * k + 4 * l)))) x.vec
      putSeat s w.val (addSpans (veFinish x j o) j)
    else raiseEvents (putSeat s w.val (veStop x)) w.val es

end Sys2Proof.Machine
end

