-- ==== Sys2Proof/Machine/Dispatch.lean ====
section
/-! DEFINITION. One arm for each command: the direct call of its meaning. -/
namespace Sys2Proof.Machine

def exec (i : Instr) (s : State) : Host.Outcome State Fault Refusal :=
  match i with
  | .openSession src => Sys2Proof.Machine.execOpenSession src s
  | .closeSession src => Sys2Proof.Machine.execCloseSession src s
  | .contextCreate src => Sys2Proof.Machine.execContextCreate src s
  | .shardLoad src img => Sys2Proof.Machine.execShardLoad src img s
  | .tileRepair src img => Sys2Proof.Machine.execTileRepair src img s
  | .generationSwitch src => Sys2Proof.Machine.execGenerationSwitch src s
  | .evict src => Sys2Proof.Machine.execEvict src s
  | .graphSubmit src => Sys2Proof.Machine.execGraphSubmit src s
  | .graphRelease src => Sys2Proof.Machine.execGraphRelease src s
  | .run src => Sys2Proof.Machine.execRun src s
  | .cancel src => Sys2Proof.Machine.execCancel src s
  | .weighEnough src => Sys2Proof.Machine.execWeighEnough src s
  | .faultClearContext src => Sys2Proof.Machine.execFaultClearContext src s
  | .faultClearWeighEnough src => Sys2Proof.Machine.execFaultClearWeighEnough src s
  | .fenceSeat src => Sys2Proof.Machine.execFenceSeat src s
  | .powerState src => Sys2Proof.Machine.execPowerState src s
  | .setStep src => Sys2Proof.Machine.execSetStep src s
  | .timeRole src => Sys2Proof.Machine.execTimeRole src s
  | .telemetry src ok => Sys2Proof.Machine.execTelemetry src ok s
  | .logRead src ok => Sys2Proof.Machine.execLogRead src ok s
  | .attest src ok fl => Sys2Proof.Machine.execAttest src ok fl s
  | .fwUpdate src img fl => Sys2Proof.Machine.execFwUpdate src img fl s
  | .publisherEnrolment src img fl => Sys2Proof.Machine.execPublisherEnrolment src img fl s
  | .debugToken src img => Sys2Proof.Machine.execDebugToken src img s
  | .certificateRenewal src img fl => Sys2Proof.Machine.execCertificateRenewal src img fl s
  | .fwActivate puf => Sys2Proof.Machine.execFwActivate puf s
  | .snivanReady => Sys2Proof.Machine.execSnivanReady s
  | .submissionDoorbell r val => Sys2Proof.Machine.execSubmissionDoorbell r val s
  | .commandRead r entry => Sys2Proof.Machine.execCommandRead r entry s
  | .completionDoorbell r val => Sys2Proof.Machine.execCompletionDoorbell r val s
  | .feedDoorbell f val => Sys2Proof.Machine.execFeedDoorbell f val s
  | .feedResume f val => Sys2Proof.Machine.execFeedResume f val s
  | .ringEnable r => Sys2Proof.Machine.execRingEnable r s
  | .ringDisable r => Sys2Proof.Machine.execRingDisable r s
  | .clkTimeLoad val => Sys2Proof.Machine.execClkTimeLoad val s
  | .clkTimeLoRead => Sys2Proof.Machine.execClkTimeLoRead s
  | .wstDiagGo w val => Sys2Proof.Machine.execWstDiagGo w val s
  | .fabPortRetrain p val => Sys2Proof.Machine.execFabPortRetrain p val s
  | .fabPortRetrainFull p val => Sys2Proof.Machine.execFabPortRetrainFull p val s
  | .fabPortEnWrite p val => Sys2Proof.Machine.execFabPortEnWrite p val s
  | .recoveryGo val => Sys2Proof.Machine.execRecoveryGo val s
  | .eventsClear val => Sys2Proof.Machine.execEventsClear val s
  | .ackSeqWrite val => Sys2Proof.Machine.execAckSeqWrite val s
  | .registerWrite off size val => Sys2Proof.Machine.execRegisterWrite off size val s
  | .seatWindowAccess w off wr => Sys2Proof.Machine.execSeatWindowAccess w off wr s
  | .bar2Access off len wr prot => Sys2Proof.Machine.execBar2Access off len wr prot s
  | .functionLevelReset => Sys2Proof.Machine.execFunctionLevelReset s
  | .perstAssert => Sys2Proof.Machine.execPerstAssert s
  | .perstDeassert => Sys2Proof.Machine.execPerstDeassert s
  | .configurationRequest off wr => Sys2Proof.Machine.execConfigurationRequest off wr s
  | .resetAssert ns => Sys2Proof.Machine.execResetAssert ns s
  | .resetRelease flash puf head => Sys2Proof.Machine.execResetRelease flash puf head s
  | .pwrgdDeassert g ns => Sys2Proof.Machine.execPwrgdDeassert g ns s
  | .pwrgdAssert g => Sys2Proof.Machine.execPwrgdAssert g s
  | .haltAssert ns => Sys2Proof.Machine.execHaltAssert ns s
  | .haltDeassert ns => Sys2Proof.Machine.execHaltDeassert ns s
  | .limitAssert ns => Sys2Proof.Machine.execLimitAssert ns s
  | .limitDeassert ns => Sys2Proof.Machine.execLimitDeassert ns s
  | .thermtrip q tj => Sys2Proof.Machine.execThermtrip q tj s
  | .clkReflost => Sys2Proof.Machine.execClkReflost s
  | .clkUnlock d => Sys2Proof.Machine.execClkUnlock d s
  | .mgmtWatchdog puf => Sys2Proof.Machine.execMgmtWatchdog puf s
  | .railsAndClocks bad => Sys2Proof.Machine.execRailsAndClocks bad s
  | .crossingCalibration base lats d => Sys2Proof.Machine.execCrossingCalibration base lats d s
  | .dramTraining bad => Sys2Proof.Machine.execDramTraining bad s
  | .seatSelfTest bad => Sys2Proof.Machine.execSeatSelfTest bad s
  | .fillAndGrade => Sys2Proof.Machine.execFillAndGrade s
  | .fabricTrainingEnd => Sys2Proof.Machine.execFabricTrainingEnd s
  | .enumTimer => Sys2Proof.Machine.execEnumTimer s
  | .enumFrame frame => Sys2Proof.Machine.execEnumFrame frame s
  | .haltSymbol => Sys2Proof.Machine.execHaltSymbol s
  | .i3cWrite data => Sys2Proof.Machine.execI3cWrite data s
  | .i3cRead => Sys2Proof.Machine.execI3cRead s
  | .descriptorPresent w => Sys2Proof.Machine.execDescriptorPresent w s
  | .queueHoldEnd w => Sys2Proof.Machine.execQueueHoldEnd w s
  | .loopIteration w => Sys2Proof.Machine.execLoopIteration w s
  | .bload w => Sys2Proof.Machine.execBload w s
  | .aload w => Sys2Proof.Machine.execAload w s
  | .diag w => Sys2Proof.Machine.execDiag w s
  | .product w => Sys2Proof.Machine.execProduct w s
  | .drain w => Sys2Proof.Machine.execDrain w s
  | .mxUnitStart w u => Sys2Proof.Machine.execMxUnitStart w u s
  | .passStart w => Sys2Proof.Machine.execPassStart w s
  | .mov w => Sys2Proof.Machine.execMov w s
  | .vadd w => Sys2Proof.Machine.execVadd w s
  | .vsub w => Sys2Proof.Machine.execVsub w s
  | .vmul w => Sys2Proof.Machine.execVmul w s
  | .fma w => Sys2Proof.Machine.execFma w s
  | .vmin w => Sys2Proof.Machine.execVmin w s
  | .vmax w => Sys2Proof.Machine.execVmax w s
  | .vabs w => Sys2Proof.Machine.execVabs w s
  | .vneg w => Sys2Proof.Machine.execVneg w s
  | .cmp w => Sys2Proof.Machine.execCmp w s
  | .sel w => Sys2Proof.Machine.execSel w s
  | .vand w => Sys2Proof.Machine.execVand w s
  | .vor w => Sys2Proof.Machine.execVor w s
  | .vxor w => Sys2Proof.Machine.execVxor w s
  | .shift w => Sys2Proof.Machine.execShift w s
  | .cvt w => Sys2Proof.Machine.execCvt w s
  | .curve w => Sys2Proof.Machine.execCurve w s
  | .ctload w => Sys2Proof.Machine.execCtload w s
  | .reduce w => Sys2Proof.Machine.execReduce w s
  | .topk w => Sys2Proof.Machine.execTopk w s
  | .compress w => Sys2Proof.Machine.execCompress w s
  | .expand w => Sys2Proof.Machine.execExpand w s
  | .gather w => Sys2Proof.Machine.execGather w s
  | .rand w => Sys2Proof.Machine.execRand w s
  | .quantize w => Sys2Proof.Machine.execQuantize w s
  | .dequantize w => Sys2Proof.Machine.execDequantize w s
  | .vload w => Sys2Proof.Machine.execVload w s
  | .vstore w => Sys2Proof.Machine.execVstore w s
  | .veStart w => Sys2Proof.Machine.execVeStart w s
  | .send w e => Sys2Proof.Machine.execSend w e s
  | .get w e => Sys2Proof.Machine.execGet w e s
  | .word w e => Sys2Proof.Machine.execWord w e s
  | .finish w e => Sys2Proof.Machine.execFinish w e s
  | .rset w e => Sys2Proof.Machine.execRset w e s
  | .engineStart w e => Sys2Proof.Machine.execEngineStart w e s
  | .catchCond w => Sys2Proof.Machine.execCatchCond w s
  | .catchSatisfied w held => Sys2Proof.Machine.execCatchSatisfied w held s
  | .acquire w => Sys2Proof.Machine.execAcquire w s
  | .release w e => Sys2Proof.Machine.execRelease w e s
  | .releaseComplete w e => Sys2Proof.Machine.execReleaseComplete w e s
  | .loop w => Sys2Proof.Machine.execLoop w s
  | .nop w => Sys2Proof.Machine.execNop w s
  | .cset w => Sys2Proof.Machine.execCset w s
  | .cadd w => Sys2Proof.Machine.execCadd w s
  | .csub w => Sys2Proof.Machine.execCsub w s
  | .cmul w => Sys2Proof.Machine.execCmul w s
  | .cand w => Sys2Proof.Machine.execCand w s
  | .cshr w => Sys2Proof.Machine.execCshr w s
  | .cid w => Sys2Proof.Machine.execCid w s
  | .cmpset w => Sys2Proof.Machine.execCmpset w s
  | .endPlan w => Sys2Proof.Machine.execEndPlan w s
  | .descriptorComplete w idx => Sys2Proof.Machine.execDescriptorComplete w idx s
  | .planFinished w => Sys2Proof.Machine.execPlanFinished w s
  | .refreshAccrual w => Sys2Proof.Machine.execRefreshAccrual w s
  | .refreshOperation w b ahead => Sys2Proof.Machine.execRefreshOperation w b ahead s
  | .forcedRefresh w c => Sys2Proof.Machine.execForcedRefresh w c s
  | .forcedRefreshEnd w => Sys2Proof.Machine.execForcedRefreshEnd w s
  | .sidePortTransfer w ahead => Sys2Proof.Machine.execSidePortTransfer w ahead s
  | .scrubTile w => Sys2Proof.Machine.execScrubTile w s
  | .dramSample q t => Sys2Proof.Machine.execDramSample q t s
  | .junctionSample q tj => Sys2Proof.Machine.execJunctionSample q tj s
  | .sustainedDroop q => Sys2Proof.Machine.execSustainedDroop q s
  | .powerCapMeasure mvW maW mvE maE => Sys2Proof.Machine.execPowerCapMeasure mvW maW mvE maE s
  | .stepChange d => Sys2Proof.Machine.execStepChange d s
  | .stepChangeEnd d => Sys2Proof.Machine.execStepChangeEnd d s
  | .railSettled h => Sys2Proof.Machine.execRailSettled h s
  | .timeSync => Sys2Proof.Machine.execTimeSync s
  | .powerStateEntry k => Sys2Proof.Machine.execPowerStateEntry k s
  | .powerRequestTimeout k => Sys2Proof.Machine.execPowerRequestTimeout k s
  | .autoPaddle q => Sys2Proof.Machine.execAutoPaddle q s
  | .wakeRequest unit => Sys2Proof.Machine.execWakeRequest unit s
  | .wakeComplete unit => Sys2Proof.Machine.execWakeComplete unit s
  | .segmentPowerDown h g => Sys2Proof.Machine.execSegmentPowerDown h g s
  | .segmentClose h g => Sys2Proof.Machine.execSegmentClose h g s
  | .segmentWake h g => Sys2Proof.Machine.execSegmentWake h g s
  | .segmentReady h g => Sys2Proof.Machine.execSegmentReady h g s
  | .preload r h w => Sys2Proof.Machine.execPreload r h w s
  | .heatReady r h => Sys2Proof.Machine.execHeatReady r h s
  | .timeDependence r h d => Sys2Proof.Machine.execTimeDependence r h d s
  | .heatDispatch r h => Sys2Proof.Machine.execHeatDispatch r h s
  | .coreFill w => Sys2Proof.Machine.execCoreFill w s
  | .heatStart w => Sys2Proof.Machine.execHeatStart w s
  | .heatComplete r h => Sys2Proof.Machine.execHeatComplete r h s
  | .heatAbort r h => Sys2Proof.Machine.execHeatAbort r h s
  | .heatAbandon r h => Sys2Proof.Machine.execHeatAbandon r h s
  | .heatWatchdog r h => Sys2Proof.Machine.execHeatWatchdog r h s
  | .classFree k => Sys2Proof.Machine.execClassFree k s
  | .seatLastLogged w => Sys2Proof.Machine.execSeatLastLogged w s
  | .completionPost r => Sys2Proof.Machine.execCompletionPost r s
  | .msixInterrupt r => Sys2Proof.Machine.execMsixInterrupt r s
  | .writePkt k g => Sys2Proof.Machine.execWritePkt k g s
  | .wordPkt k => Sys2Proof.Machine.execWordPkt k s
  | .finishPkt k => Sys2Proof.Machine.execFinishPkt k s
  | .finishRelease pool n k => Sys2Proof.Machine.execFinishRelease pool n k s
  | .readPkt k => Sys2Proof.Machine.execReadPkt k s
  | .rdataPkt k g => Sys2Proof.Machine.execRdataPkt k g s
  | .ackPkt k => Sys2Proof.Machine.execAckPkt k s
  | .nackPkt k => Sys2Proof.Machine.execNackPkt k s
  | .startMsg k => Sys2Proof.Machine.execStartMsg k s
  | .controlMsg op => Sys2Proof.Machine.execControlMsg op s
  | .routerForward n p v o ecc => Sys2Proof.Machine.execRouterForward n p v o ecc s
  | .crossingRecentre n p => Sys2Proof.Machine.execCrossingRecentre n p s
  | .seatMapReassign q => Sys2Proof.Machine.execSeatMapReassign q s
  | .recordLogged k => Sys2Proof.Machine.execRecordLogged k s
  | .recordHandling => Sys2Proof.Machine.execRecordHandling s
  | .snivanHandler puf => Sys2Proof.Machine.execSnivanHandler puf s
  | .loadSegment img => Sys2Proof.Machine.execLoadSegment img s
  | .loadComplete => Sys2Proof.Machine.execLoadComplete s
  | .blockZeroFill k => Sys2Proof.Machine.execBlockZeroFill k s
  | .feedStart f desc data => Sys2Proof.Machine.execFeedStart f desc data s
  | .feedEnd f => Sys2Proof.Machine.execFeedEnd f s
  | .portSignalDetect p => Sys2Proof.Machine.execPortSignalDetect p s
  | .portTrainingStep p lanes named => Sys2Proof.Machine.execPortTrainingStep p lanes named s
  | .portRetrain p cause => Sys2Proof.Machine.execPortRetrain p cause s
  | .sequencedFrame p => Sys2Proof.Machine.execSequencedFrame p s
  | .controlFrame p => Sys2Proof.Machine.execControlFrame p s
  | .controlFrameTimer p => Sys2Proof.Machine.execControlFrameTimer p s
  | .replayTimeout p => Sys2Proof.Machine.execReplayTimeout p s
  | .pairHoldTimeout pr => Sys2Proof.Machine.execPairHoldTimeout pr s
  | .fabricEgress k => Sys2Proof.Machine.execFabricEgress k s
  | .fabricArrival k => Sys2Proof.Machine.execFabricArrival k s
  | .fabricAnswer k => Sys2Proof.Machine.execFabricAnswer k s
  | .fabricGiveUp t => Sys2Proof.Machine.execFabricGiveUp t s
  | .readReissue t => Sys2Proof.Machine.execReadReissue t s
  | .timeSampleLoss => Sys2Proof.Machine.execTimeSampleLoss s
  | .rsCodeword p word => Sys2Proof.Machine.execRsCodeword p word s
  | .idleFrame p => Sys2Proof.Machine.execIdleFrame p s
  | .droopStretching q mv => Sys2Proof.Machine.execDroopStretching q mv s
  | .ftagRelease t => Sys2Proof.Machine.execFtagRelease t s
  | .ideKm => Sys2Proof.Machine.execIdeKm s
  | .tapInstruction ir => Sys2Proof.Machine.execTapInstruction ir s
  | .dynamicAddress addr => Sys2Proof.Machine.execDynamicAddress addr s

end Sys2Proof.Machine
end

