-- ==== Sys2Proof/Safety.lean ====
section
/-!
DEFINITION. What the statements say about runs: a command that completes, the components of the state and what it means to change
none outside a list, and the forms that every step keeps.
-/
namespace Sys2Proof

open Machine

/-- A command completes: it answers a next state. -/
def Completes (c : Instr) (s : State) : Prop := ∃ t, exec c s = .next t

/-- The components of the state, one per field. -/
inductive Part where
  | pending | seats | str | ctxs | cq | clk | pwr | flt | glb | sec | noc | pools | fab | chain | pins | hostMem | free
  deriving DecidableEq, Repr

end Sys2Proof

namespace Sys2Proof.Machine

/-- The state with the components of `ps` blanked: two states that agree so differ in no component outside `ps`. -/
def State.hide (ps : List Part) (s : State) : State where
  pending := if Part.pending ∈ ps then [] else s.pending
  seats := if Part.seats ∈ ps then [] else s.seats
  str := if Part.str ∈ ps then {} else s.str
  ctxs := if Part.ctxs ∈ ps then {} else s.ctxs
  cq := if Part.cq ∈ ps then {} else s.cq
  clk := if Part.clk ∈ ps then {} else s.clk
  pwr := if Part.pwr ∈ ps then {} else s.pwr
  flt := if Part.flt ∈ ps then {} else s.flt
  glb := if Part.glb ∈ ps then {} else s.glb
  sec := if Part.sec ∈ ps then {} else s.sec
  noc := if Part.noc ∈ ps then {} else s.noc
  pools := if Part.pools ∈ ps then [] else s.pools
  fab := if Part.fab ∈ ps then {} else s.fab
  chain := if Part.chain ∈ ps then {} else s.chain
  pins := if Part.pins ∈ ps then {} else s.pins
  hostMem := if Part.hostMem ∈ ps then [] else s.hostMem
  free := if Part.free ∈ ps then 0 else s.free

/-- A step from `s` that answers a next state changes no component outside `ps`. -/
def Leaves (ps : List Part) (s : State) (o : Host.Outcome State Fault Refusal) : Prop := ∀ t, o = .next t → t.hide ps = s.hide ps

/-- Every memory of the part and the host's is in its canonical form: addresses strictly rising, and no zero byte listed. -/
def State.memoriesCanonical (s : State) : Bool :=
  Memory.wf s.hostMem && (s.pools.all fun p => Memory.wf p.2.mem) &&
  s.seats.all fun p => Memory.wf p.2.core && Memory.wf p.2.desc && Memory.wf p.2.store

/-- The components that a command may change; the statements about it say which it does. -/
def touches : Instr → List Part
  | .openSession _ | .closeSession _ | .submissionDoorbell _ _ | .commandRead _ _ | .completionDoorbell _ _ | .feedDoorbell _ _
  | .feedResume _ _ | .ringEnable _ | .ringDisable _ | .i3cWrite _ | .i3cRead | .msixInterrupt _ => [.cq]
  | .contextCreate _ => [.ctxs, .cq]
  | .shardLoad _ _ => [.seats, .str, .ctxs, .cq, .pwr, .flt, .noc]
  | .tileRepair _ _ => [.ctxs, .cq, .pwr, .flt, .noc]
  | .generationSwitch _ => [.seats, .ctxs, .cq]
  | .evict _ | .heatAbandon _ _ => [.seats, .str, .ctxs, .cq, .flt]
  | .graphSubmit _ => [.str, .cq, .pwr, .noc]
  | .graphRelease _ | .run _ => [.str, .cq]
  | .cancel _ | .heatAbort _ _ | .heatWatchdog _ _ => [.seats, .str, .ctxs, .cq, .clk, .flt, .pools]
  | .weighEnough _ | .haltSymbol => [.seats, .str, .ctxs, .cq, .clk, .flt, .glb, .pools, .chain, .pins]
  | .faultClearContext _ | .feedEnd _ => [.cq, .flt]
  | .faultClearWeighEnough _ => [.cq, .flt, .glb, .chain, .pins]
  | .fenceSeat _ => [.seats, .str, .ctxs, .cq, .clk, .flt, .sec, .noc, .pools, .free]
  | .powerState _ | .setStep _ | .autoPaddle _ => [.cq, .clk, .pwr]
  | .timeRole _ => [.cq, .clk, .fab]
  | .telemetry _ _ | .logRead _ _ | .completionPost _ => [.cq, .hostMem]
  | .attest _ _ _ => [.cq, .sec, .hostMem, .free]
  | .fwUpdate _ _ _ => [.cq, .glb, .sec]
  | .publisherEnrolment _ _ _ | .certificateRenewal _ _ _ => [.cq, .sec]
  | .debugToken _ _ => [.seats, .str, .ctxs, .cq, .flt, .sec]
  | .fwActivate _ => [.flt, .glb, .sec, .pins]
  | .snivanReady | .mgmtWatchdog _ | .snivanHandler _ => [.seats, .str, .ctxs, .cq, .clk, .flt, .glb, .sec, .pools, .pins]
  | .clkTimeLoad _ | .timeSync => [.clk]
  | .clkTimeLoRead => [.clk, .glb]
  | .wstDiagGo _ _ | .loopIteration _ | .rset _ _ | .engineStart _ _ | .catchCond _ | .acquire _ | .release _ _ | .nop _
  | .cset _ | .cadd _ | .csub _ | .cmul _ | .cand _ | .cshr _ | .cid _ | .cmpset _ | .refreshOperation _ _ _
  | .forcedRefresh _ _ | .forcedRefreshEnd _ | .scrubTile _ | .heatStart _ => [.seats]
  | .fabPortRetrain _ _ | .fabPortRetrainFull _ _ | .fabPortEnWrite _ _ | .portTrainingStep _ _ _ | .portRetrain _ _
  | .replayTimeout _ => [.flt, .noc, .fab]
  | .recoveryGo _ | .eventsClear _ => [.glb]
  | .ackSeqWrite _ => [.flt]
  | .registerWrite _ _ _ => [.seats, .cq, .clk, .pwr, .flt, .glb, .noc, .fab]
  | .seatWindowAccess _ _ _ => [.seats, .clk, .glb]
  | .bar2Access _ _ _ _ => [.str, .pwr, .glb, .noc, .pools]
  | .functionLevelReset | .perstAssert | .thermtrip _ _ | .clkReflost | .clkUnlock _
      => [.seats, .str, .ctxs, .cq, .clk, .flt, .glb, .pools, .pins]
  | .perstDeassert | .tapInstruction _ | .dynamicAddress _ => [.pins]
  | .configurationRequest _ _ => [.glb, .pins]
  | .resetAssert _ | .pwrgdDeassert _ _ | .fillAndGrade
      => [.seats, .str, .ctxs, .cq, .clk, .pwr, .flt, .glb, .sec, .noc, .pools, .fab, .chain, .pins, .free]
  | .resetRelease _ _ _ | .pwrgdAssert _ => [.clk, .flt, .glb, .sec, .chain, .pins, .free]
  | .haltAssert _ => [.seats, .str, .ctxs, .cq, .clk, .pwr, .flt, .glb, .pools, .chain, .pins]
  | .haltDeassert _ | .limitDeassert _ | .railSettled _ => [.pwr]
  | .limitAssert _ | .powerCapMeasure _ _ _ _ | .stepChangeEnd _ | .wakeRequest _ => [.clk, .pwr]
  | .railsAndClocks _ => [.seats, .str, .ctxs, .cq, .clk, .pwr, .flt, .glb, .sec, .pools, .pins]
  | .crossingCalibration _ _ _ => [.seats, .str, .ctxs, .cq, .clk, .flt, .glb, .sec, .noc, .pools, .pins]
  | .dramTraining _ => [.seats, .glb, .pools]
  | .seatSelfTest _ | .coreFill _ => [.seats, .glb]
  | .fabricTrainingEnd => [.pwr, .glb]
  | .enumTimer => [.chain]
  | .enumFrame _ => [.flt, .glb, .fab, .chain]
  | .descriptorPresent _ | .queueHoldEnd _ | .bload _ | .aload _ | .diag _ | .product _ | .drain _ | .mxUnitStart _ _
  | .passStart _ | .mov _ | .vadd _ | .vsub _ | .vmul _ | .fma _ | .vmin _ | .vmax _ | .vabs _ | .vneg _ | .cmp _ | .sel _
  | .vand _ | .vor _ | .vxor _ | .shift _ | .cvt _ | .curve _ | .ctload _ | .reduce _ | .topk _ | .compress _ | .expand _
  | .gather _ | .rand _ | .quantize _ | .dequantize _ | .vload _ | .vstore _ | .veStart _ | .catchSatisfied _ _ | .loop _
  | .endPlan _ | .descriptorComplete _ _ | .seatLastLogged _ => [.seats, .flt]
  | .send _ _ | .get _ _ | .word _ _ | .finish _ _ | .releaseComplete _ _ => [.seats, .free]
  | .planFinished _ => [.seats, .str]
  | .refreshAccrual _ | .dramSample _ _ => [.seats, .clk]
  | .sidePortTransfer _ _ => [.seats, .flt, .free]
  | .junctionSample _ _ => [.seats, .str, .ctxs, .cq, .clk, .pwr, .flt, .glb, .pools, .pins]
  | .sustainedDroop _ => [.clk, .flt]
  | .stepChange _ => [.clk, .pwr, .noc, .free]
  | .powerStateEntry _ => [.seats, .str, .ctxs, .cq, .clk, .pwr, .flt, .noc, .pools, .fab]
  | .powerRequestTimeout _ => [.cq, .pwr]
  | .wakeComplete _ => [.seats, .str, .ctxs, .cq, .clk, .pwr, .glb, .noc, .pools, .fab]
  | .segmentPowerDown _ _ | .segmentClose _ _ | .segmentWake _ _ | .segmentReady _ _ => [.pools]
  | .preload _ _ _ => [.seats, .str, .ctxs, .cq, .clk, .pwr, .flt, .noc]
  | .heatReady _ _ | .timeDependence _ _ _ | .classFree _ => [.str]
  | .heatDispatch _ _ => [.seats, .str, .ctxs, .cq, .clk, .flt, .noc, .free]
  | .heatComplete _ _ => [.seats, .str, .ctxs, .cq, .clk, .pools]
  | .writePkt _ _ | .wordPkt _ | .readPkt _ => [.seats, .str, .clk, .noc, .pools]
  | .finishPkt _ => [.seats, .str, .clk, .flt, .noc, .pools]
  | .finishRelease _ _ _ => [.seats, .flt, .pools]
  | .rdataPkt _ _ => [.seats, .str, .clk, .noc, .fab]
  | .ackPkt _ => [.seats, .clk, .noc, .fab]
  | .nackPkt _ => [.seats, .clk, .flt, .noc, .fab]
  | .startMsg _ => [.seats, .clk, .noc]
  | .controlMsg _ => [.str, .pwr, .noc, .pools]
  | .routerForward _ _ _ _ _ => [.seats, .clk, .pwr, .flt, .noc]
  | .crossingRecentre _ _ => [.noc]
  | .seatMapReassign _ => [.seats, .str, .ctxs, .noc]
  | .recordLogged _ => [.seats, .str, .cq, .flt, .glb, .pins]
  | .recordHandling => [.seats, .str, .ctxs, .cq, .clk, .flt, .glb, .sec, .noc, .pools, .free]
  | .loadSegment _ => [.seats, .ctxs, .pwr, .flt, .noc]
  | .loadComplete => [.seats, .ctxs, .cq, .flt]
  | .blockZeroFill _ => [.ctxs, .flt, .sec]
  | .feedStart _ _ _ => [.str, .cq, .pwr, .noc, .pools, .hostMem]
  | .portSignalDetect _ | .rsCodeword _ _ | .ftagRelease _ => [.fab]
  | .sequencedFrame _ | .idleFrame _ => [.flt, .noc, .fab, .free]
  | .controlFrame _ => [.clk, .flt, .noc, .fab, .free]
  | .controlFrameTimer _ => [.fab, .free]
  | .pairHoldTimeout _ | .fabricGiveUp _ | .readReissue _ => [.noc, .fab]
  | .fabricEgress _ => [.str, .clk, .noc, .fab]
  | .fabricArrival _ => [.str, .pwr, .noc, .fab, .free]
  | .fabricAnswer _ => [.str, .noc, .fab]
  | .timeSampleLoss => [.clk, .fab]
  | .droopStretching _ _ => [.clk, .noc, .free]
  | .ideKm => [.sec]

/-! ## Terms of the statements about seats -/

/-- The clocks of seat `w` run, it has not halted before core cycle `t`, and no forced refresh in progress comes before it (05 R174, 06 R191,
R193, 12 R379). -/
def OnTime (s : State) (w t : Nat) : Prop := clocked s w = true ∧ runsAt (seatOf s w) t = true ∧ stillBefore (seatOf s w) t = true

/-- The cox of seat `w` has in hand the descriptor `j`, of class `cls` and opcode `op`, to be carried out (06 R186). -/
def CoxRuns (s : State) (w cls op : Nat) (j : Job) : Prop :=
  (seatOf s w).cox.cur = some j ∧ (seatOf s w).cox.state = .walking ∧ clocked s w = true ∧ dClass j.raw.toNat = cls ∧
  dOp j.raw.toNat = op

/-- No write to counter `k` has taken effect at the end of core cycle `t` or later (06 R195). -/
def CtrFree (c : Cox) (k t : Nat) : Prop := ∀ u r, tfind c.ctrAt k = some (u, r) → u < t + 1

/-- The descriptor in hand completes in its issue core cycle (06 R205). -/
def doneNow (c : Cox) (j : Job) : Cox := { c with done := tput c.done j.idx (j.issued + 1), cur := none }

/-- `o` is the step of a CTRL descriptor `j` of seat `w` that writes `v` to C[DST] and nothing else but the cox's bookkeeping of it. -/
def CounterSet (s : State) (w : Nat) (j : Job) (v : Word) (o : Host.Outcome State Fault Refusal) : Prop :=
  let c := (seatOf s w).cox
  ∃ c' : Cox, o = .next (putSeat s w { seatOf s w with cox := c' }) ∧
    tget 0 c'.ctr (kDst j.raw.toNat) = v ∧ (∀ k, k ≠ kDst j.raw.toNat → tget 0 c'.ctr k = tget 0 c.ctr k) ∧
    c'.cur = none ∧ tfind c'.done j.idx = some (j.issued + 1) ∧ (∀ i, i ≠ j.idx → tfind c'.done i = tfind c.done i) ∧
    { c' with ctr := c.ctr, ctrAt := c.ctrAt, done := c.done, cur := c.cur } = c

/-- The identity field that SUB selects for seat `w` (06 R200). -/
def IdentityField (s : State) (w sub : Nat) (v : Word) : Prop :=
  (sub = 0 ∧ v = BitVec.ofNat 32 (seatOf s w).cox.logical) ∨ (sub = 1 ∧ v = BitVec.ofNat 32 (crewOf w % 48)) ∨
  (sub = 2 ∧ v = BitVec.ofNat 32 (halfOf w)) ∨ (sub = 3 ∧ v = BitVec.ofNat 32 s.chain.node) ∨
  (sub = 4 ∧ v = BitVec.ofNat 32 (mapOf s (crewOf w)).phys.length) ∨ (sub = 5 ∧ v = BitVec.ofNat 32 (seatOf s w).cox.ordinal)

/-- The walk reaches effective beat `eb` without a fault of 06 R203 or R213. -/
def WalkOk (c : Cox) (eb : Nat) : Prop :=
  c.prev ≤ eb ∧ (∀ l ∈ c.loops, eb < l.start + (l.iter + 1) * l.period) ∧ (c.acq = 0 ∨ c.acq + 3 ≤ eb)

/-- The presented CATCH `d` is to wait, with the cox as `c` says: its predicate is true and its condition is not met (07 R241, R239). -/
def CatchOpen (x : Seat) (c : Cox) (d : Nat) : Prop :=
  let t : Word := BitVec.ofNat 32 (cTarget d + (if cCen d then (tget 0 c.ctr (cCsel d)).toNat * cTstep d else 0))
  predVal c (dPred d) = true ∧
  (if cFlag d then tget 0 x.lnd.flag (cCtr d) ≠ t else 0 < (t - tget 0 x.lnd.ctr (cCtr d)).toInt)

/-- Unstarted descriptors of the MX, VE, DMA or NET queue of a seat (06 R186). -/
def queued (x : Seat) (q : Fin 4) : List Job :=
  match q with
  | 0 => x.mxa.queue
  | 1 => x.vec.queue
  | 2 => x.dma.queue
  | 3 => x.net.queue

/-- None of the faults of a unit's start arises for `j` in core cycle `t` (03 R93, R108, 05 R171): the nibble that a BLOAD or DIAG fills
is empty, the BLOAD's bank is not declared at rest, the slot of a DIAG is ready and holds I4 or F4, and no row of an ALOAD's slot is
still to be broadcast. -/
def MxMayStart (x : Seat) (j : Job) (t : Nat) : Prop :=
  let d := j.raw.toNat
  let m := x.mxa
  (dOp d = 1 → (blNib d ≠ 1 → m.sh0 = none) ∧ (blNib d ≠ 0 → m.sh1 = none) ∧ x.cox.rest.getLsbD (bloadBank j) = false) ∧
  (dOp d = 2 → tget 0 m.slotUse (alSlot d) ≤ t) ∧
  (dOp d = 3 → m.sh0 = none ∧ tget 0 m.slotAt (dgSlot d) ≤ t ∧ ∃ a, tfind m.slots (dgSlot d) = some a ∧ tagFmt a.tag ≤ 1)

/-- Lane `l` of operand-cache entry `e`. -/
def laneOf (o : Vec) (e l : Nat) : Word := tget 0 o.opc (e * 32 + l)

/-- The vector engine of seat `w` runs `j`, of opcode `op`, and goes on to its end, and no earlier write is still to take effect. -/
def VeRuns (s : State) (w : Nat) (j : Job) (op : Nat) : Prop :=
  let x := seatOf s w
  x.vec.cur = some j ∧ dOp j.raw.toNat = op ∧ OnTime s w (veOver x j) ∧ x.vec.pend = []

/-- Lane `l` of strip entry `i` is active: below the tail count, and its mask word is not 0 (04 R121). -/
abbrev ActiveLane (x : Seat) (j : Job) (i l : Nat) : Prop :=
  ¬ (vTen j.raw.toNat = true ∧ j.tail ≤ 32 * i + l) ∧ ¬ (vMen j.raw.toNat = true ∧ laneOf x.vec (vM j.raw.toNat + i) l = 0)

/-- Entry `e`, read with strip entry `i` in vector cycle `k0` + `i` of the job, has been written by then, and none of the destination entries
before the `i`th is it. -/
def ReadsFirst (x : Seat) (j : Job) (k0 dst i e : Nat) : Prop :=
  readable x.vec e (veAt x j (k0 + i)) = true ∧ ∀ k, k < i → dst + k ≠ e

/-- From vector cycle `v0` on, the seat `y` after the job reads, in each of the `n` entries from `dst`, what `f` gives for its lanes, or
what `x` held where it gives nothing; every other entry reads as in `x`. The job completes in its cycle, the engine is idle, and no
memory and no part of the array differs. -/
def VeWrites (x y : Seat) (j : Job) (v0 dst n : Nat) (f : Nat → Nat → Option Word) : Prop :=
  (∀ v i l, v0 ≤ v → i < n → l < 32 → laneOf (opcSettle y.vec v) (dst + i) l = (f i l).getD (laneOf x.vec (dst + i) l)) ∧
  (∀ v e l, v0 ≤ v → l < 32 → (e < dst ∨ dst + n ≤ e) → laneOf (opcSettle y.vec v) e l = laneOf x.vec e l) ∧
  y.vec.cur = none ∧ y.cox.fin = x.cox.fin ++ [{ j with doneAt := veOver x j }] ∧
  y.mxa = x.mxa ∧ y.core = x.core ∧ y.store = x.store ∧ y.desc = x.desc

/-! ## Terms of the statements about engines and packets -/

/-- Engine `e` of seat `w` runs `j`, of opcode `op` (09 R292). -/
def EngRuns (s : State) (w : Nat) (e : EngIx) (op : Nat) (j : Job) : Prop :=
  ((seatOf s w).eng e).cur = some j ∧ dClass j.raw.toNat ≠ clsSync ∧ dOp j.raw.toNat = op ∧ clocked s w = true

/-- `o` is the step in which engine `e` of seat `w` places the next of the `n` packets of `j` in its outbound buffer in core cycle `t`: the
packet takes the next tag, carries the seat's epoch, meets `p` and awaits its answer, and with the last one the local phase ends. No other
part of the seat, and no other seat, differs. -/
def EngineSends (s : State) (w : Nat) (e : EngIx) (j : Job) (n t : Nat) (p : Pkt → Prop) (o : Host.Outcome State Fault Refusal) : Prop :=
  let x := seatOf s w
  let g := x.eng e
  ∃ (u : State) (q : Pkt) (a : Outst), o = .next u ∧
    pTag q.hdr.toNat = g.tag % 4096 ∧ pEpoch q.hdr.toNat = x.cox.epoch ∧ pEng q.hdr.toNat = e.val ∧ p q ∧
    a.tag = g.tag ∧ a.epoch = x.cox.epoch ∧ (a.isWrite = true ↔ dOp j.raw.toNat ≠ opGet) ∧ a.idx = j.idx ∧ a.beat = j.beat ∧
    (let g1 : Eng := { g with out := g.out ++ [a], tag := (g.tag + 1) % 4096, sent := g.sent + 1, lastAt := t + 1,
                              outbox := g.outbox ++ flitsOf { sender := some w, entered := false } q }
     seatOf u w = if g.sent + 1 < n then x.putEng e g1
       else { x.putEng e { g1 with cur := none, freeAt := t + 1 } with cox := { x.cox with fin := x.cox.fin ++ [{ j with doneAt := t }] } }) ∧
    u = { s with seats := u.seats, free := s.free + 1 } ∧ ∀ v, v ≠ w → seatOf u v = seatOf s v

/-- `t` is `s` with the answer `q` to the packet `d` at its destination sent from the router, row switch, link or port at which `d` came: to
the seat that sent it, or to the complex (09 R276, R279). -/
def AnswerOut (s t : State) (d : Deliv) (q : Pkt) : Prop :=
  t = sendBack s (backPlace d).1 (backPlace d).2 d.sender d.entry q.hdr q.data ∧
  ∀ v, d.sender = some v → t = push s (backPlace d).1 (backPlace d).2 vcRsp (flitsOf { goal := .seat v } q)

/-- `q` answers the packet with header `h`: TYPE `ty`, STATUS `st`, its tag, epoch and engine, and `src` as its source (09 R274, R276). -/
def AnswerTo (q : Pkt) (h ty st : Nat) (src : Word) : Prop :=
  pType q.hdr.toNat = ty ∧ pStatus q.hdr.toNat = st ∧ pTag q.hdr.toNat = pTag h ∧ pEpoch q.hdr.toNat = pEpoch h ∧
  pEng q.hdr.toNat = pEng h ∧ pSrc q.hdr.toNat = src.toNat

/-- Packet `i`, which is `d`, is dropped with the answer `a` once all of it has come (07 R234, 09 R276). -/
def dropping (s : State) (i : Nat) (d : Deliv) (a : Reply) : State :=
  if d.full then answered s i d a
  else modArrive s i fun d => { d with verdict := some a, pkt := ⟨d.pkt.hdr, []⟩, wrote := [] }

/-- Granule `g` of packet `i`, which is `d`, has been written: with its last one it is answered (09 R276). -/
def writing (s : State) (i g : Nat) (d : Deliv) : State :=
  if d.wrote.length + 1 = pLen d.pkt.hdr.toNat then answered s i d .done else modArrive s i fun d => { d with wrote := d.wrote ++ [g] }

/-- The packet in place `i` of those at their destinations is `d`, of TYPE `ty`, and has come to `tg`. -/
def Arrives (s : State) (i ty : Nat) (tg : Target) (d : Deliv) : Prop :=
  s.noc.arrive[i]? = some d ∧ pType d.pkt.hdr.toNat = ty ∧ d.target = tg

/-- Bytes [o, o + n) lie in core memory, space 1, or descriptor memory, space 2, of a seat, from a multiple of `al` (05 R147, R148). -/
def InSeat (space o n al : Nat) : Prop := o % al = 0 ∧ ((space = 1 ∧ o + n ≤ 0x60000) ∨ (space = 2 ∧ o + n ≤ 0x10000))

/-- Memory `m'` is `m` with the bytes `bs` stored from address `a`, and no other byte of it differs. -/
def StoresAt (m m' : Mem) (a : Nat) (bs : List Byte) : Prop :=
  (∀ k b, bs[k]? = some b → mread m' (a + k) = b) ∧ (∀ b, b < a ∨ a + bs.length ≤ b → mread m' b = mread m b)

/-- Every seat but `w` is as it was. -/
def OtherSeats (s t : State) (w : Nat) : Prop := ∀ v, v ≠ w → seatOf t v = seatOf s v

/-- Every pool but that of half `h` is as it was. -/
def OtherPools (s t : State) (h : Nat) : Prop := ∀ k, k ≠ h → poolOf t k = poolOf s k

/-- The header `f`, of way `t`, stands at the front of input `p` of node `n` on channel `v`, whose clock runs (09 R272, R274). -/
def AtFront (s : State) (n p v : Nat) (f : Flit) (t : Trip) : Prop :=
  (source s n p v).flits.head? = some f ∧ f.head = some t ∧ linkRuns s n p = true ∧ 1 ≤ pType f.data.toNat ∧ pType f.data.toNat ≤ 9

/-- The flit `f` has left the front of input `p` of node `n` by output `o`: it is the last in the buffer or at the destination that the output
leads to, and the output is held by that input until its packet's last flit (09 R272, R278). -/
def FlitPasses (s t : State) (n p v o : Nat) (f : Flit) : Prop :=
  (landing n p o ≠ .buf n p → (source t n p v).flits = (source s n p v).flits.drop 1) ∧ tget 0 t.noc.lock (bufKey n o v) = (if f.last then 0 else p + 1) ∧ t.flt = s.flt ∧
  (∀ m q, landing n p o = .buf m q → q < 9 → (m, q) ≠ (n, p) → (bufOf s m q v).eating = false →
    ∃ g : Flit, (bufOf t m q v).flits = (bufOf s m q v).flits ++ [g] ∧ g.data = f.data ∧ g.last = f.last ∧ (g.head = none ↔ f.head = none)) ∧
  (∀ tg h, landing n p o = .dest tg → f.head = some h → t.noc.arrive = s.noc.arrive ++
    [Deliv.mk tg ⟨f.data, []⟩ f.last [] none n v h.group h.sender h.entry]) ∧
  (∀ (tg : Target) (i : Nat) (d : Deliv), landing n p o = .dest tg → f.head = none → f.cut = false → s.noc.arrive[i]? = some d → d.target = tg → d.place = n → d.vc = v →
    d.full = false → d.verdict = none → (∀ k e, k < i → s.noc.arrive[k]? = some e → ¬ (e.target = tg ∧ e.place = n ∧ e.vc = v ∧ e.full = false)) →
    t.noc.arrive[i]? = some { d with pkt := ⟨d.pkt.hdr, d.pkt.data ++ [f.data]⟩, full := f.last })

/-- No buffer of a router, crossing FIFO or row switch holds more than its credits allow, and what has come to a pool came by a row switch or a
link (09 R272, R296, R298). -/
def NetworkBounded (s : State) : Prop :=
  (∀ n p v k, bufferDepth n p v = some k → (bufOf s n p v).flits.length ≤ k) ∧
  ∀ d ∈ s.noc.arrive, ∀ h, d.target = .pool h → nodeSwitch ≤ d.place

/-- Steps along the mesh between two coordinates. -/
def hops (a b : Nat × Nat) : Nat := (a.1 - b.1) + (b.1 - a.1) + (a.2 - b.2) + (b.2 - a.2)

/-- What has been counted on `l'` beyond `l` is `n` granules on counter `c`; the flags are as they were (07 R238). -/
def Counted (l l' : Lnd) (c n : Nat) : Prop :=
  (∀ k, tget 0 l'.ctr k = if k = c then tget 0 l.ctr k + BitVec.ofNat 32 n else tget 0 l.ctr k) ∧ l'.flag = l.flag

/-- A finish held nowhere is held as `f` at `l'`, behind those of `l` (07 R242). -/
def HeldBehind (l l' : Lnd) (f : Finish) : Prop :=
  l'.held = l.held ++ [f] ∧ l'.ctr = l.ctr ∧ l'.flag = l.flag

/-! ## Terms of the statements about heats and commands -/

/-- Completion ring `n` of `t` holds what it held in `s`, then an entry for heat `h` of run `r` with this outcome, cause and log number, and
perhaps more (13 R422). -/
def HeatEntryOut (s t : State) (n r h outcome cause : Nat) (seq : Word) : Prop :=
  ∃ e l, (cqrOf t n).hold ++ (cqrOf t n).wait = (cqrOf s n).hold ++ (cqrOf s n).wait ++ e :: l ∧ fld e.first.toNat 8 8 = 2 ∧ fld e.first.toNat 16 16 = r % 2 ^ 16 ∧
    fld e.first.toNat 64 12 = h % 2 ^ 12 ∧ fld e.first.toNat 80 8 = outcome ∧ fld e.first.toNat 88 8 = cause % 256 ∧
    fld e.first.toNat 160 32 = seq.toNat ∧ e.second ≠ none

/-- Heat `h` of run `r`, `x` in `s`, has ended in `t` in phase `ph`. The run is live no more exactly where it was its last (07 R220). -/
def HeatEnds (s t : State) (r h : Nat) (ph : Phase) : Prop :=
  (∀ y, heatOf t r h = some y → y.phase = ph) ∧
  (∀ run, runOf s r = some run →
    (runOf t r = none ↔ ∀ i y, run.heats[i]? = some y → i ≠ h → y.phase.ended = true))

/-- No other live heat but those of `l`, in the same run, has changed. -/
def OtherHeats (s t : State) (r : Nat) (l : List Nat) : Prop :=
  (∀ q, q ≠ r → runOf t q = runOf s q) ∧ (∀ i y, i ∉ l → heatOf t r i = some y → heatOf s r i = some y)

/-- No heat but `h` of run `r` has changed, except that a counter dependence of it may have been met (07 R224). -/
def OtherHeatsLatched (s t : State) (r h : Nat) : Prop :=
  ∀ q i y, ¬ (q = r ∧ i = h) → heatOf t q i = some y →
    ∃ z, heatOf s q i = some z ∧ y = { z with met := y.met } ∧ ∀ d, z.met.getLsbD d = true → y.met.getLsbD d = true

/-- The starter has recorded cause `cause` of heat `h` of run `r`, behind the records that were on the fault path (15 R460). -/
def StarterRecord (s t : State) (r h cause : Nat) : Prop :=
  ∃ c, t.flt.path = s.flt.path ++ [c] ∧ c.kind = 3 ∧ c.code = BitVec.ofNat 16 (0x100 + cause) ∧ c.heat = BitVec.ofNat 16 h ∧
    c.run = BitVec.ofNat 16 r

/-- Seat `y` after a heat of seat `x` has ended on it: its plan goes on no more, its page of the heat and its held finishes are gone; its
memories stay, and what it has sent still awaits its answers (07 R232, R244). -/
def SeatFreed (x y : Seat) (r h : Nat) : Prop :=
  y.cox.dispatched = none ∧ y.cox.started = false ∧ y.lnd.held = [] ∧ (x.cox.state = .halted → y.cox.state = .halted) ∧
  (x.cox.state ≠ .halted → y.cox.state = .noHeat ∧ y.mxa.queue = [] ∧ y.vec.queue = [] ∧ y.dma.queue = [] ∧ y.net.queue = []) ∧
  y.cox.use0 ≠ some (r, h) ∧ y.cox.use1 ≠ some (r, h) ∧ y.core = x.core ∧ y.store = x.store ∧ y.desc = x.desc ∧
  ∀ e : EngIx, ((y.eng e).out <+: (x.eng e).out) ∧ ((x.eng e).outbox = [] → (y.eng e).out = (x.eng e).out)

/-- The epoch of class `k` has retired: every table still to be told of it stands on the list, and no other class has changed
(07 R234, R235). -/
def Retired (s t : State) (k : Nat) : Prop :=
  classOf t k = { classOf s k with state := 2 } ∧ (∀ j, j ≠ k → classOf t j = classOf s j)

/-- What a heat's abort does (07 R232): the heat is aborted, its epoch retires, its seats are freed, the starter records the cause and the
run's ring gets the entry. -/
def Aborts (s t : State) (r h : Nat) (x : Heat) (cause : Nat) (seq : Word) : Prop :=
  HeatEnds s t r h .aborted ∧ OtherHeats s t r [h] ∧ Retired s t x.cls ∧ StarterRecord s t r h cause ∧
  t.str.aborts = satInc s.str.aborts ∧ (x.freed = false → ∀ w ∈ x.seats, SeatFreed (seatOf s w) (seatOf t w) r h) ∧
  (∀ w, w ∉ x.seats → (seatOf t w).cox = (seatOf s w).cox) ∧
  ∀ run, runOf s r = some run → HeatEntryOut s t run.ring r h 2 cause seq

/-- What a heat's abandonment does (07 R231). -/
def Abandons (s t : State) (r h : Nat) (x : Heat) (cause : Nat) : Prop :=
  HeatEnds s t r h .abandoned ∧ OtherHeats s t r [h] ∧ StarterRecord s t r h cause ∧ t.str.abandons = satInc s.str.abandons ∧
  t.str.aborts = s.str.aborts ∧ (∀ k, classOf t k = classOf s k) ∧
  (∀ w ∈ x.pre, (seatOf t w).cox.use0 ≠ some (r, h) ∧ (seatOf t w).cox.use1 ≠ some (r, h)) ∧
  (∀ w, (seatOf t w).core = (seatOf s w).core ∧ (seatOf t w).desc = (seatOf s w).desc ∧ (seatOf t w).cox.state = (seatOf s w).cox.state) ∧
  ∀ run, runOf s r = some run → HeatEntryOut s t run.ring r h 3 cause 0

/-- Snivan has read from `src` the command `c` of opcode `op`, and `o` is its answer with STATUS `st` and RESULT `res`, once the state is
`u` (13 R411, R415). -/
def Answers (o : Host.Outcome State Fault Refusal) (u : State) (src : SrcIx) (c st res : Nat) : Prop :=
  o = .next (answer u src.val c st res)

/-- `o` is the answer of the background command `c` of `src` with STATUS `st` and RESULT `res`, once the state is `u` (13 R411, R415). -/
def AnswersLate (o : Host.Outcome State Fault Refusal) (u : State) (src : SrcIx) (c st res : Nat) : Prop :=
  o = .next (finishBg u src.val c st res)

/-- Source `src` has the background command `c` of opcode `op` running, the oldest, and nothing of that opcode in hand (13 R411). -/
def RunsLate (s : State) (src : SrcIx) (op c : Nat) : Prop := commandOf s src.val op = none ∧ bgOf s src.val op = some c

/-- The command `c` of `src` begins in the background: its ring may be read on, and nothing else changes (13 R411). -/
def BeginsLate (s : State) (src : SrcIx) (c : Nat) (o : Host.Outcome State Fault Refusal) : Prop :=
  ∃ t, o = .next t ∧ t = { s with cq := t.cq } ∧ t.cq.bg = s.cq.bg ++ [(src.val, c)] ∧ t.cq.cq = s.cq.cq ∧
    sqOf t src.val = { sqOf s src.val with cur := none, waiting := (sqOf s src.val).waiting + 1 }

/-- The command `c` of `src`, of the load engine's opcode `op`, is carried out now: it has just been read and no load waits or runs, or, where
`turn` holds, it has waited behind another load and its turn has come (11 R370). -/
def LoadRuns (s : State) (src : SrcIx) (op c : Nat) (turn : Bool) : Prop :=
  (turn = false ∧ s.ctxs.loads = [] ∧ commandOf s src.val op = some c) ∨ (turn = true ∧ loadTurn s src.val op = some c)

/-- `o` is the answer of a load or repair with STATUS `st` and RESULT `res`, once the state is `u`; after a wait it is a late reply, and the
command's place at the load engine is given up (11 R370). -/
def LoadAnswers (turn : Bool) (o : Host.Outcome State Fault Refusal) (u : State) (src : SrcIx) (c st res : Nat) : Prop :=
  o = .next (loadAnswer turn u src.val c st res)

/-- From `s` to `t` job `j` has begun at the load engine for the command `c` of `src`, which is not answered yet (11 R370, 13 R411). -/
def LoadBegins (turn : Bool) (s t : State) (src : SrcIx) (c : Nat) (j : LoadJob) : Prop :=
  t.ctxs.loads = j :: s.ctxs.loads.drop 1 ∧ j.src = src.val ∧ j.cid = cCid c ∧ j.waiting = none ∧ j.ctx = cb c 0x10 1 ∧ t.cq.cq = s.cq.cq ∧
  (turn = true → t.cq = s.cq) ∧
  (turn = false → (sqOf t src.val).cur = none ∧ (sqOf t src.val).waiting = (sqOf s src.val).waiting + 1)

/-- Behind another load the command `c` of `src` waits for its turn: nothing but the queue of the load engine has changed (11 R370). -/
def LoadQueues (s t : State) (src : SrcIx) (c : Nat) : Prop :=
  ∃ j, t.ctxs = { s.ctxs with loads := s.ctxs.loads ++ [j] } ∧ j.waiting = some c ∧ j.src = src.val ∧ j.cid = cCid c ∧ j.ctx = cb c 0x10 1 ∧
    (sqOf t src.val).cur = none ∧ (sqOf t src.val).waiting = (sqOf s src.val).waiting + 1 ∧ t.seats = s.seats ∧ t.flt = s.flt

/-! ## Terms of the statements about weigh-enough and power -/

/-- From `s` to `t` the chip enters weigh-enough for a cause logged as `code`: its record is the first of those added to the fault path; every
heat of every live run has ended, every load has stopped, and so has every feed ring, once what it has in progress ends. In weigh-enough
already, only the log grows (15 R466, R468). -/
def Halts (s t : State) (code : BitVec 16) : Prop :=
  (∃ r l, t.flt.path = s.flt.path ++ r :: l ∧ r.code = code) ∧ t.glb.halted = true ∧
  (s.glb.halted = true → t.flt.haltCode = s.flt.haltCode ∧ t.str = s.str ∧ t.ctxs = s.ctxs ∧ t.seats = s.seats) ∧
  (s.glb.halted = false → t.flt.haltCode = code ∧ (∀ r run, runOf t r = some run → ∀ x ∈ run.heats, x.phase.ended = true) ∧
    (∀ j ∈ t.ctxs.loads, j.todo = []) ∧
    ∀ f, f < 8 → (∀ j ∈ (feedOf t f).prog, j.status ≠ 0) ∧ ((feedOf s f).prog = [] → (feedOf t f).stopped = true))

/-- Every domain but `d` is as it was. -/
def OtherDoms (s t : State) (d : Nat) : Prop := ∀ e, e ≠ d → domOf t e = domOf s e

/-- Domain `e` runs as it did; its crew may have begun to idle (12 R389). -/
def SameDom (s t : State) (e : Nat) : Prop := domOf t e = { domOf s e with idleAt := (domOf t e).idleAt }

/-- ALERT_N is asserted, and FLT_ALERT_CODE holds the first condition's code (15 R465). -/
def Alerts (s t : State) (code : Byte) : Prop :=
  t.pins.alert = true ∧ t.flt.alert = if s.flt.alert = 0 then code else s.flt.alert

/-! ## Terms of the statements about the fabric -/

/-- Every port but `p` is as it was. -/
def OtherPorts (s t : State) (p : Nat) : Prop := ∀ q, q ≠ p → portOf t q = portOf s q

/-- Port `p` is ACTIVE and has no header credit in hand, so that what joins its queue stays there (10 R320). -/
def Stalled (s : State) (p : Nat) : Prop :=
  portLive s p = true ∧ (creditOf (portOf s p) 0).free = 0 ∧ (creditOf (portOf s p) 2).free = 0

/-- The complex's edge port on the column of seat `w` has been given one answer of TYPE `ty` and STATUS `st` to the packet with header `h` of that
seat (09 R276, R279, 10 R333). -/
def EngineGets (s t : State) (w h ty st : Nat) (data : List Granule) : Prop :=
  ∃ q : Pkt, t.noc.buf = (push s (nodeFabric + (coordOf w).1) 0 vcRsp (flitsOf { goal := .seat w } q)).noc.buf ∧ pType q.hdr.toNat = ty ∧
    pStatus q.hdr.toNat = st ∧ pTag q.hdr.toNat = pTag h ∧ pEpoch q.hdr.toNat = pEpoch h ∧ pEng q.hdr.toNat = pEng h ∧ q.data = data

/-- A frame that carries neither ACK nor NAK and whose CRC holds, of kind `kind` (10 R308, R309). -/
def Plain (fr : Frame) (kind : Nat) : Prop :=
  frameGood fr = true ∧ eKind fr.env.toNat = kind ∧ eAckValid fr.env.toNat = false ∧ eNak fr.env.toNat = false

/-- `fr` is the oldest frame that port `p` has received and not taken, and the rest of them is `fs` (10 R307). -/
def Received (s : State) (p : Nat) (fr : Frame) (fs : List Frame) : Prop := (portOf s p).rxFrames = fr :: fs

/-- Port `p` is ACTIVE and has nothing to send. -/
def Quiet (s : State) (p : Nat) : Prop := portLive s p = true ∧ (portOf s p).tx = [] ∧ (portOf s p).resend = 0

end Sys2Proof.Machine
end

