-- ==== Sys2Proof/Certificates/Slice0/Obligations.lean ====
section
/-!
DEFINITION. The statements for the provers. Each follows rules of spec/ and says what a command or the part does in every state that
meets its hypotheses.
-/
open Sys2Proof Sys2Proof.Machine
open Host (Outcome)

/-! ## The cox (06) -/

/-- 06 R200, R194, R199: what the CTRL opcodes do. Each arithmetic opcode writes C[DST], modulo 2^32, from the counters as they stood; every other
counter, and all of the seat and of the part but this cox's collision count, write times, completion bits and the descriptor in hand, is as
before. NOP, CMPSET and END write no counter. 06 R195: of writes to one counter at the end of one core cycle the last in the order CTRL, loop
index, COMPRESS stands; a write lost counts in COX_CTR_COLLIDE and raises no fault. Here the CTRL write of CSET loses to the loop index (rank 1)
or COMPRESS (rank 2) already written in its core cycle. -/
def Obligations.CtrlOpcodes : Prop :=
  (∀ (s : State) (w : SeatIx) (j : Job),
    let c := (seatOf s w.val).cox
    let d := j.raw.toNat
    let a := tget 0 c.ctr (kSa d)
    let x : Word := if kUseb d then tget 0 c.ctr (kSb d) else BitVec.ofNat 32 (kImm d)
    (CtrFree c (kDst d) j.issued →
      (CoxRuns s w.val 7 0x01 j → CounterSet s w.val j x (exec (.cset w) s)) ∧
      (CoxRuns s w.val 7 0x02 j → CounterSet s w.val j (a + x) (exec (.cadd w) s)) ∧
      (CoxRuns s w.val 7 0x03 j → CounterSet s w.val j (a - x) (exec (.csub w) s)) ∧
      (CoxRuns s w.val 7 0x04 j → CounterSet s w.val j (a * x) (exec (.cmul w) s)) ∧
      (CoxRuns s w.val 7 0x05 j → CounterSet s w.val j (a &&& x) (exec (.cand w) s)) ∧
      (CoxRuns s w.val 7 0x06 j → CounterSet s w.val j (a >>> (x.toNat % 32)) (exec (.cshr w) s)) ∧
      (CoxRuns s w.val 7 0x08 j → ∀ v, IdentityField s w.val (kSub d) v → CounterSet s w.val j v (exec (.cid w) s))) ∧
    (CoxRuns s w.val 7 0x00 j → exec (.nop w) s = .next (modCox s w.val fun c => doneNow c j)) ∧
    (CoxRuns s w.val 7 0x10 j → ∃ t, exec (.cmpset w) s = .next t ∧
      tget {} (seatOf t w.val).cox.cmp (kDst d % 8) =
        Cmpr.mk (kSa d) (kSub d) (kUseb d) (if kUseb d then BitVec.ofNat 32 (kSb d) else BitVec.ofNat 32 (kImm d)) ∧
      (∀ k, k ≠ kDst d % 8 → tget {} (seatOf t w.val).cox.cmp k = tget {} c.cmp k) ∧
      t = putSeat s w.val { seatOf s w.val with cox := { doneNow c j with cmp := (seatOf t w.val).cox.cmp } }) ∧
    (CoxRuns s w.val 7 0x3F j → c.loops = [] →
      exec (.endPlan w) s = .next (modCox s w.val fun c => { doneNow c j with state := .pastEnd }))) ∧
  (∀ (s : State) (w : SeatIx) (j : Job) (r : Nat),
    let c := (seatOf s w.val).cox
    let k := kDst j.raw.toNat
    CoxRuns s w.val 7 0x01 j → tfind c.ctrAt k = some (j.issued + 1, r) →
    ∃ t, exec (.cset w) s = .next t ∧ t.flt = s.flt ∧ (seatOf t w.val).cox.state = .walking ∧
      (seatOf t w.val).cox.collide = satInc c.collide ∧
      tget 0 (seatOf t w.val).cox.ctr k =
        (if r = 0 then (if kUseb j.raw.toNat then tget 0 c.ctr (kSb j.raw.toNat) else BitVec.ofNat 32 (kImm j.raw.toNat))
         else tget 0 c.ctr k))

/-- 06 R202, R204: a LOOP latches its count and starts its body one beat later, with the loop pushed; a count of 0, or a false predicate, skips the
body. The count, depth and nesting checks come first. 06 R202, R203: at the end of the innermost loop's body the next iteration begins at S + k ×
P, its number written to the index counter, and after the last the base is S + n × P with the loop gone. -/
def Obligations.Loops : Prop :=
  (∀ (s : State) (w : SeatIx) (j : Job),
    let x := seatOf s w.val
    let d := j.raw.toNat
    let n := (tget 0 x.cox.ctr (lCsel d)).toNat
    CoxRuns s w.val 6 0x01 j →
    (j.pred = true → n ≤ 65535 → x.cox.loops.length < 4 → j.idx + lBody d ≤ 1023 → (∀ l ∈ x.cox.loops, j.idx + lBody d ≤ l.last) →
      ∃ t, exec (.loop w) s = .next t ∧ (seatOf t w.val).cox.base = j.beat + 1 ∧
        tfind (seatOf t w.val).cox.done j.idx = some (j.issued + 1) ∧
        (n = 0 → (seatOf t w.val).cox.next = j.idx + 1 + lBody d ∧ (seatOf t w.val).cox.loops = x.cox.loops) ∧
        (n ≠ 0 → (seatOf t w.val).cox.next = j.idx + 1 ∧
          (seatOf t w.val).cox.loops = x.cox.loops ++ [LoopFrame.mk (j.idx + 1) (j.idx + lBody d) (j.beat + 1) (lPeriod d) n 0
            (if lIen d then some (lIsel d) else none)]) ∧
        t = putSeat s w.val { x with cox := (seatOf t w.val).cox }) ∧
    (j.pred = false → ∃ t, exec (.loop w) s = .next t ∧ (seatOf t w.val).cox.base = j.beat + 1 ∧
        (seatOf t w.val).cox.next = j.idx + 1 + lBody d ∧ (seatOf t w.val).cox.loops = x.cox.loops ∧
        (seatOf t w.val).cox.ctr = x.cox.ctr) ∧
    (j.pred = true → 65535 < n → exec (.loop w) s = .next (jobFault s w.val j 0x0005 0 j.issued 0 0xFFFFFFFF 0)) ∧
    (j.pred = true → n ≤ 65535 → 4 ≤ x.cox.loops.length →
      exec (.loop w) s = .next (jobFault s w.val j 0x0006 0 j.issued 0 0xFFFFFFFF 0)) ∧
    (j.pred = true → n ≤ 65535 → x.cox.loops.length < 4 → (1023 < j.idx + lBody d ∨ ∃ l ∈ x.cox.loops, l.last < j.idx + lBody d) →
      exec (.loop w) s = .next (jobFault s w.val j 0x0007 0 j.issued 0 0xFFFFFFFF 0))) ∧
  (∀ (s : State) (w : SeatIx) (l : LoopFrame),
    let c := (seatOf s w.val).cox
    c.state = .walking → clocked s w.val = true → c.cur = none → c.held = none → c.loops.getLast? = some l → c.next = l.last + 1 →
    (l.iter + 1 < l.count →
      (∀ k, l.isel = some k → CtrFree c k (c.cycle + (l.start + (l.iter + 1) * l.period - 1 - c.beat))) →
      ∃ t, exec (.loopIteration w) s = .next t ∧
        (seatOf t w.val).cox.base = l.start + (l.iter + 1) * l.period ∧ (seatOf t w.val).cox.next = l.first ∧
        (seatOf t w.val).cox.loops = c.loops.dropLast ++ [{ l with iter := l.iter + 1 }] ∧
        (∀ k, l.isel = some k → tget 0 (seatOf t w.val).cox.ctr k = BitVec.ofNat 32 (l.iter + 1)) ∧
        (∀ k, l.isel ≠ some k → tget 0 (seatOf t w.val).cox.ctr k = tget 0 c.ctr k) ∧
        t = putSeat s w.val { seatOf s w.val with cox := (seatOf t w.val).cox }) ∧
    (l.count ≤ l.iter + 1 →
      exec (.loopIteration w) s = .next (modCox s w.val fun c => { c with loops := c.loops.dropLast, base := l.start + l.count * l.period })))

/-- 06 R190, R187, R188, R192, R205: a descriptor is presented when the beat counter reaches its effective beat; the cycle counter moves on with it.
One of the four queued classes, with a true predicate, enters the end of its queue if that has room and its producers and addresses check out: its
completion bit clears, its rest mask comes into force and the walk moves on. With its queue full, of those unstarted at the beginning of that core
cycle, it is held instead, and with a producer not yet satisfied it is UMP_EARLY_ISSUE. 06 R191, R192, R198, 07 R241, R239, 06 R213: the holds
end. A descriptor held for its queue issues in the first core cycle in which the queue has room or its predicate is false, and stays held while
neither is known; a CATCH found satisfied in its core cycle of presentation, or after `held` core cycles, issues in that core cycle; one that is
not holds the beat counter and changes nothing else. ACQUIRE discards the fetch window. A command that finds its condition unmet changes nothing:
the model's choice (log entry 8). -/
def Obligations.IssueAndHolds : Prop :=
  (∀ (s : State) (w : SeatIx) (q : Fin 4),
    let x := seatOf s w.val
    let c := x.cox
    let d := descAt x c.next
    let eb := c.base + dBeat d
    let now := c.cycle + (eb - c.beat)
    let c1 := settle { c with beat := eb, cycle := now } now
    let j : Job := { raw := BitVec.ofNat 256 d, idx := c.next, beat := eb, loops := loopIters c, issued := now }
    mayPresent x = true → clocked s w.val = true → c.next ≤ 1023 → WalkOk c eb → commonBad d c.next = false → classFault s.chain.node w.val x d = none →
    queueOf d = some q → predVal c1 (dPred d) = true →
    (unstarted x q now < (if q = 1 then 16 else 8) → producersOk c1 d c.next now = true → addressOk d (jobCtr c1 d) = true →
      (∀ b ∈ activeBloads x now, (dWrest d).getLsbD (bloadBank b) = false) →
      ∃ t, exec (.descriptorPresent w) s = .next t ∧
        queued (seatOf t w.val) q = queued x q ++ [{ j with c := jobCtr c1 d, tail := ctrVal c1 (vTsel d) }] ∧
        (∀ p, p ≠ q → queued (seatOf t w.val) p = queued x p) ∧
        (seatOf t w.val).cox.beat = eb ∧ (seatOf t w.val).cox.cycle = now ∧ (seatOf t w.val).cox.next = c.next + 1 ∧
        (seatOf t w.val).cox.rest = dWrest d ∧ (seatOf t w.val).cox.issued = satInc c.issued ∧
        tfind (seatOf t w.val).cox.done c.next = none ∧ t.flt = s.flt) ∧
    ((if q = 1 then 16 else 8) ≤ unstarted x q now →
      ∃ t, exec (.descriptorPresent w) s = .next t ∧ (seatOf t w.val).cox.hold = .queue q ∧ (seatOf t w.val).cox.held = some j ∧
        (seatOf t w.val).cox.beat = eb ∧ (seatOf t w.val).cox.rest = c.rest ∧ t.flt = s.flt) ∧
    (unstarted x q now < (if q = 1 then 16 else 8) → producersOk c1 d c.next now = false →
      ∃ u, seatOf u w.val = { x with cox := c1 } ∧ exec (.descriptorPresent w) s = .next (jobFault u w.val j 0x0010 1 now 0 0xFFFFFFFF 0))) ∧
  (∀ (s : State) (w : SeatIx) (j : Job),
    let x := seatOf s w.val
    let c := x.cox
    let d := j.raw.toNat
    (∀ q t, c.hold = .queue q → c.held = some j → c.state = .walking → holdEnd c d = some t →
      let now := max t c.cycle
      clocked s w.val = true → stillBefore x now = true →
      ∃ u, exec (.queueHoldEnd w) s = .next (issueJob u w.val { j with issued := now }) ∧
        (seatOf u w.val).cox.cycle = now ∧ (seatOf u w.val).cox.beat = c.beat ∧ (seatOf u w.val).cox.held = none ∧
        (seatOf u w.val).cox.hold = .none ∧ (seatOf u w.val).cox.heldQueue = satAdd c.heldQueue (now - c.cycle)) ∧
    (∀ q, c.hold = .queue q → c.held = some j → holdEnd c d = none → exec (.queueHoldEnd w) s = .next s) ∧
    (OnTime s w.val c.cycle → c.state = .walking → c.held = some j → dClass d = 5 → dOp d = 1 → c.hold = .none → CatchOpen x c d →
      exec (.catchCond w) s = .next (modCox s w.val fun c => { c with hold := .catch })) ∧
    (∀ held, c.state = .walking → clocked s w.val = true → c.held = some j → dClass d = 5 → dOp d = 1 →
      let n := if c.hold = .none then 0 else max held 1
      let c1 := settle { c with heldCatch := satAdd c.heldCatch n, held := none, hold := .none, cycle := c.cycle + n } (c.cycle + n)
      stillBefore x (c.cycle + n) = true → ¬ CatchOpen x c1 d →
      exec (.catchSatisfied w held) s = .next (issueJob (putSeat s w.val { x with cox := c1 }) w.val { j with issued := c.cycle + n })) ∧
    (CoxRuns s w.val 5 2 j →
      exec (.acquire w) s = .next (modCox s w.val fun c => { doneNow c j with winValid := false, acq := j.beat + 1 })))

/-- 06 R205, R214, 03 R110, 04 R146, 07 R230: a descriptor's completion bit is set at the end of its last core cycle, if no later issue of it is out;
a BLOAD and a VE descriptor count. Once END has issued and every earlier descriptor has completed, the seat reports to the starter. -/
def Obligations.CompletionAndFinish : Prop :=
  ∀ (s : State) (w : SeatIx),
    let x := seatOf s w.val
    (∀ (i : Nat) (j : Job), x.cox.fin[i]? = some j → OnTime s w.val j.doneAt → j.clips = 0 → j.flushes = 0 →
      ∃ t, exec (.descriptorComplete w i) s = .next t ∧
        (seatOf t w.val).cox.fin = dropAt x.cox.fin i ∧
        tfind (seatOf t w.val).cox.done j.idx =
          (if tfind x.cox.issuedAt j.idx = some (j.issued + 1) then some (j.doneAt + 1) else tfind x.cox.done j.idx) ∧
        (∀ k, k ≠ j.idx → tfind (seatOf t w.val).cox.done k = tfind x.cox.done k) ∧
        (seatOf t w.val).mxa.bloads =
          (if dClass j.raw.toNat = 1 ∧ dOp j.raw.toNat = 1 then satInc x.mxa.bloads else x.mxa.bloads) ∧
        (seatOf t w.val).vec.descs = (if dClass j.raw.toNat = 2 then satInc x.vec.descs else x.vec.descs) ∧
        (seatOf t w.val).core = x.core ∧ (seatOf t w.val).store = x.store ∧ (seatOf t w.val).desc = x.desc ∧ t.flt = s.flt) ∧
    (x.cox.state = .pastEnd → clocked s w.val = true → allDone x = true → ∀ h : Heat, heatOf s x.cox.run x.cox.heat = some h → w.val ∉ h.finished →
      ∃ t, exec (.planFinished w) s = .next t ∧
        heatOf t x.cox.run x.cox.heat = some { h with finished := h.finished ++ [w.val] } ∧
        seatOf t w.val = { x with cox := { x.cox with rest := 0xFFFFFFFF } })

/-! ## The matrix array (03) -/

/-- 03 R80, R92, R103, R108, R110: an idle MX unit starts the first descriptor in the queue that is for it, in its issue core cycle or the first in
which the unit is free, and is then busy for the time of R103; a load into a shadow nibble that holds a tile is MX_SHADOW_BUSY. A pass start swaps
the blades where the pass has a swap and the shadow is ready, and counts the pass and its rows; a swap that is not ready is MX_BLADE_NOT_READY and
ends the descriptor, after a slot that is empty in the same core cycle (15 R456). -/
def Obligations.MxUnitAndPassStart : Prop :=
  ∀ (s : State) (w : SeatIx) (j : Job),
    let x := seatOf s w.val
    let d := j.raw.toNat
    (∀ (u : UnitIx) (a b : List Job), tfind x.mxa.cur u.val = none → x.wst.forcing = none → x.mxa.queue = a ++ j :: b →
      (∀ i ∈ a, mxUnit (dOp i.raw.toNat) ≠ u.val) → mxUnit (dOp d) = u.val →
      let start := max j.issued (tget 0 x.mxa.freeAt u.val)
      OnTime s w.val start →
      (MxMayStart x j start →
        ∃ t, exec (.mxUnitStart w u) s = .next t ∧ t.flt = s.flt ∧ (seatOf t w.val).mxa.queue = a ++ b ∧
          tfind (seatOf t w.val).mxa.cur u.val = some { j with start := start } ∧
          tget 0 (seatOf t w.val).mxa.freeAt u.val = start +
            (if dOp d = 1 then 34 else if dOp d = 2 then 18 else if dOp d = 3 then 2
             else if dOp d = 0x10 then (passTable (prTable d)).length * max (prRows d) 4
             else if drCore d = true then 135 else 5 + 2 * drRows d)) ∧
      (dOp d = 1 → blNib d = 0 → x.mxa.sh0.isSome → x.cox.rest.getLsbD (bloadBank j) = false →
        ∃ v, exec (.mxUnitStart w u) s = .next (jobFault v w.val { j with start := start } 0x0021 2 start 0 0xFFFFFFFF 0))) ∧
    (tfind x.mxa.cur 2 = some j → x.mxa.passDue = false → x.mxa.pass < (passTable (prTable d)).length →
      let p := x.mxa.pass
      let t0 := passAt x j p
      let swap := swapsAt d p
      let m := if swap then { x.mxa with act0 := x.mxa.sh0, act1 := x.mxa.sh1, sh0 := none, sh1 := none } else x.mxa
      OnTime s w.val t0 →
      (∀ ps, (passTable (prTable d))[p]? = some ps → (swap = true → swapReady x.mxa d p t0 = true) → passEvents m j p t0 = [] →
        exec (.passStart w) s = .next (putSeat s w.val { x with mxa :=
          { m with passDue := true, passSlot := tfind m.slots (prA d + ps.slot), passNib := if ps.nib = 0 then m.act0 else m.act1,
                   passCount := satInc x.mxa.passCount, rowCount := x.mxa.rowCount + BitVec.ofNat 64 (prRows d),
                   busyRows := x.mxa.busyRows + prRows d, rowRuns := x.mxa.rowRuns ++ [(t0, t0 + prRows d)] } })) ∧
      (swap = true → swapReady x.mxa d p t0 = false → (startEvents x.mxa j p t0).length = 1 →
        ∃ v, exec (.passStart w) s = .next (jobFault v w.val j 0x0024 4 t0 0 0xFFFFFFFF 0) ∧
          (seatOf v w.val).mxa.act0 = x.mxa.act0 ∧ (seatOf v w.val).mxa.act1 = x.mxa.act1) ∧
      (∀ ps, (passTable (prTable d))[p]? = some ps → swap = true → swapReady x.mxa d p t0 = false →
        slotReady x.mxa (prA d + ps.slot) t0 = false → (startEvents x.mxa j p t0).length = 2 →
        ∃ v, exec (.passStart w) s =
            .next (jobFault (jobFault v w.val j 0x0023 4 t0 0 0xFFFFFFFF 0) w.val j 0x0024 4 t0 0 0xFFFFFFFF 0) ∧
          (seatOf v w.val).mxa.act0 = x.mxa.act0 ∧ (seatOf v w.val).mxa.act1 = x.mxa.act1))

/-- 03 R93, R98, R99, R103, R104, R108: a load whose tile has the expected tag and CRC fills its nibble or slot and completes in its core cycle; one
with another tag is TAG_MISMATCH, one with another CRC is CRC_MISMATCH, and both leave the target as it was. 03 R102, R103, R104, R109, 05
R161-R164: a DRAIN reads each row in its read cycle, as the updates before that core cycle have left it. To core memory it writes the 64 rows of
its bank as a full tile whose trailer carries the tag and a CRC that holds, and not one byte outside the tile; a DRAIN to the operand cache writes
two entries a row, columns 0-31 and 32-63, and no memory. -/
def Obligations.MxLoadsAndDrains : Prop :=
  (∀ (s : State) (w : SeatIx) (j : Job),
    let x := seatOf s w.val
    let d := j.raw.toNat
    (tfind x.mxa.cur 0 = some j → dOp d = 1 →
      let g := (blWbase d + (j.c : Int) * blStride d).toNat
      let tile := weightTile x g
      let tag := mkTag x.cox.ctx x.cox.gen 1 (blFmt d) (tileIdx (blTidx d) j.c (blTstep d))
      (tileTag tile 1 = tag → tileStored tile 1 = (tileCrc tile 1).toNat → OnTime s w.val (mxAt x j 33) →
        ∃ t, exec (.bload w) s = .next t ∧ t.flt = s.flt ∧
          (seatOf t w.val).mxa.sh0 = (if blNib d = 1 then x.mxa.sh0 else some (asTile tile)) ∧
          (seatOf t w.val).mxa.sh1 = (if blNib d = 0 then x.mxa.sh1 else some (asTile tile)) ∧
          (blNib d ≠ 1 → (seatOf t w.val).mxa.shAt0 = mxAt x j 34) ∧ (blNib d ≠ 0 → (seatOf t w.val).mxa.shAt1 = mxAt x j 34) ∧
          (seatOf t w.val).cox.fin = x.cox.fin ++ [{ j with doneAt := mxAt x j 33 }] ∧
          (seatOf t w.val).mxa.act0 = x.mxa.act0 ∧ (seatOf t w.val).mxa.act1 = x.mxa.act1 ∧ (seatOf t w.val).store = x.store) ∧
      (tileTag tile 1 ≠ tag → j.torn = false → clocked s w.val = true → stillBefore x (mxAt x j 3) = true →
        ∃ v, exec (.bload w) s = .next (jobFault v w.val j 0x0050 2 (mxAt x j 3) 0 g (tileTag tile 1)) ∧
          (seatOf v w.val).mxa.sh0 = x.mxa.sh0 ∧ (seatOf v w.val).mxa.sh1 = x.mxa.sh1) ∧
      (tileTag tile 1 = tag → tileStored tile 1 ≠ (tileCrc tile 1).toNat → j.torn = false → clocked s w.val = true →
        stillBefore x (mxAt x j 33) = true →
        ∃ v, exec (.bload w) s = .next (jobFault v w.val j 0x0051 2 (mxAt x j 33) 0 g
            (pack [(0, 32, tileStored tile 1), (32, 32, (tileCrc tile 1).toNat)])) ∧
          (seatOf v w.val).mxa.sh0 = x.mxa.sh0 ∧ (seatOf v w.val).mxa.sh1 = x.mxa.sh1)) ∧
    (tfind x.mxa.cur 1 = some j → dOp d = 2 →
      let g := (alCbase d + (j.c : Int) * alStride d).toNat
      let tile := coreTile x g 2
      tileTag tile 2 = mkTag x.cox.ctx 0 2 (alFmt d) (tileIdx (alTidx d) j.c (alTstep d)) →
      tileStored tile 2 = (tileCrc tile 2).toNat → bankEvents x j = [] → OnTime s w.val (mxAt x j 19) →
      ∃ t, exec (.aload w) s = .next t ∧ t.flt = s.flt ∧ tfind (seatOf t w.val).mxa.slots (alSlot d) = some (asTile tile) ∧
        (∀ k, k ≠ alSlot d → tfind (seatOf t w.val).mxa.slots k = tfind x.mxa.slots k) ∧
        tget 0 (seatOf t w.val).mxa.slotAt (alSlot d) = mxAt x j 20 ∧
        (seatOf t w.val).cox.fin = x.cox.fin ++ [{ j with doneAt := mxAt x j 19 }] ∧ (seatOf t w.val).core = x.core) ∧
    (tfind x.mxa.cur 0 = some j → dOp d = 3 → OnTime s w.val (mxAt x j 1) →
      let a := tget {} x.mxa.slots (dgSlot d)
      ∃ t b, exec (.diag w) s = .next t ∧ (seatOf t w.val).mxa.sh0 = some b ∧ (seatOf t w.val).mxa.shAt0 = mxAt x j 2 ∧
        (seatOf t w.val).mxa.sh1 = x.mxa.sh1 ∧ b.tag = a.tag ∧
        (∀ k c, k < 64 → c < 64 → nibAt b k c = if k = c then nibAt a (dgRow d) k else 0) ∧
        (∀ c blk, c < 64 → blk < 2 → mread b.scales (64 * blk + c) = if blk = c / 32 then mread a.scales (2 * dgRow d + blk) else 0x7F) ∧
        (seatOf t w.val).cox.fin = x.cox.fin ++ [{ j with doneAt := mxAt x j 1 }])) ∧
  (∀ (s : State) (w : SeatIx) (j : Job),
    let x := seatOf s w.val
    let d := j.raw.toNat
    tfind x.mxa.cur 3 = some j →
    (drCore d = true → OnTime s w.val (mxAt x j 134) → bankEvents x j = [] →
      let g := (drAt d j.c).toNat
      ∃ t, exec (.drain w) s = .next t ∧ t.flt = s.flt ∧
        (∀ r c, r < 64 → c < 64 →
          mrd (seatOf t w.val).core (64 * g + 256 * r + 4 * c) 4 =
            ((rowAt x.mxa (drBank d) r (mxAt x j (2 * r))).getD c 0).toNat) ∧
        tileTag (coreTile (seatOf t w.val) g 3) 3 =
          mkTag x.cox.ctx 0 3 (if drI32 d then fmtI32 else fmtFp32) (tileIdx (drTidx d) j.c (drTstep d)) ∧
        tileStored (coreTile (seatOf t w.val) g 3) 3 = (tileCrc (coreTile (seatOf t w.val) g 3) 3).toNat ∧
        (∀ a, a < 64 * g ∨ 64 * g + 16416 ≤ a → mread (seatOf t w.val).core a = mread x.core a) ∧
        (seatOf t w.val).cox.fin = x.cox.fin ++ [{ j with doneAt := mxAt x j 134 }] ∧
        (seatOf t w.val).store = x.store ∧ (seatOf t w.val).desc = x.desc) ∧
    (drCore d = false → OnTime s w.val (mxAt x j (4 + 2 * drRows d)) → x.vec.pend = [] → x.vec.w0 = [] →
      let e := (drAt d j.c).toNat
      ∃ t, exec (.drain w) s = .next t ∧ t.flt = s.flt ∧
        (∀ v i h, mxAt x j (6 + 2 * drRows d) ≤ 2 * v → i < drRows d → h < 2 →
          entryOf (opcSettle (seatOf t w.val).vec v) (e + 2 * i + h) =
            (List.range 32).map fun l => (rowAt x.mxa (drBank d) (drRow0 d + i) (mxAt x j (2 * i))).getD (32 * h + l) 0) ∧
        (seatOf t w.val).cox.fin = x.cox.fin ++ [{ j with doneAt := mxAt x j (4 + 2 * drRows d) }] ∧
        (seatOf t w.val).core = x.core ∧ (seatOf t w.val).store = x.store ∧ (seatOf t w.val).mxa.acc = x.mxa.acc))

/-- 03 R84, R101, 02 R52, R54, R56: the sums of a pass. In each row of the pass and each column, the accumulator of the pass's bank takes the block
sum of block 0 and then that of block 1, from +0 where CLR is set and no earlier pass wrote the bank, else from what it held; every accumulator of
other rows or banks is as before, and in a seat that halts so is a row whose core cycle comes after the halt. (A pass over a nibble of 2-bit
weights writes two banks and is not covered here.) -/
def Obligations.ProductPass : Prop :=
  ∀ (s : State) (w : SeatIx) (j : Job) (ps : Pass),
    let x := seatOf s w.val
    let d := j.raw.toNat
    let p := x.mxa.pass
    let a := x.mxa.passSlot.getD {}
    let b := x.mxa.passNib.getD {}
    let rowTime (r : Nat) := mxAt x j (passOff j p + 9 + r)
    let over_ := mxAt x j (passOff j p + 8 + prRows d)
    let bank := prB d + ps.bank
    tfind x.mxa.cur 2 = some j → dOp d = 0x10 → x.mxa.passDue = true → (passTable (prTable d))[p]? = some ps →
    tagFmt b.tag ≠ fmtI2 → tagFmt b.tag ≠ fmtT2 → prRow0 d + prRows d ≤ 64 → clocked s w.val = true → stillBefore x over_ = true →
    let fresh := prClr d && ((passTable (prTable d)).take p).all fun q => q.bank != ps.bank
    let term (acc : Word) (r c blk : Nat) : Word :=
      let sum := blockSum a b ps.nib r c blk false
      if prI32 d then (accAddInt acc ps.neg sum ps.shift).1
      else accAdd acc (blockTerm ps.neg sum (mread a.scales (2 * r + blk)).toNat (mread b.scales (64 * blk + c)).toNat
        (fmtOff (tagFmt a.tag) + fmtOff (tagFmt b.tag) + ps.shift))
    ∃ t, exec (.product w) s = .next t ∧ (seatOf t w.val).mxa.passDue = false ∧
      (∀ r c, prRow0 d ≤ r → r < prRow0 d + prRows d → c < 64 →
        tget 0 (seatOf t w.val).mxa.acc (accKey bank r c) =
          if runsAt x (rowTime (r - prRow0 d)) then
            term (term (if fresh then 0 else tget 0 x.mxa.acc (accKey bank r c)) r c 0) r c 1
          else tget 0 x.mxa.acc (accKey bank r c)) ∧
      (∀ k, (k < accKey bank (prRow0 d) 0 ∨ accKey bank (prRow0 d + prRows d) 0 ≤ k) →
        tget 0 (seatOf t w.val).mxa.acc k = tget 0 x.mxa.acc k) ∧
      (runsAt x over_ = true → p + 1 = (passTable (prTable d)).length →
        (seatOf t w.val).cox.fin = x.cox.fin ++ [{ j with doneAt := over_ }] ∧ tfind (seatOf t w.val).mxa.cur 2 = none) ∧
      (runsAt x over_ = false → (seatOf t w.val).cox.fin = x.cox.fin ∧ tfind (seatOf t w.val).mxa.cur 2 = none) ∧
      (seatOf t w.val).core = x.core ∧ (seatOf t w.val).store = x.store ∧ (seatOf t w.val).vec = x.vec

/-! ## The vector engine (04) -/

/-- 04 R117, R118: the value of one element of an element-wise operation: the word operations bit by bit, integers modulo 2^32, SEL by the S3 word,
the NaN and signed-zero rules of MIN, MAX, ABS and NEG, CMP with NaN, and SHIFT by bits [4:0] of S2. 04 R117, R118, R121, R122, R125: an
element-wise operation whose reads have all been written, and none of whose sources it overwrites first, writes its N destination entries, each
active lane the operation's value of the lanes it read and each inactive lane +0 with MZ, else what it held; no other entry changes, it completes
at the end of its last vector cycle, and no memory changes. -/
def Obligations.VectorElements : Prop :=
  (∀ (ty sub : Nat) (a b c : Word),
    elemOp 0x0C ty sub a b c = (a &&& b) ∧ elemOp 0x0D ty sub a b c = (a ||| b) ∧ elemOp 0x0E ty sub a b c = a ^^^ b ∧
    elemOp 0x0B ty sub a b c = (if c = 0 then b else a) ∧
    elemOp 0x02 tyI32 sub a b c = BitVec.ofNat 32 (a.toNat + b.toNat) ∧
    elemOp 0x03 tyI32 sub a b c = BitVec.ofInt 32 ((a.toNat : Int) - b.toNat) ∧
    elemOp 0x04 tyI32 sub a b c = BitVec.ofNat 32 (a.toNat * b.toNat) ∧
    elemOp 0x05 tyI32 sub a b c = BitVec.ofNat 32 (a.toNat * b.toNat + c.toNat) ∧
    (elemOp 0x06 tyI32 sub a b c).toInt = min a.toInt b.toInt ∧ (elemOp 0x07 tyI32 sub a b c).toInt = max a.toInt b.toInt ∧
    elemOp 0x08 tyI32 sub a b c = BitVec.ofNat 32 a.toInt.natAbs ∧ elemOp 0x09 tyI32 sub a b c = BitVec.ofInt 32 (-a.toInt) ∧
    (ty ≠ tyI32 → (fpIsNan a = true ∨ fpIsNan b = true) →
      elemOp 0x06 ty sub a b c = 0x7FC00000 ∧ elemOp 0x07 ty sub a b c = 0x7FC00000) ∧
    (ty ≠ tyI32 → elemOp 0x06 ty sub 0x80000000 0 c = 0x80000000 ∧ elemOp 0x06 ty sub 0 0x80000000 c = 0x80000000 ∧
      elemOp 0x07 ty sub 0x80000000 0 c = 0 ∧ elemOp 0x07 ty sub 0 0x80000000 c = 0) ∧
    (ty ≠ tyI32 → fpIsNan a = true → elemOp 0x08 ty sub a b c = 0x7FC00000 ∧ elemOp 0x09 ty sub a b c = 0x7FC00000) ∧
    (ty ≠ tyI32 → (fpIsNan a = true ∨ fpIsNan b = true) → ∀ k, k ≤ 6 →
      elemOp 0x0A ty k a b c = (if k = 1 ∨ k = 6 then 1 else 0)) ∧
    elemOp 0x0F ty 0 a b c = a <<< (b.toNat % 32) ∧ elemOp 0x0F ty 1 a b c = a >>> (b.toNat % 32) ∧
    elemOp 0x0F ty 2 a b c = a.sshiftRight (b.toNat % 32) ∧
    (ty ≠ tyBf → elemOp 0x01 ty sub a b c = a) ∧
    (fpIsNan a = true → elemOp 0x10 tyI32 sub a b c = 0)) ∧
  (∀ (s : State) (w : SeatIx) (j : Job) (cmd : Instr × Nat),
    cmd ∈ [(.mov w, 0x01), (.vadd w, 0x02), (.vsub w, 0x03), (.vmul w, 0x04), (.fma w, 0x05), (.vmin w, 0x06), (.vmax w, 0x07),
      (.vabs w, 0x08), (.vneg w, 0x09), (.cmp w, 0x0A), (.sel w, 0x0B), (.vand w, 0x0C), (.vor w, 0x0D), (.vxor w, 0x0E),
      (.shift w, 0x0F), (.cvt w, 0x10)] →
    let x := seatOf s w.val
    let d := j.raw.toNat
    let dst := (vEntry d j.c 3 (vD d)).toNat
    let s1 := (vEntry d j.c 2 (vS1 d)).toNat
    let s2 := (vEntry d j.c 1 (vS2 d)).toNat
    let s3 := (vEntry d j.c 0 (vS3 d)).toNat
    VeRuns s w.val j cmd.2 → (∀ i, i < vN d → ∀ e ∈ elemReads d j.c i, ReadsFirst x j 0 dst i e) →
    ∃ t, exec cmd.1 s = .next t ∧ t.flt = s.flt ∧
      VeWrites x (seatOf t w.val) j (veAt x j (vN d + 4)) dst (vN d) fun i l =>
        if ActiveLane x j i l then
          let b := if vIsel d = 1 then vImm d else laneOf x.vec (s2 + stripOff (vP2 d) i) l
          let c := if vIsel d = 2 then vImm d else laneOf x.vec (s3 + stripOff (vP3 d) i) l
          some (elemOp cmd.2 (vType d) (vSub d) (laneOf x.vec (s1 + i) l) b c)
        else if vMz d then some 0 else none)

/-- 04 R124, R144: an idle vector engine starts the first descriptor of its queue at the first vector cycle allowed; a CURVE whose slot is empty is
VE_CURVE_EMPTY at its start. 04 R113, 06 R206: an element-wise operation that reads an entry not written in the heat is UMP_UNWRITTEN_READ in the
vector cycle of that read, and it does not complete. Here the entry is the first it reads. -/
def Obligations.VectorStart : Prop :=
  (∀ (s : State) (w : SeatIx) (j : Job) (q : List Job),
    let x := seatOf s w.val
    let d := j.raw.toNat
    let v := veStartAt x j
    x.vec.queue = j :: q → x.vec.cur = none → OnTime s w.val (2 * v) →
    ((dOp d = 0x18 → (tfind x.vec.curves (vCslot d)).isSome = true) →
      ∃ t, exec (.veStart w) s = .next t ∧ (seatOf t w.val).vec.cur = some { j with start := v } ∧ (seatOf t w.val).vec.queue = q ∧
        (j.issued + 1) / 2 ≤ v ∧ x.vec.readEnd ≤ v ∧ x.vec.startFrom ≤ v ∧ (seatOf t w.val).vec.reads = satAdd x.vec.reads (veReadLen d) ∧
        (seatOf t w.val).vec.opc = x.vec.opc ∧ t.flt = s.flt) ∧
    (dOp d = 0x18 → tfind x.vec.curves (vCslot d) = none →
      ∃ u, exec (.veStart w) s = .next (jobFault u w.val { j with start := v } 0x0031 6 (2 * v) 0 0xFFFFFFFF 0) ∧
        (seatOf u w.val).vec.cur = none)) ∧
  (∀ (s : State) (w : SeatIx) (j : Job),
    let x := seatOf s w.val
    let d := j.raw.toNat
    let e := (vEntry d j.c 2 (vS1 d)).toNat
    x.vec.cur = some j → dOp d = 0x02 → 0 < vN d → OnTime s w.val (2 * j.start) → stillBefore x (veOver x j) = true →
    tfind x.vec.written e = none →
    ∃ v, exec (.vadd w) s = .next (jobFault v w.val j 0x0012 1 (2 * j.start) 0 e 0) ∧ (seatOf v w.val).cox = x.cox ∧
      (seatOf v w.val).vec.opc = (opcSettle x.vec j.start).opc)

/-- 04 R130, R133-R137, R143: the operations that move, select or make words. EXPAND gives active element i the dense element whose index is the
number of active elements before it; GATHER gives it the window element its index names, +0 where that lies outside; COMPRESS packs the active
elements from element 0 and fills with +0, and its count goes to the destination counter; CURVE gives the value of the slot's curve; RAND the
generator's value; TOPK each pair of entries' highest values and their indices; REDUCE along entries each group's result. -/
def Obligations.VectorRearranging : Prop :=
  ∀ (s : State) (w : SeatIx) (j : Job),
    let x := seatOf s w.val
    let d := j.raw.toNat
    let n := vN d
    let dst := (vEntry d j.c 3 (vD d)).toNat
    let s1 := (vEntry d j.c 2 (vS1 d)).toNat
    let s2 := (vEntry d j.c 1 (vS2 d)).toNat
    let idle : Option Word := if vMz d then some 0 else none
    (VeRuns s w.val j 0x29 → (∀ i, i < n → ∀ e ∈ (s1 + i) :: maskReads d i, ReadsFirst x j 0 dst i e) →
      ∃ t, exec (.expand w) s = .next t ∧ VeWrites x (seatOf t w.val) j (veAt x j (n + 4)) dst n fun i l =>
        if ActiveLane x j i l then
          let k := ((List.range (32 * i + l)).filter fun m => decide (ActiveLane x j (m / 32) (m % 32))).length
          some (laneOf x.vec (s1 + k / 32) (k % 32))
        else idle) ∧
    (VeRuns s w.val j 0x2A → (∀ i, i < vSlen d → readable x.vec (s1 + i) (veAt x j i) = true) →
      (∀ i, i < n → ∀ e ∈ (s2 + i) :: maskReads d i, ReadsFirst x j (vSlen d) dst i e) →
      ∃ t, exec (.gather w) s = .next t ∧ VeWrites x (seatOf t w.val) j (veAt x j (vSlen d + n + 3)) dst n fun i l =>
        if ActiveLane x j i l then
          let k := (laneOf x.vec (s2 + i) l).toInt
          some (if 0 ≤ k ∧ k < 32 * vSlen d then laneOf x.vec (s1 + k.toNat / 32) (k.toNat % 32) else 0)
        else idle) ∧
    (VeRuns s w.val j 0x28 → (∀ i, i < n → ∀ e ∈ (s1 + i) :: maskReads d i, readable x.vec e (veAt x j i) = true) →
      let act := (List.range (32 * n)).filter fun m => decide (ActiveLane x j (m / 32) (m % 32))
      ∃ t, exec (.compress w) s = .next t ∧
        VeWrites x (seatOf t w.val) j (veAt x j (2 * n + 4)) dst n (fun i l =>
          some (match act[32 * i + l]? with
            | some m => if vIdx d then BitVec.ofNat 32 m else laneOf x.vec (s1 + m / 32) (m % 32)
            | none => 0)) ∧
        (seatOf t w.val).vec.lastCount = BitVec.ofNat 32 act.length ∧
        (seatOf t w.val).cox.due = x.cox.due ++ [(2 * veAt x j (n + 3) + 1, vCdst d, BitVec.ofNat 32 act.length)]) ∧
    (VeRuns s w.val j 0x18 → (∀ i, i < n → ∀ e ∈ (s1 + i) :: maskReads d i, ReadsFirst x j 0 dst i e) →
      ∃ t, exec (.curve w) s = .next t ∧ VeWrites x (seatOf t w.val) j (veAt x j (n + 6)) dst n fun i l =>
        if ActiveLane x j i l then
          let y := (curveEval (tget [] x.vec.curves (vCslot d)) (laneOf x.vec (s1 + i) l)).1
          some (if vType d = tyBf then fpConv pBf y else y)
        else idle) ∧
    (VeRuns s w.val j 0x2C → (∀ i, i < n → ∀ e ∈ maskReads d i, ReadsFirst x j 0 dst i e) →
      ∃ t, exec (.rand w) s = .next t ∧ VeWrites x (seatOf t w.val) j (veAt x j (n + 5)) dst n fun i l =>
        if ActiveLane x j i l then
          let r := rnd24 x.cox.seed (tileIdx (vRtidx d) j.c (vRtstep d)) ((vEbase d + 32 * i + l) % 4096)
          some (if vType d = tyI32 then BitVec.ofNat 32 r else roundFp 24 false r (-24))
        else idle) ∧
    (VeRuns s w.val j 0x21 → n % 2 = 0 → vK d ≤ 32 →
      (∀ i, i < n → ∀ e ∈ (s1 + i) :: maskReads d i, readable x.vec e (veAt x j i) = true ∧ (e < dst ∨ dst + n ≤ e)) →
      ∃ t, exec (.topk w) s = .next t ∧ VeWrites x (seatOf t w.val) j (veAt x j (n + 13)) dst n fun i l =>
        let xs := ((List.range 64).filter fun m => decide (ActiveLane x j (i / 2 * 2 + m / 32) (m % 32))).map fun m =>
          (laneOf x.vec (s1 + i / 2 * 2 + m / 32) (m % 32), m)
        let r := (topk (vType d == tyI32) (vK d) xs)[l]?
        r.map fun e => if i % 2 = 0 then e.1 else e.2) ∧
    (VeRuns s w.val j 0x20 → vAxis d = true → 0 < vG d → n % vG d = 0 →
      (∀ i, i < n → ∀ e ∈ (s1 + i) :: maskReads d i, readable x.vec e (veAt x j i) = true ∧ (e < dst ∨ dst + n ≤ e)) →
      ∃ t, exec (.reduce w) s = .next t ∧ VeWrites x (seatOf t w.val) j (veAt x j (n + 4)) dst (n / vG d) fun i l =>
        let f := ropApply (vRop d) (vType d == tyI32)
        let row (k : Nat) : List Word := (List.range 32).map fun l =>
          if ActiveLane x j k l then ropTake (vRop d) (vType d == tyI32) (laneOf x.vec (s1 + k) l) else ropIdent (vRop d) (vType d == tyI32)
        (reduceEntries f ((List.range (vG d)).map fun k => row (i * vG d + k)))[l]?)

/-- 04 R128, R138-R142, 05 R158-R166, 15 R460: the tile operations. CTLOAD fills its slot with an image whose CRC and header check out, and on a wrong
CRC empties it and faults. VLOAD copies the words of a full tile with the expected tag and CRC, DEQUANTIZE the values of a narrow one. QUANTIZE
and VSTORE write a tile with the tag and a CRC that holds and touch no byte of core memory outside it. -/
def Obligations.VectorTiles : Prop :=
  ∀ (s : State) (w : SeatIx) (j : Job),
    let x := seatOf s w.val
    let d := j.raw.toNat
    let g := (vCore d j.c).toNat
    let dst := (vEntry d j.c 3 (vD d)).toNat
    let a := (vEntry d j.c 2 (vS1 d)).toNat
    let b := (vEntry d j.c 1 (vS2 d)).toNat
    let ti := tileIdx (vTidx d) j.c (vTstep d)
    (VeRuns s w.val j 0x19 → bankEvents x j = [] →
      let img := mslice x.core (64 * g) 1088
      (mrd img 0x3C 4 = (curveCrc img).toNat → curveBad img = false →
        ∃ t, exec (.ctload w) s = .next t ∧ tfind (seatOf t w.val).vec.curves (vCslot d) = some img ∧
          (∀ k, k ≠ vCslot d → tfind (seatOf t w.val).vec.curves k = tfind x.vec.curves k) ∧ (seatOf t w.val).core = x.core) ∧
      (mrd img 0x3C 4 ≠ (curveCrc img).toNat → j.torn = false →
        ∃ v, exec (.ctload w) s = .next (jobFault v w.val j 0x0051 6 (veCoreAt x j 10) 0 g
            (pack [(0, 32, mrd img 0x3C 4), (32, 32, (curveCrc img).toNat)])) ∧
          tfind (seatOf v w.val).vec.curves (vCslot d) = none)) ∧
    (VeRuns s w.val j 0x32 → bankEvents x j = [] → vRows d ≤ 64 → (vRows d ≤ 32 ∨ dst + 64 ≤ vDb d ∨ vDb d + 64 ≤ dst) →
      let m := coreTile x g 3
      tileTag m 3 = mkTag x.cox.ctx 0 3 (if vType d = tyI32 then fmtI32 else fmtFp32) ti → tileStored m 3 = (tileCrc m 3).toNat →
      ∃ t, exec (.vload w) s = .next t ∧ (seatOf t w.val).core = x.core ∧
        ∀ v k l, veAt x j (66 + 2 * vRows d) ≤ v → k < 2 * vRows d → l < 32 →
          laneOf (opcSettle (seatOf t w.val).vec v) (tileEntry dst (vDb d) k) l = BitVec.ofNat 32 (mrd x.core (64 * g + 128 * k + 4 * l) 4)) ∧
    (VeRuns s w.val j 0x31 → bankEvents x j = [] → vQfmt d ≠ 2 → vRows d ≤ 64 → (vRows d ≤ 32 ∨ dst + 64 ≤ vDb d ∨ vDb d + 64 ≤ dst) →
      let m := coreTile x g 2
      tileTag m 2 = mkTag x.cox.ctx 0 2 (vQfmt d) ti → tileStored m 2 = (tileCrc m 2).toNat →
      ∃ t, exec (.dequantize w) s = .next t ∧ (seatOf t w.val).core = x.core ∧
        ∀ v k l, veAt x j (10 + 2 * vRows d) ≤ v → k < 2 * vRows d → l < 32 →
          laneOf (opcSettle (seatOf t w.val).vec v) (tileEntry dst (vDb d) k) l =
            elemValue (tyBits (vType d)) (nibView (vQfmt d) true (nibAt (asTile m) (k / 2) (32 * (k % 2) + l))) (fmtOff (vQfmt d))
              (mread (asTile m).scales k).toNat) ∧
    (VeRuns s w.val j 0x33 → bankEvents x j = [] → (∀ k, k < 128 → readable x.vec (tileEntry a b k) (veAt x j k) = true) →
      ∃ t, exec (.vstore w) s = .next t ∧
        (∀ k l, k < 128 → l < 32 → mrd (seatOf t w.val).core (64 * g + 128 * k + 4 * l) 4 = (laneOf x.vec (tileEntry a b k) l).toNat) ∧
        tileTag (coreTile (seatOf t w.val) g 3) 3 = mkTag x.cox.ctx 0 3 (if vType d = tyI32 then fmtI32 else fmtFp32) ti ∧
        tileStored (coreTile (seatOf t w.val) g 3) 3 = (tileCrc (coreTile (seatOf t w.val) g 3) 3).toNat ∧
        (∀ c, c < 64 * g ∨ 64 * g + 16416 ≤ c → mread (seatOf t w.val).core c = mread x.core c)) ∧
    (VeRuns s w.val j 0x30 → bankEvents x j = [] → vQfmt d ≠ 2 → vRows d ≤ 64 →
      (∀ k, k < 2 * vRows d → readable x.vec (tileEntry a b k) (veAt x j k) = true) →
      ∃ t, exec (.quantize w) s = .next t ∧
        (∀ k l, k < 2 * vRows d → l < 32 →
          let q := quantBlock (vQfmt d) (vStoch d) (fun i => rnd24 x.cox.seed ti (32 * k + i)) (entryOf x.vec (tileEntry a b k))
          (mread (seatOf t w.val).core (64 * g + 0x800 + k)).toNat = q.1 % 256 ∧
          fld (mread (seatOf t w.val).core (64 * g + 16 * k + l / 2)).toNat (4 * (l % 2)) 4 = q.2.1.getD l 0 % 16) ∧
        tileTag (coreTile (seatOf t w.val) g 2) 2 = mkTag x.cox.ctx 0 2 (vQfmt d) ti ∧
        tileStored (coreTile (seatOf t w.val) g 2) 2 = (tileCrc (coreTile (seatOf t w.val) g 2) 2).toNat ∧
        (∀ c, c < 64 * g ∨ 64 * g + 2208 ≤ c → mread (seatOf t w.val).core c = mread x.core c))

/-! ## The DMA and send engines (09), RELEASE (07) -/

/-- 09 R274, R288-R290, R292, R293: what the engines send. A SEND of L granules goes out as WRITE packets of 16 granules, the last of the rest, each
with the data that core memory holds and the address of its first granule, once its granules have been read, one in two core cycles at most; a GET
as READ packets with their counts; a WORD and a FINISH as one packet. Each packet waits for its room in the outbound buffer of 64 granules and 16
headers, and the last one ends the local phase. A halted seat's engine stops. Core memory and all other state of the seat stay. A command that
finds its condition unmet changes nothing: the model's choice (log entry 8). -/
def Obligations.EngineTransfers : Prop :=
  ∀ (s : State) (w : SeatIx) (e : EngIx) (j : Job),
    let x := seatOf s w.val
    let g := x.eng e
    let d := j.raw.toNat
    let k := g.sent
    let n := (sLen d + 15) / 16
    let len := min 16 (sLen d - 16 * k)
    let dst (off : Nat) := fabricAddr (eNode d) (eHalf d) (eCrew d) (eSeat d) (eSpace d) off
    let window := if eSpace d = 8 then 0x50000000 else 0
    let read := readsEnd x j len (16 * k) (packetFrom s g j) - 1
    let head := headerAt s x g j
    (EngRuns s w.val e opSend j → 16 * k < sLen d → j.start ≤ read ∧ (x.cox.gaps = [] → j.start + 2 * (16 * k + len - 1) ≤ read) ∧
      (OnTime s w.val read → outboxRoom g len = true → EngineSends s w.val e j n read (fun q =>
        let h := q.hdr.toNat
        pType h = 1 ∧ pDest h = dst (64 * ((sRemote d j.c + 16 * k) % 2 ^ 26)) ∧ pMcast h = sMcast d ∧ pLcen h = sLcen d ∧
        (sLcen d = true → pLctr h = sLctr d) ∧ pLen h = len ∧
        q.data = (List.range len).map fun i => mgran x.core ((sLocal d j.c).toNat + 16 * k + i)) (exec (.send w e) s))) ∧
    (EngRuns s w.val e opGet j → 16 * k < sLen d → OnTime s w.val head → outboxRoom g 0 = true → EngineSends s w.val e j n head (fun q =>
        let h := q.hdr.toNat
        pType h = 4 ∧ pDest h = dst (64 * ((sRemote d j.c + 16 * k) % 2 ^ 26)) ∧ pCount h = len ∧ pLcen h = sLcen d ∧
        (sLcen d = true → pLctr h = sLctr d) ∧ pWord h = ((sLocal d j.c).toNat + 16 * k) % 2 ^ 32 ∧ q.data = []) (exec (.get w e) s)) ∧
    (EngRuns s w.val e opWord j → OnTime s w.val head → outboxRoom g 0 = true → EngineSends s w.val e j 1 head (fun q =>
        let h := q.hdr.toNat
        pType h = 2 ∧ pDest h = dst (window + 4 * wIndex d j.c) ∧ pWord h = wValue d ∧ pMcast h = 0 ∧ q.data = []) (exec (.word w e) s)) ∧
    (EngRuns s w.val e opFinish j → OnTime s w.val head → outboxRoom g 0 = true → EngineSends s w.val e j 1 head (fun q =>
        let h := q.hdr.toNat
        pType h = 3 ∧ pDest h = dst (window + 8 * fCtrn d) ∧ pWord h = fValue d ∧ pExpect h = fCount d j.c ∧ pSlack h = fSlack d ∧
        pMcast h = 0 ∧ q.data = []) (exec (.finish w e) s)) ∧
    (EngRuns s w.val e opWord j → runsAt x head = true → outboxRoom g 0 = false → exec (.word w e) s = .next s) ∧
    (EngRuns s w.val e opWord j → runsAt x head = false → exec (.word w e) s = .next (putSeat s w.val (x.putEng e { g with cur := none })))

/-- 09 R287, R292, 06 R192: an engine that is idle, with no RELEASE outstanding, starts the first descriptor of its queue at its issue or when its
last local phase is over; RSET loads its register in the start cycle and completes. No packet is sent. 07 R246: a RELEASE holds its engine until
every earlier write of the engine to a destination inside its SCOPE has been acknowledged, and then completes, in a core cycle that the network
sets; while one is outstanding nothing happens. A command that finds its condition unmet changes nothing: the model's choice (log entry 8). -/
def Obligations.EngineStartAndRelease : Prop :=
  (∀ (s : State) (w : SeatIx) (e : EngIx),
    let x := seatOf s w.val
    let g := x.eng e
    let qn : Fin 4 := if e = 0 then 2 else 3
    (∀ j q, g.queue = j :: q → OnTime s w.val (max j.issued g.freeAt) → g.cur = none → g.releasing = none →
      let y := x.putEng e { g with queue := q, cur := some { j with start := max j.issued g.freeAt }, sent := 0, lastAt := 0 }
      (x.cox.hold ≠ .queue qn → exec (.engineStart w e) s = .next (putSeat s w.val y)) ∧
      (x.cox.hold = .queue qn →
        exec (.engineStart w e) s = .next (putSeat s w.val { y with cox := { x.cox with roomAt := roomFrom y qn x.cox.cycle } }))) ∧
    (∀ j, EngRuns s w.val e opRset j → runsAt x j.start = true → stillBefore x j.start = true →
      let d := j.raw.toNat
      ∃ t, exec (.rset w e) s = .next t ∧ t = putSeat s w.val (seatOf t w.val) ∧
        tget {} ((seatOf t w.val).eng e).routes (rReg d) = Route.mk (rWpn d) (BitVec.ofNat 96 (rWps d)) (BitVec.ofNat 48 (rMask d)) ∧
        (∀ k, k ≠ rReg d → tget {} ((seatOf t w.val).eng e).routes k = tget {} g.routes k) ∧
        seatOf t w.val =
          { x.putEng e { g with routes := ((seatOf t w.val).eng e).routes, cur := none, freeAt := j.start + 1 } with
            cox := { x.cox with fin := x.cox.fin ++ [{ j with doneAt := j.start }] } })) ∧
  (∀ (s : State) (w : SeatIx) (e : EngIx) (j : Job),
    let x := seatOf s w.val
    let g := x.eng e
    (g.cur = some j → runsAt x j.start = true → clocked s w.val = true → dClass j.raw.toNat = 5 → dOp j.raw.toNat = 3 →
      exec (.release w e) s = .next (putSeat s w.val (x.putEng e { g with cur := none, releasing := some j }))) ∧
    (g.releasing = some j → (∃ o ∈ g.out, o.isWrite = true ∧ o.scope ≤ yScope j.raw.toNat) → exec (.releaseComplete w e) s = .next s) ∧
    (g.releasing = some j → (∀ o ∈ g.out, o.isWrite = true → yScope j.raw.toNat < o.scope) →
      ∃ c, j.start ≤ c ∧ (OnTime s w.val c →
        ∃ t, exec (.releaseComplete w e) s = .next t ∧ t.noc = s.noc ∧ OtherSeats s t w.val ∧
          seatOf t w.val = { x.putEng e { g with releasing := none, cur := none, freeAt := c + 1 } with
            cox := { x.cox with fin := x.cox.fin ++ [{ j with doneAt := c }] } })) ∧
    (∀ j', g.cur = none → g.releasing = some j' → exec (.engineStart w e) s = .next s))

/-! ## Packets on the die (09 R273-R285, R294, R295, 07 R234, R238, R242-R244) -/

/-- 09 R274, R276, R279, R285, R295: what a destination's answer is. A packet of no multicast is answered at once by one packet to its sender, with
its tag, epoch and engine and the destination as its source: ACK DONE, ACK STALE, or a NACK with the code, which is counted. A member of a
multicast answers into the gathering, and with the last member one answer goes out from its router of replication: NACK with the first refusal's
code and unit and the number of refusals, else ACK STALE with the number of stale members, else ACK DONE. 09 R282, R284, R285, R278: multicast. At
its entry the members whose logical numbers the crew does not have are refused at once, and the rest are awaited; at the router of replication its
copies go along the row, and along the column from each router of it, every router of the crew or half meeting the packet; a router whose seat is
no member gives it no copy. 09 R285, R299, R300, R302, R494: what a header meets where its way ends. A fenced seat's router refuses a request in
its place and skips it in a multicast; a crew in Paddle holds the packet, counts it and wakes; toward a half in Boated a row switch refuses a
request, and toward one in Easy it holds it, counts it and wakes the half. A command that finds its condition unmet changes nothing: the model's
choice (log entry 8). -/
def Obligations.AnswersAndMulticast : Prop :=
  (∀ (s : State) (d : Deliv) (a : Reply),
    let h := d.pkt.hdr.toNat
    let src := targetUnit s d.target
    let back (s1 : State) (ty st : Nat) : Prop := ∃ q : Pkt, AnswerOut s1 (answerPkt s d a) d q ∧ q.data = [] ∧ AnswerTo q h ty st src ∧
      pWord q.hdr.toNat = 0 ∧ pDest q.hdr.toNat = requesterAddr h false
    (d.group = none →
      (a = .done → back s 6 0) ∧ (a = .stale → back s 6 1) ∧
      (∀ c, a = .refuse c → 1 ≤ c → c ≤ 7 → back { s with noc := { s.noc with nacks := tmod 0 s.noc.nacks c satInc } } 7 c)) ∧
    (∀ (n : Nat) (g : Machine.Group), d.group = some n → tfind s.noc.groups n = some g →
      let refused := g.refused + (match a with | .refuse _ => 1 | .done | .stale => 0)
      let stale := g.stale + (if a = .stale then 1 else 0)
      let first : Nat × Word := match a with
        | .refuse c => if g.refused = 0 then (c, src) else (g.code, g.unit)
        | .done | .stale => (g.code, g.unit)
      let g1 : Machine.Group := { g with left := g.left - 1, refused := refused, stale := stale, code := first.1, unit := first.2 }
      (1 < g.left → answerPkt s d a = { s with noc := { s.noc with groups := tput s.noc.groups n g1 } }) ∧
      (g.left = 1 → let t := answerPkt s d a
        t = { s with noc := t.noc } ∧ tfind t.noc.groups n = none ∧ (∀ k, k ≠ n → tfind t.noc.groups k = tfind s.noc.groups k) ∧
        ∃ q : Pkt, t.noc.buf = (push s g.root portAnswers vcRsp (flitsOf { goal := .seat g.sender } q)).noc.buf ∧ q.data = [] ∧
          (0 < refused → first.1 < 16 → AnswerTo q g.hdr.toNat 7 first.1 first.2 ∧ pWord q.hdr.toNat = refused % 2 ^ 32) ∧
          (refused = 0 → 0 < stale → AnswerTo q g.hdr.toNat 6 1 (targetUnit s (.seat g.root)) ∧ pWord q.hdr.toNat = stale % 2 ^ 32) ∧
          (refused = 0 → stale = 0 → AnswerTo q g.hdr.toNat 6 0 (targetUnit s (.seat g.root)))))) ∧
  (∀ (s : State) (n : NodeIx) (p o : NodePort) (ecc : Nat) (f : Flit) (t : Trip),
    let h := f.data.toNat
    let a := pDest h
    let b := source s n.val p.val 1
    let run := exec (.routerForward n p 1 o ecc) s
    let ms := members s n.val h
    let bad := ms.filter fun m => (physAt s n.val m.1 m.2).isNone
    n.val < 2304 → AtFront s n.val p.val 1 f t →
    ((p.val = 9 ∨ p.val = 10) → t.entered = false → outboxOpen s n.val p.val = true → fld a 62 2 < 2 → fld a 50 12 = s.chain.node →
      fld a 34 4 ≠ 8 → pMcast h ≠ 0 → bad.length < ms.length →
      ∃ u g, run = .next u ∧ tfind u.noc.groups s.noc.nextGroup = some g ∧ u.noc.nextGroup = s.noc.nextGroup + 1 ∧
        g.left = ms.length - bad.length ∧ g.refused = bad.length ∧ g.code = (if bad = [] then 0 else 1) ∧ g.hdr = f.data ∧ g.sender = n.val ∧
        g.root = replicator n.val h ∧ u.noc.arrive = s.noc.arrive ∧
        (source u n.val p.val 1).flits.head? = some { f with head := some (Trip.mk (waypoints h)
          (if pMcast h = 1 then .crew (fld a 49 1 * 48 + fld a 43 6) else .half (fld a 49 1)) true false (some n.val) n.val
          (some s.noc.nextGroup)) }) ∧
    (t.entered = true → p.val < 5 → o.val = 0 → o.val ∈ dueOuts n.val p.val b → t.group ≠ none → isMember s n.val h = false →
      run = .next (dropLocal s n.val p.val 1 t f)) ∧
    (p.val < 5 → t.ahead (coordOf n.val) = [] → (t.goal = .crew (crewOf n.val) ∨ t.goal = .half (halfOf n.val)) →
      let e := treeEdges t.goal
      let c := coordOf n.val
      let came (k : Nat) : Prop := t.spread = true ∧ p.val = k
      e.1 ≤ c.1 ∧ c.1 ≤ e.2.1 ∧ e.2.2.1 ≤ c.2 ∧ c.2 ≤ e.2.2.2 ∧
      ∀ k, k ∈ routerOuts n.val p.val t ↔ k = 0 ∨ (k = 1 ∧ e.2.2.1 < c.2 ∧ ¬ came 0 ∧ ¬ came 1) ∨
        (k = 2 ∧ c.2 < e.2.2.2 ∧ ¬ came 0 ∧ ¬ came 2) ∨ (k = 3 ∧ e.1 < c.1 ∧ (t.spread = false ∨ p.val = 4)) ∨
        (k = 4 ∧ c.1 < e.2.1 ∧ (t.spread = false ∨ p.val = 3)))) ∧
  (∀ (s : State) (n : NodeIx) (p o : NodePort) (v : VcIx) (ecc : Nat) (f : Flit) (t : Trip),
    let b := source s n.val p.val v.val
    let gone := putSource s n.val p.val v.val b.discard
    let run := exec (.routerForward n p v o ecc) s
    AtFront s n.val p.val v.val f t → t.entered = true → o.val ∈ dueOuts n.val p.val b →
    (n.val < 2304 → p.val < 5 → o.val = 0 →
      (t.group = none → seatFenced s n.val = true → v.val = 1 →
        run = .next (answerFrom gone n.val 11 (targetUnit s (.seat n.val)) f.data t (.refuse 2))) ∧
      (∀ g, t.group = some g → isMember s n.val f.data.toNat = true → seatFenced s n.val = true →
        run = .next (skipMember (dropLocal s n.val p.val v.val t f) t (targetUnit s (.seat n.val)))) ∧
      (t.group = none → (seatFenced s n.val = false ∨ v.val ≠ 1) → (domOf s (crewOf n.val)).paddle = true →
        (b.noted = true → run = .next s) ∧
        (b.noted = false → ∃ u, run = .next u ∧ u.noc.seamHeld = satInc s.noc.seamHeld ∧ (domOf u (crewOf n.val)).waking = true ∧
          u.noc.wakes = (if (domOf s (crewOf n.val)).waking then s.noc.wakes else satInc s.noc.wakes) ∧ u.noc.arrive = s.noc.arrive ∧
          (source u n.val p.val v.val).flits = b.flits))) ∧
    (2304 ≤ n.val → n.val < 2328 → o.val < 8 →
      let k := o.val % 2
      (halfBoated s k = true → halfEasy s k = false → v.val = 1 → t.group = none → (∀ w, t.goal = .seat w → seatFenced s w = false) →
        run = .next (answerFrom gone n.val (4 + (t.sender.map halfOf).getD 0) (targetUnit s (.pool k)) f.data t (.refuse 3))) ∧
      (halfBoated s k = true → halfEasy s k = false → v.val ≠ 1 → run = .next gone) ∧
      (halfEasy s k = true → b.noted = false → (∀ w, t.goal = .seat w → seatFenced s w = false) →
        ∃ u, run = .next u ∧ u.noc.seamHeld = satInc s.noc.seamHeld ∧ tget false u.pwr.waking k = true ∧ u.noc.arrive = s.noc.arrive ∧
          (source u n.val p.val v.val).flits = b.flits)))

/-- 05 R147, R148, R155, 07 R234, R238, R276, 06 R210, 09 R294: a WRITE at a seat, granule by granule. While its epoch is live each granule is stored
at its place in core or descriptor memory and nowhere else, and counts one landing where LCEN is set; with the last one the packet is answered.
From the granule at which the epoch is live no more the rest is dropped as stale; a packet out of range, or to a page in use, is refused whole. A
write to core memory waits for a fill. 05 R147, R179, R181, 07 R234, R238: a WRITE at a pool stores its granules below the counter window, where
their segments serve, and counts them, each as long as its epoch is live; a segment that does not serve refuses it with SEGMENT_ASLEEP. 05 R157,
R179, 07 R238, 09 R289: a WORD sets one 32-bit word of a seat's core or descriptor memory, or the one counter or flag word that its offset names
in space 4 or in a pool's counter window, and nothing else there. A command that finds its condition unmet changes nothing: the model's choice
(log entry 8). -/
def Obligations.WritesLand : Prop :=
  (∀ (s : State) (i g w : Nat) (d : Deliv),
    let h := d.pkt.hdr.toNat
    let x := seatOf s w
    let n := pLen h
    let lands := InSeat (pSpace h) (pOff h) (64 * n) 64 ∧ n ≠ 0 ∧ (pLcen h = true → pLctr h ≤ 63)
    let live := liveAt s w (pEpoch h)
    Arrives s i tyWrite (.seat w) d →
    (∀ a, d.verdict = some a → exec (.writePkt i g) s = .next (if d.full then answered s i d a else s)) ∧
    (d.verdict = none → pSpace h = 1 → x.cox.filling = true → exec (.writePkt i g) s = .next s) ∧
    (d.verdict = none → (pSpace h = 1 → x.cox.filling = false) →
      (∀ y, live = true → lands → (d.wrote = [] → pSpace h = 2 → pageBusy x (pOff h) (64 * n) = false) → g < n → g ∉ d.wrote →
        d.pkt.data[g]? = some y →
        ∃ u, exec (.writePkt i g) s = .next (writing u i g d) ∧ u.noc = s.noc ∧ u.flt = s.flt ∧ OtherSeats s u w ∧
          (pSpace h = 1 → StoresAt x.core (seatOf u w).core (pOff h + 64 * g) (bytesOf y.toNat 64) ∧ (seatOf u w).desc = x.desc) ∧
          (pSpace h = 2 → StoresAt x.desc (seatOf u w).desc (pOff h + 64 * g) (bytesOf y.toNat 64) ∧ (seatOf u w).core = x.core) ∧
          (pLcen h = true → Counted x.lnd (seatOf u w).lnd (pLctr h) 1) ∧ (pLcen h = false → (seatOf u w).lnd = x.lnd) ∧
          seatOf u w = { x with core := (seatOf u w).core, desc := (seatOf u w).desc, lnd := (seatOf u w).lnd,
                                mxa := { x.mxa with cur := (seatOf u w).mxa.cur }, vec := { x.vec with cur := (seatOf u w).vec.cur } }) ∧
      (live = false → exec (.writePkt i g) s =
        .next (dropping (putSeat s w { x with lnd := { x.lnd with stale := satInc x.lnd.stale } }) i d .stale)) ∧
      (live = true → ¬ lands → d.wrote = [] →
        ∃ u, exec (.writePkt i g) s = .next (dropping u i d (.refuse 1)) ∧ u.noc = s.noc ∧ OtherSeats s u w ∧
          seatOf u w = { x with wst := { x.wst with refused := if pSpace h = 0 then satInc x.wst.refused else x.wst.refused } }) ∧
      (live = true → lands → d.wrote = [] → pSpace h = 2 → pageBusy x (pOff h) (64 * n) = true →
        ∃ u, exec (.writePkt i g) s = .next (dropping u i d (.refuse 5)) ∧ u.noc = s.noc ∧ OtherSeats s u w ∧
          seatOf u w = { x with cox := { x.cox with pageRefused := satInc x.cox.pageRefused } }))) ∧
  (∀ (s : State) (i g hf : Nat) (d : Deliv),
    let h := d.pkt.hdr.toNat
    let p := poolOf s hf
    let n := pLen h
    let fits := pOff h % 64 = 0 ∧ n ≠ 0 ∧ pOff h + 64 * n ≤ 0x50000000
    let live := liveAt s (poolTable hf) (pEpoch h)
    Arrives s i tyWrite (.pool hf) d → d.verdict = none →
    (∀ y, live = true → fits → (d.wrote = [] → spanOpen p (pOff h) (64 * n) = true) → g < n → g ∉ d.wrote → d.pkt.data[g]? = some y →
      ∃ u, exec (.writePkt i g) s = .next (writing u i g d) ∧ u.noc = s.noc ∧ u.flt = s.flt ∧ OtherPools s u hf ∧ u.seats = s.seats ∧
        StoresAt p.mem (poolOf u hf).mem (pOff h + 64 * g) (bytesOf y.toNat 64) ∧
        (pLcen h = true → Counted p.lnd (poolOf u hf).lnd (pLctr h) 1) ∧ (pLcen h = false → (poolOf u hf).lnd = p.lnd) ∧
        poolOf u hf = { p with mem := (poolOf u hf).mem, lnd := (poolOf u hf).lnd }) ∧
    (live = true → fits → d.wrote = [] → spanOpen p (pOff h) (64 * n) = false →
      exec (.writePkt i g) s = .next (dropping (modPool s hf fun p => { p with asleep := satInc p.asleep }) i d (.refuse 4))) ∧
    (live = true → ¬ fits → d.wrote = [] → exec (.writePkt i g) s = .next (dropping s i d (.refuse 1))) ∧
    (live = false → exec (.writePkt i g) s =
      .next (dropping { s with str := { s.str with stale := satInc s.str.stale } } i d .stale))) ∧
  (∀ (s : State) (i : Nat) (d : Deliv),
    let h := d.pkt.hdr.toNat
    let v : Word := BitVec.ofNat 32 (pWord h)
    (∀ w, Arrives s i tyWord (.seat w) d → liveAt s w (pEpoch h) = true →
      let x := seatOf s w
      (InSeat (pSpace h) (pOff h) 4 4 → (pSpace h = 1 → x.cox.filling = false) → (pSpace h = 2 → pageBusy x (pOff h) 4 = false) →
        ∃ u, exec (.wordPkt i) s = .next (answered u i d .done) ∧ u.noc = s.noc ∧ OtherSeats s u w ∧
          (pSpace h = 1 → StoresAt x.core (seatOf u w).core (pOff h) (bytesOf v.toNat 4) ∧ (seatOf u w).desc = x.desc) ∧
          (pSpace h = 2 → StoresAt x.desc (seatOf u w).desc (pOff h) (bytesOf v.toNat 4) ∧ (seatOf u w).core = x.core) ∧
          seatOf u w = { x with core := (seatOf u w).core, desc := (seatOf u w).desc,
                                mxa := { x.mxa with cur := (seatOf u w).mxa.cur }, vec := { x.vec with cur := (seatOf u w).vec.cur } }) ∧
      (pSpace h = 4 → pOff h % 4 = 0 → pOff h < 0x200 →
        ∃ u, exec (.wordPkt i) s = .next (answered u i d .done) ∧ u.noc = s.noc ∧ OtherSeats s u w ∧
          (∀ o, o % 4 = 0 → (seatOf u w).lnd.word o = if o = pOff h then v else x.lnd.word o) ∧
          seatOf u w = { x with lnd := (seatOf u w).lnd })) ∧
    (∀ hf, Arrives s i tyWord (.pool hf) d → liveAt s (poolTable hf) (pEpoch h) = true →
      let p := poolOf s hf
      (0x50000000 ≤ pOff h → pOff h < 0x50000800 → pOff h % 4 = 0 →
        ∃ u, exec (.wordPkt i) s = .next (answered u i d .done) ∧ u.noc = s.noc ∧ OtherPools s u hf ∧ u.seats = s.seats ∧
          (∀ o, o % 4 = 0 → (poolOf u hf).lnd.word o = if o = pOff h - 0x50000000 then v else p.lnd.word o) ∧
          poolOf u hf = { p with lnd := (poolOf u hf).lnd }) ∧
      (pOff h < 0x50000000 → exec (.wordPkt i) s = .next (answered s i d (.refuse 1)))))

/-- 07 R239, R242-R244: a FINISH. One whose counter already satisfies its count writes its flag at once, one that does not is held behind the others,
eight at a seat and thirty-two at a pool, and one too many is refused FINISH_FULL and counted. A held finish whose count has been met is released
with its flag. A count beyond EXPECT by more than SLACK is OVER_LANDING. -/
def Obligations.Finishes : Prop :=
  ∀ (s : State) (i w : Nat) (d : Deliv),
    let h := d.pkt.hdr.toNat
    let l := (seatOf s w).lnd
    let n := pOff h / 8
    let f : Finish := finishOf h n
    let beyond (c : Word) : Prop := (pSlack h : Int) < (c - BitVec.ofNat 32 (pExpect h)).toInt
    (Arrives s i tyFinish (.seat w) d → liveAt s w (pEpoch h) = true → pSpace h = 4 → pOff h % 8 = 0 → pOff h < 0x200 →
      (l.held.length < 8 → satisfies (tget 0 l.ctr n) (BitVec.ofNat 32 (pExpect h)) = true →
        let u := modSeat (answered s i d .done) w fun x =>
          { x with lnd := { x.lnd with flag := tset 0 x.lnd.flag n (BitVec.ofNat 32 (pWord h)) } }
        (¬ beyond (tget 0 l.ctr n) → exec (.finishPkt i) s = .next u) ∧
        (beyond (tget 0 l.ctr n) → (seatOf s w).cox.state = .walking → ∃ t, exec (.finishPkt i) s = .next t ∧
          (seatOf t w).first.code = 0x0048 ∧ (seatOf t w).cox.state = .halted ∧ (seatOf t w).lnd = (seatOf u w).lnd)) ∧
      (l.held.length < 8 → satisfies (tget 0 l.ctr n) (BitVec.ofNat 32 (pExpect h)) = false →
        ∃ u, exec (.finishPkt i) s = .next (answered u i d .done) ∧ u.noc = s.noc ∧ OtherSeats s u w ∧ HeldBehind l (seatOf u w).lnd f) ∧
      (8 ≤ l.held.length → exec (.finishPkt i) s = .next (answered (modSeat s w fun x =>
        { x with lnd := { x.lnd with nacks := satInc x.lnd.nacks } }) i d (.refuse 6)))) ∧
    (∀ hf, Arrives s i tyFinish (.pool hf) d → liveAt s (poolTable hf) (pEpoch h) = true → 0x50000000 ≤ pOff h → pOff h < 0x50000800 →
      pOff h % 8 = 0 →
      let l := (poolOf s hf).lnd
      let n := (pOff h - 0x50000000) / 8
      (l.held.length < 32 → satisfies (tget 0 l.ctr n) (BitVec.ofNat 32 (pExpect h)) = true → ¬ beyond (tget 0 l.ctr n) →
        exec (.finishPkt i) s = .next (modPool (answered s i d .done) hf fun p =>
          { p with lnd := { p.lnd with flag := tset 0 p.lnd.flag n (BitVec.ofNat 32 (pWord h)) } })) ∧
      (l.held.length < 32 → satisfies (tget 0 l.ctr n) (BitVec.ofNat 32 (pExpect h)) = false →
        ∃ u, exec (.finishPkt i) s = .next (answered u i d .done) ∧ u.noc = s.noc ∧ OtherPools s u hf ∧
          HeldBehind l (poolOf u hf).lnd (finishOf h n)) ∧
      (32 ≤ l.held.length → exec (.finishPkt i) s = .next (answered (modPool s hf fun p =>
        { p with lnd := { p.lnd with nacks := satInc p.lnd.nacks } }) i d (.refuse 6)))) ∧
    (∀ f c, l.held[i]? = some f → f.hit = some c → (c - f.expect).toInt ≤ f.slack →
      exec (.finishRelease false w i) s = .next (modSeat s w fun x =>
        { x with lnd := { x.lnd with held := dropAt x.lnd.held i, flag := tset 0 x.lnd.flag f.ctr f.value } })) ∧
    (∀ hf f c, (poolOf s hf).lnd.held[i]? = some f → f.hit = some c → (c - f.expect).toInt ≤ f.slack →
      exec (.finishRelease true hf i) s = .next (modPool s hf fun p =>
        { p with lnd := { p.lnd with held := dropAt p.lnd.held i, flag := tset 0 p.lnd.flag f.ctr f.value } }))

/-- 07 R234, R238, 09 R276, R294, R295, R495: a READ is answered by an RDATA packet with the granules read, which its requester stores to core memory
and counts; ACK ends the wait for its packet and does nothing else; a NACK ends it and faults a seat that still runs that heat. -/
def Obligations.ReadsAndAnswers : Prop :=
  ∀ (s : State) (i w : Nat) (d : Deliv),
    let h := d.pkt.hdr.toNat
    let x := seatOf s w
    let asks := 0 < pCount h ∧ pCount h ≤ 16
    let sends (m : Mem) : Prop := ∃ (t : State) (q : Pkt), exec (.readPkt i) s = .next t ∧ AnswerOut (takeArrive s i) t d q ∧
      AnswerTo q h 5 0 (targetUnit s d.target) ∧ pLcen q.hdr.toNat = pLcen h ∧ pLctr q.hdr.toNat = pLctr h ∧ pLen q.hdr.toNat = pCount h ∧
      (uLevel (pSrc h) = 0 → pSpace q.hdr.toNat = 1 ∧ pOff q.hdr.toNat = 64 * pWord h % 2 ^ 34) ∧ q.data.length = pCount h ∧
      ∀ k, k < pCount h → q.data[k]? = some (mgran m (pOff h / 64 + k))
    let settled : State := modEng (takeArrive s i) w (engOf h) fun g =>
      { g with out := g.out.filter fun o => !(o.tag == pTag h && o.epoch == pEpoch h) }
    (Arrives s i tyRead (.seat w) d → liveAt s w (pEpoch h) = true → asks → InSeat (pSpace h) (pOff h) (64 * pCount h) 64 →
      (pSpace h = 1 → x.cox.filling = false → sends x.core) ∧ (pSpace h = 2 → sends x.desc)) ∧
    (∀ hf, Arrives s i tyRead (.pool hf) d → liveAt s (poolTable hf) (pEpoch h) = true → asks → pOff h % 64 = 0 →
      pOff h + 64 * pCount h ≤ 0x50000000 → spanOpen (poolOf s hf) (pOff h) (64 * pCount h) = true → sends (poolOf s hf).mem) ∧
    (∀ g, Arrives s i tyRdata (.seat w) d → d.verdict = none → x.cox.filling = false →
      (∀ y, liveAt s w (pEpoch h) = true → g < pLen h → g ∉ d.wrote → d.pkt.data[g]? = some y →
        ∃ t, exec (.rdataPkt i g) s = .next t ∧ OtherSeats s t w ∧ (seatOf t w).desc = x.desc ∧
          StoresAt x.core (seatOf t w).core (pOff h + 64 * g) (bytesOf y.toNat 64) ∧
          (pLcen h = true → Counted x.lnd (seatOf t w).lnd (pLctr h) 1) ∧ (pLcen h = false → (seatOf t w).lnd = x.lnd) ∧
          (d.wrote.length + 1 = pLen h → t.noc = settled.noc ∧ (seatOf t w).dma = (seatOf settled w).dma ∧
            (seatOf t w).net = (seatOf settled w).net) ∧
          (d.wrote.length + 1 ≠ pLen h → t.noc = (modArrive s i fun d => { d with wrote := d.wrote ++ [g] }).noc ∧
            (seatOf t w).dma = x.dma ∧ (seatOf t w).net = x.net)) ∧
      (liveAt s w (pEpoch h) = false → d.full = true → ∃ t, exec (.rdataPkt i g) s = .next t ∧ OtherSeats s t w ∧ t.noc = settled.noc ∧
        seatOf t w = { seatOf settled w with lnd := { x.lnd with stale := satInc x.lnd.stale } })) ∧
    (Arrives s i tyAck (.seat w) d → exec (.ackPkt i) s = .next settled) ∧
    (∀ o, Arrives s i tyNack (.seat w) d → x.cox.state = .walking → x.cox.epoch = pEpoch h → awaited x h = some o →
      1 ≤ pStatus h → pStatus h ≤ 5 →
      ∃ t, exec (.nackPkt i) s = .next t ∧ (seatOf t w).cox.state = .halted ∧ (seatOf t w).first.code = BitVec.ofNat 16 (0x5F + pStatus h) ∧
        (seatOf t w).first.desc = BitVec.ofNat 16 o.idx ∧ (seatOf t w).dma = (seatOf settled w).dma ∧
        (seatOf t w).net = (seatOf settled w).net ∧ (seatOf t w).core = x.core)

/-- 09 R272, R273, R275: what a node does with the first flit of an input. It goes on by the output that its way names, where its clock runs, the
place beyond has a credit, no other packet holds the output, and, but for CTL, no CTL flit could use it; else nothing changes. A header with an
uncorrectable word or a reserved TYPE discards its packet; a later flit cuts it off; both are counted, and a lost word is recorded. 09 R278, R282,
R292, R494: a seat's packet meets the router at which it enters the mesh. A request is refused with ADDRESS where its address is a register, or
names no crew or no logical seat in the router's copy of the map; else it is on its way, to the fabric complex, the pool or the physical seat that
its address names. It stays in the outbound buffer while 128 packets of its engine are on their way. A command that finds its condition unmet
changes nothing: the model's choice (log entry 8). -/
def Obligations.RouterForward : Prop :=
  (∀ (s : State) (n : NodeIx) (p : NodePort) (v : VcIx) (o : NodePort) (ecc : Nat),
    let b := source s n.val p.val v.val
    let may := mayPass s n.val p.val v.val o.val
    let run := exec (.routerForward n p v o ecc) s
    let opens (f : Flit) (t : Trip) : Prop := t.entered = true ∧
      (n.val < 2304 → p.val < 5 → o.val = 0 → (t.group ≠ none → isMember s n.val f.data.toNat = true) ∧
        (seatFenced s n.val = false ∨ t.group = none ∧ v.val ≠ 1) ∧ (domOf s (crewOf n.val)).paddle = false) ∧
      (2304 ≤ n.val → n.val < 2328 → 8 ≤ o.val ∨ (halfEasy s (o.val % 2) = false ∧ halfBoated s (o.val % 2) = false))
    let passes (f : Flit) : Prop := ∃ t, run = .next t ∧ FlitPasses s t n.val p.val v.val o.val f ∧
      t.noc.eccOk = if ecc = 1 then satInc s.noc.eccOk else s.noc.eccOk
    let lost (rest : List Flit) : Prop := ∃ t r, run = .next t ∧ r.code = 0x0070 ∧ r.kind = 2 ∧ t.flt.path = s.flt.path ++ [r] ∧
      t.noc.eccBad = satInc s.noc.eccBad ∧ (source t n.val p.val v.val).flits = rest ∧ t.noc.arrive = s.noc.arrive
    (b.flits = [] ∨ linkRuns s n.val p.val = false → run = .next s) ∧
    (∀ f t, b.flits.head? = some f → f.head = some t → linkRuns s n.val p.val = true → (pType f.data.toNat = 0 ∨ 9 < pType f.data.toNat) →
      run = .next (discarded (putSource s n.val p.val v.val b.discard))) ∧
    (∀ f t, AtFront s n.val p.val v.val f t → opens f t → b.left = [] →
      (may = false → run = .next s) ∧ (may = true → ecc ≤ 1 → dueOuts n.val p.val b = [o.val] → passes f) ∧
      (may = true → 2 ≤ ecc → lost (afterPacket b.flits).1)) ∧
    (∀ f, b.flits.head? = some f → f.head = none → linkRuns s n.val p.val = true → b.left = [] →
      (may = false → run = .next s) ∧ (may = true → ecc ≤ 1 → b.outs = [o.val] → passes f) ∧
      (may = true → 2 ≤ ecc → lost ({ last := true, cut := true } :: (afterPacket b.flits).1))) ∧
    (hasRoom s (landing n.val p.val o.val) v.val = false → may = false) ∧ (linkRuns s n.val p.val = false → may = false) ∧
    (v.val ≠ 0 → couldUse s n.val 0 o.val = true → may = false) ∧
    (∀ k, tget 0 s.noc.lock (bufKey n.val o.val v.val) = k + 1 → k ≠ p.val → may = false)) ∧
  (∀ (s : State) (n : NodeIx) (p o : NodePort) (ecc : Nat) (f : Flit) (t : Trip),
    let h := f.data.toNat
    let a := pDest h
    let q := fld a 49 1 * 48 + fld a 43 6
    let b := source s n.val p.val 1
    let run := exec (.routerForward n p 1 o ecc) s
    let way : Trip := { legs := waypoints h, sender := some n.val, entry := n.val }
    let goes (g : Goal) : Prop :=
      run = .next (putSource s n.val p.val 1 { b with flits := { f with head := some { way with goal := g } } :: b.flits.drop 1 })
    let refused : Prop := run = .next (putSource (answerFrom s n.val 11 (targetUnit s (.seat n.val)) f.data way (.refuse 1)) n.val p.val 1 b.discard)
    n.val < 2304 → p.val = 9 ∨ p.val = 10 → AtFront s n.val p.val 1 f t → t.entered = false →
    (outboxOpen s n.val p.val = false → run = .next s) ∧
    (outboxOpen s n.val p.val = true →
      (2 ≤ fld a 62 2 → refused) ∧
      (fld a 62 2 < 2 → fld a 50 12 ≠ s.chain.node → goes .away) ∧
      (fld a 62 2 < 2 → fld a 50 12 = s.chain.node → fld a 34 4 = 8 → goes (.pool (fld a 49 1))) ∧
      (fld a 62 2 < 2 → fld a 50 12 = s.chain.node → fld a 34 4 ≠ 8 → pMcast h = 0 →
        (47 < fld a 43 6 → refused) ∧
        (fld a 43 6 ≤ 47 → physAt s n.val q (fld a 38 5) = none → refused) ∧
        (∀ w, fld a 43 6 ≤ 47 → physAt s n.val q (fld a 38 5) = some w → goes (.seat w)))) ∧
    (128 ≤ ((seatOf s n.val).eng (if p.val = 9 then 0 else 1)).out.length - (b.flits.filter fun f => f.head.isSome).length →
      outboxOpen s n.val p.val = false))

/-- 09 R277-R279: the way of a packet. Between two routers of a half every forwarded header comes one step nearer to its waypoint or its seat, along
the row first; a pool's packet leaves by its row, and one for another part by its column; a row switch takes a packet for the other half across,
to the router on its row. 09 R272, R296, R298: no buffer of the network is ever filled beyond its credits: if that holds before a command, it
holds after it. -/
def Obligations.WaysAndCredits : Prop :=
  (∀ (n p w : Nat) (t : Trip), n < 2304 → p < 5 → w < 2304 →
    let c := coordOf n
    let step (o : Nat) (d : Nat × Nat) : Prop := ∃ m q, landing n p o = .buf m q ∧ m < 2304 ∧ (q < 5 ∨ isCrossing m (q - 4) = true) ∧
      hops (coordOf m) d + 1 = hops c d ∧ (c.1 ≠ d.1 → (coordOf m).2 = c.2)
    (∀ d rest, t.ahead c = d :: rest → d ≠ c → d.1 / 48 = c.1 / 48 → d.2 < 24 → ∃ o, routerOuts n p t = [o] ∧ step o d) ∧
    (t.ahead c = [] →
      (t.goal = .seat w → halfOf n = halfOf w → (n = w → routerOuts n p t = [0]) ∧
        (n ≠ w → ∃ o, routerOuts n p t = [o] ∧ step o (coordOf w))) ∧
      (t.goal = .seat w → halfOf n = 0 → halfOf w = 1 → routerOuts n p t = [4] ∧
        (c.1 < 47 → step 4 (47, c.2)) ∧ (c.1 = 47 → landing n p 4 = .buf (2304 + c.2) 0)) ∧
      (∀ h, t.goal = .pool h → routerOuts n p t = [if halfOf n = 0 then 4 else 3]) ∧
      (t.goal = .away → routerOuts n p t = [2] ∧ (c.2 = 23 → landing n p 2 = .dest .fabric))) ∧
    (∀ y, y < 24 → t.legs = [] → t.goal = .seat w →
      outsAt (2304 + y) 0 t = [5] ∧ landing (2304 + y) 0 5 = .buf (2304 + y) 5 ∧ outsAt (2304 + y) 5 t = [9] ∧
      ∃ m, landing (2304 + y) 5 9 = .buf m 3 ∧ coordOf m = (48, y)) ∧
    (∀ y h, y < 24 → h < 2 → t.legs = [] → t.goal = .pool h →
      outsAt (2304 + y) (halfOf n) t = [6 + h] ∧ outsAt (2304 + y) (6 + h) t = [10 + h] ∧ landing (2304 + y) (6 + h) (10 + h) = .dest (.pool h))) ∧
  (∀ (s t : State), NetworkBounded s → step s = .next t → NetworkBounded t)

/-- 07 R228, R229, R234, R235, R244, 09 R282, R283, R297, R299, 11 R354: the control traffic and the network's own steps. START lets its seat begin;
an invalidation reaches its table, and at a pool discards the epoch's finishes; a seat-map write brings one copy up to date; a wake request
reaches its half; an idle crossing FIFO returns to its calibrated point. Once no heat is dispatched on it, a crew due for it takes its new map:
its enabled seats that are not fenced, in rising order; until the CONTROL packets come the copies stay as they are. A command that finds its
condition unmet changes nothing: the model's choice (log entry 8). -/
def Obligations.ControlTraffic : Prop :=
  ∀ (s : State),
    (∀ i w d, Arrives s i tyStart (.seat w) d → (seatOf s w).cox.dispatched ≠ none →
      exec (.startMsg i) s = .next (modCox (takeArrive s i) w fun c => { c with started := true })) ∧
    (∀ table (c : Fin 64), ∃ t, exec (.controlMsg (.liveEpoch table c)) s = .next t ∧ t.seats = s.seats ∧
      (∀ e, e ∈ t.str.lag ↔ e ∈ s.str.lag ∧ ¬ (e.1 = table ∧ e.2.1 = c.val)) ∧
      (∀ ep : BitVec 16, ep ≠ 0 → ep.toNat % 64 = c.val → (classOf s c.val).state = 2 → liveAt t table ep = false) ∧
      (table ≠ 2304 → table ≠ 2305 → t = { s with str := { s.str with lag := t.str.lag } }) ∧
      (∀ hf, hf < 2 → table = 2304 + hf → OtherPools s t hf ∧ ∀ f, f ∈ (poolOf t hf).lnd.held ↔
        f ∈ (poolOf s hf).lnd.held ∧ ¬ (f.epoch ≠ 0 ∧ (table, c.val, f.epoch) ∈ s.str.lag))) ∧
    (∀ (n : NodeIx) (q : CrewIx), ∃ t, exec (.controlMsg (.seatMap n q)) s = .next t ∧ t = { s with noc := { s.noc with mapLag := t.noc.mapLag } } ∧
      mapAt t n.val q.val = (mapOf s q.val).phys ∧
      ∀ m r, (m ≠ n.val ∨ r ≠ q.val) → mapAt t m r = mapAt s m r) ∧
    (∀ hf : HalfIx, halfEasy s hf.val = true → ∃ t, exec (.controlMsg (.wake hf)) s = .next t ∧ tget false t.pwr.waking hf.val = true ∧
      t = { s with pwr := { s.pwr with waking := t.pwr.waking } }) ∧
    (∀ (n : NodeIx) (p : NodePort), isCrossing n.val p.val = true →
      ((∀ v, v < 3 → (bufOf s n.val (p.val + 4) v).flits = []) →
        ∃ t, exec (.crossingRecentre n p) s = .next t ∧ tget 0 t.noc.xing (16 * n.val + p.val) = 0 ∧
          (∀ k, k ≠ 16 * n.val + p.val → tget 0 t.noc.xing k = tget 0 s.noc.xing k) ∧ t = { s with noc := { s.noc with xing := t.noc.xing } }) ∧
      ((∃ v, v < 3 ∧ (bufOf s n.val (p.val + 4) v).flits ≠ []) → exec (.crossingRecentre n p) s = .next s)) ∧
    (∀ q : CrewIx, (mapOf s q.val).due = true → crewBusy s q.val = false →
      ∃ t, exec (.seatMapReassign q) s = .next t ∧ (mapOf t q.val).due = false ∧ (mapOf t q.val).fenced = (mapOf s q.val).fenced ∧
        (∀ p, p ∈ (mapOf t q.val).phys ↔ p < 24 ∧ (seatOf s (q.val * 24 + p)).disabled = false ∧ (mapOf s q.val).fenced.getLsbD p = false) ∧
        (mapOf t q.val).phys.Pairwise (· < ·) ∧ (∀ p, p ≠ q.val → mapOf t p = mapOf s p) ∧ t.noc.mapGen = s.noc.mapGen + 1 ∧
        (∀ m, m < 2520 → mapAt t m q.val = mapAt s m q.val) ∧
        (∀ c, (∃ p ∈ (ctxOf s c).g0.alloc, p.1 / 96 / 24 = q.val) → (ctxOf t c).g0.lostMap = true) ∧
        (∀ c, (∃ p ∈ (ctxOf s c).g1.alloc, p.1 / 96 / 24 = q.val) → (ctxOf t c).g1.lostMap = true)) ∧
    (∀ q : CrewIx, crewBusy s q.val = true → exec (.seatMapReassign q) s = .next s)

/-! ## The weight store and the pools (05 R168-R184) -/

/-- 05 R168, R169, R172-R175, 06 R191, 12 R396: refresh. At each accrual instant, 6,250 ticks or while hot 3,125 apart, 16 is added to the debt of
each bank while none has 128; an operation in a rest slot of 225 beats takes one away; a bank at 128 forces a refresh, which halts the seat for
the cycles of its step, takes up to 8 from every bank, counts in COX_HELD_REFRESH, and changes no operand. The phase of a crew's instants is
Snivan's, here its first accrual (log entry 66). 05 R179-R182, 07 R218: pool segments. Only a segment in which no submitted graph lies is closed;
a closed one serves nothing and has lost its contents; a woken one is zero, and serves once it is ready. No other byte of the pool, no counter and
no other segment changes. A command that finds its condition unmet changes nothing: the model's choice (log entry 8). -/
def Obligations.RefreshAndSegments : Prop :=
  (∀ (s : State) (w : SeatIx),
    let x := seatOf s w.val
    let p := (domOf s (crewOf w.val)).accrual.getD s.clk.ticks
    let due := dueAccrual x.wst p
    let gap := if x.wst.hot then 3125 else 6250
    halfEasy s (halfOf w.val) = false → halfBoated s (halfOf w.val) = false →
    (∀ a, x.wst.accrued = a + 1 → a % gap = p % gap → due = a + gap) ∧
    (s.clk.ticks < due → exec (.refreshAccrual w) s = .next s) ∧
    (due ≤ s.clk.ticks → (∀ b, b < 32 → debtOf x b < 128) →
      ∃ t, exec (.refreshAccrual w) s = .next t ∧ (∀ b, b < 32 → debtOf (seatOf t w.val) b = debtOf x b + 16) ∧
        t = putSeat (modDom s (crewOf w.val) fun m => { m with accrual := some p }) w.val
          { x with wst := { x.wst with debt := (seatOf t w.val).wst.debt, accrued := due + 1 } }) ∧
    (∀ (b : BankIx) ahead, 0 < debtOf x b.val → x.wst.forcing = none → restSlot x b.val ahead 225 = true →
      ∃ t, exec (.refreshOperation w b ahead) s = .next t ∧ debtOf (seatOf t w.val) b.val = debtOf x b.val - 1 ∧
        (∀ k, k ≠ b.val → debtOf (seatOf t w.val) k = debtOf x k) ∧
        t = putSeat s w.val { x with wst := { x.wst with debt := (seatOf t w.val).wst.debt, ops := satInc x.wst.ops } }) ∧
    (∀ c, (∃ b, b < 32 ∧ 128 ≤ debtOf x b) → x.wst.forcing = none → clocked s w.val = true →
      hardPending s (crewOf w.val) = false → c % 2 = 0 → x.cox.cycle ≤ c →
      exec (.refreshAccrual w) s = .next s ∧
      exec (.forcedRefresh w c) s =
        .next (putSeat s w.val { x with wst := { x.wst with forcing := some c, forced := satInc x.wst.forced } })) ∧
    (∀ c, x.wst.forcing = some c → x.cox.state = .walking → x.cox.cycle ≤ c →
      let n := ([1800, 1620, 1440, 1260, 1080, 720, 360] : List Nat).getD (domOf s (crewOf w.val)).step 360
      ∃ t, exec (.forcedRefreshEnd w) s = .next t ∧ t = putSeat s w.val (seatOf t w.val) ∧
        let y := seatOf t w.val
        y.wst.forcing = none ∧ (∀ b, b < 32 → debtOf y b = debtOf x b - 8) ∧ y.cox.cycle = c + n ∧
        y.cox.heldRefresh = satAdd x.cox.heldRefresh n ∧ y.cox.ctr = x.cox.ctr ∧ y.cox.next = x.cox.next ∧ y.cox.done = x.cox.done ∧
        y.mxa.acc = x.mxa.acc ∧ y.mxa.slots = x.mxa.slots ∧ y.vec.opc = x.vec.opc ∧ y.core = x.core ∧ y.store = x.store ∧ y.desc = x.desc ∧
        (x.cox.held ≠ none → y.cox.beat = x.cox.beat) ∧ (x.cox.held = none → y.cox.beat = x.cox.beat + (c - x.cox.cycle)))) ∧
  (∀ (s : State) (h : HalfIx) (g : SegIx),
    let p := poolOf s h.val
    let inSeg (a : Nat) : Prop := 0x4000000 * g.val ≤ a ∧ a < 0x4000000 * g.val + 0x4000000
    let only (t : State) : Prop := t = { s with pools := t.pools } ∧ OtherPools s t h.val ∧ (poolOf t h.val).lnd = p.lnd ∧
      ∀ k, k < 20 → k ≠ g.val → (poolOf t h.val).on.getLsbD k = p.on.getLsbD k ∧
        (poolOf t h.val).ready.getLsbD k = p.ready.getLsbD k ∧ (poolOf t h.val).closing.getLsbD k = p.closing.getLsbD k
    (s.glb.fw = .ready → poolRuns s h.val = true → p.ready.getLsbD g.val = true → p.closing.getLsbD g.val = false →
      (graphInSeg s h.val g.val = false → ∃ t, exec (.segmentPowerDown h g) s = .next t ∧ only t ∧
        (poolOf t h.val).closing.getLsbD g.val = true ∧ (poolOf t h.val).mem = p.mem ∧ (poolOf t h.val).ready = p.ready) ∧
      (graphInSeg s h.val g.val = true → exec (.segmentPowerDown h g) s = .next s)) ∧
    (p.closing.getLsbD g.val = true → graphInSeg s h.val g.val = true → exec (.segmentClose h g) s = .next s) ∧
    (p.closing.getLsbD g.val = true → graphInSeg s h.val g.val = false → ∃ t, exec (.segmentClose h g) s = .next t ∧ only t ∧ (poolOf t h.val).on.getLsbD g.val = false ∧
      (poolOf t h.val).ready.getLsbD g.val = false ∧ (poolOf t h.val).closing.getLsbD g.val = false ∧
      (∀ a, inSeg a → segOpen (poolOf t h.val) a = false ∧ mread (poolOf t h.val).mem a = 0) ∧
      (∀ a, ¬ inSeg a → mread (poolOf t h.val).mem a = mread p.mem a) ∧
      (poolOf t h.val).timeouts = if tget 0 p.closeAt g.val + 10000 ≤ s.clk.ticks then satInc p.timeouts else p.timeouts) ∧
    (s.glb.fw = .ready → poolRuns s h.val = true → p.on.getLsbD g.val = false → p.dead.getLsbD g.val = false →
      ∃ t, exec (.segmentWake h g) s = .next t ∧ only t ∧ (poolOf t h.val).on.getLsbD g.val = true ∧ (poolOf t h.val).ready = p.ready ∧
        (∀ a, inSeg a → mread (poolOf t h.val).mem a = 0) ∧ (∀ a, ¬ inSeg a → mread (poolOf t h.val).mem a = mread p.mem a)) ∧
    (p.on.getLsbD g.val = true → ∃ t, exec (.segmentReady h g) s = .next t ∧ only t ∧ (poolOf t h.val).mem = p.mem ∧
      ∀ a, inSeg a → segOpen (poolOf t h.val) a = true))

/-- 05 R150, R151, R173, R176-R178, R183, 11 R351: the side port. It takes the oldest piece of work of the lowest rank that may start: writes and zero
fills, then diagnostic reads, then scrub reads. A write stores one granule, a fill one of zeros before the rest of its granules; a diagnostic read
shows the granule, or all ones and a count without debug access; a scrub reads 35 granules and reports a tile whose CRC does not hold as weak,
with nothing stored. 05 R168, R176, R183, 12 R398: what gives the side port work, and the interval of refresh. The scrubber begins its next tile,
at most one in 64 µs; WST_DIAG_GO asks for one granule, but of a disabled seat; a DRAM sample over 85 degrees brings the 16 ms interval to all
seats of its crew and one at 82 or below the 32 ms interval. A command that finds its condition unmet changes nothing: the model's choice (log
entry 8). -/
def Obligations.SidePort : Prop :=
  (∀ (s : State) (w : SeatIx) (ahead i : Nat),
    let x := seatOf s w.val
    refreshes s w.val = true → nextWork x ahead = some i →
    (∃ k, x.wst.work[i]? = some k ∧ workMay x ahead k = true ∧
      ∀ j k', x.wst.work[j]? = some k' → workMay x ahead k' = true → workRank k < workRank k' ∨ workRank k = workRank k' ∧ i ≤ j) ∧
    (∀ g d, x.wst.work[i]? = some (.write g d) →
      ∃ t, exec (.sidePortTransfer w ahead) s = .next t ∧ t = putSeat s w.val (seatOf t w.val) ∧
        StoresAt x.store (seatOf t w.val).store (64 * g) (bytesOf d.toNat 64) ∧ (seatOf t w.val).core = x.core ∧
        (seatOf t w.val).desc = x.desc ∧ (seatOf t w.val).cox = x.cox ∧
        ((∀ f k, .scrub f k ∈ x.wst.work → g < f ∨ f + 35 ≤ g) → (seatOf t w.val).wst = { x.wst with work := dropAt x.wst.work i })) ∧
    (∀ f n, x.wst.work[i]? = some (.fill f n) →
      ∃ t, exec (.sidePortTransfer w ahead) s = .next t ∧ t = putSeat s w.val (seatOf t w.val) ∧
        StoresAt x.store (seatOf t w.val).store (64 * f) (List.replicate 64 0) ∧ (seatOf t w.val).core = x.core ∧
        (seatOf t w.val).cox = x.cox ∧
        ((∀ e k, .scrub e k ∈ x.wst.work → f < e ∨ e + 35 ≤ f) → (seatOf t w.val).wst = { x.wst with
          work := (if n ≤ 1 then [] else [.fill (f + 1) (n - 1)]) ++ dropAt x.wst.work i })) ∧
    (∀ g, x.wst.work[i]? = some (.diag g) →
      ∃ t, exec (.sidePortTransfer w ahead) s = .next t ∧
        (s.sec.unlocked = true → s.sec.scope.getLsbD 1 = true → g < 98304 → t = putSeat s w.val { x with wst := { x.wst with
          work := dropAt x.wst.work i, diagDone := true, diagData := mgran x.store g } }) ∧
        ((s.sec.unlocked = false ∨ s.sec.scope.getLsbD 1 = false) → t = putSeat s w.val { x with wst := { x.wst with
          work := dropAt x.wst.work i, diagDone := true, diagData := BitVec.allOnes 512, diagRefused := satInc x.wst.diagRefused } })) ∧
    (∀ f k, x.wst.work[i]? = some (.scrub f k) →
      (k < 34 → exec (.sidePortTransfer w ahead) s = .next (putSeat s w.val { x with wst := { x.wst with
        work := dropAt x.wst.work i ++ [.scrub f (k + 1)] } })) ∧
      (34 ≤ k → ∃ t, exec (.sidePortTransfer w ahead) s = .next t ∧ (seatOf t w.val).store = x.store ∧
        (seatOf t w.val).wst.work = dropAt x.wst.work i ∧
        let m := mslice x.store (64 * f) 2240
        (tileCrc m kindWeight = BitVec.ofNat 32 (tileStored m kindWeight) → t.flt = s.flt ∧ (seatOf t w.val).wst.weak = x.wst.weak) ∧
        (tileCrc m kindWeight ≠ BitVec.ofNat 32 (tileStored m kindWeight) → (seatOf t w.val).wst.weak = satInc x.wst.weak ∧
          (seatOf t w.val).wst.weakLast = f ∧ ∃ r, t.flt.path = s.flt.path ++ [r] ∧ r.code = 0x0201 ∧ r.kind = 4 ∧
          r.detail = detail 0 0 0 f (tileTag m kindWeight))))) ∧
  (∀ (s : State),
    (∀ w : SeatIx, let t := (seatOf s w.val).wst
      ∀ f, t.scrubEn = true → (∀ k ∈ t.work, workRank k ≠ 2) → (t.scrubTick = 0 ∨ t.scrubTick + 6399 ≤ s.clk.ticks) →
      (t.extents.find? (fun e => decide (t.scrubAt ≤ e)) = some f ∨
        t.extents.find? (fun e => decide (t.scrubAt ≤ e)) = none ∧ t.extents.head? = some f) →
      exec (.scrubTile w) s = .next (modWst s w.val fun t =>
        { t with scrubAt := f, work := t.work ++ [.scrub f 0], scrubTick := s.clk.ticks + 1 })) ∧
    (∀ (w : SeatIx) (v : Word), (v.getLsbD 0 = true → (seatOf s w.val).disabled = false → exec (.wstDiagGo w v) s = .next (modWst s w.val fun t =>
        { t with diagDone := false, work := t.work ++ [.diag t.diagG.toNat] })) ∧
      (v.getLsbD 0 = false ∨ (seatOf s w.val).disabled = true → exec (.wstDiagGo w v) s = .next s)) ∧
    (∀ (q : CrewIx) (c : Byte), ∃ t, exec (.dramSample q c) s = .next t ∧ (domOf t q.val).tdram = c ∧
      (∀ d, d ≠ q.val → domOf t d = domOf s d) ∧
      ∀ w, seatOf t w = if crewOf w = q.val then { seatOf s w with wst := { (seatOf s w).wst with
          hot := if 85 < c.toInt then true else if c.toInt ≤ 82 then false else (seatOf s w).wst.hot,
          accrued := (seatOf t w).wst.accrued } }
        else seatOf s w))

/-! ## The starter (07), guards between heats (02 R69-R72) -/

/-- 07 R239: when a counter value satisfies a target. The difference, read as two's complement, is at most 0: a counter that has run k granules past
its target satisfies it exactly while k is at most 2^31. -/
def Obligations.CounterSatisfies : Prop :=
  (∀ c t : Word, satisfies c t = true ↔ (t - c).toInt ≤ 0) ∧
  ∀ (t : Word) (k : Nat), k < 2 ^ 32 → (satisfies (t + BitVec.ofNat 32 k) t = true ↔ k ≤ 2 ^ 31)

/-- 07 R216-R220, R218, 13 R421: graphs. A region that passes the checks of R219 is submitted under the lowest free number and nothing else changes;
with none free, or a check failed, the refusal is answered. A graph that no live run uses is released. 07 R220, R224, 11 R357, 12 R397, 13 R421,
16 R492: RUN admits a run of a submitted graph, with a number that no live run has and that is not 0, every heat pending, and the CURRENT
generation of each context that the graph names bound to it; each of its refusals is answered with two slots. 07 R231, R232, 13 R421: CANCEL of no
live run is NO_RUN; of a live one it ends the run: every heat that had not ended is aborted or abandoned, and the run is live no more. -/
def Obligations.GraphsAndRuns : Prop :=
  (∀ (s : State) (src : SrcIx) (c : Nat),
    (commandOf s src.val 0x20 = some c → cb c 0x10 1 ≤ 1 → cb c 0x18 8 % 4096 = 0 → cb c 0x18 8 < 0x50000000 →
      halfEasy s (cb c 0x10 1) = false →
      (∀ n, n < 16 → tfind s.str.graphs n = none → (∀ m, m < n → tfind s.str.graphs m ≠ none) →
        (submitRefusal s (cb c 0x10 1) (cb c 0x18 8) = none →
          Answers (exec (.graphSubmit src) s) { s with str := { s.str with
            graphs := tput s.str.graphs n (parseGraph s (cb c 0x10 1) (cb c 0x18 8)) } } src c stSuccess n) ∧
        (∀ st r, submitRefusal s (cb c 0x10 1) (cb c 0x18 8) = some (st, r) → Answers (exec (.graphSubmit src) s) s src c st r)) ∧
      ((∀ n, n < 16 → tfind s.str.graphs n ≠ none) → Answers (exec (.graphSubmit src) s) s src c stGraphLimit 0)) ∧
    (commandOf s src.val 0x20 = some c → (1 < cb c 0x10 1 ∨ cb c 0x18 8 % 4096 ≠ 0 ∨ 0x50000000 ≤ cb c 0x18 8) →
      Answers (exec (.graphSubmit src) s) s src c stBadParameter 0) ∧
    (commandOf s src.val 0x21 = some c →
      let n := cb c 0x10 1
      (tfind s.str.graphs n = none → Answers (exec (.graphRelease src) s) s src c stNoGraph 0) ∧
      (tfind s.str.graphs n ≠ none → (∃ p ∈ s.str.runs, p.2.graph = n) → Answers (exec (.graphRelease src) s) s src c stGraphInUse 0) ∧
      (tfind s.str.graphs n ≠ none → (∀ p ∈ s.str.runs, p.2.graph ≠ n) → ∃ u, Answers (exec (.graphRelease src) s) u src c stSuccess 0 ∧
        u = { s with str := { s.str with graphs := u.str.graphs } } ∧ tfind u.str.graphs n = none ∧
        ∀ m, m ≠ n → tfind u.str.graphs m = tfind s.str.graphs m))) ∧
  (∀ (s : State) (src : SrcIx) (c : Nat),
    let n := cb c 0x10 1
    let ring := cb c 0x12 1
    let tag := BitVec.ofNat 16 (cb c 0x14 2)
    commandOf s src.val 0x22 = some c →
    (haltRefuses s = true → Answers (exec (.run src) s) s src c stHalted 0) ∧
    (haltRefuses s = false → s.glb.ready = true → cb c 0x11 1 ≤ 1 → ring ≤ 15 →
      (tfind s.str.graphs n = none → Answers (exec (.run src) s) s src c stNoGraph 0) ∧
      (∀ g, tfind s.str.graphs n = some g → (cqrOf s ring).enable = true → s.str.runs.length < 16 →
        (tag = 0 ∨ ∀ p ∈ s.str.runs, p.2.tag ≠ tag) → (∀ k, k < 16 → (∃ d ∈ g.heats, d.ctx = k) → (ctxOf s k).state ≠ .free) →
        (∀ k, k < 16 → (∃ d ∈ g.heats, d.ctx = k) → currentGen (ctxOf s k) ≠ none) →
        ∃ u id run, exec (.run src) s = .next (answer2 u src.val c stSuccess
            (id + 2 ^ 16 * ((graphContexts g).foldl (fun m k => m + 2 ^ k) 0)) (run.gens.foldl (fun m p => m + p.2 * 2 ^ (8 * p.1)) 0)) ∧
          id ≠ 0 ∧ id < 65536 ∧ runOf s id = none ∧ runOf u id = some run ∧ run.graph = n ∧ run.tag = tag ∧ run.ring = ring ∧
          run.every = bit (cb c 0x11 1) 0 ∧ run.t0 = BitVec.ofNat 64 (cb c 0x18 8) ∧ run.seed = BitVec.ofNat 64 (cb c 0x20 8) ∧
          run.heats.length = g.heats.length ∧ (∀ x ∈ run.heats, x.phase = .pending) ∧
          (∀ k, k < 16 → (∃ d ∈ g.heats, d.ctx = k) → tfind run.gens k = currentGen (ctxOf s k)) ∧
          u = { s with str := u.str } ∧ u.str.admits = s.str.admits + 1 ∧ u.str.runId = id))) ∧
  (∀ (s : State) (src : SrcIx) (c : Nat),
    let r := cb c 0x10 2
    commandOf s src.val 0x23 = some c →
    (runOf s r = none → Answers (exec (.cancel src) s) s src c stNoRun 0) ∧
    (∀ run, runOf s r = some run → run.cancel = none → (∃ x ∈ run.heats, x.phase.ended = false) →
      ∃ t, exec (.cancel src) s = .next t ∧ runOf t r = none ∧ (sqOf t src.val).cur = none ∧ (∀ q, q ≠ r → runOf t q = runOf s q) ∧
        (∀ (i : Nat) (x : Heat), run.heats[i]? = some x → x.phase = .dispatched → (classOf t x.cls).state = 2) ∧
        (∀ k, (∀ x : Heat, x ∈ run.heats → x.phase = .dispatched → x.cls ≠ k) → classOf t k = classOf s k)))

/-- 06 R209, 07 R217, R227: PRELOAD writes the heat's page image into a page not in use, with zeros after it, and nothing outside that page; an image
whose CRC fails abandons the heat with IMAGE_CRC. 07 R224, R226, R231, 02 R70-R72, 01 R33: what makes a pending heat ready, and what makes it one
that will not run. The dispatch arbiter gives a heat whose dependences are all met the next number; a time dependence is met, for good, once the
starter's copy of the time base reaches it; a failed predecessor abandons a heat with PREDECESSOR, a counter of a seat that is not presented with
SEATS_UNAVAILABLE. A command that finds its condition unmet changes nothing: the model's choice (log entry 8). -/
def Obligations.PreloadAndReadiness : Prop :=
  (∀ (s : State) (r h : Nat) (w : SeatIx) (x : Heat) (p : Place) (pg : Fin 2) (g : Graph) (im : ImageRef),
    let y := seatOf s w.val
    let a := g.off + im.off
    let pool := poolOf s g.half
    heatOf s r h = some x → graphOf s r = some g → (places (hdOf s r h)).find? (fun p => placeSeat s p == some w.val) = some p →
    freePage y = some pg → g.images[p.image]? = some im → wantsPage s r h w.val x = true → preloadWaits s r h w.val = false →
    (mapOf s (crewOf w.val)).due = false → halfBoated s (halfOf w.val) = false → halfEasy s g.half = false →
    halfEasy s (halfOf w.val) = false → (domOf s (crewOf w.val)).paddle = false →
    (im.count ≤ 1024 → rangeServes pool a (32 * im.count) = true → crc32c (mbytes pool.mem a (32 * im.count)) = im.crc →
      ∃ t, exec (.preload r h w) s = .next t ∧ heatOf t r h = some { x with pre := x.pre ++ [w.val] } ∧ OtherHeats s t r [h] ∧
        OtherSeats s t w.val ∧ pageOf (seatOf t w.val) r h ≠ none ∧ t.pools = s.pools ∧
        (∀ k, k < 0x8000 → mread (seatOf t w.val).desc (pg.val * 0x8000 + k) = if k < 32 * im.count then mread pool.mem (a + k) else 0) ∧
        (∀ b, (b < pg.val * 0x8000 ∨ pg.val * 0x8000 + 0x8000 ≤ b) → mread (seatOf t w.val).desc b = mread y.desc b) ∧
        seatOf t w.val = { y with desc := (seatOf t w.val).desc, cox := { y.cox with
          use0 := if pg = 0 then some (r, h) else y.cox.use0, use1 := if pg = 1 then some (r, h) else y.cox.use1 } }) ∧
    ((rangeServes pool a (32 * im.count) = false ∨ crc32c (mbytes pool.mem a (32 * im.count)) ≠ im.crc) →
      ∃ t, exec (.preload r h w) s = .next t ∧ Abandons s t r h x 5)) ∧
  (∀ (s : State) (r h : Nat) (x : Heat),
    heatOf s r h = some x → x.phase = .pending →
    (depsMet s r h x = true → ∃ t, exec (.heatReady r h) s = .next t ∧ t.str.dsn = nextSeq s.str.dsn ∧
      heatOf t r h = some { x with phase := .ready, dsn := nextSeq s.str.dsn } ∧ OtherHeats s t r [h] ∧ t = { s with str := t.str }) ∧
    (depsMet s r h x = false → exec (.heatReady r h) s = .next s) ∧
    (∀ d e run, runOf s r = some run → (hdOf s r h).deps[d]? = some e → depKind e = 4 →
      (depTime run e ≤ domTime s 98 → ∃ t, exec (.timeDependence r h d) s = .next t ∧
        heatOf t r h = some { x with met := setBit x.met d } ∧ OtherHeats s t r [h] ∧ t = { s with str := t.str }) ∧
      (domTime s 98 < depTime run e → exec (.timeDependence r h d) s = .next s)) ∧
    (∀ n, failedPred s r h x = some n → ∃ t, exec (.heatAbandon r h) s = .next t ∧ Abandons s t r h x 1) ∧
    (failedPred s r h x = none → depSeatGone s r h x = true → ∃ t, exec (.heatAbandon r h) s = .next t ∧ Abandons s t r h x 4) ∧
    (failedPred s r h x = none → depSeatGone s r h x = false → exec (.heatAbandon r h) s = .next s))

/-- 07 R228, R233-R235, R238, R253, 15 R457: dispatch. A heat that may be dispatched takes a free class, which one is not specified, whose sequence
number moves on; every table accepts the new epoch; on each of its seats the landing block and the two records are cleared, the heat is noted and
a START message enters the mesh at the north edge port of its column. A failed check abandons it with its cause; without a free class it waits. 05
R154, R155, 06 R211, 03 R81, 04 R113, 02 R66: a seat begins. Core memory of a seat that last ran another context is filled with zeros before the
heat begins, and a window write that came meanwhile lands after the fill; core cycle 0 finds the beat, the counters, the units, the operand cache
and the guard counters cleared and the memories as they were. A command that finds its condition unmet changes nothing: the model's choice (log
entry 8). -/
def Obligations.DispatchAndBegin : Prop :=
  (∀ (s : State) (r h : Nat) (run : Run) (x : Heat),
    let d := hdOf s r h
    runOf s r = some run → run.heats[h]? = some x → dispatchable s r h x = true →
    (∀ g, freeClasses s ≠ [] → overtaken s r h x = false → dispatchCheck s run d = none → boundGen s run d.ctx = some g →
      ∃ t k y, exec (.heatDispatch r h) s = .next t ∧ k ∈ freeClasses s ∧ heatOf t r h = some y ∧ OtherHeatsLatched s t r h ∧
        y.phase = .dispatched ∧ y.cls = k ∧ y.startTick = s.clk.ticks ∧ y.finished = [] ∧
        y.epoch.toNat % 64 = k % 64 ∧ classOf t k = { state := 1, epoch := y.epoch, seq := (classOf t k).seq, run := r, heat := h } ∧
        (classOf t k).seq = (if (classOf s k).seq = 1023 then 1 else (classOf s k).seq + 1) ∧ (∀ j, j ≠ k → classOf t j = classOf s j) ∧
        (∀ table, liveAt t table y.epoch = true) ∧ y.seats = (places d).filterMap (placeSeat s) ∧
        (∀ w ∈ y.seats, (seatOf t w).cox.dispatched = some (r, h) ∧ (seatOf t w).cox.started = false ∧ (seatOf t w).cox.epoch = y.epoch ∧
          (seatOf t w).cox.ctx = d.ctx ∧ (seatOf t w).cox.heat = h ∧ (seatOf t w).cox.run = r ∧ (seatOf t w).lnd.ctr = [] ∧
          (seatOf t w).lnd.flag = [] ∧ (seatOf t w).lnd.held = [] ∧ (seatOf t w).first = {} ∧ (seatOf t w).last = {} ∧
          (seatOf t w).core = (seatOf s w).core ∧ (seatOf t w).desc = (seatOf s w).desc ∧
          ((bufOf s (nodeHost + (coordOf w).1) 0 vcCtl).eating = false →
            ∃ f ∈ (bufOf t (nodeHost + (coordOf w).1) 0 vcCtl).flits, f.last = true ∧ pType f.data.toNat = 8 ∧
              ∃ p, f.head = some p ∧ p.goal = .seat w ∧ p.legs = [])) ∧
        (∀ w, w ∉ y.seats → seatOf t w = seatOf s w)) ∧
    (∀ cause, freeClasses s ≠ [] → overtaken s r h x = false → dispatchCheck s run d = some cause →
      ∃ t, exec (.heatDispatch r h) s = .next t ∧ Abandons s t r h x cause) ∧
    (freeClasses s = [] → x.waited = false → ∃ t, exec (.heatDispatch r h) s = .next t ∧ t.str.waits = satInc s.str.waits ∧
      heatOf t r h = some { x with waited := true } ∧ OtherHeats s t r [h] ∧ t.seats = s.seats ∧ t.str.classes = s.str.classes)) ∧
  (∀ (s : State) (w : SeatIx),
    let x := seatOf s w.val
    crewInRow s (crewOf w.val) = true → (domOf s (crewOf w.val)).stop = .none → x.cox.state = .noHeat →
    (x.cox.filling = true →
      exec (.heatStart w) s = .next s ∧
      (x.winWait = [] → ∃ t, exec (.coreFill w) s = .next t ∧ t = putSeat s w.val (seatOf t w.val) ∧
        (∀ a, mread (seatOf t w.val).core a = 0) ∧
        seatOf t w.val = { x with core := (seatOf t w.val).core, cox := { x.cox with filling := false } }) ∧
      (∀ o v, x.winWait = [(o, some v)] → ∃ t, exec (.coreFill w) s = .next t ∧ t = putSeat s w.val (seatOf t w.val) ∧
        mword (seatOf t w.val).core o = v ∧ (∀ a, (a < o ∨ o + 4 ≤ a) → mread (seatOf t w.val).core a = 0) ∧
        (seatOf t w.val).winWait = [] ∧ (seatOf t w.val).cox.filling = false)) ∧
    (∀ r h pg, x.cox.dispatched = some (r, h) → pageOf x r h = some pg → x.cox.started = true → x.cox.filling = false →
      ∃ t, exec (.heatStart w) s = .next t ∧ t = putSeat s w.val (seatOf t w.val) ∧
        let y := seatOf t w.val
        y.cox.state = .walking ∧ y.cox.page = pg ∧ y.cox.beat = 0 ∧ y.cox.cycle = 0 ∧ y.cox.next = 0 ∧ y.cox.base = 0 ∧
        (∀ k, tget 0 y.cox.ctr k = 0) ∧ (∀ k, tget {} y.cox.cmp k = {}) ∧ y.cox.loops = [] ∧ y.cox.done = [] ∧ y.cox.rest = 0xFFFFFFFF ∧
        (∀ k, tget 0 y.cox.guard k = 0) ∧ y.cox.tripped = 0 ∧ y.cox.dispatched = none ∧ y.cox.epoch = x.cox.epoch ∧
        y.mxa = {} ∧ y.vec = {} ∧ (∀ e, (y.eng e).routes = [] ∧ (y.eng e).queue = [] ∧ (y.eng e).cur = none ∧
          (y.eng e).out = (x.eng e).out ∧ (y.eng e).outbox = (x.eng e).outbox) ∧
        y.core = x.core ∧ y.store = x.store ∧ y.desc = x.desc ∧ y.lnd = x.lnd ∧ y.wst = x.wst ∧ y.first = x.first))

/-- 07 R230, R235, R244, 02 R69, R70, 13 R422: a heat completes once all its seats have finished and every request of its epoch is answered: its seats
are freed, its epoch retires, the guard totals are formed, and the entry goes to the run's ring where the run asked for every heat's, a guard
tripped or a digest is due. An untripped guard skips the successor. 07 R232, R237, 15 R462, R468: a dispatched heat is aborted for a fault that
the log has numbered, or when its watchdog has run out, as LATE_LANDING where one of its seats waits at a CATCH or holds a finish and as WATCHDOG
elsewhere. 07 R235, 15 R457: a retired class is free once every table has acknowledged and no packet of its epoch awaits an answer, and not
before; a halted seat then sends its LAST record, where faults followed the first, and has no heat. A command that finds its condition unmet
changes nothing: the model's choice (log entry 8). -/
def Obligations.HeatsEnd : Prop :=
  (∀ (s : State) (r h : Nat) (run : Run) (x : Heat),
    let d := hdOf s r h
    let mask := (gather s x.seats).1
    let posts := run.every = true ∨ mask ≠ 0 ∨ d.hasDigest = true
    runOf s r = some run → run.heats[h]? = some x → x.phase = .dispatched → x.abortReq = none → x.freed = false →
    (∀ w ∈ x.seats, w ∈ x.finished ∧ (seatOf s w).cox.state = .pastEnd) → allAnswered s x.seats x.epoch = true →
    ((posts → holdFull s run.ring = false) →
      ∃ t, exec (.heatComplete r h) s = .next t ∧ (∀ y, heatOf t r h = some y → y.phase = .completed) ∧
        (∀ run', runOf t r = some run' → ∃ z ∈ run'.heats, z.phase.ended = false) ∧
        ((d.hasSucc = false ∨ mask ≠ 0) → HeatEnds s t r h .completed) ∧ Retired s t x.cls ∧
        (∀ w ∈ x.seats, SeatFreed (seatOf s w) (seatOf t w) r h) ∧ t.str.aborts = s.str.aborts ∧ t.flt = s.flt ∧
        (∀ y, heatOf t r h = some y → y.gmask = mask ∧ (y.gflag = true ↔ mask ≠ 0) ∧ (y.digest = none ↔ d.hasDigest = false)) ∧
        (posts → HeatEntryOut s t run.ring r h 0 0 0) ∧
        (∀ z, d.hasSucc = true → mask = 0 → heatOf s r d.succ = some z → d.succ ≠ h → z.phase = .pending →
          ∀ y, heatOf t r d.succ = some y → y.phase = .skipped) ∧
        OtherHeats s t r [h, d.succ] ∧ ((d.hasSucc = false ∨ mask ≠ 0) → OtherHeats s t r [h])) ∧
    (posts → holdFull s run.ring = true →
      ∃ t, exec (.heatComplete r h) s = .next t ∧ t.str.classes = s.str.classes ∧ t.cq = s.cq ∧
        (∀ w ∈ x.seats, SeatFreed (seatOf s w) (seatOf t w) r h) ∧
        ∃ y, heatOf t r h = some y ∧ y.phase = .dispatched ∧ y.freed = true ∧ y.gmask = mask)) ∧
  (∀ (s : State) (r h : Nat) (x : Heat),
    heatOf s r h = some x → x.phase = .dispatched →
    (∀ cause seq, x.abortReq = some (cause, seq) →
      ∃ t, exec (.heatAbort r h) s = .next t ∧ Aborts s t r h x cause (if cause = 16 then seq else 0) ∧
        (cause = 16 → seqAfter seq s.flt.handled = true →
          t.flt.holds = s.flt.holds ++ [{ ctx := (hdOf s r h).ctx, run := r, heat := h, seq := some seq }])) ∧
    (x.freed = false → (hdOf s r h).watchdog ≠ 0 → x.startTick + (hdOf s r h).watchdog ≤ s.clk.ticks →
      ((∃ w ∈ x.seats, lateSeat (seatOf s w) = true) → ∃ t, exec (.heatWatchdog r h) s = .next t ∧ Aborts s t r h x 18 0) ∧
      ((∀ w ∈ x.seats, lateSeat (seatOf s w) = false) → ∃ t, exec (.heatWatchdog r h) s = .next t ∧ Aborts s t r h x 17 0)) ∧
    (s.clk.ticks < x.startTick + (hdOf s r h).watchdog → exec (.heatWatchdog r h) s = .next s)) ∧
  (∀ (s : State),
    (∀ k : Fin 64, (classOf s k.val).state = 2 →
      ((∀ e ∈ s.str.lag, e.2.1 ≠ k.val) → (∀ p ∈ s.seats, ∀ o ∈ p.2.dma.out ++ p.2.net.out, o.epoch ≠ (classOf s k.val).epoch) →
        exec (.classFree k) s = .next (modClass s k.val fun c => { c with state := 0 })) ∧
      ((∃ e ∈ s.str.lag, e.2.1 = k.val) → exec (.classFree k) s = .next s) ∧
      ((∃ p ∈ s.seats, ∃ o ∈ p.2.dma.out ++ p.2.net.out, o.epoch = (classOf s k.val).epoch) → exec (.classFree k) s = .next s)) ∧
    (∀ w : SeatIx, let x := seatOf s w.val
      let k := classOf s (x.cox.epoch.toNat % 64)
      x.cox.state = .halted →
      ((k.epoch ≠ x.cox.epoch ∨ k.state = 0) → ∃ t, exec (.seatLastLogged w) s = .next t ∧ (seatOf t w.val).cox.state = .noHeat ∧
        (seatOf t w.val).first = x.first ∧ (seatOf t w.val).core = x.core ∧ OtherSeats s t w.val ∧
        (x.first.count = 0 → t.flt = s.flt) ∧ (x.first.count ≠ 0 → t.flt.path = s.flt.path ++ [{ x.last with kind := 1 }])) ∧
      (k.epoch = x.cox.epoch → k.state ≠ 0 → exec (.seatLastLogged w) s = .next s)))

/-! ## Contexts, shards and generations (11) -/

/-- 11 R345-R347, R352: CONTEXT_CREATE makes a FREE context CREATED with its publisher; EVICT frees one that no live heat names and no load is under
way for: both its generations are released, their blocks await the zeros that the side port is given to write, no run binds them, and its mark is
cleared. No other context, and no byte of any weight store, changes. 11 R355, R357-R359: GENERATION_SWITCH, for the number of a READY and complete
generation, makes it CURRENT, and the one that was CURRENT retires, and is released at once where no live run binds it. Nothing else switches. -/
def Obligations.ContextsAndGenerations : Prop :=
  (∀ (s : State) (src : SrcIx) (c : Nat),
    let k := cb c 0x10 1
    let p := cb c 0x11 1
    (commandOf s src.val 0x10 = some c →
      ((15 < k ∨ 7 < p) → Answers (exec (.contextCreate src) s) s src c stBadParameter 0) ∧
      (k ≤ 15 → p ≤ 7 → (ctxOf s k).state ≠ .free → Answers (exec (.contextCreate src) s) s src c stContextBusy 0) ∧
      (k ≤ 15 → p ≤ 7 → (ctxOf s k).state = .free → tfind s.sec.stateRec.pubs p = none →
        Answers (exec (.contextCreate src) s) s src c stNoPublisher 0) ∧
      (k ≤ 15 → p ≤ 7 → (ctxOf s k).state = .free → tfind s.sec.stateRec.pubs p ≠ none →
        ∃ u, Answers (exec (.contextCreate src) s) u src c stSuccess 0 ∧
          ctxOf u k = { state := .created, slot := p, used := s.clk.master.toNat } ∧ (∀ j, j ≠ k → ctxOf u j = ctxOf s j) ∧
          u = { s with ctxs := u.ctxs } ∧ u.ctxs.loads = s.ctxs.loads)) ∧
    (commandOf s src.val 0x14 = some c → k ≤ 15 →
      ((ctxOf s k).state = .free → Answers (exec (.evict src) s) s src c stNoContext 0) ∧
      ((ctxOf s k).state ≠ .free → (ctxNamed s k = true ∨ ctxLoading s k = true) → Answers (exec (.evict src) s) s src c stContextBusy 0) ∧
      ((ctxOf s k).state ≠ .free → ctxNamed s k = false → ctxLoading s k = false →
        ∃ u, Answers (exec (.evict src) s) u src c stSuccess 0 ∧ ctxOf u k = {} ∧ (∀ j, j ≠ k → ctxOf u j = ctxOf s j) ∧
          u.flt = { s.flt with faulted := clrBit s.flt.faulted k } ∧ (∀ w, (seatOf u w).store = (seatOf s w).store) ∧
          (∀ b, b ∈ u.ctxs.zeroing ↔ b ∈ s.ctxs.zeroing ∨
            ∃ e ∈ (ctxOf s k).g0.alloc ++ (ctxOf s k).g1.alloc, b = e.1 / 96 * 96 + e.2) ∧
          (∀ b, b ∈ u.ctxs.zeroing → b ∉ s.ctxs.zeroing → SideWork.fill (1024 * (b % 96)) 1024 ∈ (seatOf u (b / 96)).wst.work) ∧
          ∀ r run, runOf u r = some run → tfind run.gens k = none))) ∧
  (∀ (s : State) (src : SrcIx) (c : Nat),
    let k := cb c 0x10 1
    let x := ctxOf s k
    commandOf s src.val 0x13 = some c →
    (haltRefuses s = true → Answers (exec (.generationSwitch src) s) s src c stHalted 0) ∧
    (haltRefuses s = false → k ≤ 15 → x.state ≠ .free →
      ((x.g0.state ≠ .ready ∧ x.g1.state ≠ .ready) → Answers (exec (.generationSwitch src) s) s src c stNotReady 0) ∧
      (x.g0.state = .ready → (x.g0.num ≠ cb c 0x11 1 ∨ x.g0.complete = false) →
        Answers (exec (.generationSwitch src) s) s src c stNotReady 0) ∧
      (∀ a b : Gen, (a = x.g0 ∧ b = x.g1) ∨ (a = x.g1 ∧ b = x.g0) → a.state = .ready → b.state ≠ .ready → a.num = cb c 0x11 1 →
        a.complete = true →
        ∃ u, Answers (exec (.generationSwitch src) s) u src c stSuccess 0 ∧ (∀ j, j ≠ k → ctxOf u j = ctxOf s j) ∧
          u.flt = s.flt ∧ (∀ w, (seatOf u w).store = (seatOf s w).store) ∧
          let a' := if a = x.g0 then (ctxOf u k).g0 else (ctxOf u k).g1
          let b' := if a = x.g0 then (ctxOf u k).g1 else (ctxOf u k).g0
          a' = { a with state := .current } ∧
          (b.state = .current → genBound s k b.num = true → b' = { b with state := .retiring }) ∧
          (b.state = .current → genBound s k b.num = false → b' = {} ∧ ∀ e ∈ b.alloc, e.1 / 96 * 96 + e.2 ∈ u.ctxs.zeroing) ∧
          (b.state = .empty → b' = b))))

/-- 11 R346, R348, R353, R356, R361-R365, R370, R371, 14 R440, 15 R473: SHARD_LOAD, as it is read or as its turn comes. With its checks met and room
without an eviction, the generation enters LOADING in the EMPTY slot with the next number and its allocation, every plan block in a block of its
own bank that no generation holds, and its segments are queued; the reply waits. A failed signature, an older version, a missing key or a failed
unwrap is refused and logged. Behind another load the command waits. 11 R365, R370, R374: TILE_REPAIR of a live generation, by the image that it
was loaded from, queues the segments named and changes no generation; behind another load it waits, and a generation released by its turn is one
that does not exist. -/
def Obligations.LoadsBegin : Prop :=
  (∀ (s : State) (src : SrcIx) (c : Nat) (turn : Bool) (img : Option Mem) (m : Mem),
    let k := cb c 0x10 1
    let x := ctxOf s k
    let o := exec (.shardLoad src img) s
    let refused (st res : Nat) : Prop := ∃ v r, LoadAnswers turn o v src c st res ∧
      v = report s r ∧ r.code = 0x020D ∧ r.kind = 4 ∧ r.ctx = BitVec.ofNat 8 k
    haltRefuses s = false → debugOpen s = false → k ≤ 15 → cb c 0x11 1 ≤ 3 → s.glb.gradeValid = true → x.state ≠ .free →
    (commandOf s src.val 0x11 = some c → loadTurn s src.val 0x11 = none → ctxLoading s k = false → s.ctxs.loads ≠ [] →
      ∃ t, o = .next t ∧ LoadQueues s t src c) ∧
    (LoadRuns s src 0x11 c turn → (x.g0.state = .empty ∨ x.g1.state = .empty) → sourceAsleep s c = false →
      (∀ st, loadImage s c img = .inr st → LoadAnswers turn o s src c st 0) ∧
      (loadImage s c img = .inl m → manifestBad m (cb c 0x20 8) = true → LoadAnswers turn o s src c stBadManifest 0) ∧
      (loadImage s c img = .inl m → manifestBad m (cb c 0x20 8) = false →
        (sigFlags s k m (shSegs m) ≠ 0 → refused stBadSignature (2 ^ 16 * sigFlags s k m (shSegs m))) ∧
        (sigFlags s k m (shSegs m) = 0 →
          (shGrade m ≠ s.glb.grade.toNat → LoadAnswers turn o s src c stWrongGrade 0) ∧
          (shGrade m = s.glb.grade.toNat → (x.model = none ∨ x.model = some (shModel m)) →
            (shVersion m < x.version → refused stRollback 0) ∧
            (∀ need, x.version ≤ shVersion m → mapSeats s m = some need → makeRoom s k need (bit (cb c 0x11 1) 0) = some (s, 0) →
              (keyEntry s m = none → refused stNoKey 0) ∧
              (∀ a, keyEntry s m = some a → unwrapEntry s m a (shHash m (shSegs m)) = none → refused stKeyUnwrap 0) ∧
              (∀ a key, keyEntry s m = some a → unwrapEntry s m a (shHash m (shSegs m)) = some key →
                ∃ t j g, o = .next t ∧ LoadBegins turn s t src c j ∧ j.gen = g.num ∧ j.key = key ∧ j.todo = List.range (shSegs m) ∧
                  g.state = .loading ∧ g.num = x.lastGen % 255 + 1 ∧ g.segs = shSegs m ∧ g.version = shVersion m ∧
                  g.hash = shHash m (shSegs m) ∧
                  ctxOf t k = (if x.g0.state = .empty then { x with state := .resident, lastGen := g.num, g0 := g }
                    else { x with state := .resident, lastGen := g.num, g1 := g }) ∧
                  (∀ i, i ≠ k → ctxOf t i = ctxOf s i) ∧ t.seats = s.seats ∧
                  ∀ e ∈ g.alloc, e.2 / 3 = e.1 % 96 / 3 ∧
                    ∀ y ∈ allGens s, ∀ e' ∈ y.alloc, ¬ (e'.1 / 96 = e.1 / 96 ∧ e'.2 = e.2)))))))) ∧
  (∀ (s : State) (src : SrcIx) (c : Nat) (turn : Bool) (img : Option Mem) (m : Mem) (g : Gen) (a : Nat) (key : BitVec 256),
    let k := cb c 0x10 1
    let o := exec (.tileRepair src img) s
    haltRefuses s = false → k ≤ 15 → cb c 0x11 1 ≤ 3 → cb c 0x14 1 ≤ 12 → (ctxOf s k).state ≠ .free →
    (commandOf s src.val 0x12 = some c → loadTurn s src.val 0x12 = none → ctxLoading s k = false → s.ctxs.loads ≠ [] →
      ∃ t, o = .next t ∧ LoadQueues s t src c) ∧
    (LoadRuns s src 0x12 c turn →
      (genNum s k (cb c 0x13 1) = none → LoadAnswers turn o s src c stNoGeneration 0) ∧
      (genNum s k (cb c 0x13 1) = some g → (∀ i ∈ repairList c g.segs, i < g.segs) → sourceAsleep s c = false → loadImage s c img = .inl m →
        (shHash m g.segs ≠ g.hash → LoadAnswers turn o s src c stWrongManifest 0) ∧
        (shHash m g.segs = g.hash → manifestBad m (cb c 0x20 8) = false → sigFlags s k m g.segs = 0 → keyEntry s m = some a →
          unwrapEntry s m a g.hash = some key →
          ∃ t j, o = .next t ∧ LoadBegins turn s t src c j ∧ t.ctxs = { s.ctxs with loads := t.ctxs.loads } ∧ j.repair = true ∧
            j.gen = g.num ∧ j.key = key ∧ j.todo = repairList c g.segs ∧ t.seats = s.seats ∧ t.flt = s.flt))))

/-- 11 R366-R368, R372, 15 R454: LOAD_SEGMENT. A segment that cannot be read fails as MISSING, one whose hash differs as HASH; a failed tag fails
every segment still to come with KEY_MISMATCH; each failure is logged and makes the generation incomplete. A segment that passes with every record
right fails no longer, and its tiles, stamped with context and generation and a fresh CRC, go to the side ports alone. 05 R176, 11 R352, R356,
R367, R370, R374, 12 R391: LOAD_COMPLETE ends a load once its segments and writes are done: the generation is CURRENT where the context had none
and READY where it had one, the scrubber is given the tiles, and the waiting reply goes out; a repair of a generation that has been released ends
too. BLOCK_ZERO_FILL ends the fill of one released block, or of every store of a half that left Boated, once all of it reads as zero, and not
before. A command that finds its condition unmet changes nothing: the model's choice (log entry 8). -/
def Obligations.LoadsRun : Prop :=
  (∀ (s : State) (img : Option Mem) (j : LoadJob) (js : List LoadJob) (i : Nat) (rest : List Nat) (g : Gen),
    let failed (t : State) (n cause : Nat) : Prop := ∃ g', genNum t j.ctx j.gen = some g' ∧ (n, cause) ∈ g'.failed ∧ g'.complete = false
    let bs (m : Mem) := mbytes m 0 (min 1048576 (j.stream - 1048576 * i))
    let entry := j.table.getD i (0, 0)
    s.ctxs.loads = j :: js → j.todo = i :: rest → j.pool = none → genNum s j.ctx j.gen = some g → genZeroing s g = false →
    (img = none → ∃ t r, exec (.loadSegment img) s = .next t ∧ failed t i 2 ∧ t.flt.path = s.flt.path ++ [r] ∧ r.code = 0x0202 ∧
      r.detail = detail 2 j.gen 0 i 0 ∧ t.seats = s.seats ∧ t.ctxs.loads = { j with todo := rest } :: js) ∧
    (∀ m, img = some m → Config.sha384 (bs m) ≠ entry.1 → ∃ t r, exec (.loadSegment img) s = .next t ∧ failed t i 3 ∧
      t.flt.path = s.flt.path ++ [r] ∧ r.code = 0x0202 ∧ r.detail = detail 3 j.gen 0 i 0 ∧ t.seats = s.seats ∧
      t.ctxs.loads = { j with todo := rest } :: js) ∧
    (∀ m, img = some m → Config.sha384 (bs m) = entry.1 → Config.gcmOpen j.key (segNonce j i) g.hash (bs m) entry.2 = none →
      ∃ t, exec (.loadSegment img) s = .next t ∧ (∀ n ∈ i :: rest, failed t n 4) ∧ t.seats = s.seats ∧
        t.ctxs.loads = { j with todo := [] } :: js ∧ t.flt.path.length = s.flt.path.length + (rest.length + 1)) ∧
    (∀ m plain, img = some m → Config.sha384 (bs m) = entry.1 → Config.gcmOpen j.key (segNonce j i) g.hash (bs m) entry.2 = some plain →
      let r := walkRecords g j.ctx (memOf plain) (min 1048576 (j.stream - 1048576 * i)) 461 0 s []
      ∃ t, exec (.loadSegment img) s = .next t ∧ t.ctxs.loads = { j with todo := rest, tiles := j.tiles ++ r.2.1 } :: js ∧
        (∀ w, (seatOf t w).store = (seatOf s w).store ∧ (seatOf t w).cox = (seatOf s w).cox) ∧
        (r.2.2 = false → failed t i 1) ∧
        (r.2.2 = true → t.flt = s.flt ∧ ∃ g', genNum t j.ctx j.gen = some g' ∧ (∀ p ∈ g'.failed, p.1 ≠ i) ∧
          (∀ p ∈ g.failed, p.1 ≠ i → p ∈ g'.failed))) ∧
    (∀ t k n, k < 256 → n < 256 → mrd (stampTile t k n) 0x880 2 = k + 256 * n ∧
      tileStored (stampTile t k n) kindWeight = (tileCrc (stampTile t k n) kindWeight).toNat ∧
      ∀ b, b ≠ 0x880 → b ≠ 0x881 → (b < 0x89C ∨ 0x8A0 ≤ b) → mread (stampTile t k n) b = mread t b)) ∧
  (∀ (s : State),
    (∀ (j : LoadJob) (js : List LoadJob), s.ctxs.loads = j :: js → s.glb.fw = .ready → j.waiting = none → mayReply s j.src = true →
      (genNum s j.ctx j.gen = none →
        exec .loadComplete s = .next (answerLate { s with ctxs := { s.ctxs with loads := js } } j.src j.cid stNoGeneration 0)) ∧
      (∀ g : Gen, genNum s j.ctx j.gen = some g → j.todo = [] → (∀ p ∈ s.seats, ∀ n d, SideWork.write n d ∉ p.2.wst.work) →
        ∃ t, exec .loadComplete s = .next t ∧ t.ctxs.loads = js ∧ (∀ c, c ≠ j.ctx → ctxOf t c = ctxOf s c) ∧
          (∀ p ∈ j.tiles, p.2 ∈ (seatOf t p.1).wst.extents) ∧ (∀ w, (seatOf t w).store = (seatOf s w).store) ∧
          (j.src ≠ 16 → (sqOf t j.src).waiting = (sqOf s j.src).waiting - 1) ∧
          (g.recs.foldl (fun n p => n + p.2) 0 = g.tiles → ∃ g', genNum t j.ctx j.gen = some g' ∧ g'.failed = g.failed ∧
            (j.repair = true → g'.state = g.state) ∧ (j.repair = false → g'.state =
              if currentGen (ctxOf s j.ctx) = none then .current else .ready)) ∧
          (g.recs.foldl (fun n p => n + p.2) 0 ≠ g.tiles → g.failed = [] →
            ∃ g', genNum t j.ctx j.gen = some g' ∧ (g.segs - 1, 1) ∈ g'.failed))) ∧
    (∀ k, k ∈ s.ctxs.zeroing → k < 221184 → refreshes s (k / 96) = true →
      let x := seatOf s (k / 96)
      let b := k % 96
      ((∀ e ∈ x.store, e.1 < 65536 * b ∨ 65536 * b + 65536 ≤ e.1) →
        (∀ f n, SideWork.fill f n ∈ x.wst.work → f + n ≤ 1024 * b ∨ 1024 * b + 1024 ≤ f) →
        ∃ t, exec (.blockZeroFill k) s = .next t ∧ k ∉ t.ctxs.zeroing ∧ (∀ i, i ≠ k → (i ∈ t.ctxs.zeroing ↔ i ∈ s.ctxs.zeroing)) ∧
          t.seats = s.seats ∧ ∀ a, 65536 * b ≤ a → a < 65536 * b + 65536 → mread (seatOf t (k / 96)).store a = 0) ∧
      ((∃ a, 65536 * b ≤ a ∧ a < 65536 * b + 65536 ∧ mread x.store a ≠ 0) → exec (.blockZeroFill k) s = .next s) ∧
      ((∃ f n, SideWork.fill f n ∈ x.wst.work ∧ f < 1024 * b + 1024 ∧ 1024 * b < f + n) → exec (.blockZeroFill k) s = .next s)) ∧
    (∀ h : HalfIx, 221184 + h.val ∈ s.ctxs.zeroing → refreshes s (1152 * h.val) = true →
      ((∀ p ∈ s.seats, halfOf p.1 = h.val → p.2.store = [] ∧ ∀ f n, SideWork.fill f n ∈ p.2.wst.work → 98304 ≤ f ∨ f + n = 0) →
        ∃ t, exec (.blockZeroFill (221184 + h.val)) s = .next t ∧ 221184 + h.val ∉ t.ctxs.zeroing ∧ t.seats = s.seats ∧
          ∀ w a, halfOf w = h.val → mread (seatOf t w).store a = 0) ∧
      ((∃ p ∈ s.seats, halfOf p.1 = h.val ∧ p.2.store ≠ []) → exec (.blockZeroFill (221184 + h.val)) s = .next s)))

/-! ## The host's side (13) -/

/-- 13 R410, R411, R412, R415, 14 R451: a reply. It carries CID, STATUS, SQ and RESULT of its command, takes two slots for RUN, joins the hold queue
of 256 entries, or waits for a place in it (log entry 71), of the ring that CQ_SQ_CQ names and frees the ring for its next command; the I3C port
gets its reply in the port's own register, numbered at once. Nothing else changes. 13 R411, R414, R416, R417, 14 R451: COMMAND_READ. Where Snivan
serves, has no command in hand and this ring is next in the round robin, the entry at HEAD is read and HEAD moves on. It is refused without a
session, with an unknown opcode, or with a reserved field set, in that order; else it is in hand. An entry that cannot be read is HOST_ACCESS, and
an ORDER command waits, its ring being passed over meanwhile. 13 R417, R421: sessions. OPEN_SESSION for major 2 opens one with the lower of the
two minors and reports the device; another major is VERSION. Neither OPEN nor CLOSE goes on while earlier commands of its ring have still to
reply. A command that finds its condition unmet changes nothing: the model's choice (log entry 8). -/
def Obligations.CommandsAndReplies : Prop :=
  (∀ (s : State) (src : SrcIx) (c st res : Nat), st < 2 ^ 16 → res < 2 ^ 128 →
    let t := answer s src.val c st res
    let n := (sqOf s src.val).cq.toNat
    let isReply (e : BitVec 256) : Prop := fld e.toNat 8 8 = 1 ∧ fld e.toNat 16 16 = cCid c ∧ fld e.toNat 64 16 = st ∧
      fld e.toNat 80 8 = (if src.val = 16 then 0xFF else src.val) ∧ fld e.toNat 128 128 = res
    t = { s with cq := t.cq } ∧ sqOf t src.val = { sqOf s src.val with cur := none } ∧
    (∀ q, q ≠ src.val → sqOf t q = sqOf s q) ∧ (∀ f, feedOf t f = feedOf s f) ∧
    (src.val ≠ 16 → ∃ e, isReply e.first ∧ (e.second = none ↔ cOpcode c ≠ 0x22) ∧ t.cq.seq = s.cq.seq ∧ t.cq.i3cReply = s.cq.i3cReply ∧
      (let room := (cqrOf s n).hold.length < 256 ∧ (cqrOf s n).wait = []
       (room → cqrOf t n = { cqrOf s n with hold := (cqrOf s n).hold ++ [e], stalls := (cqrOf t n).stalls }) ∧
       (¬ room → cqrOf t n = { cqrOf s n with wait := (cqrOf s n).wait ++ [e], stalls := (cqrOf t n).stalls })) ∧
      ∀ q, q ≠ n → cqrOf t q = cqrOf s q) ∧
    (src.val = 16 → ∃ e : BitVec 512, t.cq.i3cReply = some e ∧ isReply (e.setWidth 256) ∧ fld e.toNat 32 32 = (nextSeq s.cq.seq).toNat ∧
      t.cq.seq = nextSeq s.cq.seq ∧ t.cq.cq = s.cq.cq)) ∧
  (∀ (s : State) (r : RingIx) (c : BitVec 512),
    let q := sqOf s r.val
    let s1 := modSq { s with cq := { s.cq with turn := (r.val + 1) % 16 } } r.val fun q => { q with head := ringNext q.size q.head, ordered := false }
    s.glb.fw = .ready → snivanBusy s = false → ringReadable q = true →
    (∀ n ∈ before s.cq.turn r.val, ringReadable (sqOf s n) = true → (sqOf s n).ordered = true ∧ 0 < (sqOf s n).waiting) →
    (exec (.commandRead r none) s = .next (sendReply s1 r.val 0xFFFF stHostAccess 0 none)) ∧
    (bit (cb c.toNat 1 1) 0 = true → 0 < q.waiting →
      exec (.commandRead r (some c)) s = .next (modSq s r.val fun q => { q with ordered := true })) ∧
    (bit (cb c.toNat 1 1) 0 = false ∨ q.waiting = 0 →
      (q.opened = false → cOpcode c.toNat ≠ 1 → Answers (exec (.commandRead r (some c)) s) s1 ⟨r.val, by omega⟩ c.toNat stNoSession 0) ∧
      ((q.opened = true ∨ cOpcode c.toNat = 1) →
        (cOpcode c.toNat ∉ opcodes → Answers (exec (.commandRead r (some c)) s) s1 ⟨r.val, by omega⟩ c.toNat stBadOpcode 0) ∧
        (cOpcode c.toNat ∈ opcodes → cOpcode c.toNat ≠ 0x3A ∨ 1 ≤ q.version.toNat % 256 →
          (reservedBad c.toNat = true → Answers (exec (.commandRead r (some c)) s) s1 ⟨r.val, by omega⟩ c.toNat stBadParameter 0) ∧
          (reservedBad c.toNat = false → exec (.commandRead r (some c)) s = .next (modSq s1 r.val fun q => { q with cur := some c })))))) ∧
  (∀ (s : State) (src : SrcIx) (c : Nat),
    (commandOf s src.val 1 = some c →
      (0 < (sqOf s src.val).waiting → exec (.openSession src) s = .next s) ∧
      ((sqOf s src.val).waiting = 0 → ∃ u res, s.glb.grade.toNat = fld res 48 8 ∧ fld res 64 16 = s.chain.node % 2 ^ 16 ∧
        fld res 96 32 = s.glb.fwVersion.toNat ∧ u = { s with cq := u.cq } ∧ u.cq.cq = s.cq.cq ∧
        (cb c 0x10 1 = 2 → Answers (exec (.openSession src) s) u src c stSuccess res ∧
          sqOf u src.val = { sqOf s src.val with opened := true, version := BitVec.ofNat 16 (0x200 + min (cb c 0x11 1) 1) } ∧
          fld res 0 8 = 2 ∧ fld res 8 8 = min (cb c 0x11 1) 1 ∧ ∀ q, q ≠ src.val → sqOf u q = sqOf s q) ∧
        (cb c 0x10 1 ≠ 2 → Answers (exec (.openSession src) s) s src c stVersion res))) ∧
    (commandOf s src.val 2 = some c →
      (0 < (sqOf s src.val).waiting → exec (.closeSession src) s = .next s) ∧
      ((sqOf s src.val).waiting = 0 →
        Answers (exec (.closeSession src) s) (modSq s src.val fun q => { q with opened := false, version := 0 }) src c stSuccess 0)))

/-- 13 R410, R426: doorbells move one index each; RESUME leaves the stopped state; ENABLE starts a ring empty, and is taken back only once the ring is
unused. -/
def Obligations.RingsAndDoorbells : Prop :=
  ∀ (s : State) (v : Word),
    (∀ r : RingIx, exec (.submissionDoorbell r v) s = .next (modSq s r.val fun q => { q with tail := v.setWidth 12 })) ∧
    (∀ r : RingIx, exec (.completionDoorbell r v) s = .next (modCqr s r.val fun q => { q with head := v.setWidth 12 })) ∧
    (∀ f : FeedIx, exec (.feedDoorbell f v) s = .next (modFeed s f.val fun q => { q with tail := v.setWidth 12 })) ∧
    (∀ f : FeedIx, v.getLsbD 8 = true → (feedOf s f.val).stopped = true →
      exec (.feedResume f v) s = .next (modFeed s f.val fun q => { q with stopped := false, failedAt := none })) ∧
    (∀ r : RingRef, ∃ t, exec (.ringEnable r) s = .next t ∧ t = { s with cq := t.cq } ∧
      (r.kind = 0 → (sqOf s r.n.val).enable = false →
        sqOf t r.n.val = { sqOf s r.n.val with enable := true, head := 0, tail := 0 } ∧ ∀ n, n ≠ r.n.val → sqOf t n = sqOf s n) ∧
      (r.kind = 1 → (cqrOf s r.n.val).enable = false →
        cqrOf t r.n.val = { cqrOf s r.n.val with enable := true, head := 0, tail := 0, phase := true } ∧
        ∀ n, n ≠ r.n.val → cqrOf t n = cqrOf s n) ∧
      (r.kind = 2 → r.n.val < 8 → (feedOf s r.n.val).enable = false →
        feedOf t r.n.val = { feedOf s r.n.val with enable := true, head := 0, tail := 0 } ∧ ∀ n, n ≠ r.n.val → feedOf t n = feedOf s n)) ∧
    (∀ r : RingRef, ∃ t, exec (.ringDisable r) s = .next t ∧ t = { s with cq := t.cq } ∧
      (r.kind = 0 → (sqOf s r.n.val).enable = true → let q := sqOf s r.n.val
        let idle := q.cur = none ∧ q.waiting = 0 ∧ q.head = q.tail
        (idle → sqOf t r.n.val = { q with enable := false, closing := false }) ∧ (¬ idle → sqOf t r.n.val = { q with closing := true })) ∧
      (r.kind = 1 → (cqrOf s r.n.val).enable = true → let q := cqrOf s r.n.val
        (cqrUsed s r.n.val = false → cqrOf t r.n.val = { q with enable := false, closing := false }) ∧
        (cqrUsed s r.n.val = true → cqrOf t r.n.val = { q with closing := true })) ∧
      (r.kind = 2 → r.n.val < 8 → (feedOf s r.n.val).enable = true → let q := feedOf s r.n.val
        (q.prog = [] → feedOf t r.n.val = { q with enable := false, closing := false }) ∧
        (q.prog ≠ [] → feedOf t r.n.val = { q with closing := true })))

/-- 13 R412, R413, 01 R33: completions. The arbiter takes the first held entry of a ring with room, gives it the next sequence number and writes its
slots to the ring in host memory with the ring's phase, which turns at slot 0; nothing else in host memory changes. The ring's vector, and never
0, is raised once its entries reach the coalescing count, or the coalescing time has passed since the first of them, into the pending bit where it
is masked. A command that finds its condition unmet changes nothing: the model's choice (log entry 8). -/
def Obligations.CompletionsPosted : Prop :=
  ∀ (s : State) (r : RingIx),
    let c := cqrOf s r.val
    let n := nextSeq s.cq.seq
    let next (i : BitVec 12) := ringNext c.size i
    let turned (p : Bool) (i : BitVec 12) : Bool := if next i = 0 then !p else p
    let at_ := if c.since = 0 then s.clk.ticks else c.sinceAt
    let due := max 1 c.coalCount.toNat ≤ c.since ∨ (c.coalUs ≠ 0 ∧ c.sinceAt + 100 * c.coalUs.toNat ≤ s.clk.ticks)
    (∀ e rest, c.hold = e :: rest → c.enable = true → e.slots ≤ ringRoom c →
      ∃ t, exec (.completionPost r) s = .next t ∧ t.cq.seq = n ∧ t = { s with cq := t.cq, hostMem := t.hostMem } ∧
        (∀ k, k ≠ r.val → cqrOf t k = cqrOf s k) ∧
        (let one := putFld (withSeq e.first n).toNat 0 1 (b2n c.phase)
         (e.second = none →
            StoresAt s.hostMem t.hostMem (slotAddr c c.tail) (bytesOf one 32) ∧
            cqrOf t r.val = { c with hold := rest ++ c.wait.take 1, wait := c.wait.drop 1, since := c.since + 1, sinceAt := at_,
                                     tail := next c.tail, phase := turned c.phase c.tail }) ∧
         (∀ x, e.second = some x → let two := putFld x.toNat 0 1 (b2n (turned c.phase c.tail))
            mrd t.hostMem (slotAddr c c.tail) 32 = one ∧ mrd t.hostMem (slotAddr c (next c.tail)) 32 = two ∧
            (∀ a, (a < slotAddr c c.tail ∨ slotAddr c c.tail + 32 ≤ a) →
              (a < slotAddr c (next c.tail) ∨ slotAddr c (next c.tail) + 32 ≤ a) → mread t.hostMem a = mread s.hostMem a) ∧
            cqrOf t r.val = { c with hold := rest ++ c.wait.take 1, wait := c.wait.drop 1, since := c.since + 1, sinceAt := at_,
                                     tail := next (next c.tail),
                                     phase := turned (turned c.phase c.tail) (next c.tail) }))) ∧
    (∀ e rest, c.hold = e :: rest → ringRoom c < e.slots → exec (.completionPost r) s = .next s) ∧
    (0 < c.since → due → let v := max 1 c.vector.toNat
      ∃ t, exec (.msixInterrupt r) s = .next t ∧ (cqrOf t r.val).since = 0 ∧
        (s.cq.masked.getLsbD v = true → t.cq.pba = setBit s.cq.pba v ∧ t.cq.sent = s.cq.sent) ∧
        (s.cq.masked.getLsbD v = false → t.cq.pba = s.cq.pba ∧ tget 0 t.cq.sent v = tget 0 s.cq.sent v + 1)) ∧
    ((c.since = 0 ∨ ¬ due) → exec (.msixInterrupt r) s = .next s)

/-- 13 R403, R405, R408, 05 R148, R181, R184, 09 R299, 12 R390: BAR2. An access inside one 64 B granule of an open segment, or of one counter or flag
word, reads or writes just those bytes; one to a segment that does not serve is answered Unsupported Request or dropped and counted; one to a half
in Easy is held, counted, and wakes the half; one of another shape, or unprotected on a part with IDE, reaches nothing and is counted. -/
def Obligations.Bar2 : Prop :=
  ∀ (s : State) (off len : Nat) (prot : Bool),
    let h := off / 0x80000000
    let o := off % 0x80000000
    let p := poolOf s h
    let granule := o + len ≤ 0x50000000 ∧ 0 < len ∧ o / 64 = (o + len - 1) / 64
    let word := 0x50000000 ≤ o ∧ o + len ≤ 0x50000800 ∧ len = 4 ∧ o % 4 = 0
    (s.sec.ide = true → prot = false → ∀ wr, exec (.bar2Access off len wr prot) s = .next { s with glb := { s.glb with bad := satInc s.glb.bad } }) ∧
    ((s.sec.ide = false ∨ prot = true) → off < 0x100000000 →
      (¬ granule → ¬ word → ∀ wr, ∃ t, exec (.bar2Access off len wr prot) s = .next t ∧ t = { s with glb := t.glb } ∧
        t.glb.bad = satInc s.glb.bad ∧ (wr = none → t.glb.bar2Ur = true)) ∧
      ((granule ∨ word) → halfEasy s h = true → ∀ wr, ∃ t, exec (.bar2Access off len wr prot) s = .next t ∧
        poolOf t h = { p with bar2Held := p.bar2Held ++ [(o, len, wr)] } ∧ OtherPools s t h ∧ t.glb = s.glb ∧
        tget false t.pwr.waking h = true ∧ t.noc.seamHeld = satInc s.noc.seamHeld) ∧
      (granule → halfEasy s h = false → halfBoated s h = false → segOpen p o = true →
        (∃ t, exec (.bar2Access off len none prot) s = .next t ∧ t.glb.bar2Ur = false ∧ t.glb.bar2Data.toNat = mrd p.mem o len ∧
          t.pools = s.pools ∧ t.glb.bad = s.glb.bad) ∧
        (∀ d, ∃ t, exec (.bar2Access off len (some d) prot) s = .next t ∧ StoresAt p.mem (poolOf t h).mem o (mbytes d 0 len) ∧
          poolOf t h = { p with mem := (poolOf t h).mem } ∧ OtherPools s t h ∧ t.glb = s.glb ∧ t.seats = s.seats)) ∧
      (granule → halfEasy s h = false → segOpen p o = false →
        (∃ t, exec (.bar2Access off len none prot) s = .next t ∧ t = { s with glb := t.glb } ∧ t.glb.bar2Ur = true) ∧
        (∀ d, exec (.bar2Access off len (some d) prot) s = .next (modPool s h fun p => { p with bar2Dropped := satInc p.bar2Dropped }))) ∧
      (word → halfEasy s h = false → halfBoated s h = false →
        (∃ t, exec (.bar2Access off len none prot) s = .next t ∧ t.glb.bar2Ur = false ∧
          t.glb.bar2Data.toNat = (p.lnd.word (o - 0x50000000)).toNat ∧ t.pools = s.pools) ∧
        (∀ d, ∃ t, exec (.bar2Access off len (some d) prot) s = .next t ∧ (poolOf t h).mem = p.mem ∧ OtherPools s t h ∧
          ∀ i, i % 4 = 0 → (poolOf t h).lnd.word i = if i = o - 0x50000000 then mword d 0 else p.lnd.word i)))

/-- 13 R423-R426, 07 R238: the input-feed engine. A FEED moves its granules from host memory to its pool and counts each where its flag asks, a DRAIN
the other way; a descriptor that is refused, or a failed access, stops the ring after the granules moved, and one for a half in Easy is held, and
wakes the half. The end of one that failed, or asked for it, is posted, and a failure is logged. A command that finds its condition unmet changes
nothing: the model's choice (log entry 8). -/
def Obligations.Feeds : Prop :=
  ∀ (s : State) (f : FeedIx) (d : BitVec 256) (data : List Granule),
    let q := feedOf s f.val
    let x := d.toNat
    let h := fdHalf x
    let n := fdGranules x
    let p := poolOf s h
    let entry (moved st : Nat) : FeedJob := { raw := d, at_ := q.head.toNat, moved := moved, status := st }
    (feedMayStart q = true → (bit (fdFlags x) 2 = false ∨ q.prog = []) →
      (fdBad x = true → ∃ t, exec (.feedStart f (some d) data) s = .next t ∧ t = { s with cq := t.cq } ∧
        feedOf t f.val = { q with head := ringNext q.size q.head, noted := false,
                                  prog := q.prog ++ [entry 0 stBadParameter], failedAt := some q.head.toNat }) ∧
      (fdBad x = false → fdOp x = 0 → ∃ t, exec (.feedStart f (some d) data) s = .next t ∧ t = { s with cq := t.cq } ∧
        feedOf t f.val = { q with head := ringNext q.size q.head, noted := false, prog := q.prog ++ [entry 0 stSuccess] }) ∧
      (fdBad x = false → fdOp x ≠ 0 → halfEasy s h = true → q.noted = false → ∃ t, exec (.feedStart f (some d) data) s = .next t ∧
        feedOf t f.val = { q with noted := true } ∧ t.pools = s.pools ∧ t.hostMem = s.hostMem ∧ tget false t.pwr.waking h = true ∧
        t.noc.seamHeld = satInc s.noc.seamHeld) ∧
      (fdBad x = false → halfEasy s h = false → halfBoated s h = false → (∀ k, k < n → segOpen p (64 * (fdPool x + k)) = true) → n ≤ data.length →
        (fdOp x = 1 → ∃ t, exec (.feedStart f (some d) data) s = .next t ∧ t.hostMem = s.hostMem ∧ OtherPools s t h ∧ t.seats = s.seats ∧
          StoresAt p.mem (poolOf t h).mem (64 * fdPool x) (granuleBytes (data.take n)) ∧
          (bit (fdFlags x) 0 = true → Counted p.lnd (poolOf t h).lnd (fdCounter x) n) ∧
          (bit (fdFlags x) 0 = false → (poolOf t h).lnd = p.lnd) ∧
          feedOf t f.val = { q with head := ringNext q.size q.head, noted := false, granules := q.granules + BitVec.ofNat 32 n,
                                    prog := q.prog ++ [entry n stSuccess] }) ∧
        (fdOp x = 2 → ∃ t, exec (.feedStart f (some d) data) s = .next t ∧ t.pools = s.pools ∧ t.seats = s.seats ∧
          StoresAt s.hostMem t.hostMem (fdHost x) (mbytes p.mem (64 * fdPool x) (64 * n)) ∧
          feedOf t f.val = { q with head := ringNext q.size q.head, noted := false, granules := q.granules + BitVec.ofNat 32 n,
                                    prog := q.prog ++ [entry n stSuccess] }))) ∧
    (feedMayStart q = false → exec (.feedStart f (some d) data) s = .next s) ∧
    (∀ j rest, q.prog = j :: rest → (j.status = stSuccess ∧ bit (fdFlags j.raw.toNat) 1 = false ∨ holdFull s q.cq.toNat = false) →
      let posts := j.status ≠ stSuccess ∨ bit (fdFlags j.raw.toNat) 1 = true
      ∃ t, exec (.feedEnd f) s = .next t ∧
        feedOf t f.val = { q with prog := rest, stopped := q.stopped || (rest.isEmpty && q.failedAt.isSome) } ∧
        (j.status = stSuccess → t.flt = s.flt) ∧
        (j.status ≠ stSuccess → ∃ r, t.flt.path = s.flt.path ++ [r] ∧ r.code = 0x0203 ∧ r.detail = detail f.val 0 j.status (fdTag j.raw.toNat) 0) ∧
        (posts → j.status < 2 ^ 16 → ∃ e, (cqrOf t q.cq.toNat).hold ++ (cqrOf t q.cq.toNat).wait =
            (cqrOf s q.cq.toNat).hold ++ (cqrOf s q.cq.toNat).wait ++ [e] ∧ e.second = none ∧
          fld e.first.toNat 8 8 = 3 ∧ fld e.first.toNat 16 16 = fdTag j.raw.toNat ∧ fld e.first.toNat 64 16 = j.status ∧
          fld e.first.toNat 128 32 = j.moved % 2 ^ 32) ∧
        (¬ posts → t.cq.cq = s.cq.cq))

/-- 13 R400, R401, 14 R431, 16 R490: a Function Level Reset disables every ring, ends every run, releases every graph, masks and clears MSI-X and
leaves the contexts, the memories and the I3C port's session; a configuration request is answered with Retry Status until Snivan has started, and
then reads its register, or writes the bits of it that are writable; the write that initiates the reset sets GLB_FLR. A command that finds its
condition unmet changes nothing: the model's choice (log entry 8). -/
def Obligations.FunctionReset : Prop :=
  ∀ (s : State),
    (∃ t, exec .functionLevelReset s = .next t ∧ (∀ n, n ≠ 16 → (sqOf t n).enable = false ∧ (sqOf t n).cur = none) ∧
      (∀ n, (cqrOf t n).enable = false ∧ (cqrOf t n).hold = [] ∧ (cqrOf t n).wait = []) ∧ (∀ n, (feedOf t n).enable = false) ∧ t.str.graphs = [] ∧
      (∀ r run, runOf t r = some run → ∀ x ∈ run.heats, x.phase.ended = true) ∧
      t.cq.masked = 0xFFFFFFFFFFFFFFFF ∧ t.cq.pba = 0 ∧ t.pins.config = [] ∧ t.glb.flr = false ∧ (sqOf t 16).opened = (sqOf s 16).opened ∧
      (∀ w, (seatOf t w).core = (seatOf s w).core ∧ (seatOf t w).store = (seatOf s w).store) ∧
      (∀ h, (poolOf t h).mem = (poolOf s h).mem) ∧ ∀ c, (ctxOf t c).state = (ctxOf s c).state) ∧
    (∀ off wr, snivanStarted s = false →
      exec (.configurationRequest off wr) s = .next { s with pins := { s.pins with crs := s.pins.crs + 1 } }) ∧
    (∀ off, snivanStarted s = true → ∃ v, exec (.configurationRequest off none) s = .next { s with glb := { s.glb with readData := v } } ∧
      v = configWord s (off / 4 * 4) ∧ (off / 4 = 0 → v = BitVec.ofNat 32 (0x27C5 + 2 ^ 16 * s.glb.device.toNat)) ∧
      (off / 4 = 2 → fld v.toNat 8 24 = 0x120000) ∧ (off / 4 = 4 → fld v.toNat 0 26 = 4) ∧ (off / 4 = 6 → v = 0xC)) ∧
    (∀ off v, snivanStarted s = true → let a := off / 4 * 4
      (configMask a = 0 → exec (.configurationRequest off (some v)) s = .next s) ∧
      (configMask a ≠ 0 → a ≠ Config.pmCap + 4 → ∃ t, exec (.configurationRequest off (some v)) s = .next t ∧
        t = { s with pins := { s.pins with config := t.pins.config }, glb := { s.glb with flr := t.glb.flr } } ∧
        configWord t a = (configWord s a &&& ~~~(configMask a)) ||| (v &&& configMask a) ∧ (∀ b, b ≠ a → configWord t b = configWord s b) ∧
        (t.glb.flr = true ↔ s.glb.flr = true ∨ (a = Config.expressCap + 8 ∧ v.getLsbD 15 = true))))

/-! ## Clocks, time and power (12) -/

/-- 12 R377-R380, R396, 01 R27: a step change stops the domain's clocks with its time standing still, and 120 reference ticks later the domain runs at
the new step, its time going on from where it stood; no other domain is touched. A faster step that the rail does not support raises the rail
instead. Snivan's own changes are spaced, and those of the hardware rows are not; while Snivan restarts nothing goes faster. A settled rail
supplies what was asked for; SET_STEP sets the ceilings of a unit's crews. 12 R392, R399: the power cap. Snivan reads the two rails; the average
of the last ten measurements over the cap in force slows the crews by one step and counts; ten in a row under 95 % of it take one back. A command
that finds its condition unmet changes nothing: the model's choice (log entry 8). -/
def Obligations.StepsAndPowerCap : Prop :=
  (∀ (s : State),
    (∀ d : DomIx, let m := domOf s d.val
      let i := dueStep s d.val
      d.val ≤ 96 → m.locked = true → m.stop = .none → i ≠ m.step → (d.val < 96 → crewRefreshing s d.val = false) → changeSpaced s d.val = true →
      ((d.val = 96 ∨ m.step < i ∨ needMv s i ≤ railMv s (d.val / 48)) →
        ∃ t, exec (.stepChange d) s = .next t ∧ (domOf t d.val).stop = .step ∧ (domOf t d.val).target = i ∧ (domOf t d.val).step = m.step ∧
          domTime t d.val = domTime s d.val ∧ (domOf t d.val).frozen = some (domTime s d.val) ∧ OtherDoms s t d.val ∧ t.pwr = s.pwr) ∧
      (d.val < 96 → i < m.step → railMv s (d.val / 48) < needMv s i →
        ∃ t, exec (.stepChange d) s = .next t ∧ t = { s with pwr := { s.pwr with want := t.pwr.want, supply := t.pwr.supply } })) ∧
    (∀ d : CrewIx, let m := domOf s d.val
      m.locked = true → m.stop = .none → crewRefreshing s d.val = false → changeSpaced s d.val = false →
      (m.step < hardIndex s d.val → ∃ t, exec (.stepChange ⟨d.val, by omega⟩) s = .next t ∧ (domOf t d.val).stop = .step ∧
        (domOf t d.val).target = hardIndex s d.val ∧ domTime t d.val = domTime s d.val ∧ OtherDoms s t d.val) ∧
      (hardIndex s d.val ≤ m.step → exec (.stepChange ⟨d.val, by omega⟩) s = .next s)) ∧
    (∀ d : DomIx, (domOf s d.val).stop = .step →
      (s.clk.ticks < (domOf s d.val).stopTick + 120 → exec (.stepChangeEnd d) s = .next s) ∧
      ((domOf s d.val).stopTick + 120 ≤ s.clk.ticks →
        ∃ t, exec (.stepChangeEnd d) s = .next t ∧ (domOf t d.val).stop = .none ∧ 
          (domOf t d.val).step = (if s.glb.fw = .ready then (domOf s d.val).target else max (domOf s d.val).target (domOf s d.val).step) ∧
          (domOf t d.val).steps = satInc (domOf s d.val).steps ∧ domTime t d.val = domTime s d.val ∧ (domOf t d.val).frozen = none ∧
          OtherDoms s t d.val ∧ t.seats = s.seats)) ∧
    (∀ h : HalfIx, s.pwr.supply.length = 2 → s.pwr.want.length = 2 → ∃ t, exec (.railSettled h) s = .next t ∧
      t = { s with pwr := { s.pwr with supply := t.pwr.supply } } ∧ t.pwr.supply[h.val]? = s.pwr.want[h.val]? ∧
      ∀ k, k ≠ h.val → t.pwr.supply[k]? = s.pwr.supply[k]?) ∧
    (∀ (src : SrcIx) c, commandOf s src.val 0x39 = some c →
      (unitBad s (cUnit c) 1 3 false = true → Answers (exec (.setStep src) s) s src c stBadUnit (1 + 2 ^ 32 * cUnit c)) ∧
      (unitBad s (cUnit c) 1 3 false = false → 6 < cb c 0x10 1 → Answers (exec (.setStep src) s) s src c stBadParameter 0) ∧
      (unitBad s (cUnit c) 1 3 false = false → cb c 0x10 1 ≤ 6 → ∃ u, Answers (exec (.setStep src) s) u src c stSuccess 0 ∧
        (∀ d, domOf u d = if d ∈ unitCrews (cUnit c) then { domOf s d with ceiling := cb c 0x10 1 } else domOf s d) ∧
        u = { s with clk := { s.clk with dom := u.clk.dom }, pwr := { s.pwr with want := u.pwr.want, supply := u.pwr.supply } }))) ∧
  (∀ (s : State) (mvW maW mvE maE : Nat),
    let o := exec (.powerCapMeasure mvW maW mvE maE) s
    let watts := (mvW * maW + mvE * maE) / 1000000
    let xs := ((watts + s.pwr.otherW.toNat) :: s.pwr.samples).take 10
    let cap := max 300 (min 1500 s.pwr.capW.toNat)
    (s.glb.ready = true → s.glb.fw = .ready →
      ∃ t, o = .next t ∧ t.pwr.samples = xs ∧ t.pwr.packageW = BitVec.ofNat 16 (xs.sum / xs.length) ∧
        t.pwr.vdd = [mvW % 65536, mvE % 65536] ∧ t.pwr.capW = s.pwr.capW ∧ t.clk.dom = s.clk.dom ∧
        (cap * xs.length < xs.sum → s.clk.cap < 6 → t.clk.cap = s.clk.cap + 1 ∧ t.pwr.capEvents = satInc s.pwr.capEvents) ∧
        (cap * xs.length < xs.sum → t.pwr.lowRun = 0) ∧
        (¬ (cap * xs.length < xs.sum ∧ s.clk.cap < 6) → t.pwr.capEvents = s.pwr.capEvents) ∧
        (xs.sum * 100 < 95 * cap * xs.length → t.pwr.lowRun = s.pwr.lowRun + 1 ∧
          t.clk.cap = if 10 ≤ s.pwr.lowRun + 1 then s.clk.cap - 1 else s.clk.cap) ∧
        (95 * cap * xs.length ≤ xs.sum * 100 → xs.sum ≤ cap * xs.length → t.pwr.lowRun = 0 ∧ t.clk.cap = s.clk.cap)) ∧
    ((s.glb.ready = false ∨ s.glb.fw ≠ .ready) → o = .next s))

/-- 12 R383-R386: the time base. CLK_TIME_LOAD is refused and counted where the part follows, or where it would move the master back after a run was
admitted; else it waits for the sync. At every 100th tick each running copy that is behind is set to the master, each that is ahead stands still,
and one whose clocks are stopped takes no part. A read of CLK_TIME_LO latches all three words. 10 R340-R342, 13 R421: time roles. TIME_ROLE gives
the part its role; a master's DEPTH is 0, a follower's 0xFF until a sample says that its master is locked. A follower's samples set its lock, its
depth and the master's node; without one for 100 µs, or with its upstream pair down, the lock is lost and the time base runs free. A command that
finds its condition unmet changes nothing: the model's choice (log entry 8). -/
def Obligations.Time : Prop :=
  (∀ (s : State),
    (∀ v : Word, let m := s.clk.setHi ++ s.clk.setLo
      let bad := s.fab.role = 2 ∨ (0 < s.str.admits ∧ m < s.clk.master)
      (v.getLsbD 0 = false → exec (.clkTimeLoad v) s = .next s) ∧
      (v.getLsbD 0 = true → bad →
        exec (.clkTimeLoad v) s = .next { s with clk := { s.clk with refused := satInc s.clk.refused } }) ∧
      (v.getLsbD 0 = true → ¬ bad → exec (.clkTimeLoad v) s = .next { s with clk := { s.clk with load := some m } })) ∧
    (exec .clkTimeLoRead s = .next { s with
      clk := { s.clk with latchLo := s.clk.master.setWidth 32, latchHi := (s.clk.master >>> 32).setWidth 32, latchFrac := s.clk.frac },
      glb := { s.glb with readData := s.clk.master.setWidth 32 } }) ∧
    (s.clk.ticks % 100 = 0 → s.pins.refLost = false →
      ∃ t, exec .timeSync s = .next t ∧ t.clk.load = none ∧ t.str = s.str ∧ t.seats = s.seats ∧
        (s.clk.load = none → t.clk.master = s.clk.master ∧ t.clk.refused = s.clk.refused) ∧
        (∀ m, s.clk.load = some m → s.fab.role ≠ 2 → (s.str.admits = 0 ∨ s.clk.master ≤ m) → t.clk.master = m) ∧
        (∀ m, s.clk.load = some m → (s.fab.role = 2 ∨ 0 < s.str.admits ∧ m < s.clk.master) →
          t.clk.master = s.clk.master ∧ t.clk.refused = satInc s.clk.refused) ∧
        ∀ d, d < 99 → ((domOf s d).stop = .none → domTime s d ≤ t.clk.master → domTime t d = t.clk.master) ∧
          ((domOf s d).stop = .none → t.clk.master < domTime s d → (domOf t d).frozen = some (domTime s d)) ∧
          ((domOf s d).stop ≠ .none → domOf t d = domOf s d)) ∧
    ((s.clk.ticks % 100 ≠ 0 ∨ s.pins.refLost = true) → exec .timeSync s = .next s)) ∧
  (∀ (s : State),
    (∀ (src : SrcIx) (c : Nat), commandOf s src.val 0x3A = some c →
      ((2 < cb c 0x10 1 ∨ 11 < cb c 0x11 1) → Answers (exec (.timeRole src) s) s src c stBadParameter 0) ∧
      (cb c 0x10 1 ≤ 2 → cb c 0x11 1 ≤ 11 → ∃ t, Answers (exec (.timeRole src) s) t src c stSuccess 0 ∧ t.fab.role.toNat = cb c 0x10 1 ∧
        t.fab.upstream.toNat = cb c 0x11 1 ∧ t.clk.master = s.clk.master ∧
        ((s.fab.role.toNat ≠ cb c 0x10 1 ∨ s.fab.upstream.toNat ≠ cb c 0x11 1) →
          t.fab.locked = false ∧ t.fab.offsets = [] ∧ t.clk.slew = 0 ∧ t.fab.depth = if cb c 0x10 1 = 1 then 0 else 0xFF))) ∧
    (∀ (p : PortIx) (fr : Frame) (fs : List Frame), let f := fr.flit.toNat
      Quiet s p.val → Received s p.val fr fs → Plain fr 2 → (∀ k, k < 4 → cf f (2 * k) 2 = (creditOf (portOf s p.val) k).returned) →
      (∀ k, k < 4 → (creditOf (portOf s p.val) k).returned < 65536) → bit (cf f 0x36 1) 0 = true → s.fab.role = 2 → s.fab.upstream.toNat = p.val →
      ∃ t, exec (.controlFrame p) s = .next t ∧ t.fab.locked = bit (cf f 0x36 1) 1 ∧ t.fab.masterNode = cf f 0x38 2 % 4096 ∧
        t.fab.sampleAt = s.clk.ticks ∧ t.fab.depth = (if bit (cf f 0x36 1) 1 then BitVec.ofNat 8 (min 255 (cf f 0x37 1 + 1)) else 0xFF)) ∧
    (let u := s.fab.upstream.toNat
     let lost := (portLive s u = false ∧ portLive s (partner u) = false) ∨ s.fab.sampleAt + 10000 ≤ s.clk.ticks
     (s.fab.role = 2 → lost → exec .timeSampleLoss s =
       .next { s with fab := { s.fab with locked := false, depth := 0xFF }, clk := { s.clk with slew := 0 } }) ∧
     ((s.fab.role ≠ 2 ∨ ¬ lost) → exec .timeSampleLoss s = .next s)))

/-- 12 R382, 15 R454, 16 R478: droop. A supply at or above the level of its crew's step leaves or ends the stretching; one below it stretches and
counts; one at the level where the stretch is greatest counts in its window of 100 us too; one below that is where the part is not defined, and
there the model stops. More than 5 % of a window's cycles at the greatest stretch are recorded, once. 12 R393, R394: a junction sample below 110
degrees: it is kept, and the highest; the clamp takes hold above 103, with its record, and lets go at 98 or below; from Ready on the protection
index rises above 95 and falls after ten samples in a row at 90 or below. At 110 the part trips: THERMTRIP_N, every domain but management stopped,
weigh-enough. 12 R376, 16 R491: the loss of the reference, or of one generator's lock, stops its domains, whose times stand still, and brings the
chip to weigh-enough with ALERT_N. A command that finds its condition unmet changes nothing: the model's choice (log entry 8). -/
def Obligations.DroopHeatAndClocks : Prop :=
  (∀ (s : State) (q : CrewIx) (mv : Nat),
    let m := domOf s q.val
    let need := ([850, 800, 760, 720, 680, 630, 600] : List Nat).getD m.step 600
    let mhz := ([2500, 2250, 2000, 1750, 1500, 1000, 500] : List Nat).getD m.step 500
    let window := s.clk.ticks / 10000
    (m.stop = .none →
      (need ≤ mv → ∃ t, exec (.droopStretching q mv) s = .next t ∧ domOf t q.val = { m with stretched := false } ∧
        OtherDoms s t q.val ∧ t = { s with clk := { s.clk with dom := t.clk.dom } }) ∧
      (mv < need → Config.maxStretchMv need < mv → ∃ t, exec (.droopStretching q mv) s = .next t ∧
        domOf t q.val = { m with stretched := true, droop := satInc m.droop } ∧ OtherDoms s t q.val ∧ t.seats = s.seats ∧ t.flt = s.flt) ∧
      (mv < need → mv = Config.maxStretchMv need → ∃ t, exec (.droopStretching q mv) s = .next t ∧
        (domOf t q.val).stretched = true ∧ (domOf t q.val).droop = satInc m.droop ∧ (domOf t q.val).sagWindow = window ∧
        (domOf t q.val).sagged = (if m.sagWindow = window then m.sagged + 1 else 1) ∧
        (domOf t q.val).sagDone = (m.sagDone && m.sagWindow == window) ∧ OtherDoms s t q.val ∧ t.seats = s.seats ∧ t.flt = s.flt) ∧
      (mv < need → mv < Config.maxStretchMv need → exec (.droopStretching q mv) s = .fault .supplyBelowDefined)) ∧
    (m.stop ≠ .none → exec (.droopStretching q mv) s = .next s) ∧
    (m.sagWindow = window → m.sagDone = false → 100 * mhz < 20 * m.sagged →
      ∃ t r, exec (.sustainedDroop q) s = .next t ∧ t.flt.path = s.flt.path ++ [r] ∧ r.code = 0x0204 ∧ r.kind = 5 ∧
        r.unit = unitRef 1 s.chain.node (q.val / 48) (q.val % 48) 0 0 ∧ (domOf t q.val).sagDone = true ∧ OtherDoms s t q.val ∧
        t.seats = s.seats) ∧
    ((m.sagWindow ≠ window ∨ m.sagDone = true ∨ 20 * m.sagged ≤ 100 * mhz) → exec (.sustainedDroop q) s = .next s)) ∧
  (∀ (s : State) (q : CrewIx) (tj : Byte),
    let m := domOf s q.val
    let c := tj.toInt
    let loop := s.glb.ready = true ∧ s.glb.fw = .ready
    (halfBoated s (q.val / 48) = false → c < 110 →
      ∃ t, exec (.junctionSample q tj) s = .next t ∧ (domOf t q.val).tj = tj ∧ OtherDoms s t q.val ∧ t.seats = s.seats ∧
        t.pwr.tjMax = (if s.pwr.tjMax.toInt < c then tj else s.pwr.tjMax) ∧
        (domOf t q.val).clamped = (if 103 < c then true else if c ≤ 98 then false else m.clamped) ∧
        (103 < c → m.clamped = false → t.pwr.clamps = satInc s.pwr.clamps ∧ ∃ r, t.flt.path = s.flt.path ++ [r] ∧ r.code = 0x0205) ∧
        ((c ≤ 103 ∨ m.clamped = true) → t.flt = s.flt ∧ t.pwr.clamps = s.pwr.clamps) ∧
        (¬ loop → (domOf t q.val).prot = m.prot ∧ (domOf t q.val).cool = m.cool) ∧
        (loop → 95 < c → (domOf t q.val).prot = min 6 (m.prot + 1) ∧ (domOf t q.val).cool = 0) ∧
        (loop → 90 < c → c ≤ 95 → (domOf t q.val).prot = m.prot ∧ (domOf t q.val).cool = 0) ∧
        (loop → c ≤ 90 → m.cool + 1 = 10 → (domOf t q.val).prot = m.prot - 1 ∧ (domOf t q.val).cool = 0) ∧
        (loop → c ≤ 90 → m.cool + 1 ≠ 10 → (domOf t q.val).prot = m.prot ∧ (domOf t q.val).cool = m.cool + 1)) ∧
    (110 ≤ c → s.pins.thermtrip = false →
      ∃ t, exec (.thermtrip q tj) s = .next t ∧ Halts s t 0x0302 ∧ Alerts s t 4 ∧ t.pins.thermtrip = true ∧ t.flt.alertHold = true ∧
        SameDom s t 99 ∧ ∀ d, d < 99 → (domOf t d).stop = .generator ∧ domTime t d = domTime s d) ∧
    (c < 110 → exec (.thermtrip q tj) s = .next s)) ∧
  (∀ (s : State),
    (s.pins.refLost = false → ∃ t, exec .clkReflost s = .next t ∧ Halts s t 0x0301 ∧ Alerts s t 5 ∧ t.flt.alertHold = true ∧
      t.pins.refLost = true ∧ SameDom s t 99 ∧ ∀ d, d < 99 → (domOf t d).stop = .generator ∧ domTime t d = domTime s d) ∧
    (s.pins.refLost = true → exec .clkReflost s = .next s) ∧
    (∀ d : DomIx, (domOf s d.val).locked = true → ∃ t r l, exec (.clkUnlock d) s = .next t ∧ Halts s t 0x0300 ∧ Alerts s t 6 ∧
      t.flt.alertHold = true ∧ (domOf t d.val).locked = false ∧ (domOf t d.val).stop = .generator ∧
      (∀ e, e ≠ d.val → SameDom s t e) ∧ t.flt.path = s.flt.path ++ r :: l ∧ r.detail = detail d.val (domOf s d.val).tj.toNat 0 0 0) ∧
    (∀ d : DomIx, (domOf s d.val).locked = false → exec (.clkUnlock d) s = .next s))

/-- 01 R20, 12 R388, R389, 07 R218: power requests. A request waits until its members have performed it; a higher one starts the wakes it needs and
takes away the lower ones that it meets; Boated is refused while a graph lies there. Snivan enters a member only where its conditions hold: a crew
loses nothing in Paddle, a half keeps its memories in Easy and loses them, with its generations, in Boated; the chip in Boated stops the seam, the
fabric complex and its ports. 12 R389, R390, R391, 09 R299, 05 R175: time-outs, idle crews and wakes. A request not met in 100 ms is withdrawn and
answered; an idle crew goes to Paddle by itself, after PWR_PADDLE_IDLE_US, where PWR_AUTO_PADDLE asks; a held packet or a heat wakes a crew or a
half. A half that leaves Easy has no refresh debt, and the accesses held for its pool take place; one that leaves Boated is to be filled with
zeros. A command that finds its condition unmet changes nothing: the model's choice (log entry 8). -/
def Obligations.PowerStates : Prop :=
  (∀ (s : State),
    (∀ (src : SrcIx) (c : Nat), let n := cb c 0x10 1
      let u := cUnit c
      let r : PwrReq := { unit := BitVec.ofNat 32 u, state := n, src := src.val, cid := cCid c, tick := s.clk.ticks }
      commandOf s src.val 0x38 = some c →
      (unitBad s u (if n ≤ 1 then 1 else 2) 3 false = true → Answers (exec (.powerState src) s) s src c stBadUnit (1 + 2 ^ 32 * u)) ∧
      (unitBad s u (if n ≤ 1 then 1 else 2) 3 false = false → n = 3 → (∃ g ∈ s.str.graphs, g.2.half ∈ unitHalves u) →
        Answers (exec (.powerState src) s) s src c stBusy 0) ∧
      (unitBad s u (if n ≤ 1 then 1 else 2) 3 false = false → n ≤ 3 → (n = 3 → ∀ g ∈ s.str.graphs, g.2.half ∉ unitHalves u) →
        ∃ t, exec (.powerState src) s = .next t ∧ (sqOf t src.val).cur = none ∧ t.seats = s.seats ∧ t.pwr.half = s.pwr.half ∧
          (∀ o ∈ s.pwr.reqs, n < o.state → reqsMeet o r = true → o ∉ t.pwr.reqs) ∧
          (∀ q ∈ unitCrews u, n < crewState s q → (crewState s q = 1 → (domOf t q).waking = true) ∧
            (2 ≤ crewState s q → tget false t.pwr.waking (q / 48) = true)) ∧
          ((∀ o ∈ s.pwr.reqs, ¬ (n < o.state ∧ reqsMeet o r = true)) → (∀ q ∈ unitCrews u, crewState s q ≤ n) →
            (∀ o ∈ s.pwr.reqs ++ [r], reqMet s o = false) → t.pwr = { s.pwr with reqs := s.pwr.reqs ++ [r] } ∧ t.cq.cq = s.cq.cq))) ∧
    (∀ (i : Nat) (r : PwrReq), s.pwr.reqs[i]? = some r → s.glb.fw = .ready →
      (r.state = 1 → ∃ t, exec (.powerStateEntry i) s = .next t ∧ t.seats = s.seats ∧ t.pools = s.pools ∧
        ∀ d, domOf t d = if d ∈ unitCrews r.unit.toNat ∧ crewAwake s d = true ∧ paddleMay s d = true then
          { domOf s d with paddle := true, waking := false } else domOf s d) ∧
      (r.state = 2 → uLevel r.unit.toNat = 2 → let h := uHalf r.unit.toNat
        tget 0 s.pwr.half h < 2 → tget false s.pwr.waking h = false →
        (easyMay s h = true → ∃ t, exec (.powerStateEntry i) s = .next t ∧ halfEasy t h = true ∧ t.seats = s.seats ∧ t.pools = s.pools ∧
          ∀ d, d / 48 = h → d < 96 → (domOf t d).stop = .generator) ∧
        (easyMay s h = false → ∃ t, exec (.powerStateEntry i) s = .next t ∧ t.pwr.half = s.pwr.half ∧ t.clk = s.clk)) ∧
      (r.state = 3 → uLevel r.unit.toNat = 2 → let h := uHalf r.unit.toNat
        tget 0 s.pwr.half h < 3 → tget false s.pwr.waking h = false →
        (boatedMay s h = true → ∃ t, exec (.powerStateEntry i) s = .next t ∧ halfBoated t h = true ∧
          (∀ w, halfOf w = h → seatOf t w = { disabled := (seatOf s w).disabled, failed := (seatOf s w).failed }) ∧
          (∀ w, halfOf w ≠ h → seatOf t w = seatOf s w) ∧ (poolOf t h).mem = [] ∧ (poolOf t h).on = 0 ∧ OtherPools s t h ∧
          ∀ c, ((ctxOf s c).g0.state ≠ .empty → 0 < (ctxOf s c).g0.segs → (ctxOf s c).g0.inHalf h = true →
            (ctxOf t c).g0.complete = false)) ∧
        (boatedMay s h = false → ∃ t, exec (.powerStateEntry i) s = .next t ∧ t.pwr.half = s.pwr.half ∧ t.seats = s.seats)) ∧
      (r.state = 3 → uLevel r.unit.toNat = 3 → halfBoated s 0 = true → halfBoated s 1 = true → s.pwr.chipBoated = false →
        (∀ p, p < 12 → (portOf s p).unacked = []) → ∃ t, exec (.powerStateEntry i) s = .next t ∧ t.pwr.chipBoated = true ∧
          (∀ p, p < 12 → (portOf t p).state = .off) ∧ ∀ d, d = 96 ∨ d = 97 → (domOf t d).stop = .generator))) ∧
  (∀ (s : State),
    (∀ (i : Nat) (r : PwrReq), s.pwr.reqs[i]? = some r → s.glb.fw = .ready →
      (s.clk.ticks < r.tick + 10000000 → exec (.powerRequestTimeout i) s = .next s) ∧
      (r.tick + 10000000 ≤ s.clk.ticks → (∀ m ∈ reqMembers s r, memberDone s r m.1 = false) →
        exec (.powerRequestTimeout i) s = .next (answerLate { s with pwr := { s.pwr with reqs := dropAt s.pwr.reqs i } } r.src r.cid stBusy 0))) ∧
    (∀ q : CrewIx, s.glb.fw = .ready → crewAwake s q.val = true → paddleMay s q.val = true →
      (s.pwr.autoPaddle = true → (domOf s q.val).idleAt + 100 * s.pwr.idleUs.toNat ≤ s.clk.ticks →
        ∃ t, exec (.autoPaddle q) s = .next t ∧ domOf t q.val = { domOf s q.val with paddle := true, waking := false } ∧
        OtherDoms s t q.val ∧ t.seats = s.seats) ∧
      ((s.pwr.autoPaddle = false ∨ s.clk.ticks < (domOf s q.val).idleAt + 100 * s.pwr.idleUs.toNat) →
        exec (.autoPaddle q) s = .next s)) ∧
    (∀ u : Word, let q := uQ u.toNat
      uLevel u.toNat = 1 → uCrew u.toNat < 48 →
      ((domOf s q).paddle = true → crewWanted s q = true → ∃ t, exec (.wakeRequest u) s = .next t ∧
        domOf t q = { domOf s q with waking := true } ∧ OtherDoms s t q ∧ t = { s with clk := t.clk }) ∧
      ((domOf s q).paddle = true → (domOf s q).waking = true → ∃ t, exec (.wakeComplete u) s = .next t ∧
        domOf t q = { domOf s q with paddle := false, waking := false, idleAt := s.clk.ticks } ∧ OtherDoms s t q ∧
        t.seats = s.seats ∧ t.noc = s.noc)) ∧
    (∀ u : Word, let h := uHalf u.toNat
      uLevel u.toNat = 2 →
      (halfEasy s h = true → halfWanted s h = true → ∃ t, exec (.wakeRequest u) s = .next t ∧ tget false t.pwr.waking h = true ∧
        t = { s with pwr := { s.pwr with waking := t.pwr.waking } }) ∧
      (halfEasy s h = true → tget false s.pwr.waking h = true → ∃ t, exec (.wakeComplete u) s = .next t ∧ tget 0 t.pwr.half h = 0 ∧
        (∀ w, w < 2304 → halfOf w = h → seatOf t w = { seatOf s w with wst := (seatOf s w).wst.afresh s.clk.ticks }) ∧
        (∀ w, w < 2304 → halfOf w ≠ h → seatOf t w = seatOf s w) ∧ (poolOf t h).bar2Held = [] ∧ OtherPools s t h ∧
        ((poolOf s h).bar2Held = [] → (poolOf t h).mem = (poolOf s h).mem) ∧
        (∀ o len d, (poolOf s h).bar2Held = [(o, len, some d)] → o + len ≤ 0x50000000 → 0 < len → o / 64 = (o + len - 1) / 64 →
          segOpen (poolOf s h) o = true → StoresAt (poolOf s h).mem (poolOf t h).mem o (mbytes d 0 len))) ∧
      (halfBoated s h = true → tget false s.pwr.waking h = true → ∃ t, exec (.wakeComplete u) s = .next t ∧ tget 0 t.pwr.half h = 0 ∧
        221184 + h ∈ t.ctxs.zeroing ∧
        (∀ w, w < 2304 → halfOf w = h → (∀ b, b < 96 → SideWork.fill (1024 * b) 1024 ∈ (seatOf t w).wst.work) ∧
          (seatOf t w).store = (seatOf s w).store) ∧
        ∀ w, w < 2304 → halfOf w ≠ h → seatOf t w = seatOf s w)))

/-- 15 R467: FAULT_CLEAR with what = 1. It is refused with HALTED while HALT_N is treated as asserted, and with BUSY while a class drains or for a
cause that only RESET_N clears; else it clears the weigh-enough and leaves the context marks and the seats. -/
def Obligations.WeighEnoughCleared : Prop :=
  ∀ (s : State) (src : SrcIx) (c : Nat), commandOf s src.val 0x31 = some c → cb c 0x10 1 = 1 →
    let fixed := s.flt.haltCode = 0x300 ∨ s.flt.haltCode = 0x301 ∨ s.flt.haltCode = 0x302
    (s.pwr.haltActive = true → Answers (exec (.faultClearWeighEnough src) s) s src c stHalted 0) ∧
    (s.pwr.haltActive = false → ((∃ p ∈ s.str.classes, p.2.state = 2) ∨ fixed) →
      Answers (exec (.faultClearWeighEnough src) s) s src c stBusy 0) ∧
    (s.pwr.haltActive = false → (∀ p ∈ s.str.classes, p.2.state ≠ 2) → ¬ fixed →
      ∃ u, Answers (exec (.faultClearWeighEnough src) s) u src c stSuccess 0 ∧ u.glb = { s.glb with halted := false } ∧ u.flt.haltCode = 0 ∧
        u.chain = { s.chain with fleetHalt := false } ∧ u.pins.alert = (s.pins.alert && s.flt.alertHold) ∧
        u.flt.faulted = s.flt.faulted ∧ u.flt.log = s.flt.log ∧ u.seats = s.seats)

/-- 12 R395-R397, 14 R450, 15 R466, 16 R488: HALT_N, PWR_LIMIT_N, HALT symbols and WEIGH_ENOUGH. An input must hold its level for 1 us to count, and
100 us to be let go; a qualified HALT_N and a HALT bring weigh-enough at once, or once Snivan is ready; a fleet halt sends 16 HALT symbols once. A
command that finds its condition unmet changes nothing: the model's choice (log entry 8). -/
def Obligations.WeighEnough : Prop :=
  ∀ (s : State) (ns : Nat),
    (∀ src : SrcIx, ∀ c, commandOf s src.val 0x30 = some c →
      (unitBad s (cUnit c) 3 4 false = true → Answers (exec (.weighEnough src) s) s src c stBadUnit (1 + 2 ^ 32 * cUnit c)) ∧
      (unitBad s (cUnit c) 3 4 false = false → ∃ u, Answers (exec (.weighEnough src) s) u src c stSuccess 0 ∧ Halts s u 0x0305 ∧
        (uLevel (cUnit c) = 4 → u.chain.fleetHalt = true ∧
          u.chain.sternHalts = s.chain.sternHalts + (if s.chain.fleetHalt = true then 0 else 16)) ∧
        (uLevel (cUnit c) ≠ 4 → u.chain = s.chain))) ∧
    (s.pins.reset = false → s.pwr.haltActive = false →
      (ns < 1000 → exec (.haltAssert ns) s = .next s) ∧
      (1000 ≤ ns → ∃ t, exec (.haltAssert ns) s = .next t ∧ t.pwr.haltActive = true ∧
        (startingUp s = false → Halts s t 0x0306) ∧
        (startingUp s = true → t.glb.halted = s.glb.halted ∧ t.glb.lateHalt ≠ none ∧ t.str = s.str) ∧
        (s.pwr.haltFleet = true → t.chain.fleetHalt = true) ∧ (s.pwr.haltFleet = false → t.chain = s.chain))) ∧
    (s.pins.reset = false → s.pwr.haltActive = true →
      (100000 ≤ ns → exec (.haltDeassert ns) s = .next { s with pwr := { s.pwr with haltActive := false, haltLoose := false } }) ∧
      (ns < 100000 → ∃ t, exec (.haltDeassert ns) s = .next t ∧ t.pwr.haltActive = true)) ∧
    (s.pins.reset = false → s.pwr.limitActive = false →
      (ns < 1000 → exec (.limitAssert ns) s = .next s) ∧
      (1000 ≤ ns → ∃ t, exec (.limitAssert ns) s = .next t ∧ t.pwr.limitActive = true ∧ t.glb = s.glb ∧
        ∀ d, d < 96 → (domOf s d).stop = .step → (domOf s d).target < limitStep s → (domOf t d).target = limitStep s)) ∧
    (s.pins.reset = false → s.pwr.limitActive = true →
      (100000 ≤ ns → exec (.limitDeassert ns) s = .next { s with pwr := { s.pwr with limitActive := false, limitLoose := false } }) ∧
      (ns < 100000 → ∃ t, exec (.limitDeassert ns) s = .next t ∧ t.pwr.limitActive = true)) ∧
    (s.pins.reset = false →
      (s.chain.fleetHalt = true → exec .haltSymbol s = .next { s with chain := { s.chain with halts := satInc s.chain.halts } }) ∧
      (s.chain.fleetHalt = false → startingUp s = false → ∃ t, exec .haltSymbol s = .next t ∧ Halts s t 0x0307 ∧
        t.chain = { s.chain with halts := satInc s.chain.halts, fleetHalt := true, sternHalts := s.chain.sternHalts + 16 }))

/-! ## Faults (15) -/

/-- 01 R26, R33, 15 R453, R458, R459, R468: the chip log. A record that the arbiter accepts takes the next number and its slot, whatever stood there,
an unread one counted as overrun; a seat fault asks for the abort of its heat. FLT_ACK_SEQ takes what is written, GLB_EVENTS loses the bits
written as 1. LOG_READ gives consecutive records from the number asked for, or from the oldest held, and writes them to the host's buffer and
nowhere else. -/
def Obligations.FaultLog : Prop :=
  ∀ (s : State),
    (∀ (i : Nat) (r : Record), s.flt.path[i]? = some r →
      let n := nextSeq s.flt.lastSeq
      let old := tget {} s.flt.log (n.toNat % 1024)
      let lost := old.seq ≠ 0 ∧ seqAfter old.seq s.flt.ackSeq = true
      ∃ t, exec (.recordLogged i) s = .next t ∧ t.flt.lastSeq = n ∧ t.flt.path = dropAt s.flt.path i ∧ t.flt.ackSeq = s.flt.ackSeq ∧
        tget {} t.flt.log (n.toNat % 1024) = { r with seq := n } ∧
        (∀ k, k ≠ n.toNat % 1024 → tget {} t.flt.log k = tget {} s.flt.log k) ∧
        (lost → t.flt.overrun = satInc s.flt.overrun) ∧ (¬ lost → t.flt.overrun = s.flt.overrun) ∧ t.glb.events.getLsbD 0 = true ∧
        (∀ x, (r.kind = 0 ∨ r.kind = 2) → r.heat ≠ 0xFFFF → heatOf s r.run.toNat r.heat.toNat = some x → x.phase = .dispatched →
          x.epoch = r.epoch → x.abortReq = none → heatOf t r.run.toNat r.heat.toNat = some { x with abortReq := some (16, n) })) ∧
    (∀ v, exec (.ackSeqWrite v) s = .next { s with flt := { s.flt with ackSeq := v } }) ∧
    (∀ v, exec (.eventsClear v) s = .next { s with glb := { s.glb with events := s.glb.events &&& ~~~(v.setWidth 5) } }) ∧
    (∀ (src : SrcIx) (c : Nat), commandOf s src.val 0x41 = some c → 1 ≤ cb c 0x14 2 → cb c 0x14 2 ≤ 1024 →
      let rs := logFrom s (BitVec.ofNat 32 (cb c 0x10 4)) (cb c 0x14 2)
      (src.val ≠ 16 → Answers (exec (.logRead src false) s) s src c stHostAccess 0) ∧
      rs.length ≤ cb c 0x14 2 ∧ (∀ a ∈ rs, logHas s a.seq = true) ∧
      (∀ k a b, rs[k]? = some a → rs[k + 1]? = some b → b.seq = nextSeq a.seq) ∧
      (logHas s (BitVec.ofNat 32 (cb c 0x10 4)) = true → seqAfter (BitVec.ofNat 32 (cb c 0x10 4)) s.flt.lastSeq = false →
        (∃ a ∈ heldFrom s 1024 s.flt.lastSeq, a.seq = BitVec.ofNat 32 (cb c 0x10 4)) → rs.head?.map (·.seq) = some (BitVec.ofNat 32 (cb c 0x10 4))) ∧
      (src.val ≠ 16 → ∃ u res, Answers (exec (.logRead src true) s) u src c stSuccess res ∧ fld res 0 16 = rs.length % 2 ^ 16 ∧
        fld res 64 32 = s.flt.overrun.toNat ∧ u = { s with hostMem := u.hostMem } ∧
        StoresAt s.hostMem u.hostMem (cb c 0x18 8) (rs.map fun r => bytesOf (recordNat r) 64).flatten) ∧
      (src.val = 16 → ∀ ok, ∃ u res, Answers (exec (.logRead src ok) s) u src c stSuccess res ∧ fld res 0 16 = rs.length % 2 ^ 16 ∧
        fld res 64 32 = s.flt.overrun.toNat ∧ u = { s with cq := { s.cq with i3cData := u.cq.i3cData } })) ∧
    (∀ (src : SrcIx) (c : Nat), commandOf s src.val 0x41 = some c → (cb c 0x14 2 = 0 ∨ 1024 < cb c 0x14 2) → ∀ ok,
      Answers (exec (.logRead src ok) s) s src c stBadParameter 0)

/-- 15 R461-R464, R469, R471, 01 R27: Snivan handles the records in log order, and only while it serves. A record of a seat fault marks its context; a
hold that waited for it is released and its context marked; one of a hardware fault fences its seat, which the log's record then says; the record
whose handler failed only marks. FAULT_CLEAR clears a context's mark. A handler that traps, and a watchdog that runs out, bring weigh-enough with
ALERT_N, and Snivan starts again. 13 R411, 15 R470, R472, 14 R441, 09 R282, R283: FENCE_SEAT begins in the background; it marks each seat of its
unit that is neither disabled nor fenced, aborts the heat on it, and leaves every other seat's mark; with flag 0 each is appended to the fence log
while that has room. RESULT gives their number. A command that finds its condition unmet changes nothing: the model's choice (log entry 8). -/
def Obligations.HandlingAndFences : Prop :=
  (∀ (s : State),
    ((s.flt.handled = s.flt.lastSeq ∨ s.glb.fw ≠ .ready) → exec .recordHandling s = .next s) ∧
    (s.flt.handled ≠ s.flt.lastSeq → s.glb.fw = .ready →
      let n := nextSeq s.flt.handled
      let r := logSlot s n.toNat
      ∃ t, exec .recordHandling s = .next t ∧ t.flt.handled = n ∧ t.flt.lastSeq = s.flt.lastSeq ∧
        t.flt.ackSeq = s.flt.ackSeq ∧ (∀ k, k ≠ n.toNat % 1024 → tget {} t.flt.log k = tget {} s.flt.log k) ∧
        (∃ fl, logSlot t n.toNat = { r with flags := fl } ∧ (fl = r.flags ∨ fl = r.flags ||| 4)) ∧
        (∀ h ∈ s.flt.holds, h.seq = some n → h.ctx < 16 → t.flt.faulted.getLsbD h.ctx = true) ∧
        (logHas s n = true → s.glb.skip ≠ some n → marksContext r = true → r.ctx.toNat < 16 → t.flt.faulted.getLsbD r.ctx.toNat = true) ∧
        (logHas s n = true → s.glb.skip = some n → r.ctx.toNat < 16 → t.flt.faulted.getLsbD r.ctx.toNat = true ∧ t.glb.skip = none) ∧
        (logHas s n = true → s.glb.skip ≠ some n → 0x80 ≤ r.code → r.code ≤ 0x82 → r.phys ≠ 0xFF → r.kind ≠ 4 →
          (seatOf s (recSeat r)).disabled = false → seatFenced t (recSeat r) = true ∧
            (seatFenced s (recSeat r) = false → (logSlot t n.toNat).flags = r.flags ||| 4)) ∧
        (∀ c, c < 16 → s.flt.faulted.getLsbD c = true → t.flt.faulted.getLsbD c = true) ∧
        (∀ c, c < 16 → (∀ h ∈ s.flt.holds, h.seq = some n → h.ctx ≠ c) → r.ctx.toNat ≠ c →
          t.flt.faulted.getLsbD c = s.flt.faulted.getLsbD c)) ∧
    (∀ (src : SrcIx) (c : Nat), commandOf s src.val 0x31 = some c → cb c 0x10 1 = 0 →
      (15 < cb c 0x11 1 → Answers (exec (.faultClearContext src) s) s src c stBadParameter 0) ∧
      (cb c 0x11 1 ≤ 15 → (ctxOf s (cb c 0x11 1)).state = .free → Answers (exec (.faultClearContext src) s) s src c stNoContext 0) ∧
      (cb c 0x11 1 ≤ 15 → (ctxOf s (cb c 0x11 1)).state ≠ .free → ∃ u, Answers (exec (.faultClearContext src) s) u src c stSuccess 0 ∧
        u = { s with flt := { s.flt with faulted := u.flt.faulted } } ∧
        ∀ k, k < 16 → u.flt.faulted.getLsbD k = (s.flt.faulted.getLsbD k && k != cb c 0x11 1))) ∧
    (∀ puf, s.flt.handled ≠ s.flt.lastSeq → s.glb.fw = .ready → ∃ t r l, exec (.snivanHandler puf) s = .next t ∧ Halts s t 0x0304 ∧
      Alerts s t 3 ∧ t.glb.skip = some (nextSeq s.flt.handled) ∧ t.glb.fw ≠ .ready ∧ t.flt.handled = s.flt.handled ∧
      t.flt.path = s.flt.path ++ r :: l ∧ r.detail = detail 0 0 0 (nextSeq s.flt.handled).toNat 0) ∧
    (∀ puf, (s.glb.fw = .ready ∨ s.glb.fw = .starting) → s.glb.fwTick + 25000000 ≤ s.clk.ticks → ∃ t, exec (.mgmtWatchdog puf) s = .next t ∧ Halts s t 0x0303 ∧ t.glb.fw ≠ .ready ∧
      t.pins.alert = true ∧ t.glb.activate = false ∧ (puf = true → t.glb.bootCause = 2 ∨ t.glb.bootCause = 4)) ∧
    (∀ puf, s.clk.ticks < s.glb.fwTick + 25000000 → exec (.mgmtWatchdog puf) s = .next s)) ∧
  (∀ (s : State) (src : SrcIx) (c : Nat),
    let o := exec (.fenceSeat src) s
    let u := cUnit c
    let ws := (unitSeats s u).filter fun w => !fenceNeedless s w
    (commandOf s src.val 0x32 = some c → BeginsLate s src c o) ∧
    (RunsLate s src 0x32 c →
      (unitBad s u 0 3 true = true → AnswersLate o s src c stBadUnit (1 + 2 ^ 32 * u)) ∧
      (unitBad s u 0 3 true = false → 1 < cb c 0x10 1 → AnswersLate o s src c stBadParameter 0) ∧
      (unitBad s u 0 3 true = false → cb c 0x10 1 ≤ 1 →
        ∃ t st, AnswersLate o t src c st (2 ^ 64 * ws.length) ∧
          (∀ w ∈ ws, seatFenced t w = true ∧ (mapOf t (crewOf w)).due = true) ∧
          (∀ w, w ∉ ws → seatFenced t w = seatFenced s w) ∧ (∀ q, (mapOf t q).phys = (mapOf s q).phys) ∧
          (∀ w r h x, ws = [w] → seatHeat s w = some (r, h) → heatOf s r h = some x → x.phase = .dispatched → HeatEnds s t r h .aborted ∧
            ∀ run, runOf s r = some run → HeatEntryOut s t run.ring r h 2 19 0) ∧
          (cb c 0x10 1 = 0 → t.sec.flash = s.sec.flash ∧ st = stSuccess) ∧
          (cb c 0x10 1 = 1 → t.sec.flash.fences.length = min (max 256 s.sec.flash.fences.length) (s.sec.flash.fences.length + ws.length) ∧
            st = if 256 - s.sec.flash.fences.length < ws.length then 0x58 else stSuccess))))

/-! ## Registers and ports (13 R404-R407, R421, 14 R451, 16 R489) -/

/-- 12 R390, R398, R399, 13 R403-R407, R410, R421, 05 R154, R183, 06 R210: REGISTER_WRITE, SEAT_WINDOW_ACCESS and TELEMETRY complete. An access of
another size than a word, misaligned, or to a reserved offset is dropped and counted in GLB_BAD_ACCESS, and a read of it gives 0; any other read
gives the register. A write of a register sets its own fields; ENABLE keeps BASE; a window access reads or writes the one word that the window's
space and base name, waits during a core-memory fill, and is refused for a page in use. TELEMETRY writes each block named, its offset, length and
registers, or, where the buffer is too small, the whole blocks that fit. 14 R443, R451, 16 R489, 13 R403: the other ports. The I3C port takes a
command of 64 bytes once it has an address and Snivan serves, and its reply is read once. The TAP loads a boundary instruction only in reset and a
private one only with debug access, else BYPASS. IDE is established only with Snivan ready. A command that finds its condition unmet changes
nothing: the model's choice (log entry 8). -/
def Obligations.RegistersAndPorts : Prop :=
  (∀ (s : State),
    (∀ off size, isMsix off size = false → (size ≠ 4 ∨ off % 4 ≠ 0 ∨ bar0Read s off = none) →
      (∀ v, exec (.registerWrite off size (some v)) s = .next { s with glb := { s.glb with bad := satInc s.glb.bad } }) ∧
      exec (.registerWrite off size none) s = .next { s with glb := { s.glb with bad := satInc s.glb.bad, readData := 0 } }) ∧
    (∀ off v, bar0Read s off = some v → windowOf off = none →
      exec (.registerWrite off 4 none) s = .next { s with glb := { s.glb with readData := BitVec.ofNat 32 v } }) ∧
    (∀ off v w o, bar0Read s off = some v → windowOf off = some (w, o) →
      ∃ t, exec (.registerWrite off 4 none) s = .next t ∧ t.glb = { s.glb with readData := BitVec.ofNat 32 v } ∧ t.seats = s.seats ∧
        ((domOf s (crewOf w)).paddle = true → (domOf t (crewOf w)).waking = true) ∧ OtherDoms s t (crewOf w)) ∧
    (s.glb.fw ≠ .recovery → ∀ v : BitVec 64, let x : Word := v.setWidth 32
      exec (.registerWrite 0x24 4 (some v)) s = .next { s with glb := { s.glb with eventMask := x.setWidth 5 } } ∧
      exec (.registerWrite 0x20 4 (some v)) s = .next { s with glb := { s.glb with events := s.glb.events &&& ~~~(x.setWidth 5) } } ∧
      exec (.registerWrite 0x300008 4 (some v)) s = .next { s with flt := { s.flt with ackSeq := x } } ∧
      exec (.registerWrite 0x400010 4 (some v)) s = .next { s with clk := { s.clk with setLo := x } } ∧
      exec (.registerWrite 0x400014 4 (some v)) s = .next { s with clk := { s.clk with setHi := x } } ∧
      exec (.registerWrite 0x400040 4 (some v)) s = .next { s with clk := { s.clk with limit := x.setWidth 3 } } ∧
      exec (.registerWrite 0x400100 4 (some v)) s =
        .next { s with pwr := { s.pwr with autoPaddle := x.getLsbD 3, haltFleet := x.getLsbD 2 } } ∧
      exec (.registerWrite 0x400000 4 (some v)) s = .next s ∧ exec (.registerWrite 0 4 (some v)) s = .next s ∧
      (∀ r : RingIx, (sqOf s r.val).enable = false →
        exec (.registerWrite (0x100000 + 0x80 * r.val) 4 (some v)) s = .next (modSq s r.val fun q => { q with baseLo := (x >>> 12).setWidth 20 }) ∧
        exec (.registerWrite (0x100004 + 0x80 * r.val) 4 (some v)) s = .next (modSq s r.val fun q => { q with baseHi := x })) ∧
      (∀ r : RingIx, (sqOf s r.val).enable = true → ∃ t, exec (.registerWrite (0x100000 + 0x80 * r.val) 4 (some v)) s = .next t ∧
        sqOf t r.val = sqOf s r.val)) ∧
    (s.glb.fw = .recovery → ∀ (v : BitVec 64) (k : Nat), k < 0x40000 →
      exec (.registerWrite (0x700000 + 4 * k) 4 (some v)) s =
        .next { s with glb := { s.glb with recWin := mwrites s.glb.recWin (4 * k) (bytesOf (v.setWidth 32).toNat 4) } }) ∧
    (∀ (w : SeatIx) (off : Nat), let x := seatOf s w.val
      let a := 1024 * x.winBase.toNat + off
      let inMem := (x.winSpace = 1 ∧ a + 4 ≤ 0x60000) ∨ (x.winSpace = 2 ∧ a + 4 ≤ 0x10000)
      let held := x.winSpace = 1 ∧ x.cox.filling = true
      off % 4 = 0 → off < 1024 → x.disabled = false → (domOf s (crewOf w.val)).paddle = false →
      (inMem → ¬ held → exec (.seatWindowAccess w off none) s =
        .next { s with glb := { s.glb with readData := BitVec.ofNat 32 (mrd (if x.winSpace = 1 then x.core else x.desc) a 4) } }) ∧
      (inMem → held → exec (.seatWindowAccess w off none) s =
        .next (modSeat s w.val fun x => { x with winWait := x.winWait ++ [(a, none)] })) ∧
      (halfBoated s (halfOf w.val) = false → ∀ v : Word,
        (inMem → held → exec (.seatWindowAccess w off (some v)) s =
          .next (modSeat s w.val fun x => { x with winWait := x.winWait ++ [(a, some v)] })) ∧
        (inMem → x.winSpace = 1 → x.cox.filling = false → ∃ t, exec (.seatWindowAccess w off (some v)) s = .next t ∧
          StoresAt x.core (seatOf t w.val).core a (bytesOf v.toNat 4) ∧ (seatOf t w.val).desc = x.desc ∧ OtherSeats s t w.val) ∧
        (inMem → x.winSpace = 2 → pageBusy x a 4 = false → ∃ t, exec (.seatWindowAccess w off (some v)) s = .next t ∧
          StoresAt x.desc (seatOf t w.val).desc a (bytesOf v.toNat 4) ∧ (seatOf t w.val).core = x.core ∧ OtherSeats s t w.val) ∧
        (inMem → x.winSpace = 2 → pageBusy x a 4 = true → exec (.seatWindowAccess w off (some v)) s =
          .next (modCox s w.val fun c => { c with pageRefused := satInc c.pageRefused })) ∧
        (x.winSpace = 0 → exec (.seatWindowAccess w off (some v)) s = .next (countRefusal s w.val 0 nkAddress)))) ∧
    (∀ (src : SrcIx) (c : Nat), commandOf s src.val 0x40 = some c → src.val ≠ 16 →
      (127 < cb c 0x10 2 → Answers (exec (.telemetry src true) s) s src c stBadParameter 0) ∧
      (cb c 0x10 2 ≤ 127 → Answers (exec (.telemetry src false) s) s src c stHostAccess 0 ∧
        let named := ((teleBlocks.zipIdx).filter fun p => bit (cb c 0x10 2) p.2).map (·.1)
        let bytes (l : List (Nat × Nat)) : List Byte := l.flatMap (teleBlock s)
        let gives (l : List (Nat × Nat)) (st : Nat) : Prop := ∃ u, Answers (exec (.telemetry src true) s) u src c st (bytes l).length ∧
          u = { s with hostMem := u.hostMem } ∧ StoresAt s.hostMem u.hostMem (cb c 0x18 8) (bytes l)
        ((bytes named).length ≤ cb c 0x20 4 → gives named stSuccess) ∧
        (cb c 0x20 4 < (bytes named).length → ∃ l, l <+: named ∧ l ≠ named ∧ (bytes l).length ≤ cb c 0x20 4 ∧ gives l stBadParameter))) ∧
    (∀ (src : SrcIx) (c : Nat) (ok : Bool), commandOf s src.val 0x40 = some c → src.val = 16 → cb c 0x10 2 ≤ 127 →
      let bs := (((teleBlocks.zipIdx).filter fun p => bit (cb c 0x10 2) p.2).map (·.1)).flatMap (teleBlock s)
      bs.length ≤ cb c 0x20 4 → ∃ u, Answers (exec (.telemetry src ok) s) u src c stSuccess bs.length ∧
        u = { s with cq := { s.cq with i3cData := u.cq.i3cData } } ∧ ∀ k b, bs[k]? = some b → mread u.cq.i3cData k = b) ∧
    (∀ b ∈ teleBlocks, (teleBlock s b).length = b.2 + 8 ∧ (teleBlock s b).take 8 = bytesOf b.1 4 ++ bytesOf b.2 4 ∧
      ∀ k, 4 * k < b.2 → ((teleBlock s b).drop (8 + 4 * k)).take 4 = bytesOf ((bar0Read s (b.1 + 4 * k)).getD 0) 4)) ∧
  (∀ (s : State),
    (∀ a, (s.pins.reset = false → exec (.dynamicAddress a) s = .next { s with pins := { s.pins with i3cAddr := some a } }) ∧
      (s.pins.reset = true → exec (.dynamicAddress a) s = .next s)) ∧
    (∀ data : List Byte, data.length = 64 → s.pins.i3cAddr ≠ none → s.glb.fw = .ready → (sqOf s 16).cur = none →
      ∃ c : BitVec 512, (∀ k b, data[k]? = some b → cb c.toNat k 1 = b.toNat) ∧
        let s1 := { s with cq := { s.cq with i3cReply := none, i3cData := [] } }
        (readRefusal (sqOf s 16) 16 c.toNat = none → exec (.i3cWrite data) s = .next (modSq s1 16 fun q => { q with cur := some c })) ∧
        ∀ st, readRefusal (sqOf s 16) 16 c.toNat = some st → Answers (exec (.i3cWrite data) s) s1 16 c.toNat st 0) ∧
    ((s.pins.i3cAddr = none ∨ s.glb.fw ≠ .ready) → (∀ data, exec (.i3cWrite data) s = .next s) ∧ exec .i3cRead s = .next s) ∧
    (∀ r, s.pins.i3cAddr ≠ none → s.glb.fw = .ready → s.cq.i3cReply = some r →
      ∃ t, exec .i3cRead s = .next t ∧ t.cq.i3cReply = none ∧ t.cq.i3cOut.length = 4096 ∧ t = { s with cq := t.cq } ∧
        t.cq.i3cOut.take 32 = bytesOf r.toNat 32 ∧
        (bit r.toNat 2 = true → t.cq.i3cOut.take 64 = bytesOf r.toNat 64)) ∧
    (∀ ir, ∃ t, exec (.tapInstruction ir) s = .next t ∧ t = { s with pins := { s.pins with tap := t.pins.tap, tapCode := t.pins.tapCode } } ∧
      ((ir = .bypass ∨ ir = .idcode ∨ ir = .samplePreload) → t.pins.tap = ir) ∧
      (ir = .extest → (s.pins.reset = true → s.pins.pwrgd.getLsbD 0 = true → s.pins.pwrgd.getLsbD 2 = true → t.pins.tap = .extest) ∧
        ((s.pins.reset = false ∨ s.pins.pwrgd.getLsbD 0 = false ∨ s.pins.pwrgd.getLsbD 2 = false) → t.pins.tap = .bypass)) ∧
      (∀ n, ir = .other n → t.pins.tap = if s.sec.unlocked = true ∧ s.sec.scope.getLsbD 0 = true then .other n else .bypass) ∧
      (ir = .idcode → t.pins.tapCode.getLsbD 0 = true ∧ (t.pins.tapCode >>> 12).setWidth 16 = (0x2300 : BitVec 16))) ∧
    (s.glb.fw = .ready → exec .ideKm s = .next { s with sec := { s.sec with ide := true } }) ∧
    (s.glb.fw ≠ .ready → exec .ideKm s = .next s))

/-! ## Reset, start-up and trust (16, 14) -/

/-- 16 R480, R482, R484, R486, R487, 14 R430-R432, R438, 15 R465: reset. An assertion of less than 10 µs does nothing; a longer one, and the loss of a
power-good input for 1 µs, put every register at its reset value and keep the board flash and the alert code. Once released with all four inputs
good the strap is sampled and the ROM starts the first slot that verifies, the active one before the other, or waits in recovery; where the PUF
fails it stops with ALERT_N. A command that finds its condition unmet changes nothing: the model's choice (log entry 8). -/
def Obligations.Resets : Prop :=
  ∀ (s : State),
    let kept (t : State) : Prop := t.seats = State.reset.seats ∧ t.str = State.reset.str ∧ t.ctxs = State.reset.ctxs ∧
      t.cq = State.reset.cq ∧ t.clk = State.reset.clk ∧ t.pwr = State.reset.pwr ∧ t.glb = State.reset.glb ∧ t.noc = State.reset.noc ∧
      t.pools = State.reset.pools ∧ t.fab = State.reset.fab ∧ t.chain = State.reset.chain ∧
      t.sec = { State.reset.sec with flash := s.sec.flash } ∧ t.hostMem = s.hostMem ∧ t.pending = s.pending ∧ t.pins.reset = true ∧
      t.pins.alert = false ∧ t.pins.thermtrip = false ∧ t.pins.i3cAddr = none
    let starts (t : State) (f : Flash) (head puf : Bool) : Prop :=
      let r := (currentRec f).getD {}
      t.pins.reset = false ∧ t.chain.head = head ∧ t.glb.nonce = Config.bootNonce s.free ∧ t.sec.flash = f ∧
      (domOf t 98).locked = true ∧ (domOf t 99).locked = true ∧
      (puf = false → t.glb.fw = .off ∧ t.pins.alert = true ∧ t.flt.alert = if s.flt.alert = 0 then 1 else s.flt.alert) ∧
      (puf = true → t.sec.stateRec = r ∧
        ((∃ n, imRefusal t (slotOf f n) 1 slotBytes = none) →
          t.glb.fw = .starting ∧ t.glb.stage = 2 ∧ imRefusal t (slotOf f t.glb.bootSlot) 1 slotBytes = none ∧
          t.glb.fwVersion = BitVec.ofNat 32 (imVersion (slotOf f t.glb.bootSlot)) ∧ t.glb.bootCause = (if s.pins.cold then 0 else 1) ∧
          ((r.trial = false ∨ s.glb.wdTrial = false) → imRefusal t (slotOf f r.active) 1 slotBytes = none → t.glb.bootSlot = r.active)) ∧
        ((∀ n, imRefusal t (slotOf f n) 1 slotBytes ≠ none) →
          t.glb.fw = .recovery ∧ t.glb.recovery = true ∧ t.glb.bootCause = 4 ∧ t.glb.stage = 1))
    (∀ ns, ns < 10000 → exec (.resetAssert ns) s = .next s) ∧
    (∀ ns, 10000 ≤ ns → ∃ t, exec (.resetAssert ns) s = .next t ∧ kept t ∧ t.pins.pwrgd = s.pins.pwrgd ∧ t.pins.released = false ∧
      t.flt = { State.reset.flt with alertPrev := if s.pins.reset then s.flt.alertPrev else s.flt.alert }) ∧
    (∀ g : Fin 4, g ≠ 0 → ∀ ns, ns < 1000 → exec (.pwrgdDeassert g ns) s = .next s) ∧
    (∀ (g : Fin 4) (ns : Nat), (g = 0 ∨ 1000 ≤ ns) → ∃ t, exec (.pwrgdDeassert g ns) s = .next t ∧ kept t ∧
      (∀ k, k < 4 → t.pins.pwrgd.getLsbD k = (s.pins.pwrgd.getLsbD k && k != g.val)) ∧
      t.pins.released = (!s.pins.reset || s.pins.released) ∧
      t.flt.alertPrev = (if g = 0 then 0 else if s.pins.reset then s.flt.alertPrev else s.flt.alert) ∧ (g = 0 → t.pins.cold = true)) ∧
    (s.pins.reset = true → s.pins.released = false → s.pins.pwrgd = 0xF → ∀ f puf head,
      ∃ t, exec (.resetRelease f puf head) s = .next t ∧ starts t (f.getD s.sec.flash) head puf) ∧
    (s.pins.reset = true → s.pins.released = false → s.pins.pwrgd ≠ 0xF → ∀ f puf head, exec (.resetRelease f puf head) s =
      .next { s with sec := { s.sec with flash := f.getD s.sec.flash }, pins := { s.pins with released := true, strap := head, pufOk := puf } }) ∧
    ((s.pins.reset = false ∨ s.pins.released = true) → ∀ f puf head, exec (.resetRelease f puf head) s = .next s) ∧
    (∀ g : Fin 4, (s.pins.reset = true → s.pins.released = true → (∀ k, k < 4 → k ≠ g.val → s.pins.pwrgd.getLsbD k = true) →
        ∃ t, exec (.pwrgdAssert g) s = .next t ∧ starts t s.sec.flash s.pins.strap s.pins.pufOk) ∧
      ((s.pins.reset = false ∨ s.pins.released = false) → ∃ p, exec (.pwrgdAssert g) s = .next { s with pins := { s.pins with pwrgd := p } } ∧
        ∀ k, k < 4 → p.getLsbD k = (s.pins.pwrgd.getLsbD k || k == g.val))) ∧
    (exec .perstDeassert s = .next { s with pins := { s.pins with perst := false, link := (domOf s 98).locked } }) ∧
    (s.pins.reset = true → exec .perstAssert s = .next { s with pins := { s.pins with perst := true, link := false } }) ∧
    (s.pins.reset = false → ∃ t, exec .functionLevelReset s = .next t ∧
      exec .perstAssert s = .next { t with pins := { t.pins with perst := true, link := false } })

/-- 16 R488, R490, R491, 14 R440, 09 R296, 00 R2, R3: the stages of start-up from 2 on, in their order. The rails and clocks start at index 0, or at
CLK_LIMIT_STEP under PWR_LIMIT_N; a generator that does not lock, or a crossing outside 3 to 6 cycles, stops start-up where it stands, with Snivan
ready and weigh-enough. Seats that fail are marked, and fenced with the grade record applied; without a good record every seat is disabled. The
first readiness of Snivan raises no event, a later one does (00 R13). A command that finds its condition unmet changes nothing: the model's choice
(log entry 8). -/
def Obligations.StartupStages : Prop :=
  ∀ (s : State),
    let failsAt (t : State) (n : Nat) : Prop := t.glb.startFailed = true ∧ t.glb.fw = .ready ∧ t.glb.stage = n ∧ t.glb.halted = true ∧
      t.pins.alert = true
    (startupAt s 2 = true → ∀ bad : List Nat,
      ((∀ d ∈ bad, 98 ≤ d) → ∃ t, exec (.railsAndClocks bad) s = .next t ∧ t.glb.stage = 3 ∧
        (∀ d, d < 98 → (domOf t d).locked = true ∧ (domOf t d).stop = .none ∧ domTime t d = s.clk.master ∧
          (d ≤ 96 → (domOf t d).step = if s.pwr.limitActive then min 6 s.clk.limit.toNat else 0)) ∧
        t.pwr.supply = [needMv s (startStep s), needMv s (startStep s)] ∧ t.pwr.want = t.pwr.supply ∧ t.pwr.vdd = t.pwr.supply ∧
        t.seats = s.seats) ∧
      ((∃ d ∈ bad, d < 98) → ∃ t, exec (.railsAndClocks bad) s = .next t ∧ failsAt t 2 ∧
        ∀ d ∈ bad, d < 98 → (domOf t d).locked = false ∧ (domOf t d).stop = .generator)) ∧
    (startupAt s 3 = true → ∀ base lats d,
      let good (k : Nat) : Prop := 3 ≤ tget base lats k ∧ tget base lats k ≤ 6
      ((∀ k ∈ fifos, good k) → ∃ t, exec (.crossingCalibration base lats d) s = .next t ∧ t.glb = { s.glb with stage := 4 } ∧
        (∀ k, latencyOf t k = tget base lats k) ∧ (∀ k ∈ fifos, t.noc.minLat ≤ latencyOf t k ∧ latencyOf t k ≤ t.noc.maxLat) ∧
        (∃ k ∈ fifos, latencyOf t k = t.noc.minLat) ∧ (∃ k ∈ fifos, latencyOf t k = t.noc.maxLat) ∧ t.seats = s.seats ∧ t.clk = s.clk) ∧
      ((∃ k ∈ fifos, ¬ good k) → ∃ t, exec (.crossingCalibration base lats d) s = .next t ∧ failsAt t 3 ∧
        ∀ e, (domOf t e).stop = (domOf s e).stop)) ∧
    (startupAt s 4 = true → ∀ bad : List Nat, ∃ t, exec (.dramTraining bad) s = .next t ∧ t.glb.stage = 5 ∧
      (∀ w, w < 2304 → (seatOf t w).failed = ((seatOf s w).failed || bad.contains w)) ∧
      ∀ h g, h < 2 → g < 20 → (poolOf t h).dead.getLsbD g = ((poolOf s h).dead.getLsbD g || bad.contains (2304 + 20 * h + g))) ∧
    (startupAt s 5 = true → ∀ bad : List Nat, ∃ t, exec (.seatSelfTest bad) s = .next t ∧ t.glb.stage = 6 ∧
      ∀ w, w < 2304 → (seatOf t w).failed = ((seatOf s w).failed || bad.contains w) ∧ (seatOf t w).core = [] ∧ (seatOf t w).desc = [] ∧
        (seatOf t w).lnd.ctr = [] ∧ (seatOf t w).vec.opc = []) ∧
    (startupAt s 6 = true → ∃ t, exec .fillAndGrade s = .next t ∧ t.glb.fw = .ready ∧ (∀ w, (seatOf t w).store = []) ∧
      (∀ h, (poolOf t h).mem = []) ∧
      (gradePasses s = true → t.glb.gradeValid = true ∧ t.glb.grade = BitVec.ofNat 8 (recGrade s) ∧
        (∀ q, q < 96 → (recSeats s q).length = gradeSeats (recGrade s) ∧ (mapOf t q).phys = crewSeats t q) ∧
        ∀ w, w < 2304 → ((seatOf t w).disabled = ((seatOf s w).disabled || !(recSeats s (w / 24)).contains (w % 24))) ∧
          ((seatOf s w).failed = true → (seatOf t w).disabled = false → seatFenced t w = true)) ∧
      (gradePasses s = false → t.glb.gradeValid = false ∧ t.glb.grade = 0xFF ∧ ∀ w, w < 2304 → (seatOf t w).disabled = true) ∧
      (s.glb.events.getLsbD 3 = false → t.glb.events.getLsbD 3 = false) ∧
      (s.chain.head = true → t.glb.stage = 8 ∧ t.chain.node = 0 ∧ t.chain.valid = true) ∧ (s.chain.head = false → t.glb.stage = 7)) ∧
    (s.glb.stage = 8 → ((∀ p, p < 12 → portSettled s p = true) → ∃ t, exec .fabricTrainingEnd s = .next t ∧
        t = { s with glb := { s.glb with stage := 9, ready := true, readyTime := s.clk.master.setWidth 32 },
                     pwr := { s.pwr with want := t.pwr.want, supply := t.pwr.supply } }) ∧
      ((∃ p, p < 12 ∧ portSettled s p = false) → exec .fabricTrainingEnd s = .next s)) ∧
    (∀ bad base lats d, (startupAt s 2 = false → exec (.railsAndClocks bad) s = .next s) ∧
      (startupAt s 3 = false → exec (.crossingCalibration base lats d) s = .next s) ∧ (startupAt s 4 = false → exec (.dramTraining bad) s = .next s) ∧
      (startupAt s 5 = false → exec (.seatSelfTest bad) s = .next s) ∧ (startupAt s 6 = false → exec .fillAndGrade s = .next s) ∧
      (s.glb.stage ≠ 8 → exec .fabricTrainingEnd s = .next s)) ∧
    (s.glb.fw = .starting → 7 ≤ s.glb.stage → ∃ t, exec .snivanReady s = .next t ∧ t.glb.fw = .ready ∧ t.glb.events.getLsbD 3 = true ∧
      t.glb.trial = false ∧ (s.glb.trial = true → t.sec.stateRec.trial = false ∧
        t.sec.stateRec.minSvn = max s.sec.stateRec.minSvn s.glb.fwSvn.toNat) ∧
      (∀ c, s.glb.lateHalt = some c → t.glb.halted = true ∧ t.glb.lateHalt = none)) ∧
    (s.glb.fw ≠ .starting → exec .snivanReady s = .next s)

/-- 14 R447-R449, 16 R490: the enumeration chain. A frame that is not valid is counted. The head, which holds node 0 and sends ENUM 1 every 10 ms,
learns the chain's size; a part without a number takes the first it is sent, begins to train its ports and sends the next; one that has another
number counts and logs the conflict, keeps its own and sends the next after that. A command that finds its condition unmet changes nothing: the
model's choice (log entry 8). -/
def Obligations.EnumerationChain : Prop :=
  ∀ (s : State) (frame : Nat),
    let tells (t : State) (v : Nat) : Prop := t.chain.sternEnum = some (enumFrame v)
    (∀ v, v < 8192 → enumFrame v < 2 ^ 32 ∧ enumFrame v % 256 = 1 ∧ enumValue (enumFrame v) = some v) ∧
    (s.pins.reset = true → exec (.enumFrame frame) s = .next s) ∧
    (2 ^ 32 ≤ frame → enumValue frame = none) ∧
    (s.pins.reset = false → enumValue frame = none →
      exec (.enumFrame frame) s = .next { s with chain := { s.chain with errors := satInc s.chain.errors } }) ∧
    (s.pins.reset = false → frame % 256 = 1 → ∀ v, enumValue frame = some v →
      (v = frame / 256 % 8192) ∧
      (s.chain.head = true → exec (.enumFrame frame) s = .next { s with chain := { s.chain with ring := true, size := v } }) ∧
      (s.chain.head = false → s.chain.valid = true → v = s.chain.node →
        exec (.enumFrame frame) s = .next { s with chain := { s.chain with sternEnum := some (enumFrame (v + 1)) } }) ∧
      (s.chain.head = false → s.chain.valid = true → v ≠ s.chain.node → ∃ t r, exec (.enumFrame frame) s = .next t ∧ tells t (s.chain.node + 1) ∧
        t.chain.node = s.chain.node ∧ t.chain.conflicts = satInc s.chain.conflicts ∧ t.flt.path = s.flt.path ++ [r] ∧ r.code = 0x0209) ∧
      (s.chain.head = false → s.chain.valid = false → (s.glb.stage < 7 ∨ s.glb.fw ≠ .ready) → exec (.enumFrame frame) s = .next s) ∧
      (s.chain.head = false → s.chain.valid = false → 7 ≤ s.glb.stage → s.glb.fw = .ready →
        (4096 ≤ v → ∃ t, exec (.enumFrame frame) s = .next t ∧ tells t 4096 ∧ t.chain.valid = false) ∧
        (v < 4096 → ∃ t, exec (.enumFrame frame) s = .next t ∧ tells t (v + 1) ∧ t.chain.node = v ∧ t.chain.valid = true ∧ t.glb.stage = 8 ∧
          ∀ p, p < 12 → (portOf s p).state = .off → (portOf t p).state = if (portOf s p).en then .detect else .off))) ∧
    (let due := s.chain.enumAt = none ∨ ∃ t, s.chain.enumAt = some t ∧ t + 1000000 ≤ s.clk.ticks
     (s.chain.head = true → s.chain.valid = true → due → exec .enumTimer s =
       .next { s with chain := { s.chain with enumAt := some s.clk.ticks, sternEnum := some (enumFrame 1) } }) ∧
     ((s.chain.head = false ∨ s.chain.valid = false ∨ ¬ due) → exec .enumTimer s = .next s))

/-- 14 R449: a ring. The head sets GLB_CHAIN_RING on a valid ENUM at its bow, and GLB_FLEET_SIZE to its VALUE, and takes no number from it. While
GLB_CHAIN_RING is not set, in an open chain, GLB_FLEET_SIZE reads 0, and every step keeps it so. -/
def Obligations.ChainRing : Prop :=
  (∀ (s : State) (frame v : Nat), s.pins.reset = false → s.chain.head = true → frame % 256 = 1 → enumValue frame = some v →
    exec (.enumFrame frame) s = .next { s with chain := { s.chain with ring := true, size := v } }) ∧
  (State.reset.chain.ring = false → State.reset.chain.size = 0) ∧
  ∀ (s t : State), (s.chain.ring = false → s.chain.size = 0) → step s = .next t → t.chain.ring = false → t.chain.size = 0

/-- 14 R429, R431, R433, R434, R444, R445: firmware and attestation. ATTEST and FW_UPDATE begin in the background (13 R411). ATTEST advances the LMS
index in the state record before it signs, and its report carries the nonce and that index. FW_UPDATE refuses an image with the first check that
it fails, and else writes the slot that is not running. FW_ACTIVATE names that slot active, in trial. The ROM in recovery takes the window's image
only if it verifies. 14 R433, R442, R443, R445: the other signed images. Each is refused with the first of the common checks that it fails. A
publisher enrolment changes its slots in one write, unless a context is bound to one; a debug token for this boot's nonce evicts every context and
unlocks debug access once their zero fills are done; a certificate renewal takes the next tree. A command that finds its condition unmet changes
nothing: the model's choice (log entry 8). -/
def Obligations.Trust : Prop :=
  (∀ (s : State),
    (∀ (src : SrcIx) (c : Nat) (ok fl : Bool), commandOf s src.val 0x48 = some c → BeginsLate s src c (exec (.attest src ok fl) s)) ∧
    (∀ (src : SrcIx) (c : Nat), RunsLate s src 0x48 c →
      let r := s.sec.stateRec
      (treeSize ≤ r.index → ∀ ok fl, AnswersLate (exec (.attest src ok fl) s) s src c stLmsExhausted 0) ∧
      (r.index < treeSize → ∀ ok, AnswersLate (exec (.attest src ok false) s) s src c stFlashWrite 0) ∧
      (r.index < treeSize → src.val ≠ 16 → ∃ t rep, AnswersLate (exec (.attest src true true) s) t src c stSuccess rep.length ∧
        t.sec.stateRec = { r with index := r.index + 1, seq := r.seq + 1 } ∧ StoresAt s.hostMem t.hostMem (cb c 0x30 8) rep ∧
        rep.take 4 = bytesOf 0x4E574154 4 ∧ (rep.drop 8).take 16 = bytesOf s.sec.deviceId.toNat 16 ∧
        (rep.drop 0x18).take 32 = bytesOf (cb c 0x10 32) 32 ∧ (rep.drop 0x40).take 4 = bytesOf (r.index + 2 ^ 24 * r.tree) 4)) ∧
    (∀ (src : SrcIx) (c : Nat) (img : Option Mem) (fl : Bool), commandOf s src.val 0x49 = some c →
      let busy := ∃ p ∈ s.cq.bg, cOpcode p.2 = 0x49
      ∀ o, o = exec (.fwUpdate src img fl) s ∨ o = exec (.publisherEnrolment src img fl) s ∨ o = exec (.debugToken src img) s ∨
          o = exec (.certificateRenewal src img fl) s →
        (busy → Answers o s src c stUpdateBusy 0) ∧ (¬ busy → BeginsLate s src c o)) ∧
    (∀ (src : SrcIx) (c : Nat), RunsLate s src 0x49 c →
      (∀ fl, AnswersLate (exec (.fwUpdate src none fl) s) s src c stHostAccess 0) ∧
      ∀ m : Mem, ¬ (2 ≤ imType m ∧ imType m ≤ 4) → let n : Fin 2 := 1 - s.glb.bootSlot
        (1 < cb c 0x10 1 → ∀ fl, AnswersLate (exec (.fwUpdate src (some m) fl) s) s src c stBadParameter 0) ∧
        (cb c 0x10 1 ≤ 1 → s.glb.activate = true → ∀ fl, AnswersLate (exec (.fwUpdate src (some m) fl) s) s src c stUpdateBusy 0) ∧
        (cb c 0x10 1 ≤ 1 → s.glb.activate = false → (∀ st, imRefusal s m 1 (cb c 0x20 8) = some st → ∀ fl,
            AnswersLate (exec (.fwUpdate src (some m) fl) s) s src c st 0) ∧
          (imRefusal s m 1 (cb c 0x20 8) = none →
            (∃ t, AnswersLate (exec (.fwUpdate src (some m) false) s) t src c stFlashWrite 0 ∧ slotOf t.sec.flash n = [] ∧
              slotOf t.sec.flash s.glb.bootSlot = slotOf s.sec.flash s.glb.bootSlot) ∧
            ∃ t, AnswersLate (exec (.fwUpdate src (some m) true) s) t src c stSuccess n.val ∧ t.glb.activate = bit (cb c 0x10 1) 0 ∧
              slotOf t.sec.flash s.glb.bootSlot = slotOf s.sec.flash s.glb.bootSlot ∧
              ∀ k, mread (slotOf t.sec.flash n) k = if k < cb c 0x20 8 then mread m k else 0))) ∧
    (∀ puf, s.glb.activate = true → s.glb.fw = .ready → currentRec s.sec.flash = some s.sec.stateRec →
      ∃ t, exec (.fwActivate puf) s = .next t ∧ t.glb.activate = false ∧ t.glb.fw ≠ .ready ∧ t.sec.stateRec.active = 1 - s.glb.bootSlot ∧
        t.sec.stateRec.trial = true ∧ slotOf t.sec.flash 0 = slotOf s.sec.flash 0 ∧ slotOf t.sec.flash 1 = slotOf s.sec.flash 1) ∧
    (∀ puf, (s.glb.activate = false ∨ s.glb.fw ≠ .ready) → exec (.fwActivate puf) s = .next s) ∧
    (∀ v, (v.getLsbD 0 = false ∨ s.glb.fw ≠ .recovery) → exec (.recoveryGo v) s = .next s) ∧
    (∀ v, v.getLsbD 0 = true → s.glb.fw = .recovery →
      let st := imRefusal s s.glb.recWin 1 (min 1048576 s.glb.recLen.toNat)
      (∀ k, st = some k → exec (.recoveryGo v) s = .next { s with glb := { s.glb with recStatus := BitVec.ofNat 7 k } }) ∧
      (st = none → ∃ t, exec (.recoveryGo v) s = .next t ∧ t.glb.fw = .starting ∧ t.glb.bootCause = 4 ∧ t.glb.recStatus = 2 ∧
        t.glb.fwVersion = BitVec.ofNat 32 (imVersion s.glb.recWin) ∧ t.sec = s.sec))) ∧
  (∀ (s : State) (src : SrcIx) (c : Nat) (m : Mem), RunsLate s src 0x49 c →
    let r := s.sec.stateRec
    (∀ st, updateRefusal s c m (imType m) = some st →
      (imType m = 2 → ∀ fl, AnswersLate (exec (.publisherEnrolment src (some m) fl) s) s src c st 0) ∧
      (imType m = 3 → AnswersLate (exec (.debugToken src (some m)) s) s src c st 0) ∧
      (imType m = 4 → ∀ fl, AnswersLate (exec (.certificateRenewal src (some m) fl) s) s src c st 0)) ∧
    (updateRefusal s c m (imType m) = none →
      (imType m = 2 → let n := imBody m / 160
        let bound (k : Nat) : Prop := ∃ p ∈ s.ctxs.ctx, p.2.state ≠ .free ∧ p.2.slot = k
        (enrolBad m = true → ∀ fl, AnswersLate (exec (.publisherEnrolment src (some m) fl) s) s src c stImageFormat 0) ∧
        (enrolBad m = false → (∀ i, i < n → ¬ bound (enrolEntry m i).1) →
          AnswersLate (exec (.publisherEnrolment src (some m) false) s) s src c stFlashWrite 0 ∧
          ∃ t, AnswersLate (exec (.publisherEnrolment src (some m) true) s) t src c stSuccess 0 ∧
            t.sec.stateRec = { r with seq := r.seq + 1, pubs := t.sec.stateRec.pubs } ∧
            (∀ k, (∀ i, i < n → (enrolEntry m i).1 ≠ k) → tfind t.sec.stateRec.pubs k = tfind r.pubs k) ∧
            ∀ i, i < n → (∀ j, i < j → j < n → (enrolEntry m j).1 ≠ (enrolEntry m i).1) →
              tfind t.sec.stateRec.pubs (enrolEntry m i).1 = if (enrolEntry m i).2 = (0, 0) then none else some (enrolEntry m i).2) ∧
        (enrolBad m = false → (∃ p ∈ s.ctxs.ctx, p.2.state ≠ .free ∧ tfind (enrol m r.pubs) p.2.slot ≠ tfind r.pubs p.2.slot) →
          ∀ fl, AnswersLate (exec (.publisherEnrolment src (some m) fl) s) s src c stUpdateBusy 0)) ∧
      (imType m = 3 →
        (mrd m 0x40 8 ≠ s.glb.nonce.toNat → ∃ st, AnswersLate (exec (.debugToken src (some m)) s) s src c st 0) ∧
        (mrd m 0x40 8 = s.glb.nonce.toNat → (s.str.runs ≠ [] ∨ s.ctxs.loads ≠ []) →
          AnswersLate (exec (.debugToken src (some m)) s) s src c stUpdateBusy 0) ∧
        (mrd m 0x40 8 = s.glb.nonce.toNat → s.str.runs = [] → s.ctxs.loads = [] →
          ∃ t, AnswersLate (exec (.debugToken src (some m)) s) t src c stSuccess 0 ∧ (∀ k, k < 16 → (ctxOf t k).state = .free) ∧
            (t.ctxs.zeroing ≠ [] → t.sec.unlocked = s.sec.unlocked ∧ t.sec.unlockWait = some (BitVec.ofNat 2 (mrd m 0x48 4))) ∧
            (t.ctxs.zeroing = [] → t.sec.unlocked = true ∧ t.sec.scope = BitVec.ofNat 2 (mrd m 0x48 4)))) ∧
      (imType m = 4 → let good := Config.renewalKey (mbytes m 0x40 (imBody m)) = Config.attestLms s.sec.secret (r.tree + 1)
        (¬ good → ∀ fl, ∃ st, AnswersLate (exec (.certificateRenewal src (some m) fl) s) s src c st 0) ∧
        (good → AnswersLate (exec (.certificateRenewal src (some m) false) s) s src c stFlashWrite 0 ∧
          ∃ t, AnswersLate (exec (.certificateRenewal src (some m) true) s) t src c stSuccess 0 ∧
            t.sec.stateRec = { r with seq := r.seq + 1, tree := r.tree + 1, index := 0 }))))

/-! ## The fabric (10) -/

/-- 10 R303, R304, R313-R316, R323, R344, 15 R454: training. A port goes through its stages in order and back to DETECT where EQUALISE or LOCK fails.
WIDTH takes the widest lane set of those that lock; IDENTIFY the highest version of both ranges, and ends in DOWN with its cause for no version,
no node number on either side (`named` is the partner's, log entry 72) or a loop. FAB_PORT_EN, RETRAIN and RETRAIN_FULL act as their bits say. A
command that finds its condition unmet changes nothing: the model's choice (log entry 8). -/
def Obligations.PortTraining : Prop :=
  ∀ (s : State) (p : PortIx),
    let x := portOf s p.val
    let q := partner p.val
    let inState (t : State) (st : PortSt) : Prop := (portOf t p.val).state = st
    let down (t : State) (cause : Nat) : Prop := (portOf t p.val).state = .down ∧ (portOf t p.val).cause = cause
    (x.state = .detect → exec (.portSignalDetect p) s = .next (modPort s p.val fun x => { x with state := .equalise })) ∧
    (x.state ≠ .detect → exec (.portSignalDetect p) s = .next s) ∧
    (∀ (lanes : Byte) (named : Bool),
      let two (k : Nat) : Prop := lanes.getLsbD (2 * k) = true ∧ lanes.getLsbD (2 * k + 1) = true
      ((x.state = .equalise ∨ x.state = .lock) → lanes = 0 → exec (.portTrainingStep p lanes named) s =
        .next (modPort s p.val fun x => { x with state := .detect, trainFails := satInc x.trainFails })) ∧
      (x.state = .equalise → lanes ≠ 0 → exec (.portTrainingStep p lanes named) s = .next (modPort s p.val fun x => { x with state := .lock })) ∧
      (x.state = .lock → lanes ≠ 0 → exec (.portTrainingStep p lanes named) s =
        .next (modPort s p.val fun x => { x with state := .width, lanes := lanes })) ∧
      (x.state = .width → ∃ t, exec (.portTrainingStep p lanes named) s = .next t ∧ OtherPorts s t p.val ∧
        ((∀ k, k < 4 → ¬ two k) → down t 4 ∧ (portOf t p.val).width = 0) ∧
        ((∃ k, k < 4 ∧ two k) → inState t .identify ∧ (portOf t p.val).offer = none ∧
          (lanes = 0xFF → (portOf t p.val).width = 8 ∧ (portOf t p.val).laneset = 0) ∧
          (lanes ≠ 0xFF → two 0 ∧ two 1 → (portOf t p.val).width = 4 ∧ (portOf t p.val).laneset = 0) ∧
          (¬ (two 0 ∧ two 1) → two 2 ∧ two 3 → (portOf t p.val).width = 4 ∧ (portOf t p.val).laneset = 1) ∧
          (¬ (two 0 ∧ two 1) → ¬ (two 2 ∧ two 3) → ∀ k, k < 4 → two k → (∀ j, j < k → ¬ two j) →
            (portOf t p.val).width = 2 ∧ (portOf t p.val).laneset = k))) ∧
      (x.state = .identify → x.offer = none → exec (.portTrainingStep p lanes named) s = .next s) ∧
      (∀ lo hi, x.state = .identify → x.offer = some (lo, hi) → ∃ t, exec (.portTrainingStep p lanes named) s = .next t ∧ OtherPorts s t p.val ∧
        (pairOf t (p.val / 2)).split = ((portOf s q).known && (portOf s q).partnerNode != x.partnerNode) ∧
        (portOf t p.val).mismatch = (x.partnerPort != 2 * ((p.val / 2) ^^^ 1) + p.val % 2) ∧
        (min hi 0x21 < max lo 0x20 → down t 1) ∧
        (max lo 0x20 ≤ min hi 0x21 → (s.chain.valid = false ∨ named = false → down t 3) ∧
          (s.chain.valid = true → named = true → x.partnerNode = s.chain.node → down t 2) ∧
          (s.chain.valid = true → named = true → x.partnerNode ≠ s.chain.node → inState t .creditInit ∧
            (portOf t p.val).agreed = min hi 0x21 ∧ (portOf t p.val).version = x.version ∧ (portOf t p.val).txSeq = 0 ∧ (portOf t p.val).rxSeq = 0 ∧ (portOf t p.val).unacked = []))) ∧
      (x.state = .creditInit → (x.advSeen = false ∨ x.ackSeen = false) → exec (.portTrainingStep p lanes named) s = .next s) ∧
      (x.state = .creditInit → x.advSeen = true → x.ackSeen = true → x.sched = false →
        ∃ t, exec (.portTrainingStep p lanes named) s = .next t ∧ inState t .active ∧ (portOf t p.val).version = x.agreed) ∧
      ((x.state = .off ∨ x.state = .detect ∨ x.state = .active ∨ x.state = .down) → exec (.portTrainingStep p lanes named) s = .next s)) ∧
    (∀ v : Word,
      (v.getLsbD 0 = true → exec (.fabPortEnWrite p v) s = .next (modPort s p.val fun x =>
        { x with en := true, state := if x.state = .off ∧ 8 ≤ s.glb.stage ∧ s.pwr.chipBoated = false then .detect else x.state })) ∧
      (v.getLsbD 0 = false → ∃ t, exec (.fabPortEnWrite p v) s = .next t ∧ inState t .off ∧ (portOf t p.val).en = false ∧
        (portOf t p.val).cause = 5) ∧
      (v.getLsbD 2 = false → exec (.fabPortRetrainFull p v) s = .next s) ∧
      (v.getLsbD 2 = true → (x.state = .active ∨ x.state = .down) → ∃ t, exec (.fabPortRetrainFull p v) s = .next t ∧ inState t .detect) ∧
      (v.getLsbD 1 = false → exec (.fabPortRetrain p v) s = .next s) ∧
      (v.getLsbD 1 = true → x.state = .active →
        ((pairOf s (p.val / 2)).split = true ∨ portLive s q = false ∨ (portOf s q).sched = false ∨ p.val < q →
          ∃ t, exec (.fabPortRetrain p v) s = .next t ∧ inState t .creditInit ∧ (portOf t p.val).fast = true) ∧
        ((pairOf s (p.val / 2)).split = false → portLive s q = true → (portOf s q).sched = true → q < p.val →
          ∃ t, exec (.fabPortRetrain p v) s = .next t ∧ inState t .active ∧ (portOf t p.val).sched = true))) ∧
    (x.state ≠ .active → ∀ c, exec (.portRetrain p c) s = .next s) ∧
    (x.state = .active →
      (∃ t, exec (.portRetrain p 1) s = .next t ∧ inState t .lock ∧ (portOf t p.val).otherCount = satInc x.otherCount) ∧
      (∃ t, exec (.portRetrain p 3) s = .next t ∧ inState t .detect ∧ (portOf t p.val).otherCount = satInc x.otherCount) ∧
      ((x.badAt.length < 17 ∨ x.badAt.getLastD 0 + 100000 < s.clk.ticks) → exec (.portRetrain p 2) s = .next s) ∧
      (17 ≤ x.badAt.length → s.clk.ticks ≤ x.badAt.getLastD 0 + 100000 → ∃ t, exec (.portRetrain p 2) s = .next t ∧ inState t .lock) ∧ (x.sched = false → exec (.portRetrain p 0) s = .next s))

/-- 10 R316, R319, R324, R326, 15 R454: failover. Where a port leaves ACTIVE and its partner is ACTIVE, the packets that have not been acknowledged
move to the partner with FAILOVER set, those that wait follow, and both events are logged; before a fast retrain with no live partner they are
held. One held too long is refused PORT_DOWN at its source. -/
def Obligations.Failover : Prop :=
  ∀ (s : State) (p : PortIx),
    let x := portOf s p.val
    let q := partner p.val
    let moved := x.unacked.map (fun e => setHdr e.pkt 140 1 1) ++ x.tx
    (portLive s p.val = true → (pairOf s (p.val / 2)).split = false → (∀ k ∈ moved, nextPort k = p.val) →
      (Stalled s q → ∃ t a b, exec (.portRetrain p 3) s = .next t ∧ (portOf t q).tx = (portOf s q).tx ++ moved ∧ (portOf t p.val).tx = [] ∧
        (portOf t p.val).unacked = [] ∧ (portOf t p.val).failovers = satInc x.failovers ∧
        t.flt.path = s.flt.path ++ [a, b] ∧ a.code = 0x0206 ∧ b.code = 0x0207) ∧
      (portLive s q = false → x.sched = true → ∃ t a, exec (.portRetrain p 0) s = .next t ∧ (portOf t p.val).state = .creditInit ∧
        (portOf t p.val).unacked = [] ∧ (pairOf t (p.val / 2)).held = (pairOf s (p.val / 2)).held ++ moved.map (fun k => (s.clk.ticks, k)) ∧
        t.flt.path = s.flt.path ++ [a] ∧ a.code = 0x0206)) ∧
    (∀ pr : Fin 6, let d := pairOf s pr.val
      ((∀ e ∈ d.held, s.clk.ticks < e.1 + 2000 ∧ pairWaits s (nextPort e.2) = true) →
        ∃ t, exec (.pairHoldTimeout pr) s = .next t ∧ (∀ n, pairOf t n = pairOf s n) ∧ t = { s with fab := { s.fab with pairs := t.fab.pairs } }) ∧
      (∀ a k f, d.held = [(a, k)] → (a + 2000 ≤ s.clk.ticks ∨ pairWaits s (nextPort k) = false) → fIsRsp k.hdr.toNat = false →
        fPtr k.hdr.toNat = 1 → ftagOf s (fTag k.hdr.toNat) = some f → f.complete = false → f.isMulti = false → f.isRead = false →
        ∃ t, exec (.pairHoldTimeout pr) s = .next t ∧ (pairOf t pr.val).held = [] ∧ ftagOf t (fTag k.hdr.toNat) = none ∧
          EngineGets s t f.seat f.hdr.toNat 7 9 []))

/-- 10 R306-R313, R317, R318, R320-R322, R325: codewords and frames. A codeword that can be decoded gives its frames, and one that cannot breaks off
the frame that it is in. A good frame with the number expected is accepted, one behind it is discarded as a duplicate, one ahead, or with a bad
CRC or a reserved slot, is discarded with a NAK, at most once a microsecond. A copy moved by failover that the pair has seen is discarded as it is
accepted. An ACK frees the replay buffer; a NAK, or 2 µs without an ACK, replays it with REPLAY set, and the eighth replay in a row retrains the
port. A packet is sent, whole and numbered by its pair, once its credits and the buffer have room. A command that finds its condition unmet
changes nothing: the model's choice (log entry 8). -/
def Obligations.PortFrames : Prop :=
  ∀ (s : State) (p : PortIx),
    let x := portOf s p.val
    let d := pairOf s (p.val / 2)
    let naks (t : State) : Prop := (x.nakTick = 0 ∨ x.nakTick + 99 ≤ s.clk.ticks) → (portOf t p.val).nak = true
    let drops (t : State) : Prop := t.fab.rx = s.fab.rx ∧ (portOf t p.val).rxSeq = x.rxSeq ∧ OtherPorts s t p.val
    (∀ word, (receives x = false → exec (.rsCodeword p word) s = .next s) ∧
      (receives x = true → rsDecode (word.map BitVec.toNat) = none → ∃ t, exec (.rsCodeword p word) s = .next t ∧ drops t ∧
        (portOf t p.val).fecBad = satInc x.fecBad ∧ (portOf t p.val).rxPart = none ∧ (portOf t p.val).rxFrames = x.rxFrames) ∧
      (∀ m n, receives x = true → rsDecode (word.map BitVec.toNat) = some (m, n) → n ≤ 15 ∧ (rsSyndromes m).all (· == 0) = true ∧
        ((rsSyndromes (word.map BitVec.toNat)).all (· == 0) = true → n = 0 ∧ m = word.map BitVec.toNat) ∧
        ∃ t, exec (.rsCodeword p word) s = .next t ∧ drops t ∧ (portOf t p.val).fecOk = satAdd x.fecOk n ∧ (portOf t p.val).fecBad = x.fecBad ∧
          x.rxFrames <+: (portOf t p.val).rxFrames)) ∧
    (x.rxFrames = [] → exec (.sequencedFrame p) s = .next s ∧ exec (.idleFrame p) s = .next s ∧ exec (.controlFrame p) s = .next s) ∧
    (∀ (fr : Frame) (fs : List Frame), Received s p.val fr fs →
      let e := fr.env.toNat
      let f := fr.flit.toNat
      let k := f % 2 ^ 512
      let c := classKey k
      let rest (t : State) : Prop := (portOf t p.val).rxFrames = fs
      (frameGood fr = false →
        let discards (o : Outcome State Fault Refusal) : Prop := ∃ t, o = .next t ∧ rest t ∧ drops t ∧
          (portOf t p.val).crcErrs = satInc x.crcErrs ∧ (x.state = .active → naks t)
        (eKind e = 0 ∨ eKind e = 3 → discards (exec (.idleFrame p) s)) ∧ (eKind e = 1 ∨ eKind e = 3 → discards (exec (.sequencedFrame p) s)) ∧
        (eKind e = 2 ∨ eKind e = 3 → discards (exec (.controlFrame p) s))) ∧
      (x.state ≠ .active → Plain fr 1 → ∃ t, exec (.sequencedFrame p) s = .next t ∧ rest t ∧ drops t) ∧
      (Quiet s p.val → Plain fr 1 →
        let n := (x.rxSeq + 4096 - eSeq e) % 4096
        let one := x.rxSlots = [] ∧ eSlot e 0 = 1 ∧ eSlot e 1 = 0 ∧ eSlot e 2 = 0 ∧ eSlot e 3 = 0 ∧ fCarried k = 0
        ((∃ i, i < 4 ∧ eSlot e i = 3) → ∃ t, exec (.sequencedFrame p) s = .next t ∧ rest t ∧ drops t ∧
          (portOf t p.val).crcErrs = satInc x.crcErrs ∧ naks t) ∧
        (n = 0 → one → (∀ i, (creditOf x i).buffered ≤ if i % 2 = 0 then 512 else 2048) →
          ((creditOf x c).buffered < 512 → ∃ t, exec (.sequencedFrame p) s = .next t ∧ rest t ∧ OtherPorts s t p.val ∧
            (portOf t p.val).rxSeq = (x.rxSeq + 1) % 4096 ∧ (portOf t p.val).nak = false ∧
            (let again := fFailover k = true ∧ d.seen = true ∧ diff16 (fPairSeq k) d.high ≤ 0 ∧
              (diff16 (fPairSeq k) d.high ≤ -4096 ∨ fPairSeq k ∈ d.record)
             (again → t.fab.rx = s.fab.rx ∧ (portOf t p.val).pairDup = satInc x.pairDup ∧
               (creditOf (portOf t p.val) c).buffered = (creditOf x c).buffered ∧
               (creditOf (portOf t p.val) c).given = ((creditOf x c).given + 1) % 65536) ∧
             (¬ again → t.fab.rx = s.fab.rx ++ [(p.val, ⟨BitVec.ofNat 512 k, []⟩)] ∧ (pairOf t (p.val / 2)).seen = true ∧
               (creditOf (portOf t p.val) c).buffered = (creditOf x c).buffered + 1))) ∧
          ((creditOf x c).buffered = 512 → ∃ t, exec (.sequencedFrame p) s = .next t ∧ rest t ∧ drops t ∧
            (portOf t p.val).excess = satInc x.excess ∧ naks t)) ∧
        (1 ≤ n → n ≤ 2048 → (∀ i, i < 4 → eSlot e i ≠ 3) → ∃ t, exec (.sequencedFrame p) s = .next t ∧ rest t ∧ drops t ∧
          (portOf t p.val).dups = satInc x.dups) ∧
        (2048 < n → (∀ i, i < 4 → eSlot e i ≠ 3) → ∃ t, exec (.sequencedFrame p) s = .next t ∧ rest t ∧ drops t ∧ naks t)) ∧
      (Quiet s p.val → frameGood fr = true → eKind e = 0 →
        (eNak e = false → eAckValid e = true → ∃ t, exec (.idleFrame p) s = .next t ∧ rest t ∧ drops t ∧
          (portOf t p.val).unacked = ackDrop (eAck e) x.unacked ∧ (ackDrop (eAck e) x.unacked ≠ x.unacked → (portOf t p.val).replayRun = 0)) ∧
        (eNak e = true → eAckValid e = false → x.unacked ≠ [] → x.replayRun < 7 → ∃ t, exec (.idleFrame p) s = .next t ∧ rest t ∧ drops t ∧
          (portOf t p.val).unacked = x.unacked ∧ (portOf t p.val).replays = satInc x.replays ∧ (portOf t p.val).replayRun = x.replayRun + 1 ∧
          ∀ g ∈ (portOf t p.val).line, g ∈ x.line ∨ bit g.env.toNat 36 = true)) ∧
      (∀ m, portLive s p.val = true → x.resend = 0 → x.tx = [m] → m.data.length = fCarried m.hdr.toNat → Plain fr 0 →
        let h := m.hdr.toNat
        let n := (fCarried h + 4) / 4
        let c := classKey h
        let m1 := if firstChip h then setHdr m 303 16 (fld (fabTime s).toNat 7 16) else m
        let m2 := if fFailover h then m1 else setHdr m1 124 16 d.txSeq
        1 ≤ (creditOf x c).free → fCarried h ≤ (creditOf x (c + 1)).free → bufferedFrames x + n ≤ 512 →
        (firstChip h = true ∨ expired (fabTime s) h = false) →
        ∃ t, exec (.idleFrame p) s = .next t ∧ rest t ∧ drops t ∧ (portOf t p.val).tx = [] ∧ (portOf t p.val).txSeq = (x.txSeq + n) % 4096 ∧
          (portOf t p.val).unacked = x.unacked ++ [TxPkt.mk x.txSeq n m2] ∧
          (fFailover h = false → (pairOf t (p.val / 2)).txSeq = (d.txSeq + 1) % 65536) ∧
          (creditOf (portOf t p.val) c).charged = ((creditOf x c).charged + 1) % 65536 ∧
          (creditOf (portOf t p.val) (c + 1)).charged = ((creditOf x (c + 1)).charged + fCarried h) % 65536 ∧
          ∃ g l, (portOf t p.val).line = g :: l ∧ l.length + 1 = n ∧ frameGood g = true ∧ eKind g.env.toNat = 1 ∧ eSeq g.env.toNat = x.txSeq % 4096 ∧
            bit g.env.toNat 36 = false ∧ eSlot g.env.toNat 0 = 1 ∧ g.flit.toNat % 2 ^ 512 = m2.hdr.toNat) ∧
      (x.state = .identify → Plain fr 2 → ∃ t, exec (.controlFrame p) s = .next t ∧ drops t ∧ portOf t p.val = { x with
        rxFrames := fs, partnerNode := cf f 0xA 2 % 4096, partnerPort := cf f 0xC 1 % 16, offer := some (cf f 0xE 1, cf f 0xD 1) }) ∧
      (x.state = .creditInit → frameGood fr = true → eKind e = 2 → cf f 9 1 = 6 → ∃ t, exec (.controlFrame p) s = .next t ∧ rest t ∧
        OtherPorts s t p.val ∧ (portOf t p.val).advSeen = true ∧ (portOf t p.val).ackSeen = (x.ackSeen || eAckValid e) ∧
        ∀ k, k < 4 → (creditOf (portOf t p.val) k).adv = cf f (0x10 + 2 * k) 2 ∧ (creditOf (portOf t p.val) k).window = cf f (0x10 + 2 * k) 2) ∧
      (Quiet s p.val → Plain fr 2 → (∀ k, k < 4 → (cf f (2 * k) 2 + 65536 - (creditOf x k).returned % 65536) % 65536 ≤ (creditOf x k).owed) →
        ∃ t, exec (.controlFrame p) s = .next t ∧ rest t ∧ drops t ∧ ∀ k, k < 4 → (creditOf (portOf t p.val) k).returned = cf f (2 * k) 2)) ∧
    ((x.state = .identify ∨ x.state = .creditInit ∨ x.state = .active) → ∃ t, exec (.controlFrameTimer p) s = .next t ∧ drops t ∧
      (portOf t p.val).ctlSent = x.ctlSent + 1 ∧ (portOf t p.val).nak = false ∧
      (∃ g, (portOf t p.val).line = [g] ∧ frameGood g = true ∧ eKind g.env.toNat = 2 ∧ g.flit = (portOf t p.val).ctlFlit) ∧
      (let g := (portOf t p.val).ctlFlit.toNat
       cf g 0xA 2 = s.chain.node % 4096 ∧ cf g 9 1 = x.state.code ∧ cf g 0xC 1 = p.val ∧
       ∀ k, k < 4 → cf g (2 * k) 2 = (creditOf x k).given % 65536)) ∧
    (portLive s p.val = true → x.unacked ≠ [] → x.ackTick + 200 ≤ s.clk.ticks → ∃ t, exec (.replayTimeout p) s = .next t ∧
      (portOf t p.val).replays = satInc x.replays ∧
      (x.replayRun < 7 → drops t ∧ x.unacked <+: (portOf t p.val).unacked ∧ (portOf t p.val).ackTick = s.clk.ticks) ∧
      (7 ≤ x.replayRun → (portOf t p.val).state = .lock)) ∧
    ((x.state ≠ .active ∨ x.unacked = [] ∨ s.clk.ticks < x.ackTick + 200) → exec (.replayTimeout p) s = .next s)

/-- 10 R327-R330, R333-R335, R338: requests to other parts. A packet for another node takes the lowest free FTAG and leaves on the first hop of its
run's route, once per member for a set; with no route, or no epoch, it is refused NO_ROUTE, one that is live no more is stale, and with no tag
free it waits. 200 µs after it, or the last of its copies, has left, a transfer without its answer is given up; a READ goes out again at 100 µs
and 200 µs. The answers come back to the engine, with the first refusal of a multicast before staleness. A command that finds its condition unmet
changes nothing: the model's choice (log entry 8). -/
def Obligations.FabricRequests : Prop :=
  ∀ (s : State),
    (∀ i w d, s.noc.arrive[i]? = some d → d.target = .fabric → d.sender = some w → d.group = none →
      d.full = true → 1 ≤ pType d.pkt.hdr.toNat → pType d.pkt.hdr.toNat ≤ 4 →
      let h := d.pkt.hdr.toNat
      let node := fld (pDest h) 50 12
      let refused (t : State) : Prop := EngineGets s t w h 7 0xB [] ∧ t.fab.ftags = s.fab.ftags ∧ t.noc.arrive = dropAt s.noc.arrive i ∧
        tget 0 t.fab.nacks 0xB = satInc (tget 0 s.fab.nacks 0xB)
      (pEpoch h = 0 → ∃ t, exec (.fabricEgress i) s = .next t ∧ refused t) ∧
      (pEpoch h ≠ 0 → liveAt s fabTable (pEpoch h) = false → ∃ t, exec (.fabricEgress i) s = .next t ∧ EngineGets s t w h 6 1 [] ∧
        t.fab = s.fab ∧ t.noc.arrive = dropAt s.noc.arrive i ∧ t.str = { s.str with stale := satInc s.str.stale }) ∧
      (pEpoch h ≠ 0 → liveAt s fabTable (pEpoch h) = true → epochRun s (pEpoch h) = none → ∃ t, exec (.fabricEgress i) s = .next t ∧ refused t) ∧
      (∀ r g, liveAt s fabTable (pEpoch h) = true → epochRun s (pEpoch h) = some (r, g) →
        (r.tag = 0 → ∃ t, exec (.fabricEgress i) s = .next t ∧ refused t) ∧
        (∀ e, r.tag ≠ 0 → g.routes.find? (fun e => e.key == node) = some e → (e.isSet = true → pType h = 1) → newFtag s = none →
          exec (.fabricEgress i) s = .next s) ∧
        (∀ tg, r.tag ≠ 0 → newFtag s = some tg → ftagOf s tg = none ∧ tg < 4096 ∧
          ((∀ e ∈ g.routes, e.key ≠ node) → ∃ t, exec (.fabricEgress i) s = .next t ∧ refused t) ∧
          (∀ e, g.routes.find? (fun e => e.key == node) = some e →
            (e.isSet = true → pType h ≠ 1 → ∃ t, exec (.fabricEgress i) s = .next t ∧ refused t) ∧
            (e.isSet = false → 1 ≤ e.count → let p := hopPort (fld e.hops.toNat 0 4)
              Stalled s p → ∃ t k f, exec (.fabricEgress i) s = .next t ∧ t.noc.arrive = dropAt s.noc.arrive i ∧
                (portOf t p).tx = (portOf s p).tx ++ [k] ∧ k.data = d.pkt.data ∧ fType k.hdr.toNat = pType h ∧ fTag k.hdr.toNat = tg ∧
                fSnode k.hdr.toNat = s.chain.node % 4096 ∧ fDest k.hdr.toNat = pDest h ∧ fHops k.hdr.toNat = e.count % 32 ∧
                fPtr k.hdr.toNat = 1 ∧
                ftagOf t tg = some f ∧ f.seat = w ∧ f.hdr = d.pkt.hdr ∧ f.left = 1 ∧
                f.unsent = 1 ∧ ∀ u, u ≠ tg → ftagOf t u = ftagOf s u) ∧
            (e.isSet = true → pType h = 1 → let ms := e.members.filterMap (routeTo g)
              (∀ m ∈ ms, 1 ≤ m.count ∧ portLive s (hopPort (fld m.hops.toNat 0 4)) = true) → ∃ t f, exec (.fabricEgress i) s = .next t ∧
                ftagOf t tg = some f ∧ f.left = ms.length ∧ f.seat = w ∧ (∀ k ∈ f.sent, fld (fDest k.hdr.toNat) 62 2 = 1 ∧ k.data = d.pkt.data) ∧
                f.sent.map (fun k => fld (fDest k.hdr.toNat) 50 12) = ms.map (fun m => m.key % 4096)))))) ∧
    (∀ tg, (ftagOf s tg = none → exec (.fabricGiveUp tg) s = .next s ∧ exec (.readReissue tg) s = .next s ∧ exec (.ftagRelease tg) s = .next s) ∧
      ∀ f, ftagOf s tg = some f →
        (f.isRead = false → f.complete = false → f.unsent = 0 → f.tick + 20000 ≤ s.clk.ticks → f.code < 16 → ∃ t, exec (.fabricGiveUp tg) s = .next t ∧
          ftagOf t tg = none ∧ t.fab.givenUp = satInc s.fab.givenUp ∧
          EngineGets s t f.seat f.hdr.toNat 7 (if f.refused = 0 then 0xA else f.code) []) ∧
        ((f.isRead = true ∨ f.complete = true ∨ 0 < f.unsent ∨ s.clk.ticks < f.tick + 20000) → exec (.fabricGiveUp tg) s = .next s) ∧
        (f.isRead = true → f.complete = false → f.unsent = 0 → f.refused = 0 → f.tick + 40000 ≤ s.clk.ticks → ∃ t, exec (.readReissue tg) s = .next t ∧
          ftagOf t tg = none ∧ t.fab.givenUp = satInc s.fab.givenUp ∧ EngineGets s t f.seat f.hdr.toNat 7 0xA []) ∧
        (∀ k, f.isRead = true → f.complete = false → f.unsent = 0 → s.clk.ticks < f.tick + 40000 → f.issues < 3 → f.tick + 10000 * f.issues ≤ s.clk.ticks →
          f.sent = [k] → let p := hopPort (fHop k.hdr.toNat (fPtr k.hdr.toNat))
          fPtr k.hdr.toNat < 16 → Stalled s p → ∃ t q, exec (.readReissue tg) s = .next t ∧ t.fab.reissues = satInc s.fab.reissues ∧
            ftagOf t tg = some { f with issues := f.issues + 1, last := s.clk.ticks } ∧ (portOf t p).tx = (portOf s p).tx ++ [q] ∧
            bit q.hdr.toNat 141 = true ∧ fTag q.hdr.toNat = fTag k.hdr.toNat) ∧
        ((f.isRead = false ∨ f.complete = true ∨ 0 < f.unsent ∨ s.clk.ticks < f.tick + 40000 ∧ (3 ≤ f.issues ∨ s.clk.ticks < f.tick + 10000 * f.issues)) →
          exec (.readReissue tg) s = .next s) ∧
        (f.complete = true → f.last + 20000 ≤ s.clk.ticks → exec (.ftagRelease tg) s =
          .next { s with fab := { s.fab with ftags := tdel s.fab.ftags tg } }) ∧
        ((f.complete = false ∨ s.clk.ticks < f.last + 20000) → exec (.ftagRelease tg) s = .next s)) ∧
    (∀ i k, s.fab.answers[i]? = some k →
      let h := k.hdr.toNat
      let taken : State := { s with fab := { s.fab with answers := dropAt s.fab.answers i } }
      (ftagOf s (fTag h) = none → exec (.fabricAnswer i) s = .next taken) ∧
      (∀ f, ftagOf s (fTag h) = some f →
        let live := liveAt s fabTable (pEpoch f.hdr.toNat)
        (fType h = 5 → f.complete = true →
          exec (.fabricAnswer i) s = .next { taken with fab := { taken.fab with dupRsp := satInc s.fab.dupRsp } }) ∧
        (fType h = 5 → f.complete = false → ∃ t, exec (.fabricAnswer i) s = .next t ∧
          (live = true → EngineGets s t f.seat f.hdr.toNat 5 0 k.data) ∧
          (live = false → EngineGets s t f.seat f.hdr.toNat 6 1 [] ∧ t.str.stale = satInc s.str.stale)) ∧
        (f.complete = false → f.isMulti = false → f.isRead = false →
          (fType h = 6 → ∃ t, exec (.fabricAnswer i) s = .next t ∧ ftagOf t (fTag h) = none ∧
            EngineGets s t f.seat f.hdr.toNat 6 (if fStatus h = 0 then 0 else 1) []) ∧
          (fType h = 7 → ∃ t, exec (.fabricAnswer i) s = .next t ∧ ftagOf t (fTag h) = none ∧ EngineGets s t f.seat f.hdr.toNat 7 (fStatus h) [])) ∧
        (f.complete = false → f.isMulti = true → f.isRead = false →
          (∀ a k b, f.sent = a ++ k :: b → (∀ j, j < fHops h → fHop k.hdr.toNat j = hopBack (fHop h (fHops h - 1 - j))) →
            (∀ m ∈ a, ∃ j, j < fHops h ∧ fHop m.hdr.toNat j ≠ hopBack (fHop h (fHops h - 1 - j))) → 1 < f.left →
            (fType h = 6 → fStatus h = 0 → exec (.fabricAnswer i) s =
              .next (putFtag taken (fTag h) { f with left := f.left - 1, sent := a ++ b })) ∧
            (fType h = 6 → fStatus h = 1 → exec (.fabricAnswer i) s =
              .next (putFtag taken (fTag h) { f with left := f.left - 1, sent := a ++ b, stale := f.stale + 1 })) ∧
            (fType h = 7 → f.refused = 0 → exec (.fabricAnswer i) s = .next (putFtag taken (fTag h)
              { f with left := f.left - 1, sent := a ++ b, refused := 1, code := fStatus h,
                       unit := unitRef 3 (fld (fDest k.hdr.toNat) 50 12) 0 0 0 0 }))) ∧
          (f.left = 1 → fType h = 6 → fStatus h = 0 → f.code < 16 → ∃ t, exec (.fabricAnswer i) s = .next t ∧ ftagOf t (fTag h) = none ∧
            (0 < f.refused → EngineGets s t f.seat f.hdr.toNat 7 f.code []) ∧
            (f.refused = 0 → 0 < f.stale → EngineGets s t f.seat f.hdr.toNat 6 1 []) ∧
            (f.refused = 0 → f.stale = 0 → EngineGets s t f.seat f.hdr.toNat 6 0 [])))))

/-- 10 R321, R330-R333, 07 R236, 09 R271, R279: a packet that a port has accepted. One older than 64 µs is dropped and counted; one with hops left
goes on to the next, with HOP_PTR advanced; an answer at its last hop is kept for the complex that asked; a request there enters the die with the
epoch of its heat, at the complex's edge port on the column of its seat or on a link of its pool, and one that cannot is answered along the
reverse of its hops. -/
def Obligations.FabricArrivals : Prop :=
  ∀ (s : State) (i p : Nat) (k : Pkt),
    let h := k.hdr.toNat
    let a := fDest h
    let pool := fld a 34 4 == 8
    let half := fld a 49 1
    let node := fld a 50 12
    s.fab.rx[i]? = some (p, k) → p < 12 →
    let gone (t : State) : Prop := exec (.fabricArrival i) s = .next t ∧ t.fab.rx = dropAt s.fab.rx i ∧
      (creditOf (portOf t p) (classKey h)).given = ((creditOf (portOf s p) (classKey h)).given + 1) % 65536
    (expired (fabTime s) h = true → ∃ t, gone t ∧ t.fab.expired = satInc s.fab.expired ∧ t.noc = s.noc ∧ t.fab.answers = s.fab.answers) ∧
    (expired (fabTime s) h = false →
      ((fType h = 0 ∨ 7 < fType h) → ∃ t, gone t ∧ t.noc = s.noc ∧ t.fab.answers = s.fab.answers ∧ t.fab.inbound = s.fab.inbound) ∧
      (1 ≤ fType h → fType h ≤ 7 →
        (fPtr h < fHops h → fPtr h < 16 → let q := hopPort (fHop h (fPtr h))
          Stalled s q → ∃ t o, gone t ∧ t.noc = s.noc ∧
            (portOf t q).tx = (portOf s q).tx ++ [o] ∧ o.data = k.data ∧ fType o.hdr.toNat = fType h ∧ fTag o.hdr.toNat = fTag h ∧
            fDest o.hdr.toNat = a ∧ fPtr o.hdr.toNat = fPtr h + 1 ∧ fFailover o.hdr.toNat = false ∧ fBirth o.hdr.toNat = fBirth h) ∧
        (fHops h ≤ fPtr h →
          (5 ≤ fType h → ∃ t, gone t ∧ t.fab.answers = s.fab.answers ++ [k] ∧ t.noc = s.noc) ∧
          (fType h ≤ 4 → node = s.chain.node → fld a 62 2 ≤ 1 →
            (∀ ep, destEpoch s (fRunTag h) (fDheatOf h) pool = some ep → ∃ t q, gone t ∧ q.data = k.data ∧
              pType q.hdr.toNat = fType h ∧ pTag q.hdr.toNat = s.fab.tag % 4096 ∧ pEpoch q.hdr.toNat = ep ∧
              pDest q.hdr.toNat = a % 2 ^ 62 ∧ pLctr q.hdr.toNat = fLctr h ∧ pLcen q.hdr.toNat = fLcen h ∧
              pWord q.hdr.toNat = fWord h ∧
              t.fab.inbound = s.fab.inbound ++ [{ tag := s.fab.tag, hdr := k.hdr, tick := s.clk.ticks }] ∧
              (pool = true → halfBoated s half = false → ∃ n, 2524 + 8 * half ≤ n ∧ n < 2532 + 8 * half ∧
                t.noc.buf = (push s n 0 vcReq (flitsOf { goal := .pool half, entry := n } q)).noc.buf) ∧
              (∀ w, pool = false → halfBoated s half = false → (halfEasy s half = false ∨ seatFenced s w = false) → fld a 43 6 ≤ 47 →
                physAt s (2424 + half * 48 + fld a 43 6 % 8 * 6) (half * 48 + fld a 43 6) (fld a 38 5) = some w →
                let n := 2424 + (coordOf w).1
                t.noc.buf = (push s n 0 vcReq (flitsOf { goal := .seat w, entry := n } q)).noc.buf)) ∧
            (destEpoch s (fRunTag h) (fDheatOf h) pool = none → ∃ t, gone t ∧ t.noc = s.noc ∧ t.str.stale = satInc s.str.stale)) ∧
          (∀ st, fType h ≤ 4 → (node ≠ s.chain.node ∧ st = 8 ∨ node = s.chain.node ∧ 2 ≤ fld a 62 2 ∧ st = 1) → 1 ≤ fPtr h → fPtr h ≤ 16 →
            let q := hopPort (hopBack (fHop h (fPtr h - 1)))
            Stalled s q → ∃ t o, gone t ∧ t.noc.buf = s.noc.buf ∧ t.fab.inbound = s.fab.inbound ∧ (portOf t q).tx = (portOf s q).tx ++ [o] ∧
              fType o.hdr.toNat = 7 ∧ fStatus o.hdr.toNat = st ∧ fTag o.hdr.toNat = fTag h ∧ fHops o.hdr.toNat = fPtr h ∧
              ∀ j, j < fPtr h → fHop o.hdr.toNat j = hopBack (fHop h (fPtr h - 1 - j)))))) ∧
    (∀ (run : Run) (x : Heat) (r n : Nat) (pool : Bool), run.tag ≠ 0 → s.str.runs.find? (fun e => e.2.tag == run.tag) = some (r, run) →
      run.heats[n]? = some x → destEpoch s run.tag n pool =
        if x.phase = .dispatched then some x.epoch else if (x.phase = .pending ∨ x.phase = .ready) ∧ pool = true then some 0 else none)

/-! ## The block as a whole -/

/-- The block takes the command at the front of its queue and carries it out with the queue's rest. On an empty queue one period of the reference
clock passes, unless the part is in reset or has lost REFCLK, which is the model's own choice (log entry 6); it changes the clocks alone. A
command that finds its condition unmet changes nothing: the model's choice (log entry 8). -/
def Obligations.StepRunsFrontCommand : Prop :=
  (∀ (c : Instr) (rest : List Instr) (s : State), step { s with pending := c :: rest } = exec c { s with pending := rest }) ∧
  ∀ s : State, s.pending = [] →
    ((s.pins.refLost = true ∨ s.pins.reset = true) → step s = .next s) ∧
    (s.pins.refLost = false → s.pins.reset = false → ∃ t, step s = .next t ∧ t.hide [.clk, .free] = s.hide [.clk, .free] ∧
      t.clk.ticks = s.clk.ticks + 1)

/-- 16 R486, 13 R406, 15 R474, 07 R253, 12 R399, 10 R343: what reset leaves in the registers to which the spec gives a value, and nothing waits. -/
def Obligations.ResetValues : Prop :=
  let s := State.reset
  s.pending = [] ∧ s.pins.reset = true ∧ s.glb.fw = .off ∧ s.glb.stage = 0 ∧ s.glb.ready = false ∧ s.glb.events = 0 ∧ s.glb.bad = 0 ∧
  s.glb.recStatus = 0 ∧ s.flt.haltCode = 0 ∧ s.flt.lastSeq = 0 ∧ s.flt.ackSeq = 0 ∧ s.flt.overrun = 0 ∧ s.flt.handled = 0 ∧
  s.flt.faulted = 0 ∧ s.flt.seatFaults = 0 ∧ s.str.dsn = 0 ∧ s.str.stale = 0 ∧ s.str.aborts = 0 ∧ s.str.abandons = 0 ∧ s.str.runs = [] ∧
  s.clk.master = 0 ∧ s.clk.refused = 0 ∧ s.pwr.capEvents = 0 ∧ s.chain.valid = false ∧ s.chain.fleetHalt = false ∧ s.fab.role = 0 ∧
  s.fab.depth = 0xFF ∧ s.fab.locked = false ∧ (∀ k, (classOf s k).state = 0) ∧ (∀ r, (sqOf s r).enable = false ∧ (sqOf s r).opened = false) ∧
  (∀ r, (cqrOf s r).enable = false) ∧ (∀ r, (feedOf s r).enable = false) ∧ (∀ c, (ctxOf s c).state = .free) ∧
  (∀ p, (portOf s p).state = .off ∧ (portOf s p).en = true) ∧ (∀ w, (seatOf s w).cox.state = .noHeat ∧ (seatOf s w).lnd.held = []) ∧
  s.memoriesCanonical = true ∧ NetworkBounded s

/-- Every step keeps every memory in its canonical form: addresses strictly rising, and no byte listed that an unlisted address reads as. -/
def Obligations.StepKeepsCanonicalMemories : Prop :=
  ∀ (s t : State), s.memoriesCanonical = true → step s = .next t → t.memoriesCanonical = true

/-- The frame of every command: it changes only the components that `touches` lists for it, and never the queue. -/
def Obligations.CommandFrames : Prop :=
  ∀ (c : Instr) (s t : State), exec c s = .next t → t.hide (touches c) = s.hide (touches c) ∧ t.pending = s.pending

/-- 16 R478: no command stops the model but a droop below the supply at which the stretch is greatest, where the behaviour of the device is not
defined. Every other command answers a next state from every state. -/
def Obligations.OnlyDroopStops : Prop :=
  ∀ (c : Instr) (s : State),
    ((∀ q mv, c ≠ .droopStretching q mv) → Completes c s) ∧ (∀ f, exec c s ≠ .refused f) ∧
    (¬ Completes c s → ∃ q mv, c = .droopStretching q mv ∧ exec c s = .fault .supplyBelowDefined)
end

