-- ==== Sys2Proof/Laws/Memory.lean ====
section
/-!
SUPPORT. What sparse tables and byte memories do: a read after a write, a write leaves every other key alone, and every operation
keeps the canonical form.
-/
namespace Sys2Proof.Machine

variable {α : Type}

/-! ## Reads of a table -/

@[simp] theorem tfind_nil (i : Nat) : tfind ([] : Tbl α) i = none := rfl
@[simp] theorem tget_nil (d : α) (i : Nat) : tget d [] i = d := rfl

theorem tfind_tput_self (t : Tbl α) (i : Nat) (x : α) : tfind (tput t i x) i = some x := by
  induction t with
  | nil => simp [tput, tfind]
  | cons p t ih =>
    unfold tput
    split
    · simp [tfind]
    · split
      · simp [tfind]
      · have : p.1 ≠ i := by omega
        simp [tfind, this, ih]

theorem tfind_tput_ne (t : Tbl α) {i j : Nat} (x : α) (h : j ≠ i) : tfind (tput t i x) j = tfind t j := by
  induction t with
  | nil => simp [tput, tfind, Ne.symm h]
  | cons p t ih =>
    unfold tput
    split
    · simp [tfind, Ne.symm h]
    · split
      · next h2 => simp [tfind, ← h2, Ne.symm h]
      · simp [tfind, ih]

theorem tfind_tdel_self (t : Tbl α) (i : Nat) : tfind (tdel t i) i = none := by
  induction t with
  | nil => rfl
  | cons p t ih =>
    unfold tdel at *
    by_cases h : p.1 = i
    · rw [List.filter_cons_of_neg (by simp [h])]; exact ih
    · rw [List.filter_cons_of_pos (by simp [h])]; simp [tfind, h, ih]

theorem tfind_tdel_ne (t : Tbl α) {i j : Nat} (h : j ≠ i) : tfind (tdel t i) j = tfind t j := by
  induction t with
  | nil => rfl
  | cons p t ih =>
    unfold tdel at *
    by_cases hp : p.1 = i
    · rw [List.filter_cons_of_neg (by simp [hp])]; simp [tfind, hp, ih, Ne.symm h]
    · rw [List.filter_cons_of_pos (by simp [hp])]; simp [tfind, ih]

@[simp] theorem tget_tput_self (d : α) (t : Tbl α) (i : Nat) (x : α) : tget d (tput t i x) i = x := by
  simp [tget, tfind_tput_self]

@[simp] theorem tget_tput_ne (d : α) (t : Tbl α) {i j : Nat} (x : α) (h : j ≠ i) : tget d (tput t i x) j = tget d t j := by
  simp [tget, tfind_tput_ne, h]

theorem tput_tput (t : Tbl α) (i : Nat) (x y : α) : tput (tput t i x) i y = tput t i y := by
  induction t with
  | nil => simp [tput]
  | cons p t ih =>
    obtain ⟨k, v⟩ := p
    by_cases h1 : i < k
    · simp [tput, h1]
    · by_cases h2 : i = k
      · simp [tput, h2]
      · simp [tput, h1, h2, ih]

section Default
variable [DecidableEq α]

@[simp] theorem tget_tset_self (d : α) (t : Tbl α) (i : Nat) (x : α) : tget d (tset d t i x) i = x := by
  unfold tset
  split
  · next h => simp [tget, tfind_tdel_self, h]
  · simp

@[simp] theorem tget_tset_ne (d : α) (t : Tbl α) {i j : Nat} (x : α) (h : j ≠ i) : tget d (tset d t i x) j = tget d t j := by
  unfold tset
  split
  · simp [tget, tfind_tdel_ne, h]
  · simp [h]

/-! ## The canonical form of a table -/

omit [DecidableEq α] in
theorem keysAbove_iff (lo : Nat) (t : Tbl α) : keysAbove lo t = true ↔ ∀ p ∈ t, lo < p.1 := by
  simp [keysAbove]

theorem canonical_cons (d : α) (k : Nat) (v : α) (t : Tbl α) :
    Tbl.canonical d ((k, v) :: t) = true ↔ v ≠ d ∧ (∀ p ∈ t, k < p.1) ∧ Tbl.canonical d t = true := by
  simp [Tbl.canonical, keysAbove, and_assoc]

theorem canonical_filter (d : α) (t : Tbl α) (f : Nat × α → Bool) (h : Tbl.canonical d t = true) :
    Tbl.canonical d (t.filter f) = true := by
  induction t with
  | nil => rfl
  | cons p t ih =>
    obtain ⟨k, v⟩ := p
    rw [canonical_cons] at h
    by_cases hf : f (k, v) = true
    · rw [List.filter_cons_of_pos hf, canonical_cons]
      exact ⟨h.1, fun q hq => h.2.1 q (List.mem_filter.1 hq).1, ih h.2.2⟩
    · rw [List.filter_cons_of_neg hf]
      exact ih h.2.2

omit [DecidableEq α] in
theorem mem_tput (t : Tbl α) (i : Nat) (x : α) (p : Nat × α) (h : p ∈ tput t i x) : p = (i, x) ∨ p ∈ t := by
  induction t with
  | nil => simpa [tput] using h
  | cons q t ih =>
    unfold tput at h
    split at h
    · simpa using h
    · split at h
      · rcases List.mem_cons.1 h with h | h
        · exact .inl h
        · exact .inr (List.mem_cons_of_mem _ h)
      · rcases List.mem_cons.1 h with h | h
        · exact .inr (h ▸ List.mem_cons_self)
        · rcases ih h with h | h
          · exact .inl h
          · exact .inr (List.mem_cons_of_mem _ h)

theorem canonical_tput (d : α) (t : Tbl α) (i : Nat) (x : α) (hx : x ≠ d) (h : Tbl.canonical d t = true) :
    Tbl.canonical d (tput t i x) = true := by
  induction t with
  | nil => simp [tput, hx, Tbl.canonical, keysAbove]
  | cons p t ih =>
    obtain ⟨k, v⟩ := p
    have h' := (canonical_cons d k v t).1 h
    unfold tput
    split
    · next hk =>
      rw [canonical_cons]
      refine ⟨hx, fun q hq => ?_, h⟩
      rcases List.mem_cons.1 hq with hq | hq
      · simp [hq, hk]
      · have := h'.2.1 q hq; omega
    · split
      · next hk =>
        subst hk
        rw [canonical_cons]
        exact ⟨hx, h'.2.1, h'.2.2⟩
      · rw [canonical_cons]
        refine ⟨h'.1, fun q hq => ?_, ih h'.2.2⟩
        rcases mem_tput t i x q hq with hq | hq
        · simp [hq]; omega
        · exact h'.2.1 q hq

theorem canonical_tset (d : α) (t : Tbl α) (i : Nat) (x : α) (h : Tbl.canonical d t = true) :
    Tbl.canonical d (tset d t i x) = true := by
  unfold tset
  split
  · exact canonical_filter d t _ h
  · exact canonical_tput d t i x ‹_› h

end Default

/-! ## Byte memories -/

theorem wf_mwrite (m : Mem) (a : Nat) (b : Byte) (h : Memory.wf m = true) : Memory.wf (mwrite m a b) = true := canonical_tset 0 m a b h

theorem wf_mwrites (m : Mem) (a : Nat) (bs : List Byte) (h : Memory.wf m = true) : Memory.wf (mwrites m a bs) = true := by
  induction bs generalizing m a with
  | nil => exact h
  | cons b bs ih => exact ih _ _ (wf_mwrite m a b h)

theorem wf_mwr (m : Mem) (a n v : Nat) (h : Memory.wf m = true) : Memory.wf (mwr m a n v) = true := wf_mwrites m a _ h

theorem wf_mclear (m : Mem) (a n : Nat) (h : Memory.wf m = true) : Memory.wf (mclear m a n) = true := canonical_filter 0 m _ h

theorem wf_mcopy (m : Mem) (a : Nat) (src : Mem) (b n : Nat) (h : Memory.wf m = true) : Memory.wf (mcopy m a src b n) = true :=
  wf_mwrites m a _ h

theorem wf_mwrGran (m : Mem) (g : Nat) (d : Granule) (h : Memory.wf m = true) : Memory.wf (mwrGran m g d) = true := wf_mwrites _ _ _ h

@[simp] theorem mread_mwrite_self (m : Mem) (a : Nat) (b : Byte) : mread (mwrite m a b) a = b := tget_tset_self 0 m a b

@[simp] theorem mread_mwrite_ne (m : Mem) {a c : Nat} (b : Byte) (h : c ≠ a) : mread (mwrite m a b) c = mread m c := tget_tset_ne 0 m b h

theorem mread_mwrites_out (m : Mem) (a c : Nat) (bs : List Byte) (h : c < a ∨ a + bs.length ≤ c) :
    mread (mwrites m a bs) c = mread m c := by
  induction bs generalizing m a with
  | nil => rfl
  | cons b bs ih =>
    simp only [mwrites, List.length_cons] at *
    rw [ih _ _ (by omega)]
    exact mread_mwrite_ne m b (by omega)

theorem mread_mwrites_in (m : Mem) (a : Nat) (bs : List Byte) (i : Nat) (h : i < bs.length) :
    mread (mwrites m a bs) (a + i) = bs[i] := by
  induction bs generalizing m a i with
  | nil => simp at h
  | cons b bs ih =>
    cases i with
    | zero => simp only [mwrites]; rw [mread_mwrites_out _ _ _ _ (by omega)]; simp
    | succ i =>
      simp only [mwrites, List.getElem_cons_succ]
      rw [← ih (mwrite m a b) (a + 1) i (by simpa using h)]
      congr 1; omega

theorem length_bytesOf (v n : Nat) : (bytesOf v n).length = n := by
  induction n generalizing v with
  | zero => rfl
  | succ n ih => simp [bytesOf, ih]

/-- A store of `n` bytes leaves every byte outside them. -/
theorem mread_mwr_out (m : Mem) (a n v c : Nat) (h : c < a ∨ a + n ≤ c) : mread (mwr m a n v) c = mread m c :=
  mread_mwrites_out m a c _ (by rw [length_bytesOf]; exact h)

/-- A granule write leaves every byte outside the granule. -/
theorem mread_mwrGran_out (m : Mem) (g : Nat) (d : Granule) (c : Nat) (h : c < 64 * g ∨ 64 * g + 64 ≤ c) :
    mread (mwrGran m g d) c = mread m c := mread_mwr_out m (64 * g) 64 _ c h

end Sys2Proof.Machine
end

