-- ==== Sys2Proof/Laws/State.lean ====
section
/-!
SUPPORT. What the updates of one part of the state leave and give: one lemma per update and part, so that no later proof unfolds a
record update.
-/
namespace Sys2Proof.Machine

@[simp] theorem putSeat_pending (s : State) (w : Nat) (x : Seat) : (putSeat s w x).pending = s.pending := rfl
@[simp] theorem putSeat_str (s : State) (w : Nat) (x : Seat) : (putSeat s w x).str = s.str := rfl
@[simp] theorem putSeat_ctxs (s : State) (w : Nat) (x : Seat) : (putSeat s w x).ctxs = s.ctxs := rfl
@[simp] theorem putSeat_cq (s : State) (w : Nat) (x : Seat) : (putSeat s w x).cq = s.cq := rfl
@[simp] theorem putSeat_clk (s : State) (w : Nat) (x : Seat) : (putSeat s w x).clk = s.clk := rfl
@[simp] theorem putSeat_pwr (s : State) (w : Nat) (x : Seat) : (putSeat s w x).pwr = s.pwr := rfl
@[simp] theorem putSeat_flt (s : State) (w : Nat) (x : Seat) : (putSeat s w x).flt = s.flt := rfl
@[simp] theorem putSeat_glb (s : State) (w : Nat) (x : Seat) : (putSeat s w x).glb = s.glb := rfl
@[simp] theorem putSeat_sec (s : State) (w : Nat) (x : Seat) : (putSeat s w x).sec = s.sec := rfl
@[simp] theorem putSeat_noc (s : State) (w : Nat) (x : Seat) : (putSeat s w x).noc = s.noc := rfl
@[simp] theorem putSeat_pools (s : State) (w : Nat) (x : Seat) : (putSeat s w x).pools = s.pools := rfl
@[simp] theorem putSeat_fab (s : State) (w : Nat) (x : Seat) : (putSeat s w x).fab = s.fab := rfl
@[simp] theorem putSeat_chain (s : State) (w : Nat) (x : Seat) : (putSeat s w x).chain = s.chain := rfl
@[simp] theorem putSeat_pins (s : State) (w : Nat) (x : Seat) : (putSeat s w x).pins = s.pins := rfl
@[simp] theorem putSeat_hostMem (s : State) (w : Nat) (x : Seat) : (putSeat s w x).hostMem = s.hostMem := rfl
@[simp] theorem putSeat_free (s : State) (w : Nat) (x : Seat) : (putSeat s w x).free = s.free := rfl

@[simp] theorem modSeat_pending (s : State) (w : Nat) (f : Seat → Seat) : (modSeat s w f).pending = s.pending := rfl
@[simp] theorem modSeat_str (s : State) (w : Nat) (f : Seat → Seat) : (modSeat s w f).str = s.str := rfl
@[simp] theorem modSeat_ctxs (s : State) (w : Nat) (f : Seat → Seat) : (modSeat s w f).ctxs = s.ctxs := rfl
@[simp] theorem modSeat_cq (s : State) (w : Nat) (f : Seat → Seat) : (modSeat s w f).cq = s.cq := rfl
@[simp] theorem modSeat_clk (s : State) (w : Nat) (f : Seat → Seat) : (modSeat s w f).clk = s.clk := rfl
@[simp] theorem modSeat_pwr (s : State) (w : Nat) (f : Seat → Seat) : (modSeat s w f).pwr = s.pwr := rfl
@[simp] theorem modSeat_flt (s : State) (w : Nat) (f : Seat → Seat) : (modSeat s w f).flt = s.flt := rfl
@[simp] theorem modSeat_glb (s : State) (w : Nat) (f : Seat → Seat) : (modSeat s w f).glb = s.glb := rfl
@[simp] theorem modSeat_sec (s : State) (w : Nat) (f : Seat → Seat) : (modSeat s w f).sec = s.sec := rfl
@[simp] theorem modSeat_noc (s : State) (w : Nat) (f : Seat → Seat) : (modSeat s w f).noc = s.noc := rfl
@[simp] theorem modSeat_pools (s : State) (w : Nat) (f : Seat → Seat) : (modSeat s w f).pools = s.pools := rfl
@[simp] theorem modSeat_fab (s : State) (w : Nat) (f : Seat → Seat) : (modSeat s w f).fab = s.fab := rfl
@[simp] theorem modSeat_chain (s : State) (w : Nat) (f : Seat → Seat) : (modSeat s w f).chain = s.chain := rfl
@[simp] theorem modSeat_pins (s : State) (w : Nat) (f : Seat → Seat) : (modSeat s w f).pins = s.pins := rfl
@[simp] theorem modSeat_hostMem (s : State) (w : Nat) (f : Seat → Seat) : (modSeat s w f).hostMem = s.hostMem := rfl
@[simp] theorem modSeat_free (s : State) (w : Nat) (f : Seat → Seat) : (modSeat s w f).free = s.free := rfl

@[simp] theorem modCox_pending (s : State) (w : Nat) (f : Cox → Cox) : (modCox s w f).pending = s.pending := rfl
@[simp] theorem modCox_str (s : State) (w : Nat) (f : Cox → Cox) : (modCox s w f).str = s.str := rfl
@[simp] theorem modCox_ctxs (s : State) (w : Nat) (f : Cox → Cox) : (modCox s w f).ctxs = s.ctxs := rfl
@[simp] theorem modCox_cq (s : State) (w : Nat) (f : Cox → Cox) : (modCox s w f).cq = s.cq := rfl
@[simp] theorem modCox_clk (s : State) (w : Nat) (f : Cox → Cox) : (modCox s w f).clk = s.clk := rfl
@[simp] theorem modCox_pwr (s : State) (w : Nat) (f : Cox → Cox) : (modCox s w f).pwr = s.pwr := rfl
@[simp] theorem modCox_flt (s : State) (w : Nat) (f : Cox → Cox) : (modCox s w f).flt = s.flt := rfl
@[simp] theorem modCox_glb (s : State) (w : Nat) (f : Cox → Cox) : (modCox s w f).glb = s.glb := rfl
@[simp] theorem modCox_sec (s : State) (w : Nat) (f : Cox → Cox) : (modCox s w f).sec = s.sec := rfl
@[simp] theorem modCox_noc (s : State) (w : Nat) (f : Cox → Cox) : (modCox s w f).noc = s.noc := rfl
@[simp] theorem modCox_pools (s : State) (w : Nat) (f : Cox → Cox) : (modCox s w f).pools = s.pools := rfl
@[simp] theorem modCox_fab (s : State) (w : Nat) (f : Cox → Cox) : (modCox s w f).fab = s.fab := rfl
@[simp] theorem modCox_chain (s : State) (w : Nat) (f : Cox → Cox) : (modCox s w f).chain = s.chain := rfl
@[simp] theorem modCox_pins (s : State) (w : Nat) (f : Cox → Cox) : (modCox s w f).pins = s.pins := rfl
@[simp] theorem modCox_hostMem (s : State) (w : Nat) (f : Cox → Cox) : (modCox s w f).hostMem = s.hostMem := rfl
@[simp] theorem modCox_free (s : State) (w : Nat) (f : Cox → Cox) : (modCox s w f).free = s.free := rfl

@[simp] theorem modMxa_pending (s : State) (w : Nat) (f : Mxa → Mxa) : (modMxa s w f).pending = s.pending := rfl
@[simp] theorem modMxa_str (s : State) (w : Nat) (f : Mxa → Mxa) : (modMxa s w f).str = s.str := rfl
@[simp] theorem modMxa_ctxs (s : State) (w : Nat) (f : Mxa → Mxa) : (modMxa s w f).ctxs = s.ctxs := rfl
@[simp] theorem modMxa_cq (s : State) (w : Nat) (f : Mxa → Mxa) : (modMxa s w f).cq = s.cq := rfl
@[simp] theorem modMxa_clk (s : State) (w : Nat) (f : Mxa → Mxa) : (modMxa s w f).clk = s.clk := rfl
@[simp] theorem modMxa_pwr (s : State) (w : Nat) (f : Mxa → Mxa) : (modMxa s w f).pwr = s.pwr := rfl
@[simp] theorem modMxa_flt (s : State) (w : Nat) (f : Mxa → Mxa) : (modMxa s w f).flt = s.flt := rfl
@[simp] theorem modMxa_glb (s : State) (w : Nat) (f : Mxa → Mxa) : (modMxa s w f).glb = s.glb := rfl
@[simp] theorem modMxa_sec (s : State) (w : Nat) (f : Mxa → Mxa) : (modMxa s w f).sec = s.sec := rfl
@[simp] theorem modMxa_noc (s : State) (w : Nat) (f : Mxa → Mxa) : (modMxa s w f).noc = s.noc := rfl
@[simp] theorem modMxa_pools (s : State) (w : Nat) (f : Mxa → Mxa) : (modMxa s w f).pools = s.pools := rfl
@[simp] theorem modMxa_fab (s : State) (w : Nat) (f : Mxa → Mxa) : (modMxa s w f).fab = s.fab := rfl
@[simp] theorem modMxa_chain (s : State) (w : Nat) (f : Mxa → Mxa) : (modMxa s w f).chain = s.chain := rfl
@[simp] theorem modMxa_pins (s : State) (w : Nat) (f : Mxa → Mxa) : (modMxa s w f).pins = s.pins := rfl
@[simp] theorem modMxa_hostMem (s : State) (w : Nat) (f : Mxa → Mxa) : (modMxa s w f).hostMem = s.hostMem := rfl
@[simp] theorem modMxa_free (s : State) (w : Nat) (f : Mxa → Mxa) : (modMxa s w f).free = s.free := rfl

@[simp] theorem modVec_pending (s : State) (w : Nat) (f : Vec → Vec) : (modVec s w f).pending = s.pending := rfl
@[simp] theorem modVec_str (s : State) (w : Nat) (f : Vec → Vec) : (modVec s w f).str = s.str := rfl
@[simp] theorem modVec_ctxs (s : State) (w : Nat) (f : Vec → Vec) : (modVec s w f).ctxs = s.ctxs := rfl
@[simp] theorem modVec_cq (s : State) (w : Nat) (f : Vec → Vec) : (modVec s w f).cq = s.cq := rfl
@[simp] theorem modVec_clk (s : State) (w : Nat) (f : Vec → Vec) : (modVec s w f).clk = s.clk := rfl
@[simp] theorem modVec_pwr (s : State) (w : Nat) (f : Vec → Vec) : (modVec s w f).pwr = s.pwr := rfl
@[simp] theorem modVec_flt (s : State) (w : Nat) (f : Vec → Vec) : (modVec s w f).flt = s.flt := rfl
@[simp] theorem modVec_glb (s : State) (w : Nat) (f : Vec → Vec) : (modVec s w f).glb = s.glb := rfl
@[simp] theorem modVec_sec (s : State) (w : Nat) (f : Vec → Vec) : (modVec s w f).sec = s.sec := rfl
@[simp] theorem modVec_noc (s : State) (w : Nat) (f : Vec → Vec) : (modVec s w f).noc = s.noc := rfl
@[simp] theorem modVec_pools (s : State) (w : Nat) (f : Vec → Vec) : (modVec s w f).pools = s.pools := rfl
@[simp] theorem modVec_fab (s : State) (w : Nat) (f : Vec → Vec) : (modVec s w f).fab = s.fab := rfl
@[simp] theorem modVec_chain (s : State) (w : Nat) (f : Vec → Vec) : (modVec s w f).chain = s.chain := rfl
@[simp] theorem modVec_pins (s : State) (w : Nat) (f : Vec → Vec) : (modVec s w f).pins = s.pins := rfl
@[simp] theorem modVec_hostMem (s : State) (w : Nat) (f : Vec → Vec) : (modVec s w f).hostMem = s.hostMem := rfl
@[simp] theorem modVec_free (s : State) (w : Nat) (f : Vec → Vec) : (modVec s w f).free = s.free := rfl

@[simp] theorem modWst_pending (s : State) (w : Nat) (f : Wst → Wst) : (modWst s w f).pending = s.pending := rfl
@[simp] theorem modWst_str (s : State) (w : Nat) (f : Wst → Wst) : (modWst s w f).str = s.str := rfl
@[simp] theorem modWst_ctxs (s : State) (w : Nat) (f : Wst → Wst) : (modWst s w f).ctxs = s.ctxs := rfl
@[simp] theorem modWst_cq (s : State) (w : Nat) (f : Wst → Wst) : (modWst s w f).cq = s.cq := rfl
@[simp] theorem modWst_clk (s : State) (w : Nat) (f : Wst → Wst) : (modWst s w f).clk = s.clk := rfl
@[simp] theorem modWst_pwr (s : State) (w : Nat) (f : Wst → Wst) : (modWst s w f).pwr = s.pwr := rfl
@[simp] theorem modWst_flt (s : State) (w : Nat) (f : Wst → Wst) : (modWst s w f).flt = s.flt := rfl
@[simp] theorem modWst_glb (s : State) (w : Nat) (f : Wst → Wst) : (modWst s w f).glb = s.glb := rfl
@[simp] theorem modWst_sec (s : State) (w : Nat) (f : Wst → Wst) : (modWst s w f).sec = s.sec := rfl
@[simp] theorem modWst_noc (s : State) (w : Nat) (f : Wst → Wst) : (modWst s w f).noc = s.noc := rfl
@[simp] theorem modWst_pools (s : State) (w : Nat) (f : Wst → Wst) : (modWst s w f).pools = s.pools := rfl
@[simp] theorem modWst_fab (s : State) (w : Nat) (f : Wst → Wst) : (modWst s w f).fab = s.fab := rfl
@[simp] theorem modWst_chain (s : State) (w : Nat) (f : Wst → Wst) : (modWst s w f).chain = s.chain := rfl
@[simp] theorem modWst_pins (s : State) (w : Nat) (f : Wst → Wst) : (modWst s w f).pins = s.pins := rfl
@[simp] theorem modWst_hostMem (s : State) (w : Nat) (f : Wst → Wst) : (modWst s w f).hostMem = s.hostMem := rfl
@[simp] theorem modWst_free (s : State) (w : Nat) (f : Wst → Wst) : (modWst s w f).free = s.free := rfl

@[simp] theorem modEng_pending (s : State) (w : Nat) (e : EngIx) (f : Eng → Eng) : (modEng s w e f).pending = s.pending := rfl
@[simp] theorem modEng_str (s : State) (w : Nat) (e : EngIx) (f : Eng → Eng) : (modEng s w e f).str = s.str := rfl
@[simp] theorem modEng_ctxs (s : State) (w : Nat) (e : EngIx) (f : Eng → Eng) : (modEng s w e f).ctxs = s.ctxs := rfl
@[simp] theorem modEng_cq (s : State) (w : Nat) (e : EngIx) (f : Eng → Eng) : (modEng s w e f).cq = s.cq := rfl
@[simp] theorem modEng_clk (s : State) (w : Nat) (e : EngIx) (f : Eng → Eng) : (modEng s w e f).clk = s.clk := rfl
@[simp] theorem modEng_pwr (s : State) (w : Nat) (e : EngIx) (f : Eng → Eng) : (modEng s w e f).pwr = s.pwr := rfl
@[simp] theorem modEng_flt (s : State) (w : Nat) (e : EngIx) (f : Eng → Eng) : (modEng s w e f).flt = s.flt := rfl
@[simp] theorem modEng_glb (s : State) (w : Nat) (e : EngIx) (f : Eng → Eng) : (modEng s w e f).glb = s.glb := rfl
@[simp] theorem modEng_sec (s : State) (w : Nat) (e : EngIx) (f : Eng → Eng) : (modEng s w e f).sec = s.sec := rfl
@[simp] theorem modEng_noc (s : State) (w : Nat) (e : EngIx) (f : Eng → Eng) : (modEng s w e f).noc = s.noc := rfl
@[simp] theorem modEng_pools (s : State) (w : Nat) (e : EngIx) (f : Eng → Eng) : (modEng s w e f).pools = s.pools := rfl
@[simp] theorem modEng_fab (s : State) (w : Nat) (e : EngIx) (f : Eng → Eng) : (modEng s w e f).fab = s.fab := rfl
@[simp] theorem modEng_chain (s : State) (w : Nat) (e : EngIx) (f : Eng → Eng) : (modEng s w e f).chain = s.chain := rfl
@[simp] theorem modEng_pins (s : State) (w : Nat) (e : EngIx) (f : Eng → Eng) : (modEng s w e f).pins = s.pins := rfl
@[simp] theorem modEng_hostMem (s : State) (w : Nat) (e : EngIx) (f : Eng → Eng) : (modEng s w e f).hostMem = s.hostMem := rfl
@[simp] theorem modEng_free (s : State) (w : Nat) (e : EngIx) (f : Eng → Eng) : (modEng s w e f).free = s.free := rfl

@[simp] theorem modCtx_pending (s : State) (c : Nat) (f : Ctx → Ctx) : (modCtx s c f).pending = s.pending := rfl
@[simp] theorem modCtx_seats (s : State) (c : Nat) (f : Ctx → Ctx) : (modCtx s c f).seats = s.seats := rfl
@[simp] theorem modCtx_str (s : State) (c : Nat) (f : Ctx → Ctx) : (modCtx s c f).str = s.str := rfl
@[simp] theorem modCtx_cq (s : State) (c : Nat) (f : Ctx → Ctx) : (modCtx s c f).cq = s.cq := rfl
@[simp] theorem modCtx_clk (s : State) (c : Nat) (f : Ctx → Ctx) : (modCtx s c f).clk = s.clk := rfl
@[simp] theorem modCtx_pwr (s : State) (c : Nat) (f : Ctx → Ctx) : (modCtx s c f).pwr = s.pwr := rfl
@[simp] theorem modCtx_flt (s : State) (c : Nat) (f : Ctx → Ctx) : (modCtx s c f).flt = s.flt := rfl
@[simp] theorem modCtx_glb (s : State) (c : Nat) (f : Ctx → Ctx) : (modCtx s c f).glb = s.glb := rfl
@[simp] theorem modCtx_sec (s : State) (c : Nat) (f : Ctx → Ctx) : (modCtx s c f).sec = s.sec := rfl
@[simp] theorem modCtx_noc (s : State) (c : Nat) (f : Ctx → Ctx) : (modCtx s c f).noc = s.noc := rfl
@[simp] theorem modCtx_pools (s : State) (c : Nat) (f : Ctx → Ctx) : (modCtx s c f).pools = s.pools := rfl
@[simp] theorem modCtx_fab (s : State) (c : Nat) (f : Ctx → Ctx) : (modCtx s c f).fab = s.fab := rfl
@[simp] theorem modCtx_chain (s : State) (c : Nat) (f : Ctx → Ctx) : (modCtx s c f).chain = s.chain := rfl
@[simp] theorem modCtx_pins (s : State) (c : Nat) (f : Ctx → Ctx) : (modCtx s c f).pins = s.pins := rfl
@[simp] theorem modCtx_hostMem (s : State) (c : Nat) (f : Ctx → Ctx) : (modCtx s c f).hostMem = s.hostMem := rfl
@[simp] theorem modCtx_free (s : State) (c : Nat) (f : Ctx → Ctx) : (modCtx s c f).free = s.free := rfl

@[simp] theorem modDom_pending (s : State) (d : Nat) (f : Dom → Dom) : (modDom s d f).pending = s.pending := rfl
@[simp] theorem modDom_seats (s : State) (d : Nat) (f : Dom → Dom) : (modDom s d f).seats = s.seats := rfl
@[simp] theorem modDom_str (s : State) (d : Nat) (f : Dom → Dom) : (modDom s d f).str = s.str := rfl
@[simp] theorem modDom_ctxs (s : State) (d : Nat) (f : Dom → Dom) : (modDom s d f).ctxs = s.ctxs := rfl
@[simp] theorem modDom_cq (s : State) (d : Nat) (f : Dom → Dom) : (modDom s d f).cq = s.cq := rfl
@[simp] theorem modDom_pwr (s : State) (d : Nat) (f : Dom → Dom) : (modDom s d f).pwr = s.pwr := rfl
@[simp] theorem modDom_flt (s : State) (d : Nat) (f : Dom → Dom) : (modDom s d f).flt = s.flt := rfl
@[simp] theorem modDom_glb (s : State) (d : Nat) (f : Dom → Dom) : (modDom s d f).glb = s.glb := rfl
@[simp] theorem modDom_sec (s : State) (d : Nat) (f : Dom → Dom) : (modDom s d f).sec = s.sec := rfl
@[simp] theorem modDom_noc (s : State) (d : Nat) (f : Dom → Dom) : (modDom s d f).noc = s.noc := rfl
@[simp] theorem modDom_pools (s : State) (d : Nat) (f : Dom → Dom) : (modDom s d f).pools = s.pools := rfl
@[simp] theorem modDom_fab (s : State) (d : Nat) (f : Dom → Dom) : (modDom s d f).fab = s.fab := rfl
@[simp] theorem modDom_chain (s : State) (d : Nat) (f : Dom → Dom) : (modDom s d f).chain = s.chain := rfl
@[simp] theorem modDom_pins (s : State) (d : Nat) (f : Dom → Dom) : (modDom s d f).pins = s.pins := rfl
@[simp] theorem modDom_hostMem (s : State) (d : Nat) (f : Dom → Dom) : (modDom s d f).hostMem = s.hostMem := rfl
@[simp] theorem modDom_free (s : State) (d : Nat) (f : Dom → Dom) : (modDom s d f).free = s.free := rfl

@[simp] theorem modPool_pending (s : State) (h : Nat) (f : Pool → Pool) : (modPool s h f).pending = s.pending := rfl
@[simp] theorem modPool_seats (s : State) (h : Nat) (f : Pool → Pool) : (modPool s h f).seats = s.seats := rfl
@[simp] theorem modPool_str (s : State) (h : Nat) (f : Pool → Pool) : (modPool s h f).str = s.str := rfl
@[simp] theorem modPool_ctxs (s : State) (h : Nat) (f : Pool → Pool) : (modPool s h f).ctxs = s.ctxs := rfl
@[simp] theorem modPool_cq (s : State) (h : Nat) (f : Pool → Pool) : (modPool s h f).cq = s.cq := rfl
@[simp] theorem modPool_clk (s : State) (h : Nat) (f : Pool → Pool) : (modPool s h f).clk = s.clk := rfl
@[simp] theorem modPool_pwr (s : State) (h : Nat) (f : Pool → Pool) : (modPool s h f).pwr = s.pwr := rfl
@[simp] theorem modPool_flt (s : State) (h : Nat) (f : Pool → Pool) : (modPool s h f).flt = s.flt := rfl
@[simp] theorem modPool_glb (s : State) (h : Nat) (f : Pool → Pool) : (modPool s h f).glb = s.glb := rfl
@[simp] theorem modPool_sec (s : State) (h : Nat) (f : Pool → Pool) : (modPool s h f).sec = s.sec := rfl
@[simp] theorem modPool_noc (s : State) (h : Nat) (f : Pool → Pool) : (modPool s h f).noc = s.noc := rfl
@[simp] theorem modPool_fab (s : State) (h : Nat) (f : Pool → Pool) : (modPool s h f).fab = s.fab := rfl
@[simp] theorem modPool_chain (s : State) (h : Nat) (f : Pool → Pool) : (modPool s h f).chain = s.chain := rfl
@[simp] theorem modPool_pins (s : State) (h : Nat) (f : Pool → Pool) : (modPool s h f).pins = s.pins := rfl
@[simp] theorem modPool_hostMem (s : State) (h : Nat) (f : Pool → Pool) : (modPool s h f).hostMem = s.hostMem := rfl
@[simp] theorem modPool_free (s : State) (h : Nat) (f : Pool → Pool) : (modPool s h f).free = s.free := rfl

@[simp] theorem modClass_pending (s : State) (k : Nat) (f : ClassSt → ClassSt) : (modClass s k f).pending = s.pending := rfl
@[simp] theorem modClass_seats (s : State) (k : Nat) (f : ClassSt → ClassSt) : (modClass s k f).seats = s.seats := rfl
@[simp] theorem modClass_ctxs (s : State) (k : Nat) (f : ClassSt → ClassSt) : (modClass s k f).ctxs = s.ctxs := rfl
@[simp] theorem modClass_cq (s : State) (k : Nat) (f : ClassSt → ClassSt) : (modClass s k f).cq = s.cq := rfl
@[simp] theorem modClass_clk (s : State) (k : Nat) (f : ClassSt → ClassSt) : (modClass s k f).clk = s.clk := rfl
@[simp] theorem modClass_pwr (s : State) (k : Nat) (f : ClassSt → ClassSt) : (modClass s k f).pwr = s.pwr := rfl
@[simp] theorem modClass_flt (s : State) (k : Nat) (f : ClassSt → ClassSt) : (modClass s k f).flt = s.flt := rfl
@[simp] theorem modClass_glb (s : State) (k : Nat) (f : ClassSt → ClassSt) : (modClass s k f).glb = s.glb := rfl
@[simp] theorem modClass_sec (s : State) (k : Nat) (f : ClassSt → ClassSt) : (modClass s k f).sec = s.sec := rfl
@[simp] theorem modClass_noc (s : State) (k : Nat) (f : ClassSt → ClassSt) : (modClass s k f).noc = s.noc := rfl
@[simp] theorem modClass_pools (s : State) (k : Nat) (f : ClassSt → ClassSt) : (modClass s k f).pools = s.pools := rfl
@[simp] theorem modClass_fab (s : State) (k : Nat) (f : ClassSt → ClassSt) : (modClass s k f).fab = s.fab := rfl
@[simp] theorem modClass_chain (s : State) (k : Nat) (f : ClassSt → ClassSt) : (modClass s k f).chain = s.chain := rfl
@[simp] theorem modClass_pins (s : State) (k : Nat) (f : ClassSt → ClassSt) : (modClass s k f).pins = s.pins := rfl
@[simp] theorem modClass_hostMem (s : State) (k : Nat) (f : ClassSt → ClassSt) : (modClass s k f).hostMem = s.hostMem := rfl
@[simp] theorem modClass_free (s : State) (k : Nat) (f : ClassSt → ClassSt) : (modClass s k f).free = s.free := rfl

@[simp] theorem modMap_pending (s : State) (q : Nat) (f : CrewMap → CrewMap) : (modMap s q f).pending = s.pending := rfl
@[simp] theorem modMap_seats (s : State) (q : Nat) (f : CrewMap → CrewMap) : (modMap s q f).seats = s.seats := rfl
@[simp] theorem modMap_str (s : State) (q : Nat) (f : CrewMap → CrewMap) : (modMap s q f).str = s.str := rfl
@[simp] theorem modMap_ctxs (s : State) (q : Nat) (f : CrewMap → CrewMap) : (modMap s q f).ctxs = s.ctxs := rfl
@[simp] theorem modMap_cq (s : State) (q : Nat) (f : CrewMap → CrewMap) : (modMap s q f).cq = s.cq := rfl
@[simp] theorem modMap_clk (s : State) (q : Nat) (f : CrewMap → CrewMap) : (modMap s q f).clk = s.clk := rfl
@[simp] theorem modMap_pwr (s : State) (q : Nat) (f : CrewMap → CrewMap) : (modMap s q f).pwr = s.pwr := rfl
@[simp] theorem modMap_flt (s : State) (q : Nat) (f : CrewMap → CrewMap) : (modMap s q f).flt = s.flt := rfl
@[simp] theorem modMap_glb (s : State) (q : Nat) (f : CrewMap → CrewMap) : (modMap s q f).glb = s.glb := rfl
@[simp] theorem modMap_sec (s : State) (q : Nat) (f : CrewMap → CrewMap) : (modMap s q f).sec = s.sec := rfl
@[simp] theorem modMap_pools (s : State) (q : Nat) (f : CrewMap → CrewMap) : (modMap s q f).pools = s.pools := rfl
@[simp] theorem modMap_fab (s : State) (q : Nat) (f : CrewMap → CrewMap) : (modMap s q f).fab = s.fab := rfl
@[simp] theorem modMap_chain (s : State) (q : Nat) (f : CrewMap → CrewMap) : (modMap s q f).chain = s.chain := rfl
@[simp] theorem modMap_pins (s : State) (q : Nat) (f : CrewMap → CrewMap) : (modMap s q f).pins = s.pins := rfl
@[simp] theorem modMap_hostMem (s : State) (q : Nat) (f : CrewMap → CrewMap) : (modMap s q f).hostMem = s.hostMem := rfl
@[simp] theorem modMap_free (s : State) (q : Nat) (f : CrewMap → CrewMap) : (modMap s q f).free = s.free := rfl

@[simp] theorem modSq_pending (s : State) (n : Nat) (f : Sq → Sq) : (modSq s n f).pending = s.pending := rfl
@[simp] theorem modSq_seats (s : State) (n : Nat) (f : Sq → Sq) : (modSq s n f).seats = s.seats := rfl
@[simp] theorem modSq_str (s : State) (n : Nat) (f : Sq → Sq) : (modSq s n f).str = s.str := rfl
@[simp] theorem modSq_ctxs (s : State) (n : Nat) (f : Sq → Sq) : (modSq s n f).ctxs = s.ctxs := rfl
@[simp] theorem modSq_clk (s : State) (n : Nat) (f : Sq → Sq) : (modSq s n f).clk = s.clk := rfl
@[simp] theorem modSq_pwr (s : State) (n : Nat) (f : Sq → Sq) : (modSq s n f).pwr = s.pwr := rfl
@[simp] theorem modSq_flt (s : State) (n : Nat) (f : Sq → Sq) : (modSq s n f).flt = s.flt := rfl
@[simp] theorem modSq_glb (s : State) (n : Nat) (f : Sq → Sq) : (modSq s n f).glb = s.glb := rfl
@[simp] theorem modSq_sec (s : State) (n : Nat) (f : Sq → Sq) : (modSq s n f).sec = s.sec := rfl
@[simp] theorem modSq_noc (s : State) (n : Nat) (f : Sq → Sq) : (modSq s n f).noc = s.noc := rfl
@[simp] theorem modSq_pools (s : State) (n : Nat) (f : Sq → Sq) : (modSq s n f).pools = s.pools := rfl
@[simp] theorem modSq_fab (s : State) (n : Nat) (f : Sq → Sq) : (modSq s n f).fab = s.fab := rfl
@[simp] theorem modSq_chain (s : State) (n : Nat) (f : Sq → Sq) : (modSq s n f).chain = s.chain := rfl
@[simp] theorem modSq_pins (s : State) (n : Nat) (f : Sq → Sq) : (modSq s n f).pins = s.pins := rfl
@[simp] theorem modSq_hostMem (s : State) (n : Nat) (f : Sq → Sq) : (modSq s n f).hostMem = s.hostMem := rfl
@[simp] theorem modSq_free (s : State) (n : Nat) (f : Sq → Sq) : (modSq s n f).free = s.free := rfl

@[simp] theorem modCqr_pending (s : State) (n : Nat) (f : Cqr → Cqr) : (modCqr s n f).pending = s.pending := rfl
@[simp] theorem modCqr_seats (s : State) (n : Nat) (f : Cqr → Cqr) : (modCqr s n f).seats = s.seats := rfl
@[simp] theorem modCqr_str (s : State) (n : Nat) (f : Cqr → Cqr) : (modCqr s n f).str = s.str := rfl
@[simp] theorem modCqr_ctxs (s : State) (n : Nat) (f : Cqr → Cqr) : (modCqr s n f).ctxs = s.ctxs := rfl
@[simp] theorem modCqr_clk (s : State) (n : Nat) (f : Cqr → Cqr) : (modCqr s n f).clk = s.clk := rfl
@[simp] theorem modCqr_pwr (s : State) (n : Nat) (f : Cqr → Cqr) : (modCqr s n f).pwr = s.pwr := rfl
@[simp] theorem modCqr_flt (s : State) (n : Nat) (f : Cqr → Cqr) : (modCqr s n f).flt = s.flt := rfl
@[simp] theorem modCqr_glb (s : State) (n : Nat) (f : Cqr → Cqr) : (modCqr s n f).glb = s.glb := rfl
@[simp] theorem modCqr_sec (s : State) (n : Nat) (f : Cqr → Cqr) : (modCqr s n f).sec = s.sec := rfl
@[simp] theorem modCqr_noc (s : State) (n : Nat) (f : Cqr → Cqr) : (modCqr s n f).noc = s.noc := rfl
@[simp] theorem modCqr_pools (s : State) (n : Nat) (f : Cqr → Cqr) : (modCqr s n f).pools = s.pools := rfl
@[simp] theorem modCqr_fab (s : State) (n : Nat) (f : Cqr → Cqr) : (modCqr s n f).fab = s.fab := rfl
@[simp] theorem modCqr_chain (s : State) (n : Nat) (f : Cqr → Cqr) : (modCqr s n f).chain = s.chain := rfl
@[simp] theorem modCqr_pins (s : State) (n : Nat) (f : Cqr → Cqr) : (modCqr s n f).pins = s.pins := rfl
@[simp] theorem modCqr_hostMem (s : State) (n : Nat) (f : Cqr → Cqr) : (modCqr s n f).hostMem = s.hostMem := rfl
@[simp] theorem modCqr_free (s : State) (n : Nat) (f : Cqr → Cqr) : (modCqr s n f).free = s.free := rfl

@[simp] theorem modFeed_pending (s : State) (n : Nat) (f : Feed → Feed) : (modFeed s n f).pending = s.pending := rfl
@[simp] theorem modFeed_seats (s : State) (n : Nat) (f : Feed → Feed) : (modFeed s n f).seats = s.seats := rfl
@[simp] theorem modFeed_str (s : State) (n : Nat) (f : Feed → Feed) : (modFeed s n f).str = s.str := rfl
@[simp] theorem modFeed_ctxs (s : State) (n : Nat) (f : Feed → Feed) : (modFeed s n f).ctxs = s.ctxs := rfl
@[simp] theorem modFeed_clk (s : State) (n : Nat) (f : Feed → Feed) : (modFeed s n f).clk = s.clk := rfl
@[simp] theorem modFeed_pwr (s : State) (n : Nat) (f : Feed → Feed) : (modFeed s n f).pwr = s.pwr := rfl
@[simp] theorem modFeed_flt (s : State) (n : Nat) (f : Feed → Feed) : (modFeed s n f).flt = s.flt := rfl
@[simp] theorem modFeed_glb (s : State) (n : Nat) (f : Feed → Feed) : (modFeed s n f).glb = s.glb := rfl
@[simp] theorem modFeed_sec (s : State) (n : Nat) (f : Feed → Feed) : (modFeed s n f).sec = s.sec := rfl
@[simp] theorem modFeed_noc (s : State) (n : Nat) (f : Feed → Feed) : (modFeed s n f).noc = s.noc := rfl
@[simp] theorem modFeed_pools (s : State) (n : Nat) (f : Feed → Feed) : (modFeed s n f).pools = s.pools := rfl
@[simp] theorem modFeed_fab (s : State) (n : Nat) (f : Feed → Feed) : (modFeed s n f).fab = s.fab := rfl
@[simp] theorem modFeed_chain (s : State) (n : Nat) (f : Feed → Feed) : (modFeed s n f).chain = s.chain := rfl
@[simp] theorem modFeed_pins (s : State) (n : Nat) (f : Feed → Feed) : (modFeed s n f).pins = s.pins := rfl
@[simp] theorem modFeed_hostMem (s : State) (n : Nat) (f : Feed → Feed) : (modFeed s n f).hostMem = s.hostMem := rfl
@[simp] theorem modFeed_free (s : State) (n : Nat) (f : Feed → Feed) : (modFeed s n f).free = s.free := rfl

@[simp] theorem report_pending (s : State) (r : Record) : (report s r).pending = s.pending := rfl
@[simp] theorem report_seats (s : State) (r : Record) : (report s r).seats = s.seats := rfl
@[simp] theorem report_str (s : State) (r : Record) : (report s r).str = s.str := rfl
@[simp] theorem report_ctxs (s : State) (r : Record) : (report s r).ctxs = s.ctxs := rfl
@[simp] theorem report_cq (s : State) (r : Record) : (report s r).cq = s.cq := rfl
@[simp] theorem report_clk (s : State) (r : Record) : (report s r).clk = s.clk := rfl
@[simp] theorem report_pwr (s : State) (r : Record) : (report s r).pwr = s.pwr := rfl
@[simp] theorem report_glb (s : State) (r : Record) : (report s r).glb = s.glb := rfl
@[simp] theorem report_sec (s : State) (r : Record) : (report s r).sec = s.sec := rfl
@[simp] theorem report_noc (s : State) (r : Record) : (report s r).noc = s.noc := rfl
@[simp] theorem report_pools (s : State) (r : Record) : (report s r).pools = s.pools := rfl
@[simp] theorem report_fab (s : State) (r : Record) : (report s r).fab = s.fab := rfl
@[simp] theorem report_chain (s : State) (r : Record) : (report s r).chain = s.chain := rfl
@[simp] theorem report_pins (s : State) (r : Record) : (report s r).pins = s.pins := rfl
@[simp] theorem report_hostMem (s : State) (r : Record) : (report s r).hostMem = s.hostMem := rfl
@[simp] theorem report_free (s : State) (r : Record) : (report s r).free = s.free := rfl

@[simp] theorem drawn_pending (s : State) : (drawn s).pending = s.pending := rfl
@[simp] theorem drawn_seats (s : State) : (drawn s).seats = s.seats := rfl
@[simp] theorem drawn_str (s : State) : (drawn s).str = s.str := rfl
@[simp] theorem drawn_ctxs (s : State) : (drawn s).ctxs = s.ctxs := rfl
@[simp] theorem drawn_cq (s : State) : (drawn s).cq = s.cq := rfl
@[simp] theorem drawn_clk (s : State) : (drawn s).clk = s.clk := rfl
@[simp] theorem drawn_pwr (s : State) : (drawn s).pwr = s.pwr := rfl
@[simp] theorem drawn_flt (s : State) : (drawn s).flt = s.flt := rfl
@[simp] theorem drawn_glb (s : State) : (drawn s).glb = s.glb := rfl
@[simp] theorem drawn_sec (s : State) : (drawn s).sec = s.sec := rfl
@[simp] theorem drawn_noc (s : State) : (drawn s).noc = s.noc := rfl
@[simp] theorem drawn_pools (s : State) : (drawn s).pools = s.pools := rfl
@[simp] theorem drawn_fab (s : State) : (drawn s).fab = s.fab := rfl
@[simp] theorem drawn_chain (s : State) : (drawn s).chain = s.chain := rfl
@[simp] theorem drawn_pins (s : State) : (drawn s).pins = s.pins := rfl
@[simp] theorem drawn_hostMem (s : State) : (drawn s).hostMem = s.hostMem := rfl

@[simp] theorem modRun_pending (s : State) (r : Nat) (f : Run → Run) : (modRun s r f).pending = s.pending := by
  unfold modRun; split <;> rfl
@[simp] theorem modRun_seats (s : State) (r : Nat) (f : Run → Run) : (modRun s r f).seats = s.seats := by
  unfold modRun; split <;> rfl
@[simp] theorem modRun_ctxs (s : State) (r : Nat) (f : Run → Run) : (modRun s r f).ctxs = s.ctxs := by
  unfold modRun; split <;> rfl
@[simp] theorem modRun_cq (s : State) (r : Nat) (f : Run → Run) : (modRun s r f).cq = s.cq := by
  unfold modRun; split <;> rfl
@[simp] theorem modRun_clk (s : State) (r : Nat) (f : Run → Run) : (modRun s r f).clk = s.clk := by
  unfold modRun; split <;> rfl
@[simp] theorem modRun_pwr (s : State) (r : Nat) (f : Run → Run) : (modRun s r f).pwr = s.pwr := by
  unfold modRun; split <;> rfl
@[simp] theorem modRun_flt (s : State) (r : Nat) (f : Run → Run) : (modRun s r f).flt = s.flt := by
  unfold modRun; split <;> rfl
@[simp] theorem modRun_glb (s : State) (r : Nat) (f : Run → Run) : (modRun s r f).glb = s.glb := by
  unfold modRun; split <;> rfl
@[simp] theorem modRun_sec (s : State) (r : Nat) (f : Run → Run) : (modRun s r f).sec = s.sec := by
  unfold modRun; split <;> rfl
@[simp] theorem modRun_noc (s : State) (r : Nat) (f : Run → Run) : (modRun s r f).noc = s.noc := by
  unfold modRun; split <;> rfl
@[simp] theorem modRun_pools (s : State) (r : Nat) (f : Run → Run) : (modRun s r f).pools = s.pools := by
  unfold modRun; split <;> rfl
@[simp] theorem modRun_fab (s : State) (r : Nat) (f : Run → Run) : (modRun s r f).fab = s.fab := by
  unfold modRun; split <;> rfl
@[simp] theorem modRun_chain (s : State) (r : Nat) (f : Run → Run) : (modRun s r f).chain = s.chain := by
  unfold modRun; split <;> rfl
@[simp] theorem modRun_pins (s : State) (r : Nat) (f : Run → Run) : (modRun s r f).pins = s.pins := by
  unfold modRun; split <;> rfl
@[simp] theorem modRun_hostMem (s : State) (r : Nat) (f : Run → Run) : (modRun s r f).hostMem = s.hostMem := by
  unfold modRun; split <;> rfl
@[simp] theorem modRun_free (s : State) (r : Nat) (f : Run → Run) : (modRun s r f).free = s.free := by
  unfold modRun; split <;> rfl

@[simp] theorem modHeat_pending (s : State) (r h : Nat) (f : Heat → Heat) : (modHeat s r h f).pending = s.pending := by
  unfold modHeat; exact modRun_pending s r _
@[simp] theorem modHeat_seats (s : State) (r h : Nat) (f : Heat → Heat) : (modHeat s r h f).seats = s.seats := by
  unfold modHeat; exact modRun_seats s r _
@[simp] theorem modHeat_ctxs (s : State) (r h : Nat) (f : Heat → Heat) : (modHeat s r h f).ctxs = s.ctxs := by
  unfold modHeat; exact modRun_ctxs s r _
@[simp] theorem modHeat_cq (s : State) (r h : Nat) (f : Heat → Heat) : (modHeat s r h f).cq = s.cq := by
  unfold modHeat; exact modRun_cq s r _
@[simp] theorem modHeat_clk (s : State) (r h : Nat) (f : Heat → Heat) : (modHeat s r h f).clk = s.clk := by
  unfold modHeat; exact modRun_clk s r _
@[simp] theorem modHeat_pwr (s : State) (r h : Nat) (f : Heat → Heat) : (modHeat s r h f).pwr = s.pwr := by
  unfold modHeat; exact modRun_pwr s r _
@[simp] theorem modHeat_flt (s : State) (r h : Nat) (f : Heat → Heat) : (modHeat s r h f).flt = s.flt := by
  unfold modHeat; exact modRun_flt s r _
@[simp] theorem modHeat_glb (s : State) (r h : Nat) (f : Heat → Heat) : (modHeat s r h f).glb = s.glb := by
  unfold modHeat; exact modRun_glb s r _
@[simp] theorem modHeat_sec (s : State) (r h : Nat) (f : Heat → Heat) : (modHeat s r h f).sec = s.sec := by
  unfold modHeat; exact modRun_sec s r _
@[simp] theorem modHeat_noc (s : State) (r h : Nat) (f : Heat → Heat) : (modHeat s r h f).noc = s.noc := by
  unfold modHeat; exact modRun_noc s r _
@[simp] theorem modHeat_pools (s : State) (r h : Nat) (f : Heat → Heat) : (modHeat s r h f).pools = s.pools := by
  unfold modHeat; exact modRun_pools s r _
@[simp] theorem modHeat_fab (s : State) (r h : Nat) (f : Heat → Heat) : (modHeat s r h f).fab = s.fab := by
  unfold modHeat; exact modRun_fab s r _
@[simp] theorem modHeat_chain (s : State) (r h : Nat) (f : Heat → Heat) : (modHeat s r h f).chain = s.chain := by
  unfold modHeat; exact modRun_chain s r _
@[simp] theorem modHeat_pins (s : State) (r h : Nat) (f : Heat → Heat) : (modHeat s r h f).pins = s.pins := by
  unfold modHeat; exact modRun_pins s r _
@[simp] theorem modHeat_hostMem (s : State) (r h : Nat) (f : Heat → Heat) : (modHeat s r h f).hostMem = s.hostMem := by
  unfold modHeat; exact modRun_hostMem s r _
@[simp] theorem modHeat_free (s : State) (r h : Nat) (f : Heat → Heat) : (modHeat s r h f).free = s.free := by
  unfold modHeat; exact modRun_free s r _

/-! ## Reading back -/

@[simp] theorem seatOf_putSeat_self (s : State) (w : Nat) (x : Seat) : seatOf (putSeat s w x) w = x := tget_tput_self _ _ _ _
@[simp] theorem seatOf_putSeat_ne (s : State) {w v : Nat} (x : Seat) (h : v ≠ w) : seatOf (putSeat s w x) v = seatOf s v :=
  tget_tput_ne _ _ _ h
@[simp] theorem putSeat_putSeat (s : State) (w : Nat) (x y : Seat) : putSeat (putSeat s w x) w y = putSeat s w y := by
  simp [putSeat, tput_tput]
@[simp] theorem seatOf_modSeat_self (s : State) (w : Nat) (f : Seat → Seat) : seatOf (modSeat s w f) w = f (seatOf s w) :=
  seatOf_putSeat_self _ _ _
@[simp] theorem seatOf_modSeat_ne (s : State) {w v : Nat} (f : Seat → Seat) (h : v ≠ w) : seatOf (modSeat s w f) v = seatOf s v :=
  seatOf_putSeat_ne _ _ h
@[simp] theorem poolOf_modPool_self (s : State) (h : Nat) (f : Pool → Pool) : poolOf (modPool s h f) h = f (poolOf s h) :=
  tget_tput_self _ _ _ _
@[simp] theorem poolOf_modPool_ne (s : State) {h g : Nat} (f : Pool → Pool) (n : g ≠ h) : poolOf (modPool s h f) g = poolOf s g :=
  tget_tput_ne _ _ _ n
@[simp] theorem ctxOf_modCtx_self (s : State) (c : Nat) (f : Ctx → Ctx) : ctxOf (modCtx s c f) c = f (ctxOf s c) :=
  tget_tput_self _ _ _ _
@[simp] theorem ctxOf_modCtx_ne (s : State) {c k : Nat} (f : Ctx → Ctx) (h : k ≠ c) : ctxOf (modCtx s c f) k = ctxOf s k :=
  tget_tput_ne _ _ _ h
@[simp] theorem domOf_modDom_self (s : State) (d : Nat) (f : Dom → Dom) : domOf (modDom s d f) d = f (domOf s d) :=
  tget_tput_self _ _ _ _
@[simp] theorem domOf_modDom_ne (s : State) {d e : Nat} (f : Dom → Dom) (h : e ≠ d) : domOf (modDom s d f) e = domOf s e :=
  tget_tput_ne _ _ _ h
@[simp] theorem classOf_modClass_self (s : State) (k : Nat) (f : ClassSt → ClassSt) : classOf (modClass s k f) k = f (classOf s k) :=
  tget_tput_self _ _ _ _
@[simp] theorem mapOf_modMap_self (s : State) (q : Nat) (f : CrewMap → CrewMap) : mapOf (modMap s q f) q = f (mapOf s q) :=
  tget_tput_self _ _ _ _
@[simp] theorem mapOf_modMap_ne (s : State) {q p : Nat} (f : CrewMap → CrewMap) (h : p ≠ q) : mapOf (modMap s q f) p = mapOf s p :=
  tget_tput_ne _ _ _ h
@[simp] theorem sqOf_modSq_self (s : State) (n : Nat) (f : Sq → Sq) : sqOf (modSq s n f) n = f (sqOf s n) := tget_tput_self _ _ _ _
@[simp] theorem sqOf_modSq_ne (s : State) {n m : Nat} (f : Sq → Sq) (h : m ≠ n) : sqOf (modSq s n f) m = sqOf s m :=
  tget_tput_ne _ _ _ h
@[simp] theorem cqrOf_modCqr_self (s : State) (n : Nat) (f : Cqr → Cqr) : cqrOf (modCqr s n f) n = f (cqrOf s n) :=
  tget_tput_self _ _ _ _
@[simp] theorem cqrOf_modCqr_ne (s : State) {n m : Nat} (f : Cqr → Cqr) (h : m ≠ n) : cqrOf (modCqr s n f) m = cqrOf s m :=
  tget_tput_ne _ _ _ h
@[simp] theorem feedOf_modFeed_self (s : State) (n : Nat) (f : Feed → Feed) : feedOf (modFeed s n f) n = f (feedOf s n) :=
  tget_tput_self _ _ _ _
@[simp] theorem feedOf_modFeed_ne (s : State) {n m : Nat} (f : Feed → Feed) (h : m ≠ n) : feedOf (modFeed s n f) m = feedOf s m :=
  tget_tput_ne _ _ _ h
@[simp] theorem report_path (s : State) (r : Record) : (report s r).flt.path = s.flt.path ++ [r] := rfl

@[simp] theorem eng_putEng (x : Seat) (e : EngIx) (g : Eng) : (x.putEng e g).eng e = g := by
  unfold Seat.putEng Seat.eng; split <;> rfl

theorem putEng_cases (x : Seat) (e : EngIx) (g : Eng) : x.putEng e g = { x with dma := g } ∨ x.putEng e g = { x with net := g } := by
  unfold Seat.putEng; split <;> simp

end Sys2Proof.Machine
end

