-- ==== Sys2Proof/Laws/Canon.lean ====
section
/-!
SUPPORT. The canonical form of the part's memories: what it rests on, and that each shared operation that writes a seat, a pool or a
memory keeps it.
-/
namespace Sys2Proof.Machine

/-- A slice of a memory in canonical form is one. -/
theorem wf_mslice (m : Mem) (a n : Nat) (h : Memory.wf m = true) : Memory.wf (mslice m a n) = true := by
  unfold mslice
  have key : ∀ t : Mem, Memory.wf t = true → (∀ p ∈ t, a ≤ p.1) → Memory.wf (t.map fun p => (p.1 - a, p.2)) = true := by
    intro t
    induction t with
    | nil => intros; rfl
    | cons p t ih =>
      obtain ⟨k, v⟩ := p
      intro hw hl
      have hc := (canonical_cons 0 k v t).mp hw
      rw [List.map_cons]
      refine (canonical_cons 0 (k - a) v _).mpr ⟨hc.1, ?_, ih hc.2.2 fun q hq => hl q (List.mem_cons_of_mem _ hq)⟩
      intro q hq
      obtain ⟨r, hr, rfl⟩ := List.mem_map.mp hq
      have h1 := hc.2.1 r hr
      have h2 := hl (k, v) List.mem_cons_self
      show k - a < r.1 - a
      simp only at h2
      omega
  refine key _ (canonical_filter 0 m _ h) fun p hp => ?_
  have := (List.mem_filter.mp hp).2
  simp only [Bool.and_eq_true, decide_eq_true_eq] at this
  exact this.1

/-- A seat's memories are in their canonical form. -/
abbrev SeatCanonical (x : Seat) : Prop := Memory.wf x.core = true ∧ Memory.wf x.desc = true ∧ Memory.wf x.store = true

theorem memoriesCanonical_iff (s : State) : s.memoriesCanonical = true ↔
    Memory.wf s.hostMem = true ∧ (∀ p ∈ s.pools, Memory.wf p.2.mem = true) ∧ ∀ p ∈ s.seats, SeatCanonical p.2 := by
  simp [State.memoriesCanonical, and_assoc]

/-- It rests on the seats, the pools and the host's memory alone. -/
theorem memoriesCanonical_congr (s t : State) (h : s.memoriesCanonical = true) (hs : t.seats = s.seats) (hp : t.pools = s.pools)
    (hm : t.hostMem = s.hostMem) : t.memoriesCanonical = true := by
  unfold State.memoriesCanonical at h ⊢
  rw [hs, hp, hm]
  exact h

theorem tfind_mem {α : Type} (t : Tbl α) (k : Nat) (v : α) (h : tfind t k = some v) : (k, v) ∈ t := by
  induction t with
  | nil => simp [tfind] at h
  | cons p t ih =>
    unfold tfind at h
    split at h
    · next hp => cases h; subst hp; exact List.mem_cons_self
    · exact List.mem_cons_of_mem _ (ih h)

/-- Every seat that the part reads, a listed one or not, has canonical memories. -/
theorem seatOf_canonical (s : State) (w : Nat) (h : s.memoriesCanonical = true) : SeatCanonical (seatOf s w) := by
  have hs := ((memoriesCanonical_iff s).mp h).2.2
  unfold seatOf tget
  cases e : tfind s.seats w with
  | none => exact ⟨rfl, rfl, rfl⟩
  | some x => exact hs (w, x) (tfind_mem _ _ _ e)

/-- So has every pool. -/
theorem poolOf_canonical (s : State) (h : Nat) (hc : s.memoriesCanonical = true) : Memory.wf (poolOf s h).mem = true := by
  have hp := ((memoriesCanonical_iff s).mp hc).2.1
  unfold poolOf tget
  cases e : tfind s.pools h with
  | none => rfl
  | some x => exact hp (h, x) (tfind_mem _ _ _ e)

theorem canonical_putSeat (s : State) (w : Nat) (x : Seat) (h : s.memoriesCanonical = true) (hx : SeatCanonical x) :
    (putSeat s w x).memoriesCanonical = true := by
  obtain ⟨hm, hp, hs⟩ := (memoriesCanonical_iff s).mp h
  refine (memoriesCanonical_iff _).mpr ⟨hm, hp, fun p hq => ?_⟩
  rcases mem_tput _ _ _ _ hq with rfl | hq
  · exact hx
  · exact hs p hq

/-- Changing a seat keeps the form when the change keeps the seat's. -/
theorem canonical_modSeat (s : State) (w : Nat) (f : Seat → Seat) (h : s.memoriesCanonical = true)
    (hf : ∀ x, SeatCanonical x → SeatCanonical (f x)) : (modSeat s w f).memoriesCanonical = true :=
  canonical_putSeat s w _ h (hf _ (seatOf_canonical s w h))

theorem canonical_modCox (s : State) (w : Nat) (f : Cox → Cox) (h : s.memoriesCanonical = true) : (modCox s w f).memoriesCanonical = true :=
  canonical_modSeat s w _ h fun _ hx => hx

theorem canonical_modMxa (s : State) (w : Nat) (f : Mxa → Mxa) (h : s.memoriesCanonical = true) : (modMxa s w f).memoriesCanonical = true :=
  canonical_modSeat s w _ h fun _ hx => hx

theorem canonical_modVec (s : State) (w : Nat) (f : Vec → Vec) (h : s.memoriesCanonical = true) : (modVec s w f).memoriesCanonical = true :=
  canonical_modSeat s w _ h fun _ hx => hx

theorem canonical_modWst (s : State) (w : Nat) (f : Wst → Wst) (h : s.memoriesCanonical = true) : (modWst s w f).memoriesCanonical = true :=
  canonical_modSeat s w _ h fun _ hx => hx

/-- Changing a pool keeps the form when the change keeps the pool's. -/
theorem canonical_modPool (s : State) (h : Nat) (f : Pool → Pool) (hc : s.memoriesCanonical = true)
    (hf : ∀ p : Pool, Memory.wf p.mem = true → Memory.wf (f p).mem = true) : (modPool s h f).memoriesCanonical = true := by
  obtain ⟨hm, hp, hs⟩ := (memoriesCanonical_iff s).mp hc
  refine (memoriesCanonical_iff _).mpr ⟨hm, fun p hq => ?_, hs⟩
  rcases mem_tput _ _ _ _ hq with rfl | hq
  · exact hf _ (poolOf_canonical s h hc)
  · exact hp p hq

/-- Bytes written to the host's memory keep the form. -/
theorem canonical_hostWrite (s : State) (a : Nat) (bs : List Byte) (h : s.memoriesCanonical = true) :
    State.memoriesCanonical { s with hostMem := mwrites s.hostMem a bs } = true := by
  obtain ⟨hm, hp, hs⟩ := (memoriesCanonical_iff s).mp h
  exact (memoriesCanonical_iff _).mpr ⟨wf_mwrites _ _ _ hm, hp, hs⟩

/-- A fold of steps that keep the form keeps it. -/
theorem canonical_foldl {α : Type} (f : State → α → State) (l : List α) (s : State) (h : s.memoriesCanonical = true)
    (hf : ∀ t a, t.memoriesCanonical = true → (f t a).memoriesCanonical = true) : (l.foldl f s).memoriesCanonical = true := by
  induction l generalizing s with
  | nil => exact h
  | cons a l ih => exact ih _ (hf s a h)

end Sys2Proof.Machine
end

