-- ==== Sys2Proof/Laws/Frame.lean ====
section
/-!
SUPPORT. Frames: what each shared operation can change, one lemma per operation. `(f s).hide ps = s.hide ps` says that `f` changes no
component outside `ps`, for every `ps` that holds the components named in the lemma's hypotheses.
-/
namespace Sys2Proof.Machine
open Host (Outcome)

variable {ps : List Part}

theorem hide_pending (t : State) (x_pending) (h_pending : Part.pending ∈ ps) :
    State.hide ps { t with pending := x_pending } = t.hide ps := by simp [State.hide, h_pending]

theorem hide_seats (t : State) (x_seats) (h_seats : Part.seats ∈ ps) :
    State.hide ps { t with seats := x_seats } = t.hide ps := by simp [State.hide, h_seats]

theorem hide_str (t : State) (x_str) (h_str : Part.str ∈ ps) :
    State.hide ps { t with str := x_str } = t.hide ps := by simp [State.hide, h_str]

theorem hide_ctxs (t : State) (x_ctxs) (h_ctxs : Part.ctxs ∈ ps) :
    State.hide ps { t with ctxs := x_ctxs } = t.hide ps := by simp [State.hide, h_ctxs]

theorem hide_cq (t : State) (x_cq) (h_cq : Part.cq ∈ ps) :
    State.hide ps { t with cq := x_cq } = t.hide ps := by simp [State.hide, h_cq]

theorem hide_clk (t : State) (x_clk) (h_clk : Part.clk ∈ ps) :
    State.hide ps { t with clk := x_clk } = t.hide ps := by simp [State.hide, h_clk]

theorem hide_pwr (t : State) (x_pwr) (h_pwr : Part.pwr ∈ ps) :
    State.hide ps { t with pwr := x_pwr } = t.hide ps := by simp [State.hide, h_pwr]

theorem hide_flt (t : State) (x_flt) (h_flt : Part.flt ∈ ps) :
    State.hide ps { t with flt := x_flt } = t.hide ps := by simp [State.hide, h_flt]

theorem hide_glb (t : State) (x_glb) (h_glb : Part.glb ∈ ps) :
    State.hide ps { t with glb := x_glb } = t.hide ps := by simp [State.hide, h_glb]

theorem hide_sec (t : State) (x_sec) (h_sec : Part.sec ∈ ps) :
    State.hide ps { t with sec := x_sec } = t.hide ps := by simp [State.hide, h_sec]

theorem hide_noc (t : State) (x_noc) (h_noc : Part.noc ∈ ps) :
    State.hide ps { t with noc := x_noc } = t.hide ps := by simp [State.hide, h_noc]

theorem hide_pools (t : State) (x_pools) (h_pools : Part.pools ∈ ps) :
    State.hide ps { t with pools := x_pools } = t.hide ps := by simp [State.hide, h_pools]

theorem hide_fab (t : State) (x_fab) (h_fab : Part.fab ∈ ps) :
    State.hide ps { t with fab := x_fab } = t.hide ps := by simp [State.hide, h_fab]

theorem hide_chain (t : State) (x_chain) (h_chain : Part.chain ∈ ps) :
    State.hide ps { t with chain := x_chain } = t.hide ps := by simp [State.hide, h_chain]

theorem hide_pins (t : State) (x_pins) (h_pins : Part.pins ∈ ps) :
    State.hide ps { t with pins := x_pins } = t.hide ps := by simp [State.hide, h_pins]

theorem hide_hostMem (t : State) (x_hostMem) (h_hostMem : Part.hostMem ∈ ps) :
    State.hide ps { t with hostMem := x_hostMem } = t.hide ps := by simp [State.hide, h_hostMem]

theorem hide_free (t : State) (x_free) (h_free : Part.free ∈ ps) :
    State.hide ps { t with free := x_free } = t.hide ps := by simp [State.hide, h_free]

theorem hide_str_flt (t : State) (x_str) (x_flt) (h_str : Part.str ∈ ps) (h_flt : Part.flt ∈ ps) :
    State.hide ps { t with str := x_str, flt := x_flt } = t.hide ps := by simp [State.hide, h_str, h_flt]

theorem hide_clk_fab (t : State) (x_clk) (x_fab) (h_clk : Part.clk ∈ ps) (h_fab : Part.fab ∈ ps) :
    State.hide ps { t with clk := x_clk, fab := x_fab } = t.hide ps := by simp [State.hide, h_clk, h_fab]

theorem hide_flt_pins (t : State) (x_flt) (x_pins) (h_flt : Part.flt ∈ ps) (h_pins : Part.pins ∈ ps) :
    State.hide ps { t with flt := x_flt, pins := x_pins } = t.hide ps := by simp [State.hide, h_flt, h_pins]

theorem hide_clk_glb (t : State) (x_clk) (x_glb) (h_clk : Part.clk ∈ ps) (h_glb : Part.glb ∈ ps) :
    State.hide ps { t with clk := x_clk, glb := x_glb } = t.hide ps := by simp [State.hide, h_clk, h_glb]

theorem hide_flt_glb_chain_pins (t : State) (x_flt) (x_glb) (x_chain) (x_pins) (h_flt : Part.flt ∈ ps) (h_glb : Part.glb ∈ ps) (h_chain : Part.chain ∈ ps) (h_pins : Part.pins ∈ ps) :
    State.hide ps { t with flt := x_flt, glb := x_glb, chain := x_chain, pins := x_pins } = t.hide ps := by simp [State.hide, h_flt, h_glb, h_chain, h_pins]

theorem hide_flt_glb (t : State) (x_flt) (x_glb) (h_flt : Part.flt ∈ ps) (h_glb : Part.glb ∈ ps) :
    State.hide ps { t with flt := x_flt, glb := x_glb } = t.hide ps := by simp [State.hide, h_flt, h_glb]

theorem hide_cq_hostMem (t : State) (x_cq) (x_hostMem) (h_cq : Part.cq ∈ ps) (h_hostMem : Part.hostMem ∈ ps) :
    State.hide ps { t with cq := x_cq, hostMem := x_hostMem } = t.hide ps := by simp [State.hide, h_cq, h_hostMem]

theorem hide_str_cq_pins (t : State) (x_str) (x_cq) (x_pins) (h_str : Part.str ∈ ps) (h_cq : Part.cq ∈ ps) (h_pins : Part.pins ∈ ps) :
    State.hide ps { t with str := x_str, cq := x_cq, pins := x_pins } = t.hide ps := by simp [State.hide, h_str, h_cq, h_pins]

theorem hide_seats_ctxs (t : State) (x_seats) (x_ctxs) (h_seats : Part.seats ∈ ps) (h_ctxs : Part.ctxs ∈ ps) :
    State.hide ps { t with seats := x_seats, ctxs := x_ctxs } = t.hide ps := by simp [State.hide, h_seats, h_ctxs]

theorem hide_ctxs_noc (t : State) (x_ctxs) (x_noc) (h_ctxs : Part.ctxs ∈ ps) (h_noc : Part.noc ∈ ps) :
    State.hide ps { t with ctxs := x_ctxs, noc := x_noc } = t.hide ps := by simp [State.hide, h_ctxs, h_noc]

theorem hide_glb_chain_pins_free (t : State) (x_glb) (x_chain) (x_pins) (x_free) (h_glb : Part.glb ∈ ps) (h_chain : Part.chain ∈ ps) (h_pins : Part.pins ∈ ps) (h_free : Part.free ∈ ps) :
    State.hide ps { t with glb := x_glb, chain := x_chain, pins := x_pins, free := x_free } = t.hide ps := by simp [State.hide, h_glb, h_chain, h_pins, h_free]

theorem hide_sec_pins (t : State) (x_sec) (x_pins) (h_sec : Part.sec ∈ ps) (h_pins : Part.pins ∈ ps) :
    State.hide ps { t with sec := x_sec, pins := x_pins } = t.hide ps := by simp [State.hide, h_sec, h_pins]

theorem hide_seats_str_pools (t : State) (x_seats) (x_str) (x_pools) (h_seats : Part.seats ∈ ps) (h_str : Part.str ∈ ps) (h_pools : Part.pools ∈ ps) :
    State.hide ps { t with seats := x_seats, str := x_str, pools := x_pools } = t.hide ps := by simp [State.hide, h_seats, h_str, h_pools]

theorem hide_clk_pwr (t : State) (x_clk) (x_pwr) (h_clk : Part.clk ∈ ps) (h_pwr : Part.pwr ∈ ps) :
    State.hide ps { t with clk := x_clk, pwr := x_pwr } = t.hide ps := by simp [State.hide, h_clk, h_pwr]

theorem hide_glb_pins (t : State) (x_glb) (x_pins) (h_glb : Part.glb ∈ ps) (h_pins : Part.pins ∈ ps) :
    State.hide ps { t with glb := x_glb, pins := x_pins } = t.hide ps := by simp [State.hide, h_glb, h_pins]

theorem hide_seats_pools (t : State) (x_seats) (x_pools) (h_seats : Part.seats ∈ ps) (h_pools : Part.pools ∈ ps) :
    State.hide ps { t with seats := x_seats, pools := x_pools } = t.hide ps := by simp [State.hide, h_seats, h_pools]

theorem hide_ctxs_pwr_seats (t : State) (x_ctxs) (x_pwr) (x_seats) (h_ctxs : Part.ctxs ∈ ps) (h_pwr : Part.pwr ∈ ps) (h_seats : Part.seats ∈ ps) :
    State.hide ps { t with ctxs := x_ctxs, pwr := x_pwr, seats := x_seats } = t.hide ps := by simp [State.hide, h_ctxs, h_pwr, h_seats]

theorem hide_str_cq_pins_glb (t : State) (x_str) (x_cq) (x_pins) (x_glb) (h_str : Part.str ∈ ps) (h_cq : Part.cq ∈ ps) (h_pins : Part.pins ∈ ps) (h_glb : Part.glb ∈ ps) :
    State.hide ps { t with str := x_str, cq := x_cq, pins := x_pins, glb := x_glb } = t.hide ps := by simp [State.hide, h_str, h_cq, h_pins, h_glb]

theorem hide_ite (c : Prop) [Decidable c] (a b : State) :
    State.hide ps (if c then a else b) = if c then State.hide ps a else State.hide ps b := by split <;> rfl

theorem hide_foldl {α : Type} (l : List α) (f : State → α → State) (s : State) (h : ∀ u a, (f u a).hide ps = u.hide ps) :
    (l.foldl f s).hide ps = s.hide ps := by
  induction l generalizing s with
  | nil => rfl
  | cons a t ih => exact (ih (f s a)).trans (h s a)

theorem leaves_next (s t : State) : Leaves ps s (.next t) ↔ t.hide ps = s.hide ps :=
  ⟨fun h => h t rfl, fun h u hu => by cases hu; exact h⟩

theorem leaves_fault (s : State) (f : Fault) : Leaves ps s (.fault f) := fun _ h => by cases h

theorem leaves_ite (c : Prop) [Decidable c] (s : State) (a b : Outcome State Fault Refusal) :
    Leaves ps s (if c then a else b) = if c then Leaves ps s a else Leaves ps s b := by split <;> rfl


theorem putSeat_hide (s : State) (w : Nat) (x : Seat) (h_seats : Part.seats ∈ ps) :
    (putSeat s w x).hide ps = s.hide ps := by
  unfold putSeat
  simp only [↓hide_seats, ↓hide_ite, ite_self, h_seats]

theorem modSeat_hide (s : State) (w : Nat) (f : Seat → Seat) (h_seats : Part.seats ∈ ps) :
    (modSeat s w f).hide ps = s.hide ps := by
  unfold modSeat
  simp only [↓hide_ite, ite_self, putSeat_hide, h_seats]

theorem modCox_hide (s : State) (w : Nat) (f : Cox → Cox) (h_seats : Part.seats ∈ ps) :
    (modCox s w f).hide ps = s.hide ps := by
  unfold modCox
  simp only [↓hide_ite, ite_self, modSeat_hide, h_seats]

theorem modMxa_hide (s : State) (w : Nat) (f : Mxa → Mxa) (h_seats : Part.seats ∈ ps) :
    (modMxa s w f).hide ps = s.hide ps := by
  unfold modMxa
  simp only [↓hide_ite, ite_self, modSeat_hide, h_seats]

theorem modVec_hide (s : State) (w : Nat) (f : Vec → Vec) (h_seats : Part.seats ∈ ps) :
    (modVec s w f).hide ps = s.hide ps := by
  unfold modVec
  simp only [↓hide_ite, ite_self, modSeat_hide, h_seats]

theorem modWst_hide (s : State) (w : Nat) (f : Wst → Wst) (h_seats : Part.seats ∈ ps) :
    (modWst s w f).hide ps = s.hide ps := by
  unfold modWst
  simp only [↓hide_ite, ite_self, modSeat_hide, h_seats]

theorem modEng_hide (s : State) (w : Nat) (e : EngIx) (f : Eng → Eng) (h_seats : Part.seats ∈ ps) :
    (modEng s w e f).hide ps = s.hide ps := by
  unfold modEng
  simp only [↓hide_ite, ite_self, modSeat_hide, h_seats]

theorem modCtx_hide (s : State) (c : Nat) (f : Ctx → Ctx) (h_ctxs : Part.ctxs ∈ ps) :
    (modCtx s c f).hide ps = s.hide ps := by
  unfold modCtx
  simp only [↓hide_ctxs, ↓hide_ite, ite_self, h_ctxs]

theorem modDom_hide (s : State) (d : Nat) (f : Dom → Dom) (h_clk : Part.clk ∈ ps) :
    (modDom s d f).hide ps = s.hide ps := by
  unfold modDom
  simp only [↓hide_clk, ↓hide_ite, ite_self, h_clk]

theorem touchCrew_hide (s : State) (q : Nat) (h_clk : Part.clk ∈ ps) :
    (touchCrew s q).hide ps = s.hide ps := by
  unfold touchCrew
  simp only [↓hide_ite, ite_self, modDom_hide, h_clk]

theorem modPool_hide (s : State) (h : Nat) (f : Pool → Pool) (h_pools : Part.pools ∈ ps) :
    (modPool s h f).hide ps = s.hide ps := by
  unfold modPool
  simp only [↓hide_pools, ↓hide_ite, ite_self, h_pools]

theorem modRun_hide (s : State) (r : Nat) (f : Run → Run) (h_str : Part.str ∈ ps) :
    (modRun s r f).hide ps = s.hide ps := by
  unfold modRun
  (try dsimp only)
  (repeat' split) <;> simp only [↓hide_str, ↓hide_ite, ite_self, h_str]

theorem modHeat_hide (s : State) (r h : Nat) (f : Heat → Heat) (h_str : Part.str ∈ ps) :
    (modHeat s r h f).hide ps = s.hide ps := by
  unfold modHeat
  simp only [↓hide_ite, ite_self, modRun_hide, h_str]

theorem modClass_hide (s : State) (k : Nat) (f : ClassSt → ClassSt) (h_str : Part.str ∈ ps) :
    (modClass s k f).hide ps = s.hide ps := by
  unfold modClass
  simp only [↓hide_str, ↓hide_ite, ite_self, h_str]

theorem modMap_hide (s : State) (q : Nat) (f : CrewMap → CrewMap) (h_noc : Part.noc ∈ ps) :
    (modMap s q f).hide ps = s.hide ps := by
  unfold modMap
  simp only [↓hide_noc, ↓hide_ite, ite_self, h_noc]

theorem drawn_hide (s : State) (h_free : Part.free ∈ ps) :
    (drawn s).hide ps = s.hide ps := by
  unfold drawn
  simp only [↓hide_free, ↓hide_ite, ite_self, h_free]

theorem report_hide (s : State) (r : Record) (h_flt : Part.flt ∈ ps) :
    (report s r).hide ps = s.hide ps := by
  unfold report
  simp only [↓hide_flt, ↓hide_ite, ite_self, h_flt]

theorem seatRaise_hide (s : State) (w : Nat) (r : Record) (h_seats : Part.seats ∈ ps) (h_flt : Part.flt ∈ ps) :
    (seatRaise s w r).hide ps = s.hide ps := by
  unfold seatRaise
  simp only [↓hide_flt, ↓hide_ite, ite_self, putSeat_hide, report_hide, h_seats, h_flt]

theorem seatRaiseAt_hide (s : State) (w : Nat) (r : Record) (h_seats : Part.seats ∈ ps) (h_flt : Part.flt ∈ ps) :
    (seatRaiseAt s w r).hide ps = s.hide ps := by
  unfold seatRaiseAt
  simp only [↓hide_flt, ↓hide_ite, ite_self, putSeat_hide, seatRaise_hide, h_seats, h_flt]

theorem jobFault_hide (s : State) (w : Nat) (j : Job) (code eng cycle : Nat) (b1 wd dd : Nat) (h_seats : Part.seats ∈ ps) (h_flt : Part.flt ∈ ps) :
    (jobFault s w j code eng cycle b1 wd dd).hide ps = s.hide ps := by
  unfold jobFault
  simp only [↓hide_ite, ite_self, seatRaiseAt_hide, h_seats, h_flt]

theorem guardRaise_hide (s : State) (w k n : Nat) (oneByOne : Bool) (j : Job) (cycle : Nat) (h_seats : Part.seats ∈ ps) (h_flt : Part.flt ∈ ps) :
    (guardRaise s w k n oneByOne j cycle).hide ps = s.hide ps := by
  unfold guardRaise
  simp only [↓hide_ite, ite_self, modCox_hide, report_hide, h_seats, h_flt]

theorem modSq_hide (s : State) (n : Nat) (f : Sq → Sq) (h_cq : Part.cq ∈ ps) :
    (modSq s n f).hide ps = s.hide ps := by
  unfold modSq
  simp only [↓hide_cq, ↓hide_ite, ite_self, h_cq]

theorem modCqr_hide (s : State) (n : Nat) (f : Cqr → Cqr) (h_cq : Part.cq ∈ ps) :
    (modCqr s n f).hide ps = s.hide ps := by
  unfold modCqr
  simp only [↓hide_cq, ↓hide_ite, ite_self, h_cq]

theorem modFeed_hide (s : State) (n : Nat) (f : Feed → Feed) (h_cq : Part.cq ∈ ps) :
    (modFeed s n f).hide ps = s.hide ps := by
  unfold modFeed
  simp only [↓hide_cq, ↓hide_ite, ite_self, h_cq]

theorem postEntry_hide (s : State) (n : Nat) (e : CEntry) (h_cq : Part.cq ∈ ps) :
    (postEntry s n e).hide ps = s.hide ps := by
  unfold postEntry
  simp only [↓hide_foldl, implies_true, ↓hide_ite, ite_self, modCqr_hide, h_cq]

theorem sendReply_hide (s : State) (src cid status result : Nat) (result2 : Option Nat) (h_cq : Part.cq ∈ ps) :
    (sendReply s src cid status result result2).hide ps = s.hide ps := by
  unfold sendReply
  simp only [↓hide_cq, ↓hide_ite, ite_self, postEntry_hide, h_cq]

theorem answer_hide (s : State) (src : Nat) (c : Nat) (status result : Nat) (h_cq : Part.cq ∈ ps) :
    (answer s src c status result).hide ps = s.hide ps := by
  unfold answer
  simp only [↓hide_ite, ite_self, modSq_hide, sendReply_hide, h_cq]

theorem answer2_hide (s : State) (src : Nat) (c : Nat) (status result result2 : Nat) (h_cq : Part.cq ∈ ps) :
    (answer2 s src c status result result2).hide ps = s.hide ps := by
  unfold answer2
  simp only [↓hide_ite, ite_self, modSq_hide, sendReply_hide, h_cq]

theorem goBackground_hide (s : State) (src : Nat) (h_cq : Part.cq ∈ ps) :
    (goBackground s src).hide ps = s.hide ps := by
  unfold goBackground
  simp only [↓hide_ite, ite_self, modSq_hide, h_cq]

theorem answerLate_hide (s : State) (src cid status result : Nat) (h_cq : Part.cq ∈ ps) :
    (answerLate s src cid status result).hide ps = s.hide ps := by
  unfold answerLate
  simp only [↓hide_ite, ite_self, modSq_hide, sendReply_hide, h_cq]

theorem beginBg_hide (s : State) (src c : Nat) (h_cq : Part.cq ∈ ps) :
    (beginBg s src c).hide ps = s.hide ps := by
  unfold beginBg
  simp only [↓hide_cq, ↓hide_ite, ite_self, goBackground_hide, h_cq]

theorem finishBg_hide (s : State) (src c status result : Nat) (h_cq : Part.cq ∈ ps) :
    (finishBg s src c status result).hide ps = s.hide ps := by
  unfold finishBg
  simp only [↓hide_cq, ↓hide_ite, ite_self, answerLate_hide, h_cq]

theorem wakeHalf_hide (s : State) (h : Nat) (h_pwr : Part.pwr ∈ ps) :
    (wakeHalf s h).hide ps = s.hide ps := by
  unfold wakeHalf
  simp only [↓hide_pwr, ↓hide_ite, ite_self, h_pwr]

theorem heldWake_hide (s : State) (h : Nat) (h_pwr : Part.pwr ∈ ps) (h_noc : Part.noc ∈ ps) :
    (heldWake s h).hide ps = s.hide ps := by
  unfold heldWake
  simp only [↓hide_noc, ↓hide_ite, ite_self, wakeHalf_hide, h_pwr, h_noc]

theorem noteHeld_hide (s : State) (h : Nat) (h_pwr : Part.pwr ∈ ps) (h_noc : Part.noc ∈ ps) :
    (noteHeld s h).hide ps = s.hide ps := by
  unfold noteHeld
  simp only [↓hide_noc, ↓hide_ite, ite_self, heldWake_hide, h_pwr, h_noc]

theorem holdRead_hide (s : State) (h : Nat) (h_pwr : Part.pwr ∈ ps) (h_noc : Part.noc ∈ ps) :
    (holdRead s h).hide ps = s.hide ps := by
  unfold holdRead
  simp only [↓hide_ite, ite_self, noteHeld_hide, h_pwr, h_noc]

theorem raiseVector_hide (s : State) (v : Nat) (h_cq : Part.cq ∈ ps) :
    (raiseVector s v).hide ps = s.hide ps := by
  unfold raiseVector
  simp only [↓hide_cq, ↓hide_ite, ite_self, h_cq]

theorem raiseEvent_hide (s : State) (b : Nat) (h_cq : Part.cq ∈ ps) (h_glb : Part.glb ∈ ps) (h_pins : Part.pins ∈ ps) :
    (raiseEvent s b).hide ps = s.hide ps := by
  unfold raiseEvent
  simp only [↓hide_glb, ↓hide_pins, ↓hide_glb_pins, ↓hide_ite, ite_self, raiseVector_hide, h_cq, h_glb, h_pins]

theorem restCheck_hide (s : State) (w now : Nat) (h_seats : Part.seats ∈ ps) (h_flt : Part.flt ∈ ps) :
    (restCheck s w now).hide ps = s.hide ps := by
  unfold restCheck
  simp only [↓hide_foldl, implies_true, ↓hide_ite, ite_self, jobFault_hide, h_seats, h_flt]

theorem issueJob_hide (s : State) (w : Nat) (j : Job) (h_seats : Part.seats ∈ ps) (h_flt : Part.flt ∈ ps) :
    (issueJob s w j).hide ps = s.hide ps := by
  unfold issueJob
  (try dsimp only)
  (repeat' split) <;> simp only [↓hide_ite, ite_self, putSeat_hide, jobFault_hide, restCheck_hide, h_seats, h_flt]

theorem offerJob_hide (s : State) (w : Nat) (j : Job) (h_seats : Part.seats ∈ ps) (h_flt : Part.flt ∈ ps) :
    (offerJob s w j).hide ps = s.hide ps := by
  unfold offerJob
  (try dsimp only)
  (repeat' split) <;> simp only [↓hide_ite, ite_self, modCox_hide, issueJob_hide, h_seats, h_flt]

theorem present_hide (s : State) (w : Nat) (h_seats : Part.seats ∈ ps) (h_flt : Part.flt ∈ ps) :
    (present s w).hide ps = s.hide ps := by
  unfold present
  (try dsimp only)
  (repeat' split) <;> simp only [↓hide_ite, ite_self, modCox_hide, jobFault_hide, offerJob_hide, h_seats, h_flt]

theorem ctrlWrite_hide (s : State) (w : Nat) (x : Seat) (j : Job) (v : Word) (h_seats : Part.seats ∈ ps) :
    (ctrlWrite s w x j v).hide ps = s.hide ps := by
  unfold ctrlWrite
  simp only [↓hide_ite, ite_self, putSeat_hide, h_seats]

theorem raiseEvents_hide (s : State) (w : Nat) (es : List Ev) (h_seats : Part.seats ∈ ps) (h_flt : Part.flt ∈ ps) :
    (raiseEvents s w es).hide ps = s.hide ps := by
  unfold raiseEvents
  (try dsimp only)
  (repeat' split) <;> simp only [↓hide_foldl, implies_true, ↓hide_ite, ite_self, jobFault_hide, h_seats, h_flt]

theorem veEnd_hide {α : Type} (s : State) (w : Nat) (x : Seat) (j : Job) (st : Strm α) (g : Vec → α → Vec) (h_seats : Part.seats ∈ ps) (h_flt : Part.flt ∈ ps) :
    (veEnd s w x j st g).hide ps = s.hide ps := by
  unfold veEnd
  (try dsimp only)
  (repeat' split) <;> simp only [↓hide_ite, ite_self, putSeat_hide, jobFault_hide, h_seats, h_flt]

theorem releasePages_hide (s : State) (r h : Nat) (seats : List Nat) (h_seats : Part.seats ∈ ps) :
    (releasePages s r h seats).hide ps = s.hide ps := by
  unfold releasePages
  simp only [↓hide_foldl, implies_true, ↓hide_ite, ite_self, modSeat_hide, h_seats]

theorem endOnSeats_hide (s : State) (r h : Nat) (seats : List Nat) (h_seats : Part.seats ∈ ps) (h_clk : Part.clk ∈ ps) :
    (endOnSeats s r h seats).hide ps = s.hide ps := by
  unfold endOnSeats
  simp only [↓hide_foldl, implies_true, ↓hide_ite, ite_self, modSeat_hide, touchCrew_hide, h_seats, h_clk]

theorem retire_hide (s : State) (k : Nat) (epoch : BitVec 16) (h_str : Part.str ∈ ps) (h_pools : Part.pools ∈ ps) :
    (retire s k epoch).hide ps = s.hide ps := by
  unfold retire
  simp only [↓hide_foldl, implies_true, ↓hide_str, ↓hide_ite, ite_self, modPool_hide, modClass_hide, h_str, h_pools]

theorem postHeat_hide (s : State) (r h cause : Nat) (logSeq : Word) (h_cq : Part.cq ∈ ps) :
    (postHeat s r h cause logSeq).hide ps = s.hide ps := by
  unfold postHeat
  (try dsimp only)
  (repeat' split) <;> simp only [↓hide_ite, ite_self, postEntry_hide, h_cq]

theorem releaseGen_hide (s : State) (c : Nat) (second : Bool) (h_seats : Part.seats ∈ ps) (h_ctxs : Part.ctxs ∈ ps) :
    (releaseGen s c second).hide ps = s.hide ps := by
  unfold releaseGen
  simp only [↓hide_foldl, implies_true, ↓hide_ctxs, ↓hide_ite, ite_self, modWst_hide, modCtx_hide, h_seats, h_ctxs]

theorem releaseRetired_hide (s : State) (c : Nat) (h_seats : Part.seats ∈ ps) (h_ctxs : Part.ctxs ∈ ps) :
    (releaseRetired s c).hide ps = s.hide ps := by
  unfold releaseRetired
  simp only [↓hide_ite, ite_self, releaseGen_hide, h_seats, h_ctxs]

theorem settleRun_hide (s : State) (r : Nat) (h_seats : Part.seats ∈ ps) (h_str : Part.str ∈ ps) (h_ctxs : Part.ctxs ∈ ps) (h_cq : Part.cq ∈ ps) :
    (settleRun s r).hide ps = s.hide ps := by
  unfold settleRun
  (try dsimp only)
  (repeat' split) <;> simp only [↓hide_foldl, implies_true, ↓hide_str, ↓hide_ite, ite_self, answerLate_hide, releaseRetired_hide, h_seats, h_str, h_ctxs, h_cq]

theorem abortHeat_hide (s : State) (r h cause : Nat) (seq : Word) (h_seats : Part.seats ∈ ps) (h_str : Part.str ∈ ps)
    (h_ctxs : Part.ctxs ∈ ps) (h_cq : Part.cq ∈ ps) (h_clk : Part.clk ∈ ps) (h_flt : Part.flt ∈ ps) (h_pools : Part.pools ∈ ps) :
    (abortHeat s r h cause seq).hide ps = s.hide ps := by
  unfold abortHeat
  split
  · rfl
  · dsimp only
    (repeat' split) <;> simp only [↓hide_str, ↓hide_flt, ↓hide_str_flt, modHeat_hide, report_hide, endOnSeats_hide, retire_hide, postHeat_hide, settleRun_hide, h_seats, h_str, h_ctxs, h_cq, h_clk, h_flt, h_pools]

theorem abandonHeat_hide (s : State) (r h cause pred : Nat) (h_seats : Part.seats ∈ ps) (h_str : Part.str ∈ ps) (h_ctxs : Part.ctxs ∈ ps) (h_cq : Part.cq ∈ ps) (h_flt : Part.flt ∈ ps) :
    (abandonHeat s r h cause pred).hide ps = s.hide ps := by
  unfold abandonHeat
  (try dsimp only)
  (repeat' split) <;> simp only [↓hide_str, ↓hide_ite, ite_self, modHeat_hide, report_hide, releasePages_hide, postHeat_hide, settleRun_hide, h_seats, h_str, h_ctxs, h_cq, h_flt]

theorem cancelRun_hide (s : State) (r cause : Nat) (h_seats : Part.seats ∈ ps) (h_str : Part.str ∈ ps) (h_ctxs : Part.ctxs ∈ ps) (h_cq : Part.cq ∈ ps) (h_clk : Part.clk ∈ ps) (h_flt : Part.flt ∈ ps) (h_pools : Part.pools ∈ ps) :
    (cancelRun s r cause).hide ps = s.hide ps := by
  unfold cancelRun
  (try dsimp only)
  (repeat' split) <;> simp only [↓hide_foldl, implies_true, ↓hide_ite, ite_self, abortHeat_hide, abandonHeat_hide, h_seats, h_str, h_ctxs, h_cq, h_clk, h_flt, h_pools]

theorem cancelRuns_hide (s : State) (cause : Nat) (h_seats : Part.seats ∈ ps) (h_str : Part.str ∈ ps) (h_ctxs : Part.ctxs ∈ ps) (h_cq : Part.cq ∈ ps) (h_clk : Part.clk ∈ ps) (h_flt : Part.flt ∈ ps) (h_pools : Part.pools ∈ ps) :
    (cancelRuns s cause).hide ps = s.hide ps := by
  unfold cancelRuns
  simp only [↓hide_foldl, implies_true, ↓hide_ite, ite_self, cancelRun_hide, h_seats, h_str, h_ctxs, h_cq, h_clk, h_flt, h_pools]

theorem latchDeps_hide (s : State) (h_str : Part.str ∈ ps) :
    (latchDeps s).hide ps = s.hide ps := by
  unfold latchDeps
  simp only [↓hide_str, ↓hide_ite, ite_self, h_str]

theorem countSeat_hide (s : State) (w n : Nat) (h_seats : Part.seats ∈ ps) (h_str : Part.str ∈ ps) :
    (countSeat s w n).hide ps = s.hide ps := by
  unfold countSeat
  simp only [↓hide_ite, ite_self, modSeat_hide, latchDeps_hide, h_seats, h_str]

theorem countPool_hide (s : State) (h n : Nat) (h_str : Part.str ∈ ps) (h_pools : Part.pools ∈ ps) :
    (countPool s h n).hide ps = s.hide ps := by
  unfold countPool
  simp only [↓hide_ite, ite_self, modPool_hide, latchDeps_hide, h_str, h_pools]

theorem setSeatWord_hide (s : State) (w o : Nat) (v : Word) (h_seats : Part.seats ∈ ps) (h_str : Part.str ∈ ps) :
    (setSeatWord s w o v).hide ps = s.hide ps := by
  unfold setSeatWord
  simp only [↓hide_ite, ite_self, modSeat_hide, latchDeps_hide, h_seats, h_str]

theorem setPoolWord_hide (s : State) (h o : Nat) (v : Word) (h_str : Part.str ∈ ps) (h_pools : Part.pools ∈ ps) :
    (setPoolWord s h o v).hide ps = s.hide ps := by
  unfold setPoolWord
  simp only [↓hide_ite, ite_self, modPool_hide, latchDeps_hide, h_str, h_pools]

theorem poolWrite_hide (s : State) (h a : Nat) (bs : List Byte) (h_pools : Part.pools ∈ ps) :
    (poolWrite s h a bs).hide ps = s.hide ps := by
  unfold poolWrite
  simp only [↓hide_ite, ite_self, modPool_hide, h_pools]

theorem poolGranule_hide (s : State) (h g : Nat) (d : Granule) (h_pools : Part.pools ∈ ps) :
    (poolGranule s h g d).hide ps = s.hide ps := by
  unfold poolGranule
  simp only [↓hide_ite, ite_self, poolWrite_hide, h_pools]

theorem staleSeat_hide (s : State) (w : Nat) (h_seats : Part.seats ∈ ps) :
    (staleSeat s w).hide ps = s.hide ps := by
  unfold staleSeat
  simp only [↓hide_ite, ite_self, modSeat_hide, h_seats]

theorem staleElse_hide (s : State) (h_str : Part.str ∈ ps) :
    (staleElse s).hide ps = s.hide ps := by
  unfold staleElse
  simp only [↓hide_str, ↓hide_ite, ite_self, h_str]

theorem putBuf_hide (s : State) (n p v : Nat) (b : Buf) (h_noc : Part.noc ∈ ps) :
    (putBuf s n p v b).hide ps = s.hide ps := by
  unfold putBuf
  simp only [↓hide_noc, ↓hide_ite, ite_self, h_noc]

theorem push_hide (s : State) (n p v : Nat) (fs : List Flit) (h_noc : Part.noc ∈ ps) :
    (push s n p v fs).hide ps = s.hide ps := by
  unfold push
  simp only [↓hide_foldl, implies_true, ↓hide_ite, ite_self, putBuf_hide, h_noc]

theorem arrive_hide (s : State) (d : Deliv) (h_noc : Part.noc ∈ ps) :
    (arrive s d).hide ps = s.hide ps := by
  unfold arrive
  simp only [↓hide_noc, ↓hide_ite, ite_self, h_noc]

theorem takeArrive_hide (s : State) (i : Nat) (h_clk : Part.clk ∈ ps) (h_noc : Part.noc ∈ ps) :
    (takeArrive s i).hide ps = s.hide ps := by
  unfold takeArrive
  (try dsimp only)
  (repeat' split) <;> simp only [↓hide_noc, ↓hide_ite, ite_self, touchCrew_hide, h_clk, h_noc]

theorem modArrive_hide (s : State) (i : Nat) (f : Deliv → Deliv) (h_noc : Part.noc ∈ ps) :
    (modArrive s i f).hide ps = s.hide ps := by
  unfold modArrive
  simp only [↓hide_noc, ↓hide_ite, ite_self, h_noc]

theorem countNack_hide (s : State) (st : Nat) (h_noc : Part.noc ∈ ps) :
    (countNack s st).hide ps = s.hide ps := by
  unfold countNack
  simp only [↓hide_noc, ↓hide_ite, ite_self, h_noc]

theorem sendBack_hide (s : State) (n p : Nat) (sender : Option Nat) (entry : Nat) (hdr : BitVec 512) (data : List Granule) (h_noc : Part.noc ∈ ps) :
    (sendBack s n p sender entry hdr data).hide ps = s.hide ps := by
  unfold sendBack
  (try dsimp only)
  (repeat' split) <;> simp only [↓hide_ite, ite_self, push_hide, arrive_hide, h_noc]

theorem groupAnswer_hide (s : State) (n : Nat) (g : Group) (h_noc : Part.noc ∈ ps) :
    (groupAnswer s n g).hide ps = s.hide ps := by
  unfold groupAnswer
  simp only [↓hide_noc, ↓hide_ite, ite_self, countNack_hide, sendBack_hide, h_noc]

theorem answerMember_hide (s : State) (n : Nat) (unit : Word) (a : Reply) (h_noc : Part.noc ∈ ps) :
    (answerMember s n unit a).hide ps = s.hide ps := by
  unfold answerMember
  simp only [↓hide_noc, ↓hide_ite, ite_self, groupAnswer_hide, h_noc]

theorem answerFrom_hide (s : State) (n p : Nat) (src : Word) (hdr : BitVec 512) (t : Trip) (a : Reply) (h_noc : Part.noc ∈ ps) :
    (answerFrom s n p src hdr t a).hide ps = s.hide ps := by
  unfold answerFrom
  (try dsimp only)
  (repeat' split) <;> simp only [↓hide_ite, ite_self, countNack_hide, sendBack_hide, answerMember_hide, h_noc]

theorem answerPkt_hide (s : State) (d : Deliv) (a : Reply) (h_noc : Part.noc ∈ ps) :
    (answerPkt s d a).hide ps = s.hide ps := by
  unfold answerPkt
  simp only [↓hide_ite, ite_self, answerFrom_hide, h_noc]

theorem lagMap_hide (s : State) (q : Nat) (h_noc : Part.noc ∈ ps) :
    (lagMap s q).hide ps = s.hide ps := by
  unfold lagMap
  simp only [↓hide_noc, ↓hide_ite, ite_self, h_noc]

theorem takeMap_hide (s : State) (n q : Nat) (h_noc : Part.noc ∈ ps) :
    (takeMap s n q).hide ps = s.hide ps := by
  unfold takeMap
  simp only [↓hide_noc, ↓hide_ite, ite_self, h_noc]

theorem enterMulticast_hide (s : State) (w : Nat) (hdr : BitVec 512) (h_noc : Part.noc ∈ ps) :
    (enterMulticast s w hdr).1.hide ps = s.hide ps := by
  unfold enterMulticast
  dsimp only
  split <;> simp only [groupAnswer_hide, ↓hide_noc, h_noc]

theorem enterSeat_hide (s : State) (w : Nat) (hdr : BitVec 512) (h_noc : Part.noc ∈ ps) :
    (enterSeat s w hdr).1.hide ps = s.hide ps := by
  unfold enterSeat
  dsimp only
  (repeat' split) <;> simp only [answerFrom_hide, enterMulticast_hide, h_noc]

theorem enterEdge_hide (s : State) (base : Nat) (k : Pkt) (h_pwr : Part.pwr ∈ ps) (h_noc : Part.noc ∈ ps) :
    (enterEdge s base k).hide ps = s.hide ps := by
  unfold enterEdge
  (try dsimp only)
  (repeat' split) <;> simp only [↓hide_ite, ite_self, noteHeld_hide, push_hide, answerFrom_hide, h_pwr, h_noc]

theorem enterLink_hide (s : State) (first count : Nat) (h : Nat) (k : Pkt) (h_pwr : Part.pwr ∈ ps) (h_noc : Part.noc ∈ ps) (h_free : Part.free ∈ ps) :
    (enterLink s first count h k).hide ps = s.hide ps := by
  unfold enterLink
  simp only [↓hide_ite, ite_self, drawn_hide, noteHeld_hide, push_hide, answerFrom_hide, h_pwr, h_noc, h_free]

theorem putSource_hide (s : State) (n p v : Nat) (b : Buf) (h_seats : Part.seats ∈ ps) (h_noc : Part.noc ∈ ps) :
    (putSource s n p v b).hide ps = s.hide ps := by
  unfold putSource
  simp only [↓hide_ite, ite_self, modEng_hide, putBuf_hide, h_seats, h_noc]

theorem handOver_hide (s : State) (n v : Nat) (t : Target) (f : Flit) (h_clk : Part.clk ∈ ps) (h_noc : Part.noc ∈ ps) :
    (handOver s n v t f).hide ps = s.hide ps := by
  unfold handOver
  (try dsimp only)
  (repeat' split) <;> simp only [↓hide_ite, ite_self, arrive_hide, takeArrive_hide, modArrive_hide, h_clk, h_noc]

theorem landFlit_hide (s : State) (n p v o : Nat) (f : Flit) (h_clk : Part.clk ∈ ps) (h_noc : Part.noc ∈ ps) :
    (landFlit s n p v o f).hide ps = s.hide ps := by
  unfold landFlit
  (try dsimp only)
  (repeat' split) <;> simp only [↓hide_ite, ite_self, push_hide, handOver_hide, h_clk, h_noc]

theorem noteOutput_hide (s : State) (n p v o : Nat) (f : Flit) (h_noc : Part.noc ∈ ps) :
    (noteOutput s n p v o f).hide ps = s.hide ps := by
  unfold noteOutput
  simp only [↓hide_noc, ↓hide_ite, ite_self, h_noc]

theorem discarded_hide (s : State) (h_noc : Part.noc ∈ ps) :
    (discarded s).hide ps = s.hide ps := by
  unfold discarded
  simp only [↓hide_noc, ↓hide_ite, ite_self, h_noc]

theorem eccRec_hide (s : State) (n : Nat) (sender : Option Nat) (hdr : BitVec 512) (h_flt : Part.flt ∈ ps) :
    (eccRec s n sender hdr).hide ps = s.hide ps := by
  unfold eccRec
  (try dsimp only)
  (repeat' split) <;> simp only [↓hide_ite, ite_self, report_hide, h_flt]

theorem skipMember_hide (s : State) (t : Trip) (unit : Word) (h_noc : Part.noc ∈ ps) :
    (skipMember s t unit).hide ps = s.hide ps := by
  unfold skipMember
  (try dsimp only)
  (repeat' split) <;> simp only [↓hide_noc, ↓hide_ite, ite_self, answerMember_hide, h_noc]

theorem dropLocal_hide (s : State) (n p v : Nat) (t : Trip) (f : Flit) (h_seats : Part.seats ∈ ps) (h_noc : Part.noc ∈ ps) :
    (dropLocal s n p v t f).hide ps = s.hide ps := by
  unfold dropLocal
  simp only [↓hide_ite, ite_self, putSource_hide, h_seats, h_noc]

theorem atOwnSeat_hide (s u : State) (n p v : Nat) (t : Trip) (f : Flit) (h_seats : Part.seats ∈ ps) (h_clk : Part.clk ∈ ps)
    (h_noc : Part.noc ∈ ps) (h : atOwnSeat s n p v t f = some u) : u.hide ps = s.hide ps := by
  unfold atOwnSeat at h
  dsimp only at h
  (repeat' split at h) <;> first
    | (cases h; done)
    | (cases h; rfl)
    | (obtain rfl := Option.some.inj h; (repeat' split) <;> simp only [dropLocal_hide, skipMember_hide, answerFrom_hide, putSource_hide, modDom_hide, ↓hide_noc, h_seats, h_noc, h_clk])

theorem refuseMembers_hide (s : State) (t : Trip) (h : Nat) (h_noc : Part.noc ∈ ps) :
    (refuseMembers s t h).hide ps = s.hide ps := by
  unfold refuseMembers
  (try dsimp only)
  (repeat' split) <;> simp only [↓hide_foldl, implies_true, ↓hide_ite, ite_self, answerMember_hide, skipMember_hide, h_noc]

theorem atSeam_hide (s u : State) (n p v o : Nat) (t : Trip) (hdr : BitVec 512) (h_seats : Part.seats ∈ ps) (h_pwr : Part.pwr ∈ ps)
    (h_noc : Part.noc ∈ ps) (h : atSeam s n p v o t hdr = some u) : u.hide ps = s.hide ps := by
  unfold atSeam at h
  dsimp only at h
  (repeat' split at h) <;> first
    | (cases h; done)
    | (cases h; rfl)
    | (obtain rfl := Option.some.inj h; (repeat' split) <;> simp only [noteHeld_hide, refuseMembers_hide, answerFrom_hide, putSource_hide, h_seats, h_noc, h_pwr])

theorem enterMesh_hide (s : State) (n p : Nat) (f : Flit) (h_seats : Part.seats ∈ ps) (h_noc : Part.noc ∈ ps) :
    (enterMesh s n p f).hide ps = s.hide ps := by
  unfold enterMesh
  (try dsimp only)
  (repeat' split) <;> simp only [↓hide_ite, ite_self, enterSeat_hide, putSource_hide, h_seats, h_noc]

theorem passFlit_hide (s : State) (n p v o ecc : Nat) (f : Flit) (h_seats : Part.seats ∈ ps) (h_clk : Part.clk ∈ ps) (h_flt : Part.flt ∈ ps) (h_noc : Part.noc ∈ ps) :
    (passFlit s n p v o ecc f).hide ps = s.hide ps := by
  unfold passFlit
  (try dsimp only)
  (repeat' split) <;> simp only [↓hide_noc, ↓hide_ite, ite_self, touchCrew_hide, putSource_hide, landFlit_hide, noteOutput_hide, discarded_hide, eccRec_hide, h_seats, h_clk, h_flt, h_noc]

theorem setOffset_hide (s : State) (k m : Nat) (h_noc : Part.noc ∈ ps) :
    (setOffset s k m).hide ps = s.hide ps := by
  unfold setOffset
  simp only [↓hide_noc, ↓hide_ite, ite_self, h_noc]

theorem crossingMoves_hide (s : State) (q : Nat) (h_noc : Part.noc ∈ ps) (h_free : Part.free ∈ ps) :
    (crossingMoves s q).hide ps = s.hide ps := by
  unfold crossingMoves
  simp only [↓hide_foldl, implies_true, ↓hide_ite, ite_self, drawn_hide, setOffset_hide, h_noc, h_free]

theorem sendStart_hide (s : State) (w : Nat) (h_noc : Part.noc ∈ ps) :
    (sendStart s w).hide ps = s.hide ps := by
  unfold sendStart
  simp only [↓hide_ite, ite_self, push_hide, h_noc]

theorem dispatchSeat_hide (s : State) (r h : Nat) (run : Run) (d : HeatDesc) (epoch : BitVec 16) (g : Gen) (p : Place) (w : Nat) (h_seats : Part.seats ∈ ps) (h_clk : Part.clk ∈ ps) (h_noc : Part.noc ∈ ps) :
    (dispatchSeat s r h run d epoch g p w).hide ps = s.hide ps := by
  unfold dispatchSeat
  simp only [↓hide_ite, ite_self, modSeat_hide, modDom_hide, sendStart_hide, h_seats, h_clk, h_noc]

theorem landAccess_hide (w : Nat) (s : State) (a : Nat × Option Word) (h_seats : Part.seats ∈ ps) (h_glb : Part.glb ∈ ps) :
    (landAccess w s a).hide ps = s.hide ps := by
  unfold landAccess
  (try dsimp only)
  (repeat' split) <;> simp only [↓hide_glb, ↓hide_ite, ite_self, modSeat_hide, h_seats, h_glb]

theorem landWindow_hide (s : State) (w : Nat) (h_seats : Part.seats ∈ ps) (h_glb : Part.glb ∈ ps) :
    (landWindow s w).hide ps = s.hide ps := by
  unfold landWindow
  simp only [↓hide_foldl, implies_true, ↓hide_ite, ite_self, modSeat_hide, landAccess_hide, h_seats, h_glb]

theorem skipHeat_hide (s : State) (r h : Nat) (h_seats : Part.seats ∈ ps) (h_str : Part.str ∈ ps) (h_cq : Part.cq ∈ ps) :
    (skipHeat s r h).hide ps = s.hide ps := by
  unfold skipHeat
  (try dsimp only)
  (repeat' split) <;> simp only [↓hide_ite, ite_self, modHeat_hide, releasePages_hide, postHeat_hide, h_seats, h_str, h_cq]

theorem freeHeat_hide (s : State) (r h : Nat) (x : Heat) (h_seats : Part.seats ∈ ps) (h_str : Part.str ∈ ps) (h_clk : Part.clk ∈ ps) :
    (freeHeat s r h x).hide ps = s.hide ps := by
  unfold freeHeat
  simp only [↓hide_ite, ite_self, modHeat_hide, endOnSeats_hide, h_seats, h_str, h_clk]

theorem readCommand_hide (s : State) (src : Nat) (c : BitVec 512) (h_cq : Part.cq ∈ ps) :
    (readCommand s src c).hide ps = s.hide ps := by
  unfold readCommand
  (try dsimp only)
  (repeat' split) <;> simp only [↓hide_ite, ite_self, modSq_hide, answer_hide, h_cq]

theorem execFeedResume_leaves (f : FeedIx) (val : Word) (s : State) (h_cq : Part.cq ∈ ps) :
    Leaves ps s (execFeedResume f val s) := by
  unfold execFeedResume
  all_goals try dsimp only
  all_goals (repeat' split) <;> (first | (simp only [leaves_next, leaves_ite, ↓hide_ite, ite_self, modFeed_hide, h_cq]; done) | (simp [leaves_next, leaves_ite, ↓hide_ite, ite_self, modFeed_hide, h_cq]; done))

theorem enableSq_hide (s : State) (n : Nat) (h_cq : Part.cq ∈ ps) :
    (enableSq s n).hide ps = s.hide ps := by
  unfold enableSq
  simp only [↓hide_ite, ite_self, modSq_hide, h_cq]

theorem enableCqr_hide (s : State) (n : Nat) (h_cq : Part.cq ∈ ps) :
    (enableCqr s n).hide ps = s.hide ps := by
  unfold enableCqr
  simp only [↓hide_ite, ite_self, modCqr_hide, h_cq]

theorem enableFeed_hide (s : State) (n : Nat) (h_cq : Part.cq ∈ ps) :
    (enableFeed s n).hide ps = s.hide ps := by
  unfold enableFeed
  simp only [↓hide_ite, ite_self, modFeed_hide, h_cq]

theorem disableSq_hide (s : State) (n : Nat) (h_cq : Part.cq ∈ ps) :
    (disableSq s n).hide ps = s.hide ps := by
  unfold disableSq
  simp only [↓hide_ite, ite_self, modSq_hide, h_cq]

theorem disableCqr_hide (s : State) (n : Nat) (h_cq : Part.cq ∈ ps) :
    (disableCqr s n).hide ps = s.hide ps := by
  unfold disableCqr
  simp only [↓hide_ite, ite_self, modCqr_hide, h_cq]

theorem disableFeed_hide (s : State) (n : Nat) (h_cq : Part.cq ∈ ps) :
    (disableFeed s n).hide ps = s.hide ps := by
  unfold disableFeed
  simp only [↓hide_ite, ite_self, modFeed_hide, h_cq]

theorem execEventsClear_leaves (val : Word) (s : State) (h_glb : Part.glb ∈ ps) :
    Leaves ps s (execEventsClear val s) := by
  unfold execEventsClear
  all_goals try dsimp only
  all_goals (repeat' split) <;> (first | (simp only [leaves_next, leaves_ite, ↓hide_glb, ↓hide_ite, ite_self, h_glb]; done) | (simp [leaves_next, leaves_ite, ↓hide_glb, ↓hide_ite, ite_self, h_glb]; done))

theorem badAccess_hide (s : State) (h_glb : Part.glb ∈ ps) :
    (badAccess s).hide ps = s.hide ps := by
  unfold badAccess
  simp only [↓hide_glb, ↓hide_ite, ite_self, h_glb]

theorem bar2Refuse_hide (s : State) (h_glb : Part.glb ∈ ps) :
    (bar2Refuse s).hide ps = s.hide ps := by
  unfold bar2Refuse
  simp only [↓hide_glb, ↓hide_ite, ite_self, h_glb]

theorem bar2Answer_hide (s : State) (v : Nat) (h_glb : Part.glb ∈ ps) :
    (bar2Answer s v).hide ps = s.hide ps := by
  unfold bar2Answer
  simp only [↓hide_glb, ↓hide_ite, ite_self, h_glb]

theorem bar2Pool_hide (s : State) (h o len : Nat) (wr : Option Mem) (h_str : Part.str ∈ ps) (h_pwr : Part.pwr ∈ ps) (h_glb : Part.glb ∈ ps) (h_noc : Part.noc ∈ ps) (h_pools : Part.pools ∈ ps) :
    (bar2Pool s h o len wr).hide ps = s.hide ps := by
  unfold bar2Pool
  (try dsimp only)
  (repeat' split) <;> simp only [↓hide_ite, ite_self, modPool_hide, noteHeld_hide, setPoolWord_hide, poolWrite_hide, badAccess_hide, bar2Refuse_hide, bar2Answer_hide, h_str, h_pwr, h_glb, h_noc, h_pools]

theorem feedMove_hide (s : State) (d n k : Nat) (data : List Granule) (h_str : Part.str ∈ ps) (h_pools : Part.pools ∈ ps)
    (h_hostMem : Part.hostMem ∈ ps) : (feedMove s d n k data).1.hide ps = s.hide ps := by
  induction n generalizing s k data with
  | zero => rfl
  | succ n ih =>
    unfold feedMove
    dsimp only
    (repeat' split) <;> simp only [ih, ↓hide_hostMem, poolGranule_hide, countPool_hide, h_str, h_pools, h_hostMem]

theorem stopFeeds_hide (s : State) (h_cq : Part.cq ∈ ps) :
    (stopFeeds s).hide ps = s.hide ps := by
  unfold stopFeeds
  (try dsimp only)
  (repeat' split) <;> simp only [↓hide_foldl, implies_true, ↓hide_ite, ite_self, modFeed_hide, h_cq]

theorem functionReset_hide (s : State) (h_seats : Part.seats ∈ ps) (h_str : Part.str ∈ ps) (h_ctxs : Part.ctxs ∈ ps) (h_cq : Part.cq ∈ ps) (h_clk : Part.clk ∈ ps) (h_flt : Part.flt ∈ ps) (h_glb : Part.glb ∈ ps) (h_pools : Part.pools ∈ ps) (h_pins : Part.pins ∈ ps) :
    (functionReset s).hide ps = s.hide ps := by
  unfold functionReset
  simp only [↓hide_glb, ↓hide_str, ↓hide_pins, ↓hide_cq, ↓hide_str_cq_pins, ↓hide_glb_pins, ↓hide_str_cq_pins_glb, ↓hide_ite, ite_self, cancelRuns_hide, stopFeeds_hide, h_seats, h_str, h_ctxs, h_cq, h_clk, h_flt, h_glb, h_pools, h_pins]

theorem configWrite_hide (s : State) (a : Nat) (v : Word) (h_glb : Part.glb ∈ ps) (h_pins : Part.pins ∈ ps) :
    (configWrite s a v).hide ps = s.hide ps := by
  unfold configWrite
  simp only [↓hide_glb, ↓hide_pins, ↓hide_glb_pins, ↓hide_ite, ite_self, h_glb, h_pins]

theorem modGenNum_hide (s : State) (c n : Nat) (f : Gen → Gen) (h_ctxs : Part.ctxs ∈ ps) :
    (modGenNum s c n f).hide ps = s.hide ps := by
  unfold modGenNum
  simp only [↓hide_ite, ite_self, modCtx_hide, h_ctxs]

theorem segmentFails_hide (s : State) (j : LoadJob) (g cause : Nat) (h_ctxs : Part.ctxs ∈ ps) (h_flt : Part.flt ∈ ps) :
    (segmentFails s j g cause).hide ps = s.hide ps := by
  unfold segmentFails
  simp only [↓hide_ite, ite_self, report_hide, modGenNum_hide, h_ctxs, h_flt]

theorem stopLoads_hide (s : State) (h_ctxs : Part.ctxs ∈ ps) (h_flt : Part.flt ∈ ps) : (stopLoads s).hide ps = s.hide ps := by
  unfold stopLoads
  rw [hide_ctxs _ _ h_ctxs, hide_foldl]
  intro u j
  rw [hide_foldl]
  intro u g
  exact segmentFails_hide u j g _ h_ctxs h_flt

theorem chipHalt_hide (s : State) (kind code : Nat) (det : BitVec 128) (h_seats : Part.seats ∈ ps) (h_str : Part.str ∈ ps) (h_ctxs : Part.ctxs ∈ ps) (h_cq : Part.cq ∈ ps) (h_clk : Part.clk ∈ ps) (h_flt : Part.flt ∈ ps) (h_glb : Part.glb ∈ ps) (h_pools : Part.pools ∈ ps) (h_pins : Part.pins ∈ ps) :
    (chipHalt s kind code det).hide ps = s.hide ps := by
  unfold chipHalt
  simp only [↓hide_glb, ↓hide_flt, ↓hide_flt_glb, ↓hide_ite, ite_self, report_hide, raiseEvent_hide, cancelRuns_hide, stopFeeds_hide, stopLoads_hide, h_seats, h_str, h_ctxs, h_cq, h_clk, h_flt, h_glb, h_pools, h_pins]

theorem fleetHalt_hide (s : State) (h_chain : Part.chain ∈ ps) :
    (fleetHalt s).hide ps = s.hide ps := by
  unfold fleetHalt
  simp only [↓hide_chain, ↓hide_ite, ite_self, h_chain]

theorem boardHalt_hide (s : State) (code : Nat) (h_seats : Part.seats ∈ ps) (h_str : Part.str ∈ ps) (h_ctxs : Part.ctxs ∈ ps) (h_cq : Part.cq ∈ ps) (h_clk : Part.clk ∈ ps) (h_flt : Part.flt ∈ ps) (h_glb : Part.glb ∈ ps) (h_pools : Part.pools ∈ ps) (h_pins : Part.pins ∈ ps) :
    (boardHalt s code).hide ps = s.hide ps := by
  unfold boardHalt
  simp only [↓hide_glb, ↓hide_ite, ite_self, chipHalt_hide, h_seats, h_str, h_ctxs, h_cq, h_clk, h_flt, h_glb, h_pools, h_pins]

theorem raiseAlert_hide (s : State) (code : Byte) (hold : Bool) (h_flt : Part.flt ∈ ps) (h_pins : Part.pins ∈ ps) :
    (raiseAlert s code hold).hide ps = s.hide ps := by
  unfold raiseAlert
  simp only [↓hide_pins, ↓hide_flt, ↓hide_flt_pins, ↓hide_ite, ite_self, h_flt, h_pins]

theorem stopDomain_hide (s : State) (d : Nat) (h_clk : Part.clk ∈ ps) :
    (stopDomain s d).hide ps = s.hide ps := by
  unfold stopDomain
  simp only [↓hide_ite, ite_self, modDom_hide, h_clk]

theorem stopAll_hide (s : State) (h_clk : Part.clk ∈ ps) :
    (stopAll s).hide ps = s.hide ps := by
  unfold stopAll
  simp only [↓hide_foldl, implies_true, ↓hide_ite, ite_self, stopDomain_hide, h_clk]

theorem tripThermal_hide (s : State) (q : Nat) (tj : Byte) (h_seats : Part.seats ∈ ps) (h_str : Part.str ∈ ps) (h_ctxs : Part.ctxs ∈ ps) (h_cq : Part.cq ∈ ps) (h_clk : Part.clk ∈ ps) (h_flt : Part.flt ∈ ps) (h_glb : Part.glb ∈ ps) (h_pools : Part.pools ∈ ps) (h_pins : Part.pins ∈ ps) :
    (tripThermal s q tj).hide ps = s.hide ps := by
  unfold tripThermal
  simp only [↓hide_pins, ↓hide_ite, ite_self, chipHalt_hide, raiseAlert_hide, stopAll_hide, h_seats, h_str, h_ctxs, h_cq, h_clk, h_flt, h_glb, h_pools, h_pins]

theorem unlockDomain_hide (s : State) (d : Nat) (h_seats : Part.seats ∈ ps) (h_str : Part.str ∈ ps) (h_ctxs : Part.ctxs ∈ ps) (h_cq : Part.cq ∈ ps) (h_clk : Part.clk ∈ ps) (h_flt : Part.flt ∈ ps) (h_glb : Part.glb ∈ ps) (h_pools : Part.pools ∈ ps) (h_pins : Part.pins ∈ ps) :
    (unlockDomain s d).hide ps = s.hide ps := by
  unfold unlockDomain
  simp only [↓hide_ite, ite_self, modDom_hide, chipHalt_hide, raiseAlert_hide, stopDomain_hide, h_seats, h_str, h_ctxs, h_cq, h_clk, h_flt, h_glb, h_pools, h_pins]

theorem writeRec_hide (s : State) (r : StateRec) (h_sec : Part.sec ∈ ps) :
    (writeRec s r).hide ps = s.hide ps := by
  unfold writeRec
  simp only [↓hide_sec, ↓hide_ite, ite_self, h_sec]

theorem checkDevice_hide (s : State) (h_glb : Part.glb ∈ ps) :
    (checkDevice s).hide ps = s.hide ps := by
  unfold checkDevice
  simp only [↓hide_glb, ↓hide_ite, ite_self, h_glb]

theorem startFrom_hide (s : State) (m : Mem) (cause : Byte) (slot : Fin 2) (trial : Bool) (h_glb : Part.glb ∈ ps) :
    (startFrom s m cause slot trial).hide ps = s.hide ps := by
  unfold startFrom
  simp only [↓hide_glb, ↓hide_ite, ite_self, checkDevice_hide, h_glb]

theorem toStage2_hide (s : State) (h_glb : Part.glb ∈ ps) :
    (toStage2 s).hide ps = s.hide ps := by
  unfold toStage2
  simp only [↓hide_glb, ↓hide_ite, ite_self, h_glb]

theorem chooseSlot_hide (s : State) (cause : Byte) (h_flt : Part.flt ∈ ps) (h_glb : Part.glb ∈ ps) :
    (chooseSlot s cause).hide ps = s.hide ps := by
  unfold chooseSlot
  (try dsimp only)
  (repeat' split) <;> simp only [↓hide_glb, ↓hide_ite, ite_self, report_hide, startFrom_hide, toStage2_hide, h_flt, h_glb]

theorem readIdentity_hide (s : State) (h_sec : Part.sec ∈ ps) :
    (readIdentity s).hide ps = s.hide ps := by
  unfold readIdentity
  simp only [↓hide_sec, ↓hide_ite, ite_self, h_sec]

theorem readRec_hide (s : State) (h_flt : Part.flt ∈ ps) (h_sec : Part.sec ∈ ps) :
    (readRec s).hide ps = s.hide ps := by
  unfold readRec
  (try dsimp only)
  (repeat' split) <;> simp only [↓hide_sec, ↓hide_ite, ite_self, report_hide, h_flt, h_sec]

theorem romBoot_hide (s : State) (cause : Byte) (puf : Bool) (h_flt : Part.flt ∈ ps) (h_glb : Part.glb ∈ ps) (h_sec : Part.sec ∈ ps) (h_pins : Part.pins ∈ ps) :
    (romBoot s cause puf).hide ps = s.hide ps := by
  unfold romBoot
  simp only [↓hide_glb, ↓hide_ite, ite_self, raiseAlert_hide, chooseSlot_hide, readIdentity_hide, readRec_hide, h_flt, h_glb, h_sec, h_pins]

theorem commitTrial_hide (s : State) (h_glb : Part.glb ∈ ps) (h_sec : Part.sec ∈ ps) :
    (commitTrial s).hide ps = s.hide ps := by
  unfold commitTrial
  simp only [↓hide_glb, ↓hide_ite, ite_self, writeRec_hide, h_glb, h_sec]

theorem freshRec_hide (s : State) (h_sec : Part.sec ∈ ps) :
    (freshRec s).hide ps = s.hide ps := by
  unfold freshRec
  simp only [↓hide_ite, ite_self, writeRec_hide, h_sec]

theorem takeLateHalt_hide (s : State) (h_seats : Part.seats ∈ ps) (h_str : Part.str ∈ ps) (h_ctxs : Part.ctxs ∈ ps) (h_cq : Part.cq ∈ ps) (h_clk : Part.clk ∈ ps) (h_flt : Part.flt ∈ ps) (h_glb : Part.glb ∈ ps) (h_pools : Part.pools ∈ ps) (h_pins : Part.pins ∈ ps) :
    (takeLateHalt s).hide ps = s.hide ps := by
  unfold takeLateHalt
  (try dsimp only)
  (repeat' split) <;> simp only [↓hide_glb, ↓hide_ite, ite_self, chipHalt_hide, h_seats, h_str, h_ctxs, h_cq, h_clk, h_flt, h_glb, h_pools, h_pins]

theorem serveReady_hide (s : State) (h_seats : Part.seats ∈ ps) (h_str : Part.str ∈ ps) (h_ctxs : Part.ctxs ∈ ps) (h_cq : Part.cq ∈ ps) (h_clk : Part.clk ∈ ps) (h_flt : Part.flt ∈ ps) (h_glb : Part.glb ∈ ps) (h_sec : Part.sec ∈ ps) (h_pools : Part.pools ∈ ps) (h_pins : Part.pins ∈ ps) :
    (serveReady s).hide ps = s.hide ps := by
  unfold serveReady
  simp only [↓hide_glb, ↓hide_ite, ite_self, commitTrial_hide, freshRec_hide, takeLateHalt_hide, h_seats, h_str, h_ctxs, h_cq, h_clk, h_flt, h_glb, h_sec, h_pools, h_pins]

theorem becomeReady_hide (s : State) (h_seats : Part.seats ∈ ps) (h_str : Part.str ∈ ps) (h_ctxs : Part.ctxs ∈ ps) (h_cq : Part.cq ∈ ps) (h_clk : Part.clk ∈ ps) (h_flt : Part.flt ∈ ps) (h_glb : Part.glb ∈ ps) (h_sec : Part.sec ∈ ps) (h_pools : Part.pools ∈ ps) (h_pins : Part.pins ∈ ps) :
    (becomeReady s).hide ps = s.hide ps := by
  unfold becomeReady
  simp only [↓hide_ite, ite_self, raiseEvent_hide, serveReady_hide, h_seats, h_str, h_ctxs, h_cq, h_clk, h_flt, h_glb, h_sec, h_pools, h_pins]

theorem restartSnivan_hide (s : State) (cause : Byte) (puf : Bool) (h_flt : Part.flt ∈ ps) (h_glb : Part.glb ∈ ps) (h_sec : Part.sec ∈ ps) (h_pins : Part.pins ∈ ps) :
    (restartSnivan s cause puf).hide ps = s.hide ps := by
  unfold restartSnivan
  simp only [↓hide_glb, ↓hide_ite, ite_self, romBoot_hide, h_flt, h_glb, h_sec, h_pins]

theorem sendDraft_hide (s : State) (w : Nat) (e : EngIx) (j : Job) (t : Nat) (a : Draft) (h_seats : Part.seats ∈ ps) :
    (sendDraft s w e j t a).hide ps = s.hide ps := by
  unfold sendDraft
  simp only [↓hide_ite, ite_self, putSeat_hide, h_seats]

theorem finishEngine_hide (s : State) (w : Nat) (e : EngIx) (j : Job) (t : Nat) (h_seats : Part.seats ∈ ps) :
    (finishEngine s w e j t).hide ps = s.hide ps := by
  unfold finishEngine
  simp only [↓hide_ite, ite_self, putSeat_hide, h_seats]

theorem transmit_hide (s : State) (w : Nat) (e : EngIx) (x : Seat) (j : Job) (n t : Nat) (a : Draft) (h_seats : Part.seats ∈ ps) (h_free : Part.free ∈ ps) :
    (transmit s w e x j n t a).hide ps = s.hide ps := by
  unfold transmit
  simp only [↓hide_ite, ite_self, putSeat_hide, drawn_hide, sendDraft_hide, finishEngine_hide, h_seats, h_free]

theorem modPort_hide (s : State) (p : Nat) (f : Port → Port) (h_fab : Part.fab ∈ ps) :
    (modPort s p f).hide ps = s.hide ps := by
  unfold modPort
  simp only [↓hide_fab, ↓hide_ite, ite_self, h_fab]

theorem modPair_hide (s : State) (d : Nat) (f : Pair → Pair) (h_fab : Part.fab ∈ ps) :
    (modPair s d f).hide ps = s.hide ps := by
  unfold modPair
  simp only [↓hide_fab, ↓hide_ite, ite_self, h_fab]

theorem countFabNack_hide (s : State) (st : Nat) (h_noc : Part.noc ∈ ps) (h_fab : Part.fab ∈ ps) :
    (countFabNack s st).hide ps = s.hide ps := by
  unfold countFabNack
  simp only [↓hide_fab, ↓hide_ite, ite_self, countNack_hide, h_noc, h_fab]

theorem leaveFirst_hide (s : State) (h : Nat) (h_fab : Part.fab ∈ ps) :
    (leaveFirst s h).hide ps = s.hide ps := by
  unfold leaveFirst
  (try dsimp only)
  (repeat' split) <;> simp only [↓hide_fab, ↓hide_ite, ite_self, h_fab]

theorem numbered_hide (s : State) (d : Nat) (h : Nat) (h_fab : Part.fab ∈ ps) :
    (numbered s d h).hide ps = s.hide ps := by
  unfold numbered
  simp only [↓hide_ite, ite_self, modPair_hide, h_fab]

theorem sendOne_hide (s : State) (p i : Nat) (h_fab : Part.fab ∈ ps) :
    (sendOne s p i).hide ps = s.hide ps := by
  unfold sendOne
  (try dsimp only)
  (repeat' split) <;> simp only [↓hide_fab, ↓hide_ite, ite_self, modPort_hide, leaveFirst_hide, numbered_hide, h_fab]

theorem resendOne_hide (s t : State) (p : Nat) (h_fab : Part.fab ∈ ps) (h : resendOne s p = some t) : t.hide ps = s.hide ps := by
  unfold resendOne at h
  dsimp only at h
  (repeat' split at h) <;> simp only [Option.some.injEq, reduceCtorEq] at h <;> subst h <;> simp only [modPort_hide, h_fab]

theorem pumpN_hide (p n : Nat) (s : State) (h_fab : Part.fab ∈ ps) : (pumpN p n s).hide ps = s.hide ps := by
  induction n generalizing s with
  | zero => rfl
  | succ n ih => 
    unfold pumpN
    (repeat' split) <;> simp only [ih, sendOne_hide, h_fab]
    exact resendOne_hide _ _ _ h_fab ‹_›

theorem pump_hide (s : State) (p : Nat) (h_fab : Part.fab ∈ ps) :
    (pump s p).hide ps = s.hide ps := by
  unfold pump
  simp only [↓hide_ite, ite_self, pumpN_hide, h_fab]

theorem txQueue_hide (s : State) (p : Nat) (k : Pkt) (h_fab : Part.fab ∈ ps) :
    (txQueue s p k).hide ps = s.hide ps := by
  unfold txQueue
  simp only [↓hide_ite, ite_self, modPort_hide, pump_hide, h_fab]

theorem putFtag_hide (s : State) (t : Nat) (f : Ftag) (h_fab : Part.fab ∈ ps) :
    (putFtag s t f).hide ps = s.hide ps := by
  unfold putFtag
  simp only [↓hide_fab, ↓hide_ite, ite_self, h_fab]

theorem freeFtag_hide (s : State) (t : Nat) (h_fab : Part.fab ∈ ps) :
    (freeFtag s t).hide ps = s.hide ps := by
  unfold freeFtag
  simp only [↓hide_fab, ↓hide_ite, ite_self, h_fab]

theorem settleFtag_hide (s : State) (t : Nat) (f : Ftag) (h_fab : Part.fab ∈ ps) :
    (settleFtag s t f).hide ps = s.hide ps := by
  unfold settleFtag
  simp only [↓hide_ite, ite_self, putFtag_hide, freeFtag_hide, h_fab]

theorem giveEngine_hide (s : State) (f : Ftag) (ty st word : Nat) (data : List Granule) (h_noc : Part.noc ∈ ps) (h_fab : Part.fab ∈ ps) :
    (giveEngine s f ty st word data).hide ps = s.hide ps := by
  unfold giveEngine
  simp only [↓hide_ite, ite_self, sendBack_hide, countFabNack_hide, h_noc, h_fab]

theorem gatherFtag_hide (s : State) (t : Nat) (f : Ftag) (h_noc : Part.noc ∈ ps) (h_fab : Part.fab ∈ ps) :
    (gatherFtag s t f).hide ps = s.hide ps := by
  unfold gatherFtag
  simp only [↓hide_ite, ite_self, putFtag_hide, settleFtag_hide, giveEngine_hide, h_noc, h_fab]

theorem ftagAnswer_hide (s : State) (t : Nat) (which : Pkt → Bool) (a : Reply) (h_noc : Part.noc ∈ ps) (h_fab : Part.fab ∈ ps) :
    (ftagAnswer s t which a).hide ps = s.hide ps := by
  unfold ftagAnswer
  (try dsimp only)
  (repeat' split) <;> simp only [↓hide_ite, ite_self, settleFtag_hide, giveEngine_hide, gatherFtag_hide, h_noc, h_fab]

theorem routeWith_hide (refuse : State → Pkt → State) (s : State) (k : Pkt) (h_fab : Part.fab ∈ ps)
    (hr : (refuse s k).hide ps = s.hide ps) : (routeWith refuse s k).hide ps = s.hide ps := by
  unfold routeWith
  dsimp only
  (repeat' split) <;> simp only [modPair_hide, txQueue_hide, h_fab, hr]

theorem routeAnswer_hide (s : State) (k : Pkt) (h_fab : Part.fab ∈ ps) : (routeAnswer s k).hide ps = s.hide ps :=
  routeWith_hide _ s k h_fab rfl

theorem answerFabric_hide (s : State) (h taken ty st word : Nat) (data : List Granule) (h_noc : Part.noc ∈ ps) (h_fab : Part.fab ∈ ps) :
    (answerFabric s h taken ty st word data).hide ps = s.hide ps := by
  simp only [answerFabric, routeAnswer_hide, ↓hide_ite, countFabNack_hide, ite_self, h_noc, h_fab]

theorem refusePort_hide (s : State) (k : Pkt) (h_noc : Part.noc ∈ ps) (h_fab : Part.fab ∈ ps) :
    (refusePort s k).hide ps = s.hide ps := by
  unfold refusePort
  simp only [↓hide_ite, ite_self, leaveFirst_hide, ftagAnswer_hide, answerFabric_hide, h_noc, h_fab]

theorem routePkt_hide (s : State) (k : Pkt) (h_noc : Part.noc ∈ ps) (h_fab : Part.fab ∈ ps) : (routePkt s k).hide ps = s.hide ps :=
  routeWith_hide _ s k h_fab (refusePort_hide s k h_noc h_fab)

theorem launch_hide (s : State) (k : Pkt) (h_noc : Part.noc ∈ ps) (h_fab : Part.fab ∈ ps) : (launch s k).hide ps = s.hide ps :=
  routePkt_hide _ _ h_noc h_fab

theorem linkRec_hide (s : State) (code p : Nat) (h_flt : Part.flt ∈ ps) :
    (linkRec s code p).hide ps = s.hide ps := by
  unfold linkRec
  simp only [↓hide_ite, ite_self, report_hide, h_flt]

theorem portDown_hide (s : State) (p : Nat) (st : PortSt) (fast : Bool) (h_flt : Part.flt ∈ ps) (h_noc : Part.noc ∈ ps) (h_fab : Part.fab ∈ ps) :
    (portDown s p st fast).hide ps = s.hide ps := by
  unfold portDown
  simp only [↓hide_foldl, implies_true, ↓hide_fab, ↓hide_ite, ite_self, modPort_hide, routePkt_hide, linkRec_hide, h_flt, h_noc, h_fab]

theorem startRetrain_hide (s : State) (p : Nat) (h_flt : Part.flt ∈ ps) (h_noc : Part.noc ∈ ps) (h_fab : Part.fab ∈ ps) :
    (startRetrain s p).hide ps = s.hide ps := by
  unfold startRetrain
  simp only [↓hide_ite, ite_self, modPort_hide, portDown_hide, h_flt, h_noc, h_fab]

theorem schedule_hide (s : State) (p : Nat) (credit : Bool) (h_flt : Part.flt ∈ ps) (h_noc : Part.noc ∈ ps) (h_fab : Part.fab ∈ ps) :
    (schedule s p credit).hide ps = s.hide ps := by
  unfold schedule
  simp only [↓hide_ite, ite_self, modPort_hide, startRetrain_hide, h_flt, h_noc, h_fab]

theorem otherRetrain_hide (s : State) (p : Nat) (st : PortSt) (h_flt : Part.flt ∈ ps) (h_noc : Part.noc ∈ ps) (h_fab : Part.fab ∈ ps) :
    (otherRetrain s p st).hide ps = s.hide ps := by
  unfold otherRetrain
  simp only [↓hide_ite, ite_self, modPort_hide, portDown_hide, h_flt, h_noc, h_fab]

theorem portUp_hide (s : State) (p : Nat) (h_flt : Part.flt ∈ ps) (h_noc : Part.noc ∈ ps) (h_fab : Part.fab ∈ ps) :
    (portUp s p).hide ps = s.hide ps := by
  unfold portUp
  simp only [startRetrain_hide, h_flt, h_noc, h_fab]
  rw [hide_foldl]
  · simp only [modPair_hide, modPort_hide, h_fab]
  · intro u a
    split <;> simp only [txQueue_hide, modPair_hide, h_fab]

theorem setNak_hide (s : State) (p : Nat) (h_fab : Part.fab ∈ ps) :
    (setNak s p).hide ps = s.hide ps := by
  unfold setNak
  simp only [↓hide_ite, ite_self, modPort_hide, h_fab]

theorem crcFails_hide (s : State) (p : Nat) (h_fab : Part.fab ∈ ps) :
    (crcFails s p).hide ps = s.hide ps := by
  unfold crcFails
  simp only [↓hide_ite, ite_self, modPort_hide, setNak_hide, h_fab]

theorem replay_hide (s : State) (p : Nat) (byNak : Bool) (h_flt : Part.flt ∈ ps) (h_noc : Part.noc ∈ ps) (h_fab : Part.fab ∈ ps) :
    (replay s p byNak).hide ps = s.hide ps := by
  unfold replay
  simp only [↓hide_foldl, implies_true, ↓hide_ite, ite_self, modPort_hide, pump_hide, otherRetrain_hide, h_flt, h_noc, h_fab]

theorem takeAck_hide (s : State) (p : Nat) (e : Nat) (h_flt : Part.flt ∈ ps) (h_noc : Part.noc ∈ ps) (h_fab : Part.fab ∈ ps) (h_free : Part.free ∈ ps) :
    (takeAck s p e).hide ps = s.hide ps := by
  unfold takeAck
  simp only [↓hide_ite, ite_self, drawn_hide, modPort_hide, pump_hide, replay_hide, h_flt, h_noc, h_fab, h_free]

theorem trainFails_hide (s : State) (p cause : Nat) (h_fab : Part.fab ∈ ps) :
    (trainFails s p cause).hide ps = s.hide ps := by
  unfold trainFails
  simp only [↓hide_ite, ite_self, modPort_hide, h_fab]

theorem enterCreditInit_hide (s : State) (p : Nat) (h_fab : Part.fab ∈ ps) :
    (enterCreditInit s p).hide ps = s.hide ps := by
  unfold enterCreditInit
  simp only [↓hide_ite, ite_self, modPort_hide, h_fab]

theorem identify_hide (s : State) (p : Nat) (o : Nat × Nat) (named : Bool) (h_fab : Part.fab ∈ ps) :
    (identify s p o named).hide ps = s.hide ps := by
  unfold identify
  (try dsimp only)
  (repeat' split) <;> simp only [↓hide_ite, ite_self, modPort_hide, modPair_hide, trainFails_hide, enterCreditInit_hide, h_fab]

theorem execFabPortRetrain_leaves (p : PortIx) (val : Word) (s : State) (h_flt : Part.flt ∈ ps) (h_noc : Part.noc ∈ ps) (h_fab : Part.fab ∈ ps) :
    Leaves ps s (execFabPortRetrain p val s) := by
  unfold execFabPortRetrain
  all_goals try dsimp only
  all_goals (repeat' split) <;> (first | (simp only [leaves_next, leaves_ite, ↓hide_ite, ite_self, schedule_hide, h_flt, h_noc, h_fab]; done) | (simp [leaves_next, leaves_ite, ↓hide_ite, ite_self, schedule_hide, h_flt, h_noc, h_fab]; done))

theorem execFabPortRetrainFull_leaves (p : PortIx) (val : Word) (s : State) (h_flt : Part.flt ∈ ps) (h_noc : Part.noc ∈ ps) (h_fab : Part.fab ∈ ps) :
    Leaves ps s (execFabPortRetrainFull p val s) := by
  unfold execFabPortRetrainFull
  all_goals try dsimp only
  all_goals (repeat' split) <;> (first | (simp only [leaves_next, leaves_ite, ↓hide_ite, ite_self, modPort_hide, otherRetrain_hide, h_flt, h_noc, h_fab]; done) | (simp [leaves_next, leaves_ite, ↓hide_ite, ite_self, modPort_hide, otherRetrain_hide, h_flt, h_noc, h_fab]; done))

theorem portOff_hide (s : State) (p : Nat) (h_flt : Part.flt ∈ ps) (h_noc : Part.noc ∈ ps) (h_fab : Part.fab ∈ ps) :
    (portOff s p).hide ps = s.hide ps := by
  unfold portOff
  simp only [↓hide_ite, ite_self, modPort_hide, portDown_hide, h_flt, h_noc, h_fab]

theorem execFabPortEnWrite_leaves (p : PortIx) (val : Word) (s : State) (h_flt : Part.flt ∈ ps) (h_noc : Part.noc ∈ ps) (h_fab : Part.fab ∈ ps) :
    Leaves ps s (execFabPortEnWrite p val s) := by
  unfold execFabPortEnWrite
  all_goals try dsimp only
  all_goals (repeat' split) <;> (first | (simp only [leaves_next, leaves_ite, ↓hide_ite, ite_self, modPort_hide, portOff_hide, h_flt, h_noc, h_fab]; done) | (simp [leaves_next, leaves_ite, ↓hide_ite, ite_self, modPort_hide, portOff_hide, h_flt, h_noc, h_fab]; done))

theorem acceptPacket_hide (s : State) (p : Nat) (k : Pkt) (h_fab : Part.fab ∈ ps) :
    (acceptPacket s p k).hide ps = s.hide ps := by
  unfold acceptPacket
  simp only [↓hide_fab, ↓hide_ite, ite_self, modPort_hide, modPair_hide, h_fab]

theorem acceptFrame_hide (s : State) (p : Nat) (w : SlotWalk) (lead : Bool) (seq : Nat) (h_fab : Part.fab ∈ ps) :
    (acceptFrame s p w lead seq).hide ps = s.hide ps := by
  unfold acceptFrame
  simp only [↓hide_foldl, implies_true, ↓hide_ite, ite_self, modPort_hide, acceptPacket_hide, h_fab]

theorem sequenced_hide (s : State) (p : Nat) (fr : Frame) (h_flt : Part.flt ∈ ps) (h_noc : Part.noc ∈ ps) (h_fab : Part.fab ∈ ps) (h_free : Part.free ∈ ps) :
    (sequenced s p fr).hide ps = s.hide ps := by
  unfold sequenced
  simp only [↓hide_ite, ite_self, modPort_hide, setNak_hide, crcFails_hide, takeAck_hide, acceptFrame_hide, h_flt, h_noc, h_fab, h_free]

theorem takeCredits_hide (s : State) (p : Nat) (fr : Frame) (h_flt : Part.flt ∈ ps) (h_noc : Part.noc ∈ ps) (h_fab : Part.fab ∈ ps) :
    (takeCredits s p fr).hide ps = s.hide ps := by
  unfold takeCredits
  simp only [↓hide_foldl, implies_true, ↓hide_ite, ite_self, modPort_hide, pump_hide, schedule_hide, h_flt, h_noc, h_fab]

theorem correctTime_hide (s : State) (h_clk : Part.clk ∈ ps) (h_fab : Part.fab ∈ ps) :
    (correctTime s).hide ps = s.hide ps := by
  unfold correctTime
  simp only [↓hide_fab, ↓hide_clk, ↓hide_clk_fab, ↓hide_ite, ite_self, h_clk, h_fab]

theorem takeSample_hide (s : State) (f t2 frac : Nat) (h_clk : Part.clk ∈ ps) (h_fab : Part.fab ∈ ps) :
    (takeSample s f t2 frac).hide ps = s.hide ps := by
  unfold takeSample
  simp only [↓hide_fab, ↓hide_ite, ite_self, correctTime_hide, h_clk, h_fab]

theorem takeTime_hide (s : State) (p : Nat) (f : Nat) (h_clk : Part.clk ∈ ps) (h_fab : Part.fab ∈ ps) (h_free : Part.free ∈ ps) :
    (takeTime s p f).hide ps = s.hide ps := by
  unfold takeTime
  simp only [↓hide_ite, ite_self, drawn_hide, modPort_hide, takeSample_hide, h_clk, h_fab, h_free]

theorem controlled_hide (s : State) (p : Nat) (fr : Frame) (h_clk : Part.clk ∈ ps) (h_flt : Part.flt ∈ ps) (h_noc : Part.noc ∈ ps) (h_fab : Part.fab ∈ ps) (h_free : Part.free ∈ ps) :
    (controlled s p fr).hide ps = s.hide ps := by
  unfold controlled
  (try dsimp only)
  (repeat' split) <;> simp only [↓hide_foldl, implies_true, ↓hide_ite, ite_self, modPort_hide, takeAck_hide, identify_hide, takeCredits_hide, takeTime_hide, h_clk, h_flt, h_noc, h_fab, h_free]

theorem sendCopies_hide (s : State) (t : Nat) (seat : Nat) (hdr : BitVec 512) (ks : List Pkt) (h_noc : Part.noc ∈ ps) (h_fab : Part.fab ∈ ps) :
    (sendCopies s t seat hdr ks).hide ps = s.hide ps := by
  unfold sendCopies
  simp only [↓hide_foldl, implies_true, ↓hide_ite, ite_self, putFtag_hide, launch_hide, h_noc, h_fab]

theorem giveUp_hide (s : State) (t : Nat) (f : Ftag) (h_noc : Part.noc ∈ ps) (h_fab : Part.fab ∈ ps) :
    (giveUp s t f).hide ps = s.hide ps := by
  unfold giveUp
  simp only [↓hide_fab, ↓hide_ite, ite_self, freeFtag_hide, giveEngine_hide, h_noc, h_fab]

theorem readDone_hide (s : State) (t : Nat) (f : Ftag) (data : List Granule) (h_str : Part.str ∈ ps) (h_noc : Part.noc ∈ ps) (h_fab : Part.fab ∈ ps) :
    (readDone s t f data).hide ps = s.hide ps := by
  unfold readDone
  simp only [↓hide_ite, ite_self, staleElse_hide, settleFtag_hide, giveEngine_hide, h_str, h_noc, h_fab]

theorem lastChip_hide (s : State) (k : Pkt) (h_str : Part.str ∈ ps) (h_pwr : Part.pwr ∈ ps) (h_noc : Part.noc ∈ ps) (h_fab : Part.fab ∈ ps) (h_free : Part.free ∈ ps) :
    (lastChip s k).hide ps = s.hide ps := by
  unfold lastChip
  (try dsimp only)
  (repeat' split) <;> simp only [↓hide_fab, ↓hide_ite, ite_self, staleElse_hide, enterEdge_hide, enterLink_hide, answerFabric_hide, h_str, h_pwr, h_noc, h_fab, h_free]

theorem leaveBuffer_hide (s : State) (p : Nat) (k : Pkt) (h_fab : Part.fab ∈ ps) :
    (leaveBuffer s p k).hide ps = s.hide ps := by
  unfold leaveBuffer
  simp only [↓hide_ite, ite_self, modPort_hide, h_fab]

theorem inboundAnswer_hide (s : State) (k : Pkt) (h_noc : Part.noc ∈ ps) (h_fab : Part.fab ∈ ps) :
    (inboundAnswer s k).hide ps = s.hide ps := by
  unfold inboundAnswer
  (try dsimp only)
  (repeat' split) <;> simp only [↓hide_fab, ↓hide_ite, ite_self, answerFabric_hide, h_noc, h_fab]

theorem answered_hide (s : State) (i : Nat) (d : Deliv) (a : Reply) (h_clk : Part.clk ∈ ps) (h_noc : Part.noc ∈ ps) :
    (answered s i d a).hide ps = s.hide ps := by
  unfold answered
  simp only [↓hide_ite, ite_self, takeArrive_hide, answerPkt_hide, h_clk, h_noc]

theorem countRefusal_hide (s : State) (w space code : Nat) (h_seats : Part.seats ∈ ps) :
    (countRefusal s w space code).hide ps = s.hide ps := by
  unfold countRefusal
  simp only [↓hide_ite, ite_self, modCox_hide, modWst_hide, h_seats]

theorem dropPkt_hide (s : State) (i : Nat) (d : Deliv) (a : Reply) (h_clk : Part.clk ∈ ps) (h_noc : Part.noc ∈ ps) :
    (dropPkt s i d a).hide ps = s.hide ps := by
  unfold dropPkt
  simp only [↓hide_ite, ite_self, modArrive_hide, answered_hide, h_clk, h_noc]

theorem wroteGranule_hide (s : State) (i g : Nat) (d : Deliv) (h_clk : Part.clk ∈ ps) (h_noc : Part.noc ∈ ps) :
    (wroteGranule s i g d).hide ps = s.hide ps := by
  unfold wroteGranule
  simp only [↓hide_ite, ite_self, modArrive_hide, answered_hide, h_clk, h_noc]

theorem writeRow_hide (s : State) (i g : Nat) (d : Deliv) (live : Bool) (stale : State) (bad : Option (State × Nat)) (wait : Bool)
    (put : Granule → State) (h_str : Part.str ∈ ps) (h_clk : Part.clk ∈ ps) (h_noc : Part.noc ∈ ps) (hs : stale.hide ps = s.hide ps)
    (hb : ∀ t c, bad = some (t, c) → t.hide ps = s.hide ps) (hp : ∀ x, (put x).hide ps = s.hide ps) :
    (writeRow s i g d live stale bad wait put).hide ps = s.hide ps := by
  unfold writeRow
  split
  · split <;> simp only [answered_hide, h_str, h_clk, h_noc]
  · split
    · rfl
    split
    · simp only [dropPkt_hide, hs, h_str, h_clk, h_noc]
    split
    · rename_i heq
      simp only [dropPkt_hide, h_str, h_clk, h_noc]
      split at heq
      · exact hb _ _ heq
      · cases heq
    · (repeat' split) <;> simp only [wroteGranule_hide, hp, h_str, h_clk, h_noc]



theorem writeSeat_hide (s : State) (i g w : Nat) (d : Deliv) (h_seats : Part.seats ∈ ps) (h_str : Part.str ∈ ps) (h_clk : Part.clk ∈ ps)
    (h_noc : Part.noc ∈ ps) : (writeSeat s i g w d).hide ps = s.hide ps := by
  refine writeRow_hide _ _ _ _ _ _ _ _ _ h_str h_clk h_noc ?_ ?_ ?_
  · simp only [staleSeat_hide, h_str, h_seats]
  · intro t c h
    simp only [Option.map_eq_some_iff, Prod.mk.injEq] at h
    obtain ⟨_, _, rfl, _⟩ := h
    simp only [countRefusal_hide, h_seats]
  · intro x
    simp only [↓hide_ite, countSeat_hide, modSeat_hide, ite_self, h_seats, h_str]

theorem asleepAt_hide (s : State) (hf : Nat) (h_pools : Part.pools ∈ ps) :
    (asleepAt s hf).hide ps = s.hide ps := by
  unfold asleepAt
  simp only [↓hide_ite, ite_self, modPool_hide, h_pools]

theorem writePool_hide (s : State) (i g hf : Nat) (d : Deliv) (h_str : Part.str ∈ ps) (h_clk : Part.clk ∈ ps) (h_noc : Part.noc ∈ ps)
    (h_pools : Part.pools ∈ ps) : (writePool s i g hf d).hide ps = s.hide ps := by
  refine writeRow_hide _ _ _ _ _ _ _ _ _ h_str h_clk h_noc ?_ ?_ ?_
  · simp only [staleElse_hide, h_str]
  · intro t c h
    (repeat' split at h) <;> simp only [Option.some.injEq, Prod.mk.injEq, reduceCtorEq] at h <;> obtain ⟨rfl, _⟩ := h <;>
      simp only [asleepAt_hide, h_pools]
  · intro x
    simp only [↓hide_ite, countPool_hide, poolWrite_hide, ite_self, h_str, h_pools]

theorem wordSeat_hide (s : State) (i w : Nat) (d : Deliv) (h_seats : Part.seats ∈ ps) (h_str : Part.str ∈ ps) (h_clk : Part.clk ∈ ps) (h_noc : Part.noc ∈ ps) :
    (wordSeat s i w d).hide ps = s.hide ps := by
  unfold wordSeat
  (try dsimp only)
  (repeat' split) <;> simp only [↓hide_ite, ite_self, modSeat_hide, setSeatWord_hide, staleSeat_hide, answered_hide, countRefusal_hide, h_seats, h_str, h_clk, h_noc]

theorem wordPool_hide (s : State) (i hf : Nat) (d : Deliv) (h_str : Part.str ∈ ps) (h_clk : Part.clk ∈ ps) (h_noc : Part.noc ∈ ps) (h_pools : Part.pools ∈ ps) :
    (wordPool s i hf d).hide ps = s.hide ps := by
  unfold wordPool
  simp only [↓hide_ite, ite_self, setPoolWord_hide, staleElse_hide, answered_hide, h_str, h_clk, h_noc, h_pools]

theorem overSeat_hide (s : State) (w : Nat) (f : Finish) (h_seats : Part.seats ∈ ps) (h_flt : Part.flt ∈ ps) :
    (overSeat s w f).hide ps = s.hide ps := by
  unfold overSeat
  simp only [↓hide_ite, ite_self, seatRaise_hide, h_seats, h_flt]

theorem overPool_hide (s : State) (hf : Nat) (f : Finish) (h_flt : Part.flt ∈ ps) :
    (overPool s hf f).hide ps = s.hide ps := by
  unfold overPool
  (try dsimp only)
  (repeat' split) <;> simp only [↓hide_ite, ite_self, report_hide, h_flt]

theorem releaseSeat_hide (s : State) (w : Nat) (f : Finish) (c : Word) (h_seats : Part.seats ∈ ps) (h_flt : Part.flt ∈ ps) :
    (releaseSeat s w f c).hide ps = s.hide ps := by
  unfold releaseSeat
  simp only [↓hide_ite, ite_self, modSeat_hide, overSeat_hide, h_seats, h_flt]

theorem releasePool_hide (s : State) (hf : Nat) (f : Finish) (c : Word) (h_flt : Part.flt ∈ ps) (h_pools : Part.pools ∈ ps) :
    (releasePool s hf f c).hide ps = s.hide ps := by
  unfold releasePool
  simp only [↓hide_ite, ite_self, modPool_hide, overPool_hide, h_flt, h_pools]

theorem finishSeat_hide (s : State) (i w : Nat) (d : Deliv) (h_seats : Part.seats ∈ ps) (h_clk : Part.clk ∈ ps) (h_flt : Part.flt ∈ ps) (h_noc : Part.noc ∈ ps) :
    (finishSeat s i w d).hide ps = s.hide ps := by
  unfold finishSeat
  simp only [↓hide_ite, ite_self, modSeat_hide, staleSeat_hide, answered_hide, releaseSeat_hide, h_seats, h_clk, h_flt, h_noc]

theorem finishPool_hide (s : State) (i hf : Nat) (d : Deliv) (h_str : Part.str ∈ ps) (h_clk : Part.clk ∈ ps) (h_flt : Part.flt ∈ ps) (h_noc : Part.noc ∈ ps) (h_pools : Part.pools ∈ ps) :
    (finishPool s i hf d).hide ps = s.hide ps := by
  unfold finishPool
  simp only [↓hide_ite, ite_self, modPool_hide, staleElse_hide, answered_hide, releasePool_hide, h_str, h_clk, h_flt, h_noc, h_pools]

theorem answerData_hide (s : State) (i : Nat) (d : Deliv) (gs : List Granule) (h_clk : Part.clk ∈ ps) (h_noc : Part.noc ∈ ps) :
    (answerData s i d gs).hide ps = s.hide ps := by
  unfold answerData
  simp only [↓hide_ite, ite_self, takeArrive_hide, sendBack_hide, h_clk, h_noc]

theorem readSeat_hide (s : State) (i w : Nat) (d : Deliv) (h_seats : Part.seats ∈ ps) (h_clk : Part.clk ∈ ps) (h_noc : Part.noc ∈ ps) :
    (readSeat s i w d).hide ps = s.hide ps := by
  unfold readSeat
  simp only [↓hide_ite, ite_self, staleSeat_hide, answered_hide, answerData_hide, h_seats, h_clk, h_noc]

theorem readPool_hide (s : State) (i hf : Nat) (d : Deliv) (h_str : Part.str ∈ ps) (h_clk : Part.clk ∈ ps) (h_noc : Part.noc ∈ ps) (h_pools : Part.pools ∈ ps) :
    (readPool s i hf d).hide ps = s.hide ps := by
  unfold readPool
  simp only [↓hide_ite, ite_self, staleElse_hide, answered_hide, asleepAt_hide, answerData_hide, h_str, h_clk, h_noc, h_pools]

theorem settleOut_hide (s : State) (w h : Nat) (h_seats : Part.seats ∈ ps) :
    (settleOut s w h).hide ps = s.hide ps := by
  unfold settleOut
  simp only [↓hide_ite, ite_self, modEng_hide, h_seats]

theorem rdataOver_hide (s : State) (i w h : Nat) (h_seats : Part.seats ∈ ps) (h_clk : Part.clk ∈ ps) (h_noc : Part.noc ∈ ps) :
    (rdataOver s i w h).hide ps = s.hide ps := by
  unfold rdataOver
  simp only [↓hide_ite, ite_self, takeArrive_hide, settleOut_hide, h_seats, h_clk, h_noc]

theorem rdataSeat_hide (s : State) (i g w : Nat) (d : Deliv) (h_seats : Part.seats ∈ ps) (h_str : Part.str ∈ ps) (h_clk : Part.clk ∈ ps) (h_noc : Part.noc ∈ ps) :
    (rdataSeat s i g w d).hide ps = s.hide ps := by
  unfold rdataSeat
  (try dsimp only)
  (repeat' split) <;> simp only [↓hide_ite, ite_self, modSeat_hide, countSeat_hide, staleSeat_hide, modArrive_hide, dropPkt_hide, rdataOver_hide, h_seats, h_str, h_clk, h_noc]

theorem nackSeat_hide (s : State) (i w : Nat) (d : Deliv) (h_seats : Part.seats ∈ ps) (h_clk : Part.clk ∈ ps) (h_flt : Part.flt ∈ ps) (h_noc : Part.noc ∈ ps) :
    (nackSeat s i w d).hide ps = s.hide ps := by
  unfold nackSeat
  (try dsimp only)
  (repeat' split) <;> simp only [↓hide_ite, ite_self, report_hide, seatRaise_hide, takeArrive_hide, settleOut_hide, h_seats, h_clk, h_flt, h_noc]

theorem dropFinishes_hide (s : State) (hf : Nat) (e : BitVec 16) (h_str : Part.str ∈ ps) (h_pools : Part.pools ∈ ps) :
    (dropFinishes s hf e).hide ps = s.hide ps := by
  unfold dropFinishes
  simp only [↓hide_str, ↓hide_ite, ite_self, modPool_hide, h_str, h_pools]

theorem releaseCrew_hide (s : State) (q : Nat) (h_seats : Part.seats ∈ ps) (h_str : Part.str ∈ ps) :
    (releaseCrew s q).hide ps = s.hide ps := by
  unfold releaseCrew
  simp only [↓hide_foldl, implies_true, ↓hide_ite, ite_self, modHeat_hide, releasePages_hide, h_seats, h_str]

theorem weakReport_hide (s : State) (w f tag : Nat) (h_flt : Part.flt ∈ ps) :
    (weakReport s w f tag).hide ps = s.hide ps := by
  unfold weakReport
  (try dsimp only)
  (repeat' split) <;> simp only [↓hide_ite, ite_self, report_hide, h_flt]

theorem scrubEnd_hide (s : State) (w f : Nat) (h_seats : Part.seats ∈ ps) (h_flt : Part.flt ∈ ps) :
    (scrubEnd s w f).hide ps = s.hide ps := by
  unfold scrubEnd
  simp only [↓hide_ite, ite_self, modWst_hide, weakReport_hide, h_seats, h_flt]

theorem diagRead_hide (s : State) (w g : Nat) (h_seats : Part.seats ∈ ps) (h_free : Part.free ∈ ps) :
    (diagRead s w g).hide ps = s.hide ps := by
  unfold diagRead
  simp only [↓hide_ite, ite_self, modWst_hide, drawn_hide, h_seats, h_free]

theorem execWstDiagGo_leaves (w : SeatIx) (val : Word) (s : State) (h_seats : Part.seats ∈ ps) :
    Leaves ps s (execWstDiagGo w val s) := by
  unfold execWstDiagGo
  all_goals try dsimp only
  all_goals (repeat' split) <;> (first | (simp only [leaves_next, leaves_ite, ↓hide_ite, ite_self, modWst_hide, h_seats]; done) | (simp [leaves_next, leaves_ite, ↓hide_ite, ite_self, modWst_hide, h_seats]; done))

theorem setRail_hide (s : State) (h v : Nat) (h_pwr : Part.pwr ∈ ps) :
    (setRail s h v).hide ps = s.hide ps := by
  unfold setRail
  simp only [↓hide_pwr, ↓hide_ite, ite_self, h_pwr]

theorem lowerRail_hide (s : State) (h : Nat) (h_pwr : Part.pwr ∈ ps) :
    (lowerRail s h).hide ps = s.hide ps := by
  unfold lowerRail
  simp only [↓hide_ite, ite_self, setRail_hide, h_pwr]

theorem lowerRails_hide (s : State) (h_pwr : Part.pwr ∈ ps) :
    (lowerRails s).hide ps = s.hide ps := by
  unfold lowerRails
  simp only [↓hide_ite, ite_self, lowerRail_hide, h_pwr]

theorem beginStop_hide (s : State) (d t : Nat) (h_clk : Part.clk ∈ ps) (h_noc : Part.noc ∈ ps) (h_free : Part.free ∈ ps) :
    (beginStop s d t).hide ps = s.hide ps := by
  unfold beginStop
  simp only [↓hide_ite, ite_self, modDom_hide, crossingMoves_hide, h_clk, h_noc, h_free]

theorem refuseLoad_hide (s : State) (h_clk : Part.clk ∈ ps) :
    (refuseLoad s).hide ps = s.hide ps := by
  unfold refuseLoad
  simp only [↓hide_clk, ↓hide_ite, ite_self, h_clk]

theorem execClkTimeLoad_leaves (val : Word) (s : State) (h_clk : Part.clk ∈ ps) :
    Leaves ps s (execClkTimeLoad val s) := by
  unfold execClkTimeLoad
  all_goals try dsimp only
  all_goals (repeat' split) <;> (first | (simp only [leaves_next, leaves_ite, ↓hide_clk, ↓hide_ite, ite_self, refuseLoad_hide, h_clk]; done) | (simp [leaves_next, leaves_ite, ↓hide_clk, ↓hide_ite, ite_self, refuseLoad_hide, h_clk]; done))

theorem takeLoad_hide (s : State) (h_clk : Part.clk ∈ ps) :
    (takeLoad s).hide ps = s.hide ps := by
  unfold takeLoad
  (try dsimp only)
  (repeat' split) <;> simp only [↓hide_clk, ↓hide_ite, ite_self, refuseLoad_hide, h_clk]

theorem syncDomain_hide (s : State) (d : Nat) (h_clk : Part.clk ∈ ps) :
    (syncDomain s d).hide ps = s.hide ps := by
  unfold syncDomain
  simp only [↓hide_ite, ite_self, modDom_hide, h_clk]

theorem tick_hide (s : State) (h_clk : Part.clk ∈ ps) (h_free : Part.free ∈ ps) :
    (tick s).hide ps = s.hide ps := by
  unfold tick
  simp only [↓hide_clk, ↓hide_ite, ite_self, drawn_hide, h_clk, h_free]

theorem retarget_hide (s : State) (q : Nat) (h_clk : Part.clk ∈ ps) :
    (retarget s q).hide ps = s.hide ps := by
  unfold retarget
  simp only [↓hide_ite, ite_self, modDom_hide, h_clk]

theorem clamp_hide (s : State) (q : Nat) (t : Int) (h_clk : Part.clk ∈ ps) (h_pwr : Part.pwr ∈ ps) (h_flt : Part.flt ∈ ps) :
    (clamp s q t).hide ps = s.hide ps := by
  unfold clamp
  simp only [↓hide_pwr, ↓hide_ite, ite_self, modDom_hide, report_hide, retarget_hide, h_clk, h_pwr, h_flt]

theorem enterPaddle_hide (s : State) (q : Nat) (h_clk : Part.clk ∈ ps) :
    (enterPaddle s q).hide ps = s.hide ps := by
  unfold enterPaddle
  simp only [↓hide_ite, ite_self, modDom_hide, h_clk]

theorem stopHalf_hide (s : State) (h : Nat) (h_clk : Part.clk ∈ ps) :
    (stopHalf s h).hide ps = s.hide ps := by
  unfold stopHalf
  simp only [↓hide_foldl, implies_true, ↓hide_ite, ite_self, modDom_hide, stopDomain_hide, h_clk]

theorem setHalf_hide (s : State) (h n : Nat) (h_pwr : Part.pwr ∈ ps) :
    (setHalf s h n).hide ps = s.hide ps := by
  unfold setHalf
  simp only [↓hide_pwr, ↓hide_ite, ite_self, h_pwr]

theorem enterEasy_hide (s : State) (h : Nat) (h_clk : Part.clk ∈ ps) (h_pwr : Part.pwr ∈ ps) :
    (enterEasy s h).hide ps = s.hide ps := by
  unfold enterEasy
  simp only [↓hide_ite, ite_self, stopHalf_hide, setHalf_hide, h_clk, h_pwr]

theorem losePower_hide (s : State) (h : Nat) (h_ctxs : Part.ctxs ∈ ps) :
    (losePower s h).hide ps = s.hide ps := by
  unfold losePower
  simp only [↓hide_ctxs, ↓hide_ite, ite_self, h_ctxs]

theorem enterBoated_hide (s : State) (h : Nat) (h_seats : Part.seats ∈ ps) (h_str : Part.str ∈ ps) (h_ctxs : Part.ctxs ∈ ps) (h_clk : Part.clk ∈ ps) (h_pwr : Part.pwr ∈ ps) (h_pools : Part.pools ∈ ps) :
    (enterBoated s h).hide ps = s.hide ps := by
  unfold enterBoated
  simp only [↓hide_str, ↓hide_seats, ↓hide_pools, ↓hide_seats_str_pools, ↓hide_seats_pools, ↓hide_ite, ite_self, stopHalf_hide, setHalf_hide, losePower_hide, h_seats, h_str, h_ctxs, h_clk, h_pwr, h_pools]

theorem enterChipBoated_hide (s : State) (h_clk : Part.clk ∈ ps) (h_pwr : Part.pwr ∈ ps) (h_flt : Part.flt ∈ ps) (h_noc : Part.noc ∈ ps) (h_fab : Part.fab ∈ ps) :
    (enterChipBoated s).hide ps = s.hide ps := by
  unfold enterChipBoated
  simp only [↓hide_foldl, implies_true, ↓hide_pwr, ↓hide_ite, ite_self, stopDomain_hide, portOff_hide, h_clk, h_pwr, h_flt, h_noc, h_fab]

theorem settleReqs_hide (s : State) (h_cq : Part.cq ∈ ps) (h_pwr : Part.pwr ∈ ps) :
    (settleReqs s).hide ps = s.hide ps := by
  unfold settleReqs
  simp only [↓hide_foldl, implies_true, ↓hide_pwr, ↓hide_ite, ite_self, answerLate_hide, h_cq, h_pwr]

theorem wakeFor_hide (s : State) (q n : Nat) (h_clk : Part.clk ∈ ps) (h_pwr : Part.pwr ∈ ps) :
    (wakeFor s q n).hide ps = s.hide ps := by
  unfold wakeFor
  simp only [↓hide_pwr, ↓hide_ite, ite_self, modDom_hide, h_clk, h_pwr]

theorem enterMember_hide (r : PwrReq) (s : State) (m : Nat) (h_seats : Part.seats ∈ ps) (h_str : Part.str ∈ ps) (h_ctxs : Part.ctxs ∈ ps) (h_clk : Part.clk ∈ ps) (h_pwr : Part.pwr ∈ ps) (h_pools : Part.pools ∈ ps) :
    (enterMember r s m).hide ps = s.hide ps := by
  unfold enterMember
  simp only [↓hide_ite, ite_self, enterPaddle_hide, enterEasy_hide, enterBoated_hide, h_seats, h_str, h_ctxs, h_clk, h_pwr, h_pools]

theorem enterChip_hide (r : PwrReq) (s : State) (h_clk : Part.clk ∈ ps) (h_pwr : Part.pwr ∈ ps) (h_flt : Part.flt ∈ ps) (h_noc : Part.noc ∈ ps) (h_fab : Part.fab ∈ ps) :
    (enterChip r s).hide ps = s.hide ps := by
  unfold enterChip
  simp only [↓hide_ite, ite_self, enterChipBoated_hide, h_clk, h_pwr, h_flt, h_noc, h_fab]

theorem startDomain_hide (s : State) (d : Nat) (h_clk : Part.clk ∈ ps) :
    (startDomain s d).hide ps = s.hide ps := by
  unfold startDomain
  simp only [↓hide_ite, ite_self, modDom_hide, h_clk]

theorem startHalf_hide (s : State) (h : Nat) (h_clk : Part.clk ∈ ps) :
    (startHalf s h).hide ps = s.hide ps := by
  unfold startHalf
  simp only [↓hide_foldl, implies_true, ↓hide_ite, ite_self, startDomain_hide, h_clk]

theorem leaveEasy_hide (s : State) (h : Nat) (h_seats : Part.seats ∈ ps) (h_str : Part.str ∈ ps) (h_clk : Part.clk ∈ ps) (h_pwr : Part.pwr ∈ ps) (h_glb : Part.glb ∈ ps) (h_noc : Part.noc ∈ ps) (h_pools : Part.pools ∈ ps) :
    (leaveEasy s h).hide ps = s.hide ps := by
  unfold leaveEasy
  simp only [↓hide_foldl, implies_true, ↓hide_seats, ↓hide_ite, ite_self, modPool_hide, bar2Pool_hide, setHalf_hide, startHalf_hide, h_seats, h_str, h_clk, h_pwr, h_glb, h_noc, h_pools]

theorem leaveBoated_hide (s : State) (h : Nat) (h_seats : Part.seats ∈ ps) (h_ctxs : Part.ctxs ∈ ps) (h_clk : Part.clk ∈ ps) (h_pwr : Part.pwr ∈ ps) (h_fab : Part.fab ∈ ps) :
    (leaveBoated s h).hide ps = s.hide ps := by
  unfold leaveBoated
  simp only [↓hide_foldl, implies_true, ↓hide_seats, ↓hide_pwr, ↓hide_ctxs, ↓hide_seats_ctxs, ↓hide_ctxs_pwr_seats, ↓hide_ite, ite_self, modPort_hide, setHalf_hide, losePower_hide, startDomain_hide, startHalf_hide, h_seats, h_ctxs, h_clk, h_pwr, h_fab]

theorem setRole_hide (s : State) (role : BitVec 2) (up : BitVec 4) (h_clk : Part.clk ∈ ps) (h_fab : Part.fab ∈ ps) :
    (setRole s role up).hide ps = s.hide ps := by
  unfold setRole
  simp only [↓hide_fab, ↓hide_clk, ↓hide_clk_fab, ↓hide_ite, ite_self, h_clk, h_fab]

theorem chargeHeat_hide (s : State) (r : Record) (n : Word) (h_str : Part.str ∈ ps) :
    (chargeHeat s r n).hide ps = s.hide ps := by
  unfold chargeHeat
  simp only [↓hide_ite, ite_self, modHeat_hide, h_str]

theorem fillHold_hide (s : State) (r : Record) (n : Word) (h_flt : Part.flt ∈ ps) :
    (fillHold s r n).hide ps = s.hide ps := by
  unfold fillHold
  simp only [↓hide_flt, ↓hide_ite, ite_self, h_flt]

theorem numberSeat_hide (s : State) (r : Record) (n : Word) (h_seats : Part.seats ∈ ps) :
    (numberSeat s r n).hide ps = s.hide ps := by
  unfold numberSeat
  simp only [↓hide_ite, ite_self, modSeat_hide, h_seats]

theorem acceptRecord_hide (s : State) (r : Record) (h_seats : Part.seats ∈ ps) (h_str : Part.str ∈ ps) (h_cq : Part.cq ∈ ps) (h_flt : Part.flt ∈ ps) (h_glb : Part.glb ∈ ps) (h_pins : Part.pins ∈ ps) :
    (acceptRecord s r).hide ps = s.hide ps := by
  unfold acceptRecord
  simp only [↓hide_flt, ↓hide_ite, ite_self, raiseEvent_hide, chargeHeat_hide, fillHold_hide, numberSeat_hide, h_seats, h_str, h_cq, h_flt, h_glb, h_pins]

theorem execAckSeqWrite_leaves (val : Word) (s : State) (h_flt : Part.flt ∈ ps) :
    Leaves ps s (execAckSeqWrite val s) := by
  unfold execAckSeqWrite
  all_goals try dsimp only
  all_goals (repeat' split) <;> (first | (simp only [leaves_next, leaves_ite, ↓hide_flt, ↓hide_ite, ite_self, h_flt]; done) | (simp [leaves_next, leaves_ite, ↓hide_flt, ↓hide_ite, ite_self, h_flt]; done))

theorem writeBuffer_hide (s : State) (src a : Nat) (bs : List Byte) (h_cq : Part.cq ∈ ps) (h_hostMem : Part.hostMem ∈ ps) :
    (writeBuffer s src a bs).hide ps = s.hide ps := by
  unfold writeBuffer
  simp only [↓hide_hostMem, ↓hide_cq, ↓hide_cq_hostMem, ↓hide_ite, ite_self, h_cq, h_hostMem]

theorem fenceOne_hide (s : State) (w : Nat) (h_seats : Part.seats ∈ ps) (h_str : Part.str ∈ ps) (h_ctxs : Part.ctxs ∈ ps) (h_cq : Part.cq ∈ ps) (h_clk : Part.clk ∈ ps) (h_flt : Part.flt ∈ ps) (h_noc : Part.noc ∈ ps) (h_pools : Part.pools ∈ ps) :
    (fenceOne s w).hide ps = s.hide ps := by
  unfold fenceOne
  (try dsimp only)
  (repeat' split) <;> simp only [↓hide_ite, ite_self, modMap_hide, report_hide, abortHeat_hide, h_seats, h_str, h_ctxs, h_cq, h_clk, h_flt, h_noc, h_pools]

theorem recordFence_hide (s : State) (w cause : Nat) (h_sec : Part.sec ∈ ps) (h_free : Part.free ∈ ps) :
    (recordFence s w cause).hide ps = s.hide ps := by
  unfold recordFence
  simp only [↓hide_sec, ↓hide_ite, ite_self, drawn_hide, h_sec, h_free]

theorem markContext_hide (s : State) (c : Nat) (h_flt : Part.flt ∈ ps) :
    (markContext s c).hide ps = s.hide ps := by
  unfold markContext
  simp only [↓hide_flt, ↓hide_ite, ite_self, h_flt]

theorem releaseHolds_hide (s : State) (n : Word) (h_flt : Part.flt ∈ ps) :
    (releaseHolds s n).hide ps = s.hide ps := by
  unfold releaseHolds
  simp only [↓hide_foldl, implies_true, ↓hide_flt, ↓hide_ite, ite_self, markContext_hide, h_flt]

theorem flagFenced_hide (s : State) (r : Record) (h_flt : Part.flt ∈ ps) :
    (flagFenced s r).hide ps = s.hide ps := by
  unfold flagFenced
  simp only [↓hide_flt, ↓hide_ite, ite_self, h_flt]

theorem actOn_hide (s : State) (r : Record) (h_seats : Part.seats ∈ ps) (h_str : Part.str ∈ ps) (h_ctxs : Part.ctxs ∈ ps) (h_cq : Part.cq ∈ ps) (h_clk : Part.clk ∈ ps) (h_flt : Part.flt ∈ ps) (h_sec : Part.sec ∈ ps) (h_noc : Part.noc ∈ ps) (h_pools : Part.pools ∈ ps) (h_free : Part.free ∈ ps) :
    (actOn s r).hide ps = s.hide ps := by
  unfold actOn
  simp only [↓hide_ite, ite_self, modDom_hide, fenceOne_hide, recordFence_hide, markContext_hide, flagFenced_hide, h_seats, h_str, h_ctxs, h_cq, h_clk, h_flt, h_sec, h_noc, h_pools, h_free]

theorem clearHalt_hide (s : State) (h_flt : Part.flt ∈ ps) (h_glb : Part.glb ∈ ps) (h_chain : Part.chain ∈ ps) (h_pins : Part.pins ∈ ps) :
    (clearHalt s).hide ps = s.hide ps := by
  unfold clearHalt
  simp only [↓hide_glb, ↓hide_chain, ↓hide_pins, ↓hide_flt, ↓hide_flt_pins, ↓hide_flt_glb_chain_pins, ↓hide_flt_glb, ↓hide_glb_pins, ↓hide_ite, ite_self, h_flt, h_glb, h_chain, h_pins]

theorem sendEnum_hide (s : State) (v : Nat) (h_chain : Part.chain ∈ ps) :
    (sendEnum s v).hide ps = s.hide ps := by
  unfold sendEnum
  simp only [↓hide_chain, ↓hide_ite, ite_self, h_chain]

theorem enterTraining_hide (s : State) (h_glb : Part.glb ∈ ps) (h_fab : Part.fab ∈ ps) :
    (enterTraining s).hide ps = s.hide ps := by
  unfold enterTraining
  simp only [↓hide_foldl, implies_true, ↓hide_glb, ↓hide_ite, ite_self, modPort_hide, h_glb, h_fab]

theorem takeNode_hide (s : State) (v : Nat) (h_glb : Part.glb ∈ ps) (h_fab : Part.fab ∈ ps) (h_chain : Part.chain ∈ ps) :
    (takeNode s v).hide ps = s.hide ps := by
  unfold takeNode
  simp only [↓hide_chain, ↓hide_ite, ite_self, enterTraining_hide, h_glb, h_fab, h_chain]

theorem meetEnum_hide (s : State) (v : Nat) (h_flt : Part.flt ∈ ps) (h_chain : Part.chain ∈ ps) :
    (meetEnum s v).hide ps = s.hide ps := by
  unfold meetEnum
  simp only [↓hide_chain, ↓hide_ite, ite_self, report_hide, sendEnum_hide, h_flt, h_chain]

theorem onEnum_hide (s : State) (v : Nat) (h_flt : Part.flt ∈ ps) (h_glb : Part.glb ∈ ps) (h_fab : Part.fab ∈ ps) (h_chain : Part.chain ∈ ps) :
    (onEnum s v).hide ps = s.hide ps := by
  unfold onEnum
  simp only [↓hide_chain, ↓hide_ite, ite_self, sendEnum_hide, takeNode_hide, meetEnum_hide, h_flt, h_glb, h_fab, h_chain]

theorem resetPart_hide (s : State) (h_seats : Part.seats ∈ ps) (h_str : Part.str ∈ ps) (h_ctxs : Part.ctxs ∈ ps) (h_cq : Part.cq ∈ ps)
    (h_clk : Part.clk ∈ ps) (h_pwr : Part.pwr ∈ ps) (h_flt : Part.flt ∈ ps) (h_glb : Part.glb ∈ ps) (h_sec : Part.sec ∈ ps)
    (h_noc : Part.noc ∈ ps) (h_pools : Part.pools ∈ ps) (h_fab : Part.fab ∈ ps) (h_chain : Part.chain ∈ ps) (h_pins : Part.pins ∈ ps)
    (h_free : Part.free ∈ ps) : (resetPart s).hide ps = s.hide ps := by
  simp [resetPart, State.hide, h_seats, h_str, h_ctxs, h_cq, h_clk, h_pwr, h_flt, h_glb, h_sec, h_noc, h_pools, h_fab, h_chain, h_pins, h_free]

theorem releaseNow_hide (s : State) (h_clk : Part.clk ∈ ps) (h_flt : Part.flt ∈ ps) (h_glb : Part.glb ∈ ps) (h_sec : Part.sec ∈ ps) (h_chain : Part.chain ∈ ps) (h_pins : Part.pins ∈ ps) (h_free : Part.free ∈ ps) :
    (releaseNow s).hide ps = s.hide ps := by
  unfold releaseNow
  simp only [↓hide_foldl, implies_true, ↓hide_glb, ↓hide_chain, ↓hide_pins, ↓hide_free, ↓hide_glb_chain_pins_free, ↓hide_glb_pins, ↓hide_ite, ite_self, modDom_hide, romBoot_hide, h_clk, h_flt, h_glb, h_sec, h_chain, h_pins, h_free]

theorem tryRelease_hide (s : State) (h_clk : Part.clk ∈ ps) (h_flt : Part.flt ∈ ps) (h_glb : Part.glb ∈ ps) (h_sec : Part.sec ∈ ps) (h_chain : Part.chain ∈ ps) (h_pins : Part.pins ∈ ps) (h_free : Part.free ∈ ps) :
    (tryRelease s).hide ps = s.hide ps := by
  unfold tryRelease
  simp only [↓hide_ite, ite_self, releaseNow_hide, h_clk, h_flt, h_glb, h_sec, h_chain, h_pins, h_free]

theorem powerLost_hide (s : State) (g : Nat) (h_seats : Part.seats ∈ ps) (h_str : Part.str ∈ ps) (h_ctxs : Part.ctxs ∈ ps) (h_cq : Part.cq ∈ ps) (h_clk : Part.clk ∈ ps) (h_pwr : Part.pwr ∈ ps) (h_flt : Part.flt ∈ ps) (h_glb : Part.glb ∈ ps) (h_sec : Part.sec ∈ ps) (h_noc : Part.noc ∈ ps) (h_pools : Part.pools ∈ ps) (h_fab : Part.fab ∈ ps) (h_chain : Part.chain ∈ ps) (h_pins : Part.pins ∈ ps) (h_free : Part.free ∈ ps) :
    (powerLost s g).hide ps = s.hide ps := by
  unfold powerLost
  simp only [↓hide_pins, ↓hide_ite, ite_self, resetPart_hide, h_seats, h_str, h_ctxs, h_cq, h_clk, h_pwr, h_flt, h_glb, h_sec, h_noc, h_pools, h_fab, h_chain, h_pins, h_free]

theorem startupFails_hide (s : State) (h_seats : Part.seats ∈ ps) (h_str : Part.str ∈ ps) (h_ctxs : Part.ctxs ∈ ps) (h_cq : Part.cq ∈ ps) (h_clk : Part.clk ∈ ps) (h_flt : Part.flt ∈ ps) (h_glb : Part.glb ∈ ps) (h_sec : Part.sec ∈ ps) (h_pools : Part.pools ∈ ps) (h_pins : Part.pins ∈ ps) :
    (startupFails s).hide ps = s.hide ps := by
  unfold startupFails
  simp only [↓hide_glb, ↓hide_ite, ite_self, becomeReady_hide, h_seats, h_str, h_ctxs, h_cq, h_clk, h_flt, h_glb, h_sec, h_pools, h_pins]

theorem toStage_hide (s : State) (n : Nat) (h_glb : Part.glb ∈ ps) :
    (toStage s n).hide ps = s.hide ps := by
  unfold toStage
  simp only [↓hide_glb, ↓hide_ite, ite_self, h_glb]

theorem lockDomain_hide (i : Nat) (s : State) (d : Nat) (h_clk : Part.clk ∈ ps) :
    (lockDomain i s d).hide ps = s.hide ps := by
  unfold lockDomain
  simp only [↓hide_ite, ite_self, modDom_hide, h_clk]

theorem markFailed_hide (s : State) (bad : List Nat) (h_seats : Part.seats ∈ ps) :
    (markFailed s bad).hide ps = s.hide ps := by
  unfold markFailed
  simp only [↓hide_foldl, implies_true, ↓hide_ite, ite_self, modSeat_hide, h_seats]

theorem segmentDead_hide (s : State) (h g : Nat) (h_pools : Part.pools ∈ ps) :
    (segmentDead s h g).hide ps = s.hide ps := by
  unfold segmentDead
  simp only [↓hide_ite, ite_self, modPool_hide, h_pools]

theorem disableSeats_hide (s : State) (keep : Nat → List Nat) (h_seats : Part.seats ∈ ps) :
    (disableSeats s keep).hide ps = s.hide ps := by
  unfold disableSeats
  simp only [↓hide_foldl, implies_true, ↓hide_ite, ite_self, modSeat_hide, h_seats]

theorem applyFence_hide (s : State) (e : FenceEnt) (h_noc : Part.noc ∈ ps) :
    (applyFence s e).hide ps = s.hide ps := by
  unfold applyFence
  simp only [↓hide_ite, ite_self, modMap_hide, h_noc]

theorem applyFences_hide (s : State) (h_flt : Part.flt ∈ ps) (h_noc : Part.noc ∈ ps) :
    (applyFences s).hide ps = s.hide ps := by
  unfold applyFences
  simp only [↓hide_foldl, implies_true, ↓hide_ite, ite_self, report_hide, applyFence_hide, h_flt, h_noc]

theorem fenceFailed_hide (s : State) (w : Nat) (h_seats : Part.seats ∈ ps) (h_str : Part.str ∈ ps) (h_ctxs : Part.ctxs ∈ ps) (h_cq : Part.cq ∈ ps) (h_clk : Part.clk ∈ ps) (h_flt : Part.flt ∈ ps) (h_sec : Part.sec ∈ ps) (h_noc : Part.noc ∈ ps) (h_pools : Part.pools ∈ ps) (h_free : Part.free ∈ ps) :
    (fenceFailed s w).hide ps = s.hide ps := by
  unfold fenceFailed
  simp only [↓hide_ite, ite_self, report_hide, fenceOne_hide, recordFence_hide, h_seats, h_str, h_ctxs, h_cq, h_clk, h_flt, h_sec, h_noc, h_pools, h_free]

theorem writeMap_hide (s : State) (h_noc : Part.noc ∈ ps) :
    (writeMap s).hide ps = s.hide ps := by
  unfold writeMap
  simp only [↓hide_foldl, implies_true, ↓hide_ite, ite_self, modMap_hide, h_noc]

theorem applyGrade_hide (s : State) (h_seats : Part.seats ∈ ps) (h_str : Part.str ∈ ps) (h_ctxs : Part.ctxs ∈ ps) (h_cq : Part.cq ∈ ps) (h_clk : Part.clk ∈ ps) (h_flt : Part.flt ∈ ps) (h_glb : Part.glb ∈ ps) (h_sec : Part.sec ∈ ps) (h_noc : Part.noc ∈ ps) (h_pools : Part.pools ∈ ps) (h_free : Part.free ∈ ps) :
    (applyGrade s).hide ps = s.hide ps := by
  unfold applyGrade
  simp only [↓hide_foldl, implies_true, ↓hide_glb, ↓hide_ite, ite_self, disableSeats_hide, applyFences_hide, fenceFailed_hide, writeMap_hide, h_seats, h_str, h_ctxs, h_cq, h_clk, h_flt, h_glb, h_sec, h_noc, h_pools, h_free]

theorem unbind_hide (s : State) (k : Nat) (h_str : Part.str ∈ ps) :
    (unbind s k).hide ps = s.hide ps := by
  unfold unbind
  simp only [↓hide_str, ↓hide_ite, ite_self, h_str]

theorem evictCtx_hide (s : State) (k : Nat) (h_seats : Part.seats ∈ ps) (h_str : Part.str ∈ ps) (h_ctxs : Part.ctxs ∈ ps) (h_flt : Part.flt ∈ ps) :
    (evictCtx s k).hide ps = s.hide ps := by
  unfold evictCtx
  simp only [↓hide_flt, ↓hide_ite, ite_self, modCtx_hide, releaseGen_hide, unbind_hide, h_seats, h_str, h_ctxs, h_flt]

theorem dropLoad_hide (s : State) (h_ctxs : Part.ctxs ∈ ps) :
    (dropLoad s).hide ps = s.hide ps := by
  unfold dropLoad
  simp only [↓hide_ctxs, ↓hide_ite, ite_self, h_ctxs]

theorem loadAnswer_hide (turn : Bool) (s : State) (src c status result : Nat) (h_ctxs : Part.ctxs ∈ ps) (h_cq : Part.cq ∈ ps) :
    (loadAnswer turn s src c status result).hide ps = s.hide ps := by
  unfold loadAnswer
  simp only [↓hide_ite, ite_self, answer_hide, answerLate_hide, dropLoad_hide, h_ctxs, h_cq]

theorem refuseLoadCommand_hide (turn : Bool) (s : State) (src c k status result : Nat) (h_ctxs : Part.ctxs ∈ ps) (h_cq : Part.cq ∈ ps) (h_flt : Part.flt ∈ ps) :
    (refuseLoadCommand turn s src c k status result).hide ps = s.hide ps := by
  unfold refuseLoadCommand
  simp only [↓hide_ite, ite_self, report_hide, loadAnswer_hide, h_ctxs, h_cq, h_flt]

theorem runJob_hide (turn : Bool) (s : State) (src : Nat) (j : LoadJob) (h_ctxs : Part.ctxs ∈ ps) (h_cq : Part.cq ∈ ps) :
    (runJob turn s src j).hide ps = s.hide ps := by
  unfold runJob
  simp only [↓hide_ctxs, ↓hide_ite, ite_self, goBackground_hide, h_ctxs, h_cq]

theorem queueLoad_hide (s : State) (src c : Nat) (repair : Bool) (h_ctxs : Part.ctxs ∈ ps) (h_cq : Part.cq ∈ ps) :
    (queueLoad s src c repair).hide ps = s.hide ps := by
  unfold queueLoad
  simp only [↓hide_ctxs, ↓hide_ite, ite_self, goBackground_hide, h_ctxs, h_cq]

theorem startLoad_hide (turn : Bool) (s : State) (src c k : Nat) (m : Mem) (need : List (Nat × List Nat)) (mask : Nat) (key : BitVec 256) (h_ctxs : Part.ctxs ∈ ps) (h_cq : Part.cq ∈ ps) :
    (startLoad turn s src c k m need mask key).hide ps = s.hide ps := by
  unfold startLoad
  simp only [↓hide_ite, ite_self, modCtx_hide, runJob_hide, h_ctxs, h_cq]

theorem evictFor_hide (s : State) (need : List (Nat × List Nat)) (cs : List Nat) (h_seats : Part.seats ∈ ps)
    (h_str : Part.str ∈ ps) (h_ctxs : Part.ctxs ∈ ps) (h_flt : Part.flt ∈ ps) : (evictFor s need cs).1.hide ps = s.hide ps := by
  induction cs generalizing s with
  | nil => rfl
  | cons c cs ih =>
    unfold evictFor
    dsimp only
    (repeat' split) <;> simp only [ih, evictCtx_hide, h_seats, h_str, h_ctxs, h_flt]

theorem makeRoom_hide (s : State) (k : Nat) (need : List (Nat × List Nat)) (may : Bool) (r : State × Nat) (h_seats : Part.seats ∈ ps)
    (h_str : Part.str ∈ ps) (h_ctxs : Part.ctxs ∈ ps) (h_flt : Part.flt ∈ ps) (hr : makeRoom s k need may = some r) : r.1.hide ps = s.hide ps := by
  unfold makeRoom at hr
  dsimp only at hr
  (repeat' split at hr) <;> simp only [Option.some.injEq, reduceCtorEq] at hr <;> subst hr <;> simp only [evictFor_hide, h_seats, h_str, h_ctxs, h_flt]

theorem checkLoad_hide (turn : Bool) (s : State) (src c k : Nat) (m : Mem) (h_seats : Part.seats ∈ ps) (h_str : Part.str ∈ ps)
    (h_ctxs : Part.ctxs ∈ ps) (h_cq : Part.cq ∈ ps) (h_flt : Part.flt ∈ ps) : (checkLoad turn s src c k m).hide ps = s.hide ps := by
  unfold checkLoad
  dsimp only
  (repeat' split) <;> simp only [loadAnswer_hide, refuseLoadCommand_hide, startLoad_hide, h_seats, h_str, h_ctxs, h_cq, h_flt] <;>
    exact makeRoom_hide _ _ _ _ _ h_seats h_str h_ctxs h_flt ‹_›

theorem checkRepair_hide (turn : Bool) (s : State) (src c k : Nat) (g : Gen) (m : Mem) (h_ctxs : Part.ctxs ∈ ps) (h_cq : Part.cq ∈ ps) (h_flt : Part.flt ∈ ps) :
    (checkRepair turn s src c k g m).hide ps = s.hide ps := by
  unfold checkRepair
  (try dsimp only)
  (repeat' split) <;> simp only [↓hide_ite, ite_self, loadAnswer_hide, refuseLoadCommand_hide, runJob_hide, h_ctxs, h_cq, h_flt]

theorem storeTile_hide (s : State) (w f : Nat) (t : Mem) (h_seats : Part.seats ∈ ps) :
    (storeTile s w f t).hide ps = s.hide ps := by
  unfold storeTile
  simp only [↓hide_ite, ite_self, modWst_hide, h_seats]

theorem modLoad_hide (s : State) (f : LoadJob → LoadJob) (h_ctxs : Part.ctxs ∈ ps) :
    (modLoad s f).hide ps = s.hide ps := by
  unfold modLoad
  simp only [↓hide_ctxs, ↓hide_ite, ite_self, h_ctxs]

theorem walkRecords_hide (g : Gen) (k : Nat) (m : Mem) (len n i : Nat) (s : State) (ts : List (Nat × Nat)) (h_seats : Part.seats ∈ ps) :
    (walkRecords g k m len n i s ts).1.hide ps = s.hide ps := by
  induction n generalizing i s ts with
  | zero => rfl
  | succ n ih =>
    unfold walkRecords
    dsimp only
    (repeat' split) <;> simp only [ih, storeTile_hide, h_seats]

theorem segPassed_hide (s : State) (j : LoadJob) (g : Gen) (i : Nat) (plain : List Byte) (h_seats : Part.seats ∈ ps) (h_ctxs : Part.ctxs ∈ ps)
    (h_flt : Part.flt ∈ ps) : (segPassed s j g i plain).hide ps = s.hide ps := by
  unfold segPassed
  simp only [↓hide_ite, ite_self, modGenNum_hide, segmentFails_hide, modLoad_hide, walkRecords_hide, h_seats, h_ctxs, h_flt]

theorem loadSegment_hide (s : State) (j : LoadJob) (g : Gen) (i : Nat) (cipher : Option Mem) (h_seats : Part.seats ∈ ps) (h_ctxs : Part.ctxs ∈ ps) (h_flt : Part.flt ∈ ps) :
    (loadSegment s j g i cipher).hide ps = s.hide ps := by
  unfold loadSegment
  (try dsimp only)
  (repeat' split) <;> simp only [↓hide_foldl, implies_true, ↓hide_ite, ite_self, segmentFails_hide, modLoad_hide, segPassed_hide, h_seats, h_ctxs, h_flt]

theorem giveExtents_hide (s : State) (ts : List (Nat × Nat)) (h_seats : Part.seats ∈ ps) :
    (giveExtents s ts).hide ps = s.hide ps := by
  unfold giveExtents
  simp only [↓hide_foldl, implies_true, ↓hide_ite, ite_self, modWst_hide, h_seats]

theorem checkCount_hide (s : State) (j : LoadJob) (g : Gen) (h_ctxs : Part.ctxs ∈ ps) (h_flt : Part.flt ∈ ps) :
    (checkCount s j g).hide ps = s.hide ps := by
  unfold checkCount
  simp only [↓hide_foldl, implies_true, ↓hide_ite, ite_self, segmentFails_hide, h_ctxs, h_flt]

theorem settleLoad_hide (s : State) (j : LoadJob) (g : Gen) (h_ctxs : Part.ctxs ∈ ps) :
    (settleLoad s j g).hide ps = s.hide ps := by
  unfold settleLoad
  simp only [↓hide_ite, ite_self, modCtx_hide, modGenNum_hide, h_ctxs]

theorem finishLoad_hide (s : State) (j : LoadJob) (g : Gen) (h_seats : Part.seats ∈ ps) (h_ctxs : Part.ctxs ∈ ps) (h_cq : Part.cq ∈ ps) (h_flt : Part.flt ∈ ps) :
    (finishLoad s j g).hide ps = s.hide ps := by
  unfold finishLoad
  simp only [↓hide_ite, ite_self, answerLate_hide, dropLoad_hide, giveExtents_hide, checkCount_hide, settleLoad_hide, h_seats, h_ctxs, h_cq, h_flt]

theorem settleUnlock_hide (s : State) (h_flt : Part.flt ∈ ps) (h_sec : Part.sec ∈ ps) :
    (settleUnlock s).hide ps = s.hide ps := by
  unfold settleUnlock
  (try dsimp only)
  (repeat' split) <;> simp only [↓hide_sec, ↓hide_ite, ite_self, report_hide, h_flt, h_sec]

theorem fillDone_hide (s : State) (k : Nat) (h_ctxs : Part.ctxs ∈ ps) :
    (fillDone s k).hide ps = s.hide ps := by
  unfold fillDone
  simp only [↓hide_ctxs, ↓hide_ite, ite_self, h_ctxs]

theorem putSlotImage_hide (s : State) (n : Fin 2) (m : Mem) (h_sec : Part.sec ∈ ps) :
    (putSlotImage s n m).hide ps = s.hide ps := by
  unfold putSlotImage
  simp only [↓hide_sec, ↓hide_ite, ite_self, h_sec]

theorem execRecoveryGo_leaves (val : Word) (s : State) (h_glb : Part.glb ∈ ps) :
    Leaves ps s (execRecoveryGo val s) := by
  unfold execRecoveryGo
  all_goals try dsimp only
  all_goals (repeat' split) <;> (first | (simp only [leaves_next, leaves_ite, ↓hide_glb, ↓hide_ite, ite_self, startFrom_hide, toStage2_hide, h_glb]; done) | (simp [leaves_next, leaves_ite, ↓hide_glb, ↓hide_ite, ite_self, startFrom_hide, toStage2_hide, h_glb]; done))

theorem outState_hide (s : State) (o : Outcome State Fault Refusal) (h : Leaves ps s o) : (outState s o).hide ps = s.hide ps := by
  cases o with
  | next t => exact h t rfl
  | fault _ => rfl
  | refused _ => rfl



theorem sqWrite_hide (s : State) (n o : Nat) (v : Word) (h_cq : Part.cq ∈ ps) :
    (sqWrite s n o v).hide ps = s.hide ps := by
  unfold sqWrite
  (try dsimp only)
  (repeat' split) <;> simp only [↓hide_ite, ite_self, modSq_hide, enableSq_hide, disableSq_hide, h_cq]

theorem cqrWrite_hide (s : State) (n o : Nat) (v : Word) (h_cq : Part.cq ∈ ps) :
    (cqrWrite s n o v).hide ps = s.hide ps := by
  unfold cqrWrite
  (try dsimp only)
  (repeat' split) <;> simp only [↓hide_ite, ite_self, modCqr_hide, enableCqr_hide, disableCqr_hide, h_cq]

theorem feedWrite_hide (s : State) (n o : Nat) (v : Word) (h_cq : Part.cq ∈ ps) :
    (feedWrite s n o v).hide ps = s.hide ps := by
  unfold feedWrite
  (try dsimp only)
  (repeat' split) <;> simp only [outState_hide, ↓hide_ite, ite_self, modFeed_hide, enableFeed_hide, disableFeed_hide, execFeedResume_leaves, h_cq]

theorem cqWrite_hide (s : State) (o : Nat) (v : Word) (h_cq : Part.cq ∈ ps) :
    (cqWrite s o v).hide ps = s.hide ps := by
  unfold cqWrite
  simp only [↓hide_ite, ite_self, sqWrite_hide, cqrWrite_hide, feedWrite_hide, h_cq]

theorem glbWrite_hide (s : State) (o : Nat) (v : Word) (h_glb : Part.glb ∈ ps) :
    (glbWrite s o v).hide ps = s.hide ps := by
  unfold glbWrite
  (try dsimp only)
  (repeat' split) <;> simp only [outState_hide, ↓hide_glb, ↓hide_ite, ite_self, execEventsClear_leaves, execRecoveryGo_leaves, h_glb]

theorem clkWrite_hide (s : State) (o : Nat) (v : Word) (h_clk : Part.clk ∈ ps) (h_pwr : Part.pwr ∈ ps) :
    (clkWrite s o v).hide ps = s.hide ps := by
  unfold clkWrite
  (try dsimp only)
  (repeat' split) <;> simp only [outState_hide, ↓hide_pwr, ↓hide_clk, ↓hide_clk_pwr, ↓hide_ite, ite_self, execClkTimeLoad_leaves, h_clk, h_pwr]

theorem portWrite_hide (s : State) (p : PortIx) (v : Word) (h_flt : Part.flt ∈ ps) (h_noc : Part.noc ∈ ps) (h_fab : Part.fab ∈ ps) :
    (portWrite s p v).hide ps = s.hide ps := by
  unfold portWrite
  simp only [outState_hide, ↓hide_ite, ite_self, execFabPortRetrain_leaves, execFabPortRetrainFull_leaves, execFabPortEnWrite_leaves, h_flt, h_noc, h_fab]

theorem fabWrite_hide (s : State) (o : Nat) (v : Word) (h_clk : Part.clk ∈ ps) (h_flt : Part.flt ∈ ps) (h_noc : Part.noc ∈ ps) (h_fab : Part.fab ∈ ps) :
    (fabWrite s o v).hide ps = s.hide ps := by
  unfold fabWrite
  simp only [↓hide_ite, ite_self, setRole_hide, portWrite_hide, h_clk, h_flt, h_noc, h_fab]

theorem wakeWindow_hide (s : State) (w : Nat) (h_clk : Part.clk ∈ ps) :
    (wakeWindow s w).hide ps = s.hide ps := by
  unfold wakeWindow
  simp only [↓hide_ite, ite_self, modDom_hide, h_clk]

theorem windowWrite_hide (s : State) (w o : Nat) (v : Word) (h_seats : Part.seats ∈ ps) :
    (windowWrite s w o v).hide ps = s.hide ps := by
  unfold windowWrite
  simp only [↓hide_ite, ite_self, modSeat_hide, modCox_hide, countRefusal_hide, h_seats]

theorem seatRegWrite_hide (s : State) (w o : Nat) (v : Word) (h_seats : Part.seats ∈ ps) :
    (seatRegWrite s w o v).hide ps = s.hide ps := by
  unfold seatRegWrite
  (try dsimp only)
  (repeat' split) <;> simp only [outState_hide, ↓hide_ite, ite_self, modSeat_hide, modWst_hide, windowWrite_hide, execWstDiagGo_leaves, h_seats]

theorem bar0Write_hide (s : State) (off : Nat) (v : Word) (h_seats : Part.seats ∈ ps) (h_cq : Part.cq ∈ ps) (h_clk : Part.clk ∈ ps) (h_pwr : Part.pwr ∈ ps) (h_flt : Part.flt ∈ ps) (h_glb : Part.glb ∈ ps) (h_noc : Part.noc ∈ ps) (h_fab : Part.fab ∈ ps) :
    (bar0Write s off v).hide ps = s.hide ps := by
  unfold bar0Write
  (try dsimp only)
  (repeat' split) <;> simp only [outState_hide, ↓hide_noc, ↓hide_ite, ite_self, cqWrite_hide, glbWrite_hide, clkWrite_hide, fabWrite_hide, wakeWindow_hide, seatRegWrite_hide, execAckSeqWrite_leaves, h_seats, h_cq, h_clk, h_pwr, h_flt, h_glb, h_noc, h_fab]

theorem msixWrite_hide (s : State) (k : Nat) (v : Word) (h_cq : Part.cq ∈ ps) :
    (msixWrite s k v).hide ps = s.hide ps := by
  unfold msixWrite
  simp only [↓hide_cq, ↓hide_ite, ite_self, raiseVector_hide, h_cq]

theorem msixAccess_hide (s : State) (off size : Nat) (v : BitVec 64) (h_cq : Part.cq ∈ ps) :
    (msixAccess s off size v).hide ps = s.hide ps := by
  unfold msixAccess
  simp only [↓hide_ite, ite_self, msixWrite_hide, h_cq]

theorem registerRead_hide (s : State) (off size : Nat) (h_clk : Part.clk ∈ ps) (h_glb : Part.glb ∈ ps) :
    (registerRead s off size).hide ps = s.hide ps := by
  unfold registerRead
  (try dsimp only)
  (repeat' split) <;> simp only [↓hide_glb, ↓hide_ite, ite_self, badAccess_hide, wakeWindow_hide, h_clk, h_glb]

theorem registerPut_hide (s : State) (off size : Nat) (val : BitVec 64) (h_seats : Part.seats ∈ ps) (h_cq : Part.cq ∈ ps) (h_clk : Part.clk ∈ ps) (h_pwr : Part.pwr ∈ ps) (h_flt : Part.flt ∈ ps) (h_glb : Part.glb ∈ ps) (h_noc : Part.noc ∈ ps) (h_fab : Part.fab ∈ ps) :
    (registerPut s off size val).hide ps = s.hide ps := by
  unfold registerPut
  simp only [↓hide_glb, ↓hide_ite, ite_self, bar0Write_hide, msixAccess_hide, h_seats, h_cq, h_clk, h_pwr, h_flt, h_glb, h_noc, h_fab]

end Sys2Proof.Machine
end

