-- ==== Sys2Proof/Laws/Net.lean ====
section
/-!
SUPPORT. What the updates of the network's buffers (09 R272) and of the fabric's ports and pairs (10 R303, R313) leave and give.
-/
namespace Sys2Proof.Machine

@[simp] theorem putBuf_pending (s : State) (n p v : Nat) (b : Buf) : (putBuf s n p v b).pending = s.pending := rfl
@[simp] theorem putBuf_seats (s : State) (n p v : Nat) (b : Buf) : (putBuf s n p v b).seats = s.seats := rfl
@[simp] theorem putBuf_str (s : State) (n p v : Nat) (b : Buf) : (putBuf s n p v b).str = s.str := rfl
@[simp] theorem putBuf_ctxs (s : State) (n p v : Nat) (b : Buf) : (putBuf s n p v b).ctxs = s.ctxs := rfl
@[simp] theorem putBuf_cq (s : State) (n p v : Nat) (b : Buf) : (putBuf s n p v b).cq = s.cq := rfl
@[simp] theorem putBuf_clk (s : State) (n p v : Nat) (b : Buf) : (putBuf s n p v b).clk = s.clk := rfl
@[simp] theorem putBuf_pwr (s : State) (n p v : Nat) (b : Buf) : (putBuf s n p v b).pwr = s.pwr := rfl
@[simp] theorem putBuf_flt (s : State) (n p v : Nat) (b : Buf) : (putBuf s n p v b).flt = s.flt := rfl
@[simp] theorem putBuf_glb (s : State) (n p v : Nat) (b : Buf) : (putBuf s n p v b).glb = s.glb := rfl
@[simp] theorem putBuf_sec (s : State) (n p v : Nat) (b : Buf) : (putBuf s n p v b).sec = s.sec := rfl
@[simp] theorem putBuf_pools (s : State) (n p v : Nat) (b : Buf) : (putBuf s n p v b).pools = s.pools := rfl
@[simp] theorem putBuf_fab (s : State) (n p v : Nat) (b : Buf) : (putBuf s n p v b).fab = s.fab := rfl
@[simp] theorem putBuf_chain (s : State) (n p v : Nat) (b : Buf) : (putBuf s n p v b).chain = s.chain := rfl
@[simp] theorem putBuf_pins (s : State) (n p v : Nat) (b : Buf) : (putBuf s n p v b).pins = s.pins := rfl
@[simp] theorem putBuf_hostMem (s : State) (n p v : Nat) (b : Buf) : (putBuf s n p v b).hostMem = s.hostMem := rfl
@[simp] theorem putBuf_free (s : State) (n p v : Nat) (b : Buf) : (putBuf s n p v b).free = s.free := rfl

@[simp] theorem modPort_pending (s : State) (p : Nat) (f : Port → Port) : (modPort s p f).pending = s.pending := rfl
@[simp] theorem modPort_seats (s : State) (p : Nat) (f : Port → Port) : (modPort s p f).seats = s.seats := rfl
@[simp] theorem modPort_str (s : State) (p : Nat) (f : Port → Port) : (modPort s p f).str = s.str := rfl
@[simp] theorem modPort_ctxs (s : State) (p : Nat) (f : Port → Port) : (modPort s p f).ctxs = s.ctxs := rfl
@[simp] theorem modPort_cq (s : State) (p : Nat) (f : Port → Port) : (modPort s p f).cq = s.cq := rfl
@[simp] theorem modPort_clk (s : State) (p : Nat) (f : Port → Port) : (modPort s p f).clk = s.clk := rfl
@[simp] theorem modPort_pwr (s : State) (p : Nat) (f : Port → Port) : (modPort s p f).pwr = s.pwr := rfl
@[simp] theorem modPort_flt (s : State) (p : Nat) (f : Port → Port) : (modPort s p f).flt = s.flt := rfl
@[simp] theorem modPort_glb (s : State) (p : Nat) (f : Port → Port) : (modPort s p f).glb = s.glb := rfl
@[simp] theorem modPort_sec (s : State) (p : Nat) (f : Port → Port) : (modPort s p f).sec = s.sec := rfl
@[simp] theorem modPort_noc (s : State) (p : Nat) (f : Port → Port) : (modPort s p f).noc = s.noc := rfl
@[simp] theorem modPort_pools (s : State) (p : Nat) (f : Port → Port) : (modPort s p f).pools = s.pools := rfl
@[simp] theorem modPort_chain (s : State) (p : Nat) (f : Port → Port) : (modPort s p f).chain = s.chain := rfl
@[simp] theorem modPort_pins (s : State) (p : Nat) (f : Port → Port) : (modPort s p f).pins = s.pins := rfl
@[simp] theorem modPort_hostMem (s : State) (p : Nat) (f : Port → Port) : (modPort s p f).hostMem = s.hostMem := rfl
@[simp] theorem modPort_free (s : State) (p : Nat) (f : Port → Port) : (modPort s p f).free = s.free := rfl

@[simp] theorem modPair_pending (s : State) (d : Nat) (f : Pair → Pair) : (modPair s d f).pending = s.pending := rfl
@[simp] theorem modPair_seats (s : State) (d : Nat) (f : Pair → Pair) : (modPair s d f).seats = s.seats := rfl
@[simp] theorem modPair_str (s : State) (d : Nat) (f : Pair → Pair) : (modPair s d f).str = s.str := rfl
@[simp] theorem modPair_ctxs (s : State) (d : Nat) (f : Pair → Pair) : (modPair s d f).ctxs = s.ctxs := rfl
@[simp] theorem modPair_cq (s : State) (d : Nat) (f : Pair → Pair) : (modPair s d f).cq = s.cq := rfl
@[simp] theorem modPair_clk (s : State) (d : Nat) (f : Pair → Pair) : (modPair s d f).clk = s.clk := rfl
@[simp] theorem modPair_pwr (s : State) (d : Nat) (f : Pair → Pair) : (modPair s d f).pwr = s.pwr := rfl
@[simp] theorem modPair_flt (s : State) (d : Nat) (f : Pair → Pair) : (modPair s d f).flt = s.flt := rfl
@[simp] theorem modPair_glb (s : State) (d : Nat) (f : Pair → Pair) : (modPair s d f).glb = s.glb := rfl
@[simp] theorem modPair_sec (s : State) (d : Nat) (f : Pair → Pair) : (modPair s d f).sec = s.sec := rfl
@[simp] theorem modPair_noc (s : State) (d : Nat) (f : Pair → Pair) : (modPair s d f).noc = s.noc := rfl
@[simp] theorem modPair_pools (s : State) (d : Nat) (f : Pair → Pair) : (modPair s d f).pools = s.pools := rfl
@[simp] theorem modPair_chain (s : State) (d : Nat) (f : Pair → Pair) : (modPair s d f).chain = s.chain := rfl
@[simp] theorem modPair_pins (s : State) (d : Nat) (f : Pair → Pair) : (modPair s d f).pins = s.pins := rfl
@[simp] theorem modPair_hostMem (s : State) (d : Nat) (f : Pair → Pair) : (modPair s d f).hostMem = s.hostMem := rfl
@[simp] theorem modPair_free (s : State) (d : Nat) (f : Pair → Pair) : (modPair s d f).free = s.free := rfl

/-- A buffer's key tells its node, port and channel. -/
theorem bufKey_inj {n p v m q u : Nat} (hp : p < 16) (hv : v < 4) (hq : q < 16) (hu : u < 4) :
    bufKey n p v = bufKey m q u ↔ n = m ∧ p = q ∧ v = u := by
  unfold bufKey; omega

@[simp] theorem bufOf_putBuf_self (s : State) (n p v : Nat) (b : Buf) : bufOf (putBuf s n p v b) n p v = b := tget_tset_self _ _ _ _
@[simp] theorem bufOf_putBuf_ne (s : State) {n p v m q u : Nat} (b : Buf) (h : bufKey m q u ≠ bufKey n p v) :
    bufOf (putBuf s n p v b) m q u = bufOf s m q u := tget_tset_ne _ _ _ h
@[simp] theorem portOf_modPort_self (s : State) (p : Nat) (f : Port → Port) : portOf (modPort s p f) p = f (portOf s p) :=
  tget_tput_self _ _ _ _
@[simp] theorem portOf_modPort_ne (s : State) {p q : Nat} (f : Port → Port) (h : q ≠ p) : portOf (modPort s p f) q = portOf s q :=
  tget_tput_ne _ _ _ h
@[simp] theorem pairOf_modPair_self (s : State) (d : Nat) (f : Pair → Pair) : pairOf (modPair s d f) d = f (pairOf s d) :=
  tget_tput_self _ _ _ _
@[simp] theorem pairOf_modPair_ne (s : State) {d e : Nat} (f : Pair → Pair) (h : e ≠ d) : pairOf (modPair s d f) e = pairOf s e :=
  tget_tput_ne _ _ _ h
@[simp] theorem pairOf_modPort (s : State) (p d : Nat) (f : Port → Port) : pairOf (modPort s p f) d = pairOf s d := rfl
@[simp] theorem portOf_modPair (s : State) (d p : Nat) (f : Pair → Pair) : portOf (modPair s d f) p = portOf s p := rfl
@[simp] theorem portOf_putBuf (s : State) (n p v q : Nat) (b : Buf) : portOf (putBuf s n p v b) q = portOf s q := rfl
@[simp] theorem bufOf_modPort (s : State) (p n q v : Nat) (f : Port → Port) : bufOf (modPort s p f) n q v = bufOf s n q v := rfl

/-- A flit that enters a buffer whose packet is not discarded joins its end (09 R273). -/
theorem Buf.take_flits (b : Buf) (f : Flit) (h : b.eating = false) : (b.take f).flits = b.flits ++ [f] := by simp [Buf.take, h]

/-- A packet has one flit for its header and one for each granule (09 R274). -/
theorem flitsOf_length (t : Trip) (k : Pkt) : (flitsOf t k).length = 1 + k.data.length := by simp [flitsOf]; omega

end Sys2Proof.Machine
end

