-- ==== Sys2Proof/Laws/Tiles.lean ====
section
/-!
SUPPORT. What tiles read as: a store reads back, a slice reads as the range it was cut from, a tile's tag and CRC depend on its bytes
alone, and a sealed tile carries its tag and a CRC that holds (05 R162-R164).
-/
namespace Sys2Proof.Machine

/-- A store of `n` bytes reads back. -/
theorem mrd_mwr_self (m : Mem) (a n v : Nat) : mrd (mwr m a n v) a n = v % 256 ^ n := by
  unfold mwr
  induction n generalizing m a v with
  | zero => simp [mrd, Nat.mod_one]
  | succ n ih =>
    simp only [bytesOf, mwrites, mrd]
    rw [ih, mread_mwrites_out _ _ _ _ (by omega), mread_mwrite_self, BitVec.toNat_ofNat, show 256 ^ (n + 1) = 256 * 256 ^ n from Nat.pow_succ', Nat.mod_mul]

/-- A slice reads as the range it was cut from. -/
theorem mread_mslice (m : Mem) (a n k : Nat) (h : k < n) : mread (mslice m a n) k = mread m (a + k) := by
  unfold mread tget mslice
  congr 1
  induction m with
  | nil => rfl
  | cons p m ih =>
    by_cases hp : a ≤ p.1 ∧ p.1 < a + n
    · rw [List.filter_cons_of_pos (by simp [hp.1, hp.2]), List.map_cons]
      by_cases e : p.1 = a + k
      · simp [tfind, e]
      · have e' : p.1 - a ≠ k := by omega
        simp only [tfind, e, e', if_false]; exact ih
    · rw [List.filter_cons_of_neg (by simpa using fun x => by omega)]
      have e : p.1 ≠ a + k := by omega
      simp only [tfind, e, if_false]; exact ih

/-- Bytes that agree one by one read alike. -/
theorem mbytes_congr (m m' : Mem) (a b n : Nat) (h : ∀ k, k < n → mread m (a + k) = mread m' (b + k)) : mbytes m a n = mbytes m' b n := by
  induction n generalizing a b with
  | zero => rfl
  | succ n ih =>
    simp only [mbytes]
    rw [show mread m a = mread m' b from h 0 (by omega), ih (a + 1) (b + 1) fun k hk => by
      have := h (k + 1) (by omega)
      rw [show a + 1 + k = a + (k + 1) by omega, show b + 1 + k = b + (k + 1) by omega]; exact this]

/-- Numbers read from bytes that agree are the same. -/
theorem mrd_congr (m m' : Mem) (a b n : Nat) (h : ∀ k, k < n → mread m (a + k) = mread m' (b + k)) : mrd m a n = mrd m' b n := by
  induction n generalizing a b with
  | zero => rfl
  | succ n ih =>
    simp only [mrd]
    rw [show mread m a = mread m' b from h 0 (by omega), ih (a + 1) (b + 1) fun k hk => by
      have := h (k + 1) (by omega)
      rw [show a + 1 + k = a + (k + 1) by omega, show b + 1 + k = b + (k + 1) by omega]; exact this]

/-- The bytes that a CRC covers lie in the tile, before and behind the field that holds it. -/
theorem trailer_in_tile (k : Nat) : trailerAt k + 0x20 ≤ tileLen k := by
  unfold trailerAt tileLen kindFull kindWeight kindNarrow
  split
  · next h => subst h; decide
  · split
    · decide
    · next h1 h2 => split <;> omega

/-- A tile's CRC depends on its bytes outside the CRC field alone. -/
theorem tileCrc_congr (m m' : Mem) (k : Nat)
    (h : ∀ a, a < tileLen k → (a < trailerAt k + 0x1C ∨ trailerAt k + 0x20 ≤ a) → mread m a = mread m' a) : tileCrc m k = tileCrc m' k := by
  have hl := trailer_in_tile k
  simp only [tileCrc]
  congr 2
  · exact mbytes_congr _ _ _ _ _ fun i hi => h _ (by omega) (by omega)
  · exact mbytes_congr _ _ _ _ _ fun i hi => h _ (by omega) (by omega)

/-- The tile at a granule of core memory reads as core memory does. -/
theorem mread_coreTile (x : Seat) (g k a : Nat) (h : a < tileLen k) : mread (coreTile x g k) a = mread x.core (64 * g + a) :=
  mread_mslice _ _ _ _ h

theorem tileTag_congr (m m' : Mem) (k : Nat) (h : ∀ a, a < tileLen k → mread m a = mread m' a) : tileTag m k = tileTag m' k := by
  have hl := trailer_in_tile k
  exact mrd_congr _ _ _ _ _ fun i hi => h _ (by omega)

theorem tileStored_congr (m m' : Mem) (k : Nat) (h : ∀ a, a < tileLen k → mread m a = mread m' a) : tileStored m k = tileStored m' k := by
  have hl := trailer_in_tile k
  exact mrd_congr _ _ _ _ _ fun i hi => h _ (by omega)

/-- Storing the CRC of a tile in its field makes a tile whose CRC holds. -/
theorem crc_stored (m : Mem) (k : Nat) :
    tileStored (mwr m (trailerAt k + 0x1C) 4 (tileCrc m k).toNat) k = (tileCrc (mwr m (trailerAt k + 0x1C) 4 (tileCrc m k).toNat) k).toNat := by
  have e (v : Nat) : tileCrc (mwr m (trailerAt k + 0x1C) 4 v) k = tileCrc m k :=
    tileCrc_congr _ _ k fun a _ h => mread_mwr_out _ _ _ _ _ (by omega)
  have hb := (tileCrc m k).isLt
  rw [e]
  generalize (tileCrc m k).toNat = v at hb
  unfold tileStored
  rw [mrd_mwr_self]
  exact Nat.mod_eq_of_lt (by omega)

/-- The CRC of a sealed tile holds. -/
theorem sealTile_sound (m : Mem) (k tag clip flush epoch : Nat) :
    tileStored (sealTile m k tag clip flush epoch) k = (tileCrc (sealTile m k tag clip flush epoch) k).toNat := crc_stored _ k

/-- A sealed tile carries its tag. -/
theorem sealTile_tag (m : Mem) (k tag clip flush epoch : Nat) : tileTag (sealTile m k tag clip flush epoch) k = tag % 2 ^ 64 := by
  have hlen : (trailerBytes tag clip flush epoch).length = 28 := by simp [trailerBytes, length_bytesOf]
  have h8 := length_bytesOf tag 8
  have e : tileTag (sealTile m k tag clip flush epoch) k = mrd (mwr m (trailerAt k) 8 tag) (trailerAt k) 8 := by
    refine mrd_congr _ _ _ _ _ fun i hi => ?_
    unfold sealTile
    rw [mread_mwr_out _ _ _ _ _ (by omega), mread_mwrites_in _ _ _ _ (by omega), mwr, mread_mwrites_in _ _ _ _ (by omega)]
    simp only [trailerBytes, List.append_assoc]
    rw [List.getElem_append_left]
  rw [e, mrd_mwr_self]; norm_num

/-- Sealing changes the trailer alone. -/
theorem sealTile_out (m : Mem) (k tag clip flush epoch a : Nat) (h : a < trailerAt k ∨ trailerAt k + 0x20 ≤ a) :
    mread (sealTile m k tag clip flush epoch) a = mread m a := by
  have hlen : (trailerBytes tag clip flush epoch).length = 28 := by simp [trailerBytes, length_bytesOf]
  simp only [sealTile]
  rw [mread_mwr_out _ _ _ _ _ (by omega), mread_mwrites_out _ _ _ _ (by omega)]

/-- A sealed tile that stands in core memory has its tag and a CRC that holds. -/
theorem coreTile_sealed (x : Seat) (g k : Nat) (m : Mem) (tag clip flush epoch : Nat)
    (h : ∀ a, a < tileLen k → mread x.core (64 * g + a) = mread (sealTile m k tag clip flush epoch) a) :
    tileTag (coreTile x g k) k = tag % 2 ^ 64 ∧ tileStored (coreTile x g k) k = (tileCrc (coreTile x g k) k).toNat := by
  have e : ∀ a, a < tileLen k → mread (coreTile x g k) a = mread (sealTile m k tag clip flush epoch) a := fun a ha =>
    (mread_coreTile x g k a ha).trans (h a ha)
  refine ⟨(tileTag_congr _ _ k e).trans (sealTile_tag ..), ?_⟩
  rw [tileStored_congr _ _ k e, sealTile_sound, tileCrc_congr _ _ k fun a ha _ => e a ha]

end Sys2Proof.Machine
end

