-- ==== Sys2Proof/WellFormed.lean ====
section
/-!
DEFINITION. What a well-formed command is: its operands lie where what they name exists. The meanings are total on every command; a
sender sends only well-formed ones.
-/
namespace Sys2Proof

/-- Bytes given as a memory: in canonical form, none at or beyond `n`. -/
def Mem.within (m : Mem) (n : Nat) : Bool := Machine.Memory.wf m && m.all fun p => decide (p.1 < n)

/-- A board flash: each area within its size (14 R427), its publisher slots 0-7 (14 R438). -/
def Flash.wf (f : Flash) : Bool :=
  Mem.within f.slotA 0x200000 && Mem.within f.slotB 0x200000 && Mem.within f.grade 0x1000 && Mem.within f.certs 0xC000 &&
  decide (f.fences.length ≤ 256) && [f.rec0, f.rec1].all fun r => ((r.map StateRec.pubs).getD []).all fun p => decide (p.1 < 8)

/-- An image that the host's memory gave, if it could be read. -/
def imageOk (m : Option Mem) : Bool := (m.map Machine.Memory.wf).getD true

/-- A command is well-formed. -/
def Instr.wf : Instr → Bool
  | .shardLoad _ img | .tileRepair _ img | .fwUpdate _ img _ | .publisherEnrolment _ img _ | .debugToken _ img | .certificateRenewal _ img _ =>
    imageOk img
  | .loadSegment img => ((img.map fun m => Mem.within m 1048576)).getD true
  | .ringEnable r | .ringDisable r => decide (r.kind ≠ 2 ∨ r.n.val < 8)
  | .registerWrite off size _ => decide (off + size ≤ 0x4000000) && (size == 1 || size == 2 || size == 4 || size == 8)
  | .seatWindowAccess _ off _ => decide (off + 4 ≤ 1024) && off % 4 == 0
  | .bar2Access off len wr _ => decide (0 < len ∧ off + len ≤ 0x100000000) && (wr.map fun m => Mem.within m len).getD true
  | .configurationRequest off _ => decide (off < 4096)
  | .resetRelease flash _ _ => (flash.map Flash.wf).getD true
  | .railsAndClocks bad => bad.all fun d => decide (d < 98)
  | .crossingCalibration _ lats _ => lats.all fun e => decide (e.1 < 36864)
  | .rsCodeword _ syms => decide (syms.length = 544)
  | .dramTraining bad => bad.all fun k => decide (k < 2344)
  | .seatSelfTest bad => bad.all fun w => decide (w < 2304)
  | .enumFrame frame => decide (frame ≤ 2 ^ 32)
  | .i3cWrite data => decide (data.length ≤ 64)
  | .feedStart _ _ data => decide (data.length ≤ 16777216)
  | .wakeRequest unit | .wakeComplete unit => fld unit.toNat 29 3 == 1 || fld unit.toNat 29 3 == 2
  | .preload r h _ | .heatReady r h | .heatDispatch r h | .heatComplete r h | .heatAbort r h | .heatAbandon r h | .heatWatchdog r h =>
    decide (r < 65536 ∧ h < 4096)
  | .timeDependence r h d => decide (r < 65536 ∧ h < 4096 ∧ d < 8)
  | .descriptorComplete _ i => decide (i < 1024)
  | .blockZeroFill k => decide (k < 221186)
  | .portRetrain _ cause => decide (cause < 4)
  | .fabricGiveUp t | .readReissue t | .ftagRelease t => decide (t < 4096)
  | .openSession .. | .closeSession .. | .contextCreate .. | .generationSwitch .. | .evict .. | .graphSubmit ..
  | .graphRelease .. | .run .. | .cancel .. | .weighEnough .. | .faultClearContext .. | .faultClearWeighEnough .. | .fenceSeat ..
  | .powerState .. | .setStep .. | .timeRole .. | .telemetry .. | .logRead .. | .attest .. | .fwActivate .. | .snivanReady ..
  | .submissionDoorbell .. | .commandRead .. | .completionDoorbell .. | .feedDoorbell .. | .feedResume .. | .clkTimeLoad ..
  | .clkTimeLoRead .. | .wstDiagGo .. | .fabPortRetrain .. | .fabPortRetrainFull .. | .fabPortEnWrite .. | .recoveryGo ..
  | .eventsClear .. | .ackSeqWrite .. | .functionLevelReset .. | .perstAssert .. | .perstDeassert .. | .resetAssert ..
  | .pwrgdDeassert .. | .pwrgdAssert .. | .haltAssert .. | .haltDeassert .. | .limitAssert .. | .limitDeassert .. | .thermtrip ..
  | .clkReflost .. | .clkUnlock .. | .mgmtWatchdog .. | .fillAndGrade .. | .fabricTrainingEnd .. | .enumTimer .. | .haltSymbol ..
  | .i3cRead .. | .descriptorPresent .. | .queueHoldEnd .. | .loopIteration .. | .bload .. | .aload .. | .diag .. | .product ..
  | .drain .. | .mxUnitStart .. | .passStart .. | .mov .. | .vadd .. | .vsub .. | .vmul .. | .fma .. | .vmin .. | .vmax ..
  | .vabs .. | .vneg .. | .cmp .. | .sel .. | .vand .. | .vor .. | .vxor .. | .shift .. | .cvt .. | .curve .. | .ctload ..
  | .reduce .. | .topk .. | .compress .. | .expand .. | .gather .. | .rand .. | .quantize .. | .dequantize .. | .vload ..
  | .vstore .. | .veStart .. | .send .. | .get .. | .word .. | .finish .. | .rset .. | .engineStart .. | .catchCond ..
  | .catchSatisfied .. | .acquire .. | .release .. | .releaseComplete .. | .loop .. | .nop .. | .cset .. | .cadd .. | .csub ..
  | .cmul .. | .cand .. | .cshr .. | .cid .. | .cmpset .. | .endPlan .. | .planFinished .. | .refreshAccrual ..
  | .refreshOperation .. | .forcedRefresh .. | .forcedRefreshEnd .. | .sidePortTransfer .. | .scrubTile .. | .dramSample ..
  | .junctionSample .. | .sustainedDroop .. | .powerCapMeasure .. | .stepChange .. | .stepChangeEnd .. | .railSettled ..
  | .timeSync .. | .powerStateEntry .. | .powerRequestTimeout .. | .autoPaddle .. | .segmentPowerDown .. | .segmentClose ..
  | .segmentWake .. | .segmentReady .. | .coreFill .. | .heatStart .. | .classFree .. | .seatLastLogged .. | .completionPost ..
  | .msixInterrupt .. | .writePkt .. | .wordPkt .. | .finishPkt .. | .finishRelease .. | .readPkt .. | .rdataPkt .. | .ackPkt ..
  | .nackPkt .. | .startMsg .. | .controlMsg .. | .routerForward .. | .crossingRecentre .. | .seatMapReassign ..
  | .recordLogged .. | .recordHandling .. | .snivanHandler .. | .loadComplete .. | .feedEnd .. | .portSignalDetect ..
  | .portTrainingStep .. | .sequencedFrame .. | .controlFrame .. | .controlFrameTimer .. | .replayTimeout ..
  | .pairHoldTimeout .. | .fabricEgress .. | .fabricArrival .. | .fabricAnswer .. | .timeSampleLoss ..
  | .idleFrame .. | .droopStretching .. | .ideKm .. | .tapInstruction .. | .dynamicAddress .. => true
where
  /-- Bits of a number (00 R8). -/
  fld (x lo w : Nat) : Nat := Machine.fld x lo w

end Sys2Proof
end

