-- ==== Sys2Proof/Tests/Slice0.lean ====
section
/-!
SUPPORT. Tests: a term that fails each check of WellFormed, small states and single steps of every family with the values that the
spec gives or that follow from it by hand, and for every statement with hypotheses a witness that meets them. A hypothesis about a signature, or
any other value without a body (Config), has no witness: nothing can show what such a value is.
-/
namespace Sys2Proof.Tests
open Sys2Proof Sys2Proof.Machine
open Host (Outcome)

set_option Elab.async false

/-! ## Small states -/

/-- The next state of a step, none where it stops. -/
def out (o : Outcome State Fault Refusal) : Option State :=
  match o with
  | .next t => some t
  | .fault _ => none
  | .refused _ => none

/-- Seat 0 is `x`; everything else is as after reset. -/
def seatSt (x : Seat) : State := { State.reset with seats := [(0, x)] }

/-- Seat 0 has the cox `c`. -/
def coxSt (c : Cox) : State := seatSt { cox := c }

/-- A descriptor of class `cls` and opcode `op` with further fields. -/
def dsc (cls op : Nat) (fs : List (Nat × Nat × Nat)) : Nat := pack ((228, 4, cls) :: (220, 8, op) :: fs)

/-- A job of such a descriptor. -/
def job (cls op : Nat) (fs : List (Nat × Nat × Nat)) : Job := { raw := BitVec.ofNat 256 (dsc cls op fs) }

/-- A fold over `n` bytes of a memory that forms each address and each value at once, so that the kernel can run it over a tile. -/
def memRun (f : Nat → Byte → Nat) (m : Mem) : Nat → Nat → Nat → Nat
  | 0, _, c => c
  | n + 1, 0, c => Nat.rec (motive := fun _ => Nat) (memRun f m n 1 0) (fun k _ => memRun f m n 1 (k + 1)) (f c (mread m 0))
  | n + 1, a + 1, c =>
    Nat.rec (motive := fun _ => Nat) (memRun f m n (a + 2) 0) (fun k _ => memRun f m n (a + 2) (k + 1)) (f c (mread m (a + 1)))

theorem memRun_eq (f : Nat → Byte → Nat) (m : Mem) (n a c : Nat) : memRun f m n a c = (mbytes m a n).foldl f c := by
  induction n generalizing a c with
  | zero => rfl
  | succ n ih =>
    rw [mbytes, List.foldl_cons, ← ih]
    cases a with
    | zero => rw [memRun]; generalize f c (mread m 0) = x; cases x <;> rfl
    | succ a => rw [memRun]; generalize f c (mread m (a + 1)) = x; cases x <;> rfl

/-- The part once Snivan is ready, with a grade 0 record. -/
def base : State := { State.reset with glb := { State.reset.glb with fw := .ready, ready := true, gradeValid := true, grade := 0 } }

/-- Snivan has taken from submission ring 0 a command of opcode `op` with further fields; ring `k` of completions is enabled. -/
def cmd (s : State) (op : Nat) (fs : List (Nat × Nat × Nat)) : State :=
  { s with cq := { s.cq with sq := [(0, { enable := true, opened := true, cur := some (BitVec.ofNat 512 (pack ((0, 8, op) :: fs))), waiting := 1 })],
                             cq := [(0, { enable := true }), (15, { enable := true })] } }

/-- That command as the statements name it. -/
def cmdVal (op : Nat) (fs : List (Nat × Nat × Nat)) : Nat := pack ((0, 8, op) :: fs)

/-- That command of ring 0 runs in the background. -/
def late (s : State) (op : Nat) (fs : List (Nat × Nat × Nat)) : State :=
  { s with cq := { s.cq with sq := [(0, { enable := true, opened := true, waiting := 1 })], cq := [(0, { enable := true }), (15, { enable := true })],
                             bg := [(0, cmdVal op fs)] } }

/-- A heat descriptor for logical seat 0 of crew 0. -/
def hd : HeatDesc := { roles := [(1, 0, [0])] }

/-- Run 1 of graph 0 is live, with the heat descriptors `ds` and the heats `hs`; seat 0 of crew 0 is `x`; context 0 is resident. -/
def runSt (ds : List HeatDesc) (hs : List Heat) (x : Seat) : State :=
  { base with
    seats := [(0, x)]
    noc := { base.noc with map := [(0, { phys := [0] })] }
    str := { graphs := [(0, { heats := ds, images := [{ off := 64, count := 1, crc := 0x8A9136AA }] })], runs := [(1, { heats := hs, gens := [(0, 1)] })] }
    ctxs := { base.ctxs with ctx := [(0, { state := .resident, g0 := { state := .current, num := 1 } })] } }

/-! ## The cox -/

/-- A CTRL job: C[3] from C[1] and the immediate or C[2]. -/
def ctrl (op : Nat) (useb : Nat) (imm : Nat) : Job := job 7 op [(182, 4, 3), (178, 4, 1), (174, 4, 2), (169, 1, useb), (137, 32, imm)]

/-- A walking cox with `j` in hand, C[1] = 5 and C[2] = 0xFFFFFFFF. -/
def ctrlSt (j : Job) : State := coxSt { state := .walking, cur := some j, ctr := [(1, 5), (2, 0xFFFFFFFF)] }

/-- C[3] of seat 0 after a step. -/
def c3 (o : Outcome State Fault Refusal) : Option Word := (out o).map fun t => tget 0 (seatOf t 0).cox.ctr 3

theorem test_cset : c3 (exec (.cset 0) (ctrlSt (ctrl 1 0 9))) = some 9 := by decide
theorem test_cadd_wraps : c3 (exec (.cadd 0) (ctrlSt (ctrl 2 1 0))) = some 4 := by decide
theorem test_csub_wraps : c3 (exec (.csub 0) (ctrlSt (ctrl 3 0 6))) = some 0xFFFFFFFF := by decide
theorem test_cmul : c3 (exec (.cmul 0) (ctrlSt (ctrl 4 1 0))) = some 0xFFFFFFFB := by decide
theorem test_cand : c3 (exec (.cand 0) (ctrlSt (ctrl 5 0 4))) = some 4 := by decide
theorem test_cshr : c3 (exec (.cshr 0) (ctrlSt (ctrl 6 0 1))) = some 2 := by decide

theorem witness_CtrlOpcodes :
    (CoxRuns (ctrlSt (ctrl 1 0 9)) 0 7 1 (ctrl 1 0 9) ∧ CtrFree (seatOf (ctrlSt (ctrl 1 0 9)) 0).cox 3 0) ∧
    CoxRuns (ctrlSt (ctrl 2 1 0)) 0 7 2 (ctrl 2 1 0) ∧ CoxRuns (ctrlSt (ctrl 3 1 0)) 0 7 3 (ctrl 3 1 0) ∧
    CoxRuns (ctrlSt (ctrl 4 1 0)) 0 7 4 (ctrl 4 1 0) ∧ CoxRuns (ctrlSt (ctrl 5 1 0)) 0 7 5 (ctrl 5 1 0) ∧
    CoxRuns (ctrlSt (ctrl 6 1 0)) 0 7 6 (ctrl 6 1 0) ∧
    (CoxRuns (ctrlSt (ctrl 8 0 0)) 0 7 8 (ctrl 8 0 0) ∧ IdentityField (ctrlSt (ctrl 8 0 0)) 0 (kSub (ctrl 8 0 0).raw.toNat) 0) ∧
    CoxRuns (ctrlSt (ctrl 0 0 0)) 0 7 0 (ctrl 0 0 0) ∧ CoxRuns (ctrlSt (ctrl 0x10 0 0)) 0 7 0x10 (ctrl 0x10 0 0) ∧
    (CoxRuns (ctrlSt (ctrl 0x3F 0 0)) 0 7 0x3F (ctrl 0x3F 0 0) ∧ (seatOf (ctrlSt (ctrl 0x3F 0 0)) 0).cox.loops = []) ∧
    ∃ s : State, CoxRuns s 0 7 1 (ctrl 1 0 9) ∧ tfind (seatOf s 0).cox.ctrAt 3 = some (1, 2) := by
  unfold CoxRuns IdentityField
  refine ⟨⟨by decide, ?_⟩, by decide, by decide, by decide, by decide, by decide, by decide, by decide, by decide, by decide,
    coxSt { state := .walking, cur := some (ctrl 1 0 9), ctrAt := [(3, (1, 2))] }, by decide, by decide⟩
  intro u r h; cases h

/-- A LOOP over `body` descriptors with its count in C[1]. -/
def loopJob (body : Nat) (pred : Bool) : Job := { job 6 1 [(182, 4, 1), (158, 24, 10), (148, 10, body)] with idx := 4, pred := pred }
/-- A cox with that LOOP in hand, the count `n` and the loops `ls`. -/
def loopSt (body : Nat) (pred : Bool) (n : Word) (ls : List LoopFrame) : State :=
  coxSt { state := .walking, cur := some (loopJob body pred), ctr := [(1, n)], loops := ls }
/-- A loop whose body ends at page index `last`. -/
def frame (last : Nat) : LoopFrame := LoopFrame.mk 3 last 0 10 5 0 none

theorem witness_Loops :
    (CoxRuns (loopSt 5 true 65535 [frame 9]) 0 6 1 (loopJob 5 true) ∧ (loopJob 5 true).pred = true ∧
      (tget 0 (seatOf (loopSt 5 true 65535 [frame 9]) 0).cox.ctr (lCsel (loopJob 5 true).raw.toNat)).toNat = 65535 ∧
      ∀ l ∈ (seatOf (loopSt 5 true 65535 [frame 9]) 0).cox.loops, (loopJob 5 true).idx + lBody (loopJob 5 true).raw.toNat ≤ l.last) ∧
    CoxRuns (loopSt 5 true 0 []) 0 6 1 (loopJob 5 true) ∧ CoxRuns (loopSt 5 false 1 []) 0 6 1 (loopJob 5 false) ∧
    (CoxRuns (loopSt 5 true 65536 []) 0 6 1 (loopJob 5 true) ∧
      65535 < (tget 0 (seatOf (loopSt 5 true 65536 []) 0).cox.ctr (lCsel (loopJob 5 true).raw.toNat)).toNat) ∧
    (CoxRuns (loopSt 5 true 1 [frame 9, frame 9, frame 9, frame 9]) 0 6 1 (loopJob 5 true) ∧
      4 ≤ (seatOf (loopSt 5 true 1 [frame 9, frame 9, frame 9, frame 9]) 0).cox.loops.length) ∧
    (CoxRuns (loopSt 5 true 1 [frame 8]) 0 6 1 (loopJob 5 true) ∧
      ∃ l ∈ (seatOf (loopSt 5 true 1 [frame 8]) 0).cox.loops, l.last < (loopJob 5 true).idx + lBody (loopJob 5 true).raw.toNat) ∧
    CoxRuns (loopSt 1020 true 1 []) 0 6 1 (loopJob 1020 true) ∧
    (∃ (s : State) (l : LoopFrame), (seatOf s 0).cox.state = .walking ∧ clocked s 0 = true ∧ (seatOf s 0).cox.cur = none ∧ (seatOf s 0).cox.held = none ∧
      (seatOf s 0).cox.loops.getLast? = some l ∧ (seatOf s 0).cox.next = l.last + 1 ∧ l.iter + 1 < l.count ∧ l.isel = some 2 ∧
      CtrFree (seatOf s 0).cox 2 10) ∧
    ∃ (s : State) (l : LoopFrame), (seatOf s 0).cox.state = .walking ∧ clocked s 0 = true ∧ (seatOf s 0).cox.cur = none ∧ (seatOf s 0).cox.held = none ∧
      (seatOf s 0).cox.loops.getLast? = some l ∧ (seatOf s 0).cox.next = l.last + 1 ∧ l.count = l.iter + 1 := by
  unfold CoxRuns
  refine ⟨by decide, by decide, by decide, by decide, by decide, by decide, by decide, ?_, ?_⟩
  · refine ⟨coxSt { state := .walking, next := 10, loops := [LoopFrame.mk 3 9 0 10 5 0 (some 2)] }, LoopFrame.mk 3 9 0 10 5 0 (some 2), ?_⟩
    refine ⟨by decide, by decide, by decide, by decide, by decide, by decide, by decide, by decide, ?_⟩
    intro u r h; cases h
  · exact ⟨coxSt { state := .walking, next := 10, loops := [LoopFrame.mk 3 9 0 10 5 4 none] }, LoopFrame.mk 3 9 0 10 5 4 none, by decide⟩

/-- The next iteration of a loop of period 10 begins 10 beats after the first. -/
theorem test_loopIteration : (out (exec (.loopIteration 0)
    (coxSt { state := .walking, next := 10, beat := 5, loops := [LoopFrame.mk 3 9 1 10 5 0 (some 2)] }))).map (fun t => ((seatOf t 0).cox.base, (seatOf t 0).cox.next, tget 0 (seatOf t 0).cox.ctr 2)) =
    some (11, 3, 1) := by decide

/-- A seat whose next descriptor is `d`, at page index 0 of page 0, with `n` MX jobs queued. -/
def presentSt (d n : Nat) : State :=
  seatSt { cox := { state := .walking }, desc := mwr [] 0 32 d, mxa := { queue := List.replicate n (job 1 2 []) } }

/-- An ALOAD at beat 3 with no producer. -/
def aload (fs : List (Nat × Nat × Nat)) : Nat := dsc 1 2 ((232, 24, 3) :: fs)

theorem witness_IssueAndHolds :
    (let s := presentSt (aload []) 7
     let x := seatOf s 0
     let c := x.cox
     let d := descAt x c.next
     let c1 := settle { c with beat := 3, cycle := 3 } 3
     mayPresent x = true ∧ clocked s 0 = true ∧ c.next ≤ 1023 ∧ WalkOk c (c.base + dBeat d) ∧ commonBad d c.next = false ∧
     classFault s.chain.node 0 x d = none ∧
     queueOf d = some 0 ∧ predVal c1 (dPred d) = true ∧ unstarted x 0 3 = 7 ∧ producersOk c1 d c.next 3 = true ∧
     addressOk d (jobCtr c1 d) = true ∧ activeBloads x 3 = []) ∧
    (let s := presentSt (aload []) 8
     let x := seatOf s 0
     let d := descAt x 0
     mayPresent x = true ∧ clocked s 0 = true ∧ WalkOk x.cox 3 ∧ commonBad d 0 = false ∧ classFault s.chain.node 0 x d = none ∧
     queueOf d = some 0 ∧ predVal (settle { x.cox with beat := 3, cycle := 3 } 3) (dPred d) = true ∧ unstarted x 0 3 = 8) ∧
    (let s := seatSt { cox := { state := .walking, next := 1 }, desc := mwr [] 32 32 (aload [(206, 10, 1)]) }
     let x := seatOf s 0
     let d := descAt x 1
     mayPresent x = true ∧ clocked s 0 = true ∧ WalkOk x.cox 3 ∧ commonBad d 1 = false ∧ classFault s.chain.node 0 x d = none ∧
     queueOf d = some 0 ∧ predVal (settle { x.cox with beat := 3, cycle := 3 } 3) (dPred d) = true ∧ unstarted x 0 3 = 0 ∧
     producersOk (settle { x.cox with beat := 3, cycle := 3 } 3) d 1 3 = false) ∧
    (let j := job 1 2 []
     let s := seatSt { cox := { state := .walking, hold := .queue 0, held := some j, roomAt := some 9 } }
     (seatOf s 0).cox.hold = .queue 0 ∧ (seatOf s 0).cox.held = some j ∧ holdEnd (seatOf s 0).cox j.raw.toNat = some 9 ∧ clocked s 0 = true ∧
     stillBefore (seatOf s 0) 9 = true) ∧
    (let j := job 1 2 []
     let s := seatSt { cox := { state := .walking, hold := .queue 0, held := some j } }
     (seatOf s 0).cox.hold = .queue 0 ∧ (seatOf s 0).cox.held = some j ∧ holdEnd (seatOf s 0).cox j.raw.toNat = none) ∧
    (let j := job 5 1 [(182, 4, 0), (150, 32, 5)]
     let s := seatSt { cox := { state := .walking, held := some j } }
     OnTime s 0 0 ∧ dClass j.raw.toNat = 5 ∧ dOp j.raw.toNat = 1 ∧ (seatOf s 0).cox.hold = .none ∧
       CatchOpen (seatOf s 0) (seatOf s 0).cox j.raw.toNat) ∧
    (let j := job 5 1 []
     let s := seatSt { cox := { state := .walking, held := some j } }
     clocked s 0 = true ∧ dClass j.raw.toNat = 5 ∧ dOp j.raw.toNat = 1 ∧ stillBefore (seatOf s 0) 0 = true ∧
       ¬ CatchOpen (seatOf s 0) (settle { (seatOf s 0).cox with held := none, hold := .none } 0) j.raw.toNat) ∧
    CoxRuns (coxSt { state := .walking, cur := some (job 5 2 []) }) 0 5 2 (job 5 2 []) := by
  unfold WalkOk CatchOpen CoxRuns OnTime
  refine ⟨?_, ?_, ?_, ?_, ?_, ?_, ?_, ?_⟩ <;> decide +kernel

theorem witness_CompletionAndFinish :
    (let j : Job := { job 1 1 [] with doneAt := 34 }
     let s := seatSt { cox := { state := .walking, fin := [j] } }
     (seatOf s 0).cox.fin[0]? = some j ∧ OnTime s 0 j.doneAt ∧ j.clips = 0 ∧ j.flushes = 0) ∧
    (let s := { seatSt { cox := { state := .pastEnd, run := 7 } } with str := { runs := [(7, { heats := [{}] })] } }
     (seatOf s 0).cox.state = .pastEnd ∧ clocked s 0 = true ∧ allDone (seatOf s 0) = true ∧ heatOf s 7 0 = some {} ∧ 0 ∉ ({} : Heat).finished) := by
  unfold OnTime
  decide


/-! ## The matrix array -/

/-- Seat 0 walks, with the matrix array `m` and the MX job `j` on unit `u`. -/
def mxSt (u : Nat) (j : Job) (m : Mxa) (x : Seat) : State :=
  seatSt { x with cox := { x.cox with state := .walking }, mxa := { m with cur := [(u, j)] } }

/-- A BLOAD into nibble N0 of the tile at granule 0. -/
def bload0 : Job := job 1 1 []
/-- An ALOAD into slot 1 of the tile at granule 0. -/
def aload1 : Job := job 1 2 [(149, 2, 1)]
/-- A DIAG of row 5 of slot 1. -/
def diag5 : Job := job 1 3 [(184, 2, 1), (178, 6, 5)]
/-- A PRODUCT of table 0 over rows 62 and 63 into bank 1, with a swap and CLR. -/
def prod2 (sw clr : Nat) : Job := job 1 0x10 [(173, 6, 62), (166, 7, 2), (164, 2, 1), (163, 1, clr), (161, 1, sw)]
/-- A DRAIN of bank 1 to core memory at granule 5887, the last at which a tile fits. -/
def drainCore : Job := job 1 0x18 [(184, 2, 1), (183, 1, 1), (170, 13, 5887), (139, 7, 64)]
/-- A DRAIN of row 63 of bank 1 to entries 254 and 255. -/
def drainOpc : Job := job 1 0x18 [(184, 2, 1), (170, 13, 254), (146, 6, 63), (139, 7, 1)]

theorem tileCrc_run (m : Mem) (k : Nat) : tileCrc m k =
    (let f := crcByte 0x82F63B78
     let t := trailerAt k
     BitVec.ofNat 32 (memRun f m (tileLen k - (t + 0x20)) (t + 0x20) (memRun f m (t + 0x1C) 0 0xFFFFFFFF) ^^^ 0xFFFFFFFF)) := by
  simp only [tileCrc, crc32c, memRun_eq, List.foldl_append]

/-- An I4 tile of kind `k` with CRC `c`: 2 and 5 in its first two elements and the scale 2^0 in its first block. -/
def tileOf (k c : Nat) : Mem := mwr [(0, 0x52), (0x800, 0x7F), (0x882, BitVec.ofNat 8 k)] 0x89C 4 c

theorem weightTile_crc : tileStored (tileOf 1 574935358) 1 = (tileCrc (tileOf 1 574935358) 1).toNat := by rw [tileCrc_run]; decide +kernel
theorem narrowTile_crc : tileStored (tileOf 2 1365317769) 2 = (tileCrc (tileOf 2 1365317769) 2).toNat := by rw [tileCrc_run]; decide +kernel

/-- Such a tile as the array holds it, with the scale 2^0 in every block. -/
def slotTile : Tile := { tag := 0x20000, payload := [(0, 0x52)], scales := mwrites [] 0 (List.replicate 128 0x7F) }

/-- A seat that may start `j`, of unit `u`, from an MX queue in which another unit's job is first. -/
def startSt (i j : Job) (m : Mxa) : State := seatSt { cox := { state := .walking, rest := 0 }, mxa := { m with queue := [i, j] } }

/-- The hypotheses of a unit's start. -/
def Starts (s : State) (u : UnitIx) (i j : Job) : Prop :=
  let x := seatOf s 0
  tfind x.mxa.cur u.val = none ∧ x.wst.forcing = none ∧ x.mxa.queue = [i] ++ j :: [] ∧
  (∀ i' ∈ [i], mxUnit (dOp i'.raw.toNat) ≠ u.val) ∧ mxUnit (dOp j.raw.toNat) = u.val ∧
  OnTime s 0 (max j.issued (tget 0 x.mxa.freeAt u.val))

theorem witness_MxUnitAndPassStart :
    (Starts (startSt aload1 bload0 {}) 0 aload1 bload0 ∧ MxMayStart (seatOf (startSt aload1 bload0 {}) 0) bload0 0) ∧
    (Starts (startSt bload0 aload1 {}) 1 bload0 aload1 ∧ MxMayStart (seatOf (startSt bload0 aload1 {}) 0) aload1 0) ∧
    (Starts (startSt aload1 diag5 { slots := [(1, slotTile)] }) 0 aload1 diag5 ∧
      (seatOf (startSt aload1 diag5 { slots := [(1, slotTile)] }) 0).mxa.sh0 = none ∧
      tfind (seatOf (startSt aload1 diag5 { slots := [(1, slotTile)] }) 0).mxa.slots (dgSlot diag5.raw.toNat) = some slotTile ∧
      tagFmt slotTile.tag ≤ 1) ∧
    (Starts (startSt bload0 (prod2 1 1) {}) 2 bload0 (prod2 1 1) ∧ MxMayStart (seatOf (startSt bload0 (prod2 1 1) {}) 0) (prod2 1 1) 0) ∧
    (Starts (startSt bload0 drainCore {}) 3 bload0 drainCore ∧ MxMayStart (seatOf (startSt bload0 drainCore {}) 0) drainCore 0) ∧
    (let s := startSt aload1 bload0 { sh0 := some {} }
     Starts s 0 aload1 bload0 ∧ dOp bload0.raw.toNat = 1 ∧ blNib bload0.raw.toNat = 0 ∧ (seatOf s 0).mxa.sh0.isSome ∧
     (seatOf s 0).cox.rest.getLsbD (bloadBank bload0) = false) ∧
    (let s := mxSt 2 (prod2 1 1) { sh0 := some slotTile, slots := [(0, slotTile)] } {}
     let x := seatOf s 0
     let j := prod2 1 1
     let m := { x.mxa with act0 := x.mxa.sh0, act1 := x.mxa.sh1, sh0 := none, sh1 := none }
     tfind x.mxa.cur 2 = some j ∧ x.mxa.passDue = false ∧ x.mxa.pass = 0 ∧ 0 < (passTable (prTable j.raw.toNat)).length ∧ OnTime s 0 (passAt x j 0) ∧ passAt x j 0 = 0 ∧
     swapsAt j.raw.toNat 0 = true ∧ swapReady x.mxa j.raw.toNat 0 0 = true ∧ passEvents m j 0 0 = []) ∧
    (let s := mxSt 2 (prod2 1 1) { sh0 := some slotTile, shAt0 := 1, slots := [(0, slotTile)] } {}
     let x := seatOf s 0
     tfind x.mxa.cur 2 = some (prod2 1 1) ∧ x.mxa.passDue = false ∧ OnTime s 0 (passAt x (prod2 1 1) 0) ∧
     swapsAt (prod2 1 1).raw.toNat 0 = true ∧ swapReady x.mxa (prod2 1 1).raw.toNat 0 0 = false ∧ (startEvents x.mxa (prod2 1 1) 0 0).length = 1) ∧
    (let s := mxSt 2 (prod2 1 1) { sh0 := some slotTile, shAt0 := 1 } {}
     let x := seatOf s 0
     tfind x.mxa.cur 2 = some (prod2 1 1) ∧ x.mxa.passDue = false ∧ OnTime s 0 (passAt x (prod2 1 1) 0) ∧
     (passTable (prTable (prod2 1 1).raw.toNat))[0]? = some { slot := 0, nib := 0, bank := 0, shift := 0, neg := false } ∧ swapsAt (prod2 1 1).raw.toNat 0 = true ∧
     swapReady x.mxa (prod2 1 1).raw.toNat 0 0 = false ∧ slotReady x.mxa (prA (prod2 1 1).raw.toNat) 0 = false ∧
     (startEvents x.mxa (prod2 1 1) 0 0).length = 2) := by
  unfold Starts MxMayStart OnTime
  refine ⟨⟨?_, ?_, ?_, fun h => absurd h ?_⟩, ⟨?_, ?_, ?_, fun h => absurd h ?_⟩, ?_, ⟨?_, ?_, ?_, fun h => absurd h ?_⟩,
    ⟨?_, ?_, ?_, fun h => absurd h ?_⟩, ?_, ?_, ?_, ?_⟩ <;> decide +kernel

/-- A seat whose weight store holds a sound tile and one with a wrong CRC, and one whose core memory does. -/
def bloadSt (c : Nat) : State := mxSt 0 bload0 {} { cox := { blocks := [(0, 0)] }, store := tileOf 1 c }
def aloadSt : State := mxSt 1 aload1 {} { core := tileOf 2 1365317769 }

theorem weightTile_sound : weightTile (seatOf (bloadSt 574935358) 0) 0 = tileOf 1 574935358 := by decide +kernel
theorem weightTile_unsound : weightTile (seatOf (bloadSt 1) 0) 0 = tileOf 1 1 := by decide +kernel
theorem coreTile_sound : coreTile (seatOf aloadSt 0) 0 2 = tileOf 2 1365317769 := by decide +kernel
theorem unsound_crc : tileStored (tileOf 1 1) 1 ≠ (tileCrc (tileOf 1 1) 1).toNat := by rw [tileCrc_run]; decide +kernel

theorem witness_MxLoadsAndDrains :
    (let s := bloadSt 574935358
     let x := seatOf s 0
     tfind x.mxa.cur 0 = some bload0 ∧ dOp bload0.raw.toNat = 1 ∧ (blWbase bload0.raw.toNat + (bload0.c : Int) * blStride bload0.raw.toNat).toNat = 0 ∧
     tileTag (weightTile x 0) 1 = mkTag x.cox.ctx x.cox.gen 1 (blFmt bload0.raw.toNat) 0 ∧
     tileStored (weightTile x 0) 1 = (tileCrc (weightTile x 0) 1).toNat ∧ OnTime s 0 (mxAt x bload0 33)) ∧
    (let s := mxSt 0 bload0 {} {}
     let x := seatOf s 0
     tfind x.mxa.cur 0 = some bload0 ∧ tileTag (weightTile x 0) 1 ≠ mkTag x.cox.ctx x.cox.gen 1 (blFmt bload0.raw.toNat) 0 ∧ bload0.torn = false ∧
     clocked s 0 = true ∧ stillBefore x (mxAt x bload0 3) = true) ∧
    (let s := bloadSt 1
     let x := seatOf s 0
     tfind x.mxa.cur 0 = some bload0 ∧ tileTag (weightTile x 0) 1 = mkTag x.cox.ctx x.cox.gen 1 (blFmt bload0.raw.toNat) 0 ∧
     tileStored (weightTile x 0) 1 ≠ (tileCrc (weightTile x 0) 1).toNat ∧ bload0.torn = false ∧ clocked s 0 = true ∧ stillBefore x (mxAt x bload0 33) = true) ∧
    (let s := aloadSt
     let x := seatOf s 0
     tfind x.mxa.cur 1 = some aload1 ∧ dOp aload1.raw.toNat = 2 ∧ (alCbase aload1.raw.toNat + (aload1.c : Int) * alStride aload1.raw.toNat).toNat = 0 ∧
     tileTag (coreTile x 0 2) 2 = mkTag x.cox.ctx 0 2 (alFmt aload1.raw.toNat) 0 ∧
     tileStored (coreTile x 0 2) 2 = (tileCrc (coreTile x 0 2) 2).toNat ∧ bankEvents x aload1 = [] ∧ OnTime s 0 (mxAt x aload1 19)) ∧
    (let s := mxSt 0 diag5 {} {}
     let x := seatOf s 0
     tfind x.mxa.cur 0 = some diag5 ∧ dOp diag5.raw.toNat = 3 ∧ OnTime s 0 (mxAt x diag5 1)) ∧
    (let s := mxSt 3 drainCore {} {}
     let x := seatOf s 0
     tfind x.mxa.cur 3 = some drainCore ∧ drCore drainCore.raw.toNat = true ∧ OnTime s 0 (mxAt x drainCore 134) ∧ bankEvents x drainCore = []) ∧
    (let s := mxSt 3 drainOpc {} {}
     let x := seatOf s 0
     tfind x.mxa.cur 3 = some drainOpc ∧ drCore drainOpc.raw.toNat = false ∧
     OnTime s 0 (mxAt x drainOpc (4 + 2 * drRows drainOpc.raw.toNat)) ∧ x.vec.pend = [] ∧ x.vec.w0 = []) := by
  simp only [weightTile_sound, weightTile_unsound, coreTile_sound, OnTime]
  refine ⟨⟨?_, ?_, ?_, ?_, weightTile_crc, ?_⟩, ?_, ⟨?_, ?_, unsound_crc, ?_⟩, ⟨?_, ?_, ?_, ?_, narrowTile_crc, ?_, ?_⟩, ?_, ?_, ?_⟩ <;> decide +kernel

/-- A pass that has started, with the tile above in slot 0 and in N0. -/
def passSt (clr : Nat) (acc : Tbl Word) : State :=
  mxSt 2 (prod2 0 clr) { act0 := some slotTile, slots := [(0, slotTile)], passDue := true, passSlot := some slotTile, passNib := some slotTile, acc := acc } {}

theorem witness_ProductPass :
    let s := passSt 0 []
    let x := seatOf s 0
    let j := prod2 0 0
    tfind x.mxa.cur 2 = some j ∧ dOp j.raw.toNat = 0x10 ∧ x.mxa.passDue = true ∧ (passTable (prTable j.raw.toNat))[x.mxa.pass]? = some {} ∧
    tagFmt (x.mxa.passNib.getD {}).tag ≠ fmtI2 ∧ tagFmt (x.mxa.passNib.getD {}).tag ≠ fmtT2 ∧
    prRow0 j.raw.toNat + prRows j.raw.toNat = 64 ∧ clocked s 0 = true ∧
    stillBefore x (mxAt x j (passOff j x.mxa.pass + 8 + prRows j.raw.toNat)) = true ∧
    runsAt x (mxAt x j (passOff j x.mxa.pass + 8 + prRows j.raw.toNat)) = true ∧
    x.mxa.pass + 1 = (passTable (prTable j.raw.toNat)).length := by decide +kernel

/-- 03 R93: DIAG puts element (5, k) of the slot at (k, k); its scale comes with it and 2^0 stands elsewhere. -/
theorem test_diag : ((out (exec (.diag 0) (mxSt 0 diag5 { slots := [(1, { payload := [(160, 0x52)], scales := [(10, 0x81)] })] } {}))).bind fun t =>
    (seatOf t 0).mxa.sh0.map fun b => (nibAt b 0 0, nibAt b 1 1, nibAt b 0 1, nibAt b 1 0, mread b.scales 0, mread b.scales 64)) =
    some (2, 5, 0, 0, 0x81, 0x7F) := by decide +kernel

/-- Row 63 of a slot holds 3 at element 0 and row 0 of the nibble 2 and 5: the sums of that row are 6.0 and 15.0, and CLR drops what
the accumulators held. -/
theorem test_product : (out (exec (.product 0) (mxSt 2 (prod2 0 1)
    { act0 := some slotTile, slots := [(0, { payload := [(2016, 0x03)], scales := [(126, 0x7F), (127, 0x7F)] })], passDue := true,
      passSlot := some { payload := [(2016, 0x03)], scales := [(126, 0x7F), (127, 0x7F)] }, passNib := some slotTile,
      acc := [(4096 + 63 * 64, 0x3F800000), (4096 + 61 * 64, 0x3F800000)] } {}))).map (fun t =>
    [0, 1, 2].map (fun c => tget 0 (seatOf t 0).mxa.acc (4096 + 63 * 64 + c)) ++ [tget 0 (seatOf t 0).mxa.acc (4096 + 61 * 64)]) =
    some [0x40C00000, 0x41700000, 0, 0x3F800000] := by decide +kernel

theorem test_drain : (out (exec (.drain 0) (mxSt 3 drainOpc { acc := [(4096 + 63 * 64 + 33, 7)] } {}))).map (fun t =>
    (laneOf (opcSettle (seatOf t 0).vec 4) 255 1, (seatOf t 0).cox.fin.map (·.doneAt))) = some (7, [6]) := by decide +kernel


/-! ## The vector engine -/

/-- Seat 0 walks and its vector engine runs `j`; the entries `ws` have been written, lane `l` of entry `e` to `f e l`. -/
def veSt (j : Job) (ws : List Nat) (opc : Tbl Word) (curves : Tbl Mem) : State :=
  seatSt { cox := { state := .walking }, vec := { cur := some j, written := ws.map fun e => (e, 0), opc := opc, curves := curves } }

/-- N = 2, D = 254, S1 = 0, S2 = 2, S3 = 4, mask at 6, tail at the counter value 40. -/
def vjob (op ty : Nat) (fs : List (Nat × Nat × Nat)) : Job :=
  { job 2 op ([(178, 8, 254), (162, 8, 2), (154, 8, 4), (147, 7, 2), (125, 1, 1), (117, 8, 6), (116, 1, 1), (113, 2, ty)] ++ fs) with tail := 40 }

/-- The state of the witnesses for the streaming operations. -/
def vSt (op ty : Nat) (fs : List (Nat × Nat × Nat)) : State := veSt (vjob op ty fs) [0, 1, 2, 3, 4, 5, 6, 7] [] []

theorem witness_VectorElements :
    (∀ ty sub : Nat, ty = 0 → sub = 0 → ty ≠ tyI32 ∧ ty ≠ tyBf ∧ fpIsNan 0x7FC00000 = true) ∧
    ∀ op, op < 16 →
      VeRuns (vSt (op + 1) 2 []) 0 (vjob (op + 1) 2 []) (op + 1) ∧
      ∀ i, i < vN (vjob (op + 1) 2 []).raw.toNat → ∀ e ∈ elemReads (vjob (op + 1) 2 []).raw.toNat 0 i,
        ReadsFirst (seatOf (vSt (op + 1) 2 []) 0) (vjob (op + 1) 2 []) 0 254 i e := by
  unfold VeRuns ReadsFirst OnTime
  refine ⟨?_, ?_⟩
  rotate_left
  · decide +kernel
  rintro ty sub rfl rfl
  decide

theorem witness_VectorStart :
    (let j := vjob 1 0 []
     let s := seatSt { cox := { state := .walking }, vec := { queue := [j] } }
     let x := seatOf s 0
     x.vec.queue = [j] ∧ x.vec.cur = none ∧ OnTime s 0 (2 * veStartAt x j) ∧ dOp j.raw.toNat ≠ 0x18) ∧
    (let j := vjob 0x18 0 []
     let s := seatSt { cox := { state := .walking }, vec := { queue := [j], curves := [(0, [])] } }
     let x := seatOf s 0
     x.vec.queue = [j] ∧ x.vec.cur = none ∧ OnTime s 0 (2 * veStartAt x j) ∧ dOp j.raw.toNat = 0x18 ∧
     (tfind x.vec.curves (vCslot j.raw.toNat)).isSome = true) ∧
    (let j := vjob 0x18 0 []
     let s := seatSt { cox := { state := .walking }, vec := { queue := [j] } }
     let x := seatOf s 0
     x.vec.queue = [j] ∧ x.vec.cur = none ∧ OnTime s 0 (2 * veStartAt x j) ∧ dOp j.raw.toNat = 0x18 ∧
     tfind x.vec.curves (vCslot j.raw.toNat) = none) ∧
    (let j := vjob 2 0 []
     let s := veSt j [] [] []
     let x := seatOf s 0
     x.vec.cur = some j ∧ dOp j.raw.toNat = 2 ∧ 0 < vN j.raw.toNat ∧ OnTime s 0 (2 * j.start) ∧ stillBefore x (veOver x j) = true ∧
     tfind x.vec.written (vEntry j.raw.toNat 0 2 (vS1 j.raw.toNat)).toNat = none) := by
  unfold OnTime
  decide +kernel

/-- Every entry that the strip reads, from vector cycle `k0` of the job on, has been written, and none of them is a destination. -/
def ReadsAll (op ty k0 : Nat) (fs : List (Nat × Nat × Nat)) (es : List Nat) : Prop :=
  VeRuns (vSt op ty fs) 0 (vjob op ty fs) op ∧
  ∀ i, i < 2 → ∀ e ∈ es.map (· + i) ++ maskReads (vjob op ty fs).raw.toNat i,
    ReadsFirst (seatOf (vSt op ty fs) 0) (vjob op ty fs) k0 254 i e ∧ (e < 254 ∨ 256 ≤ e)

theorem witness_VectorRearranging :
    ReadsAll 0x29 0 0 [] [0] ∧
    (ReadsAll 0x2A 0 2 [(64, 3, 1)] [2] ∧ vSlen (vjob 0x2A 0 [(64, 3, 1)]).raw.toNat = 2 ∧
      ∀ i, i < 2 → readable (seatOf (vSt 0x2A 0 [(64, 3, 1)]) 0).vec i (veAt (seatOf (vSt 0x2A 0 [(64, 3, 1)]) 0) (vjob 0x2A 0 [(64, 3, 1)]) i) = true) ∧
    ReadsAll 0x28 0 0 [] [0] ∧ ReadsAll 0x18 0 0 [] [0] ∧ ReadsAll 0x2C 0 0 [] [] ∧
    (ReadsAll 0x21 0 0 [(66, 5, 31)] [0] ∧ vN (vjob 0x21 0 [(66, 5, 31)]).raw.toNat % 2 = 0 ∧ vK (vjob 0x21 0 [(66, 5, 31)]).raw.toNat = 32) ∧
    (ReadsAll 0x20 0 0 [(68, 3, 1), (67, 1, 1)] [0] ∧ vAxis (vjob 0x20 0 [(68, 3, 1), (67, 1, 1)]).raw.toNat = true ∧
      vG (vjob 0x20 0 [(68, 3, 1), (67, 1, 1)]).raw.toNat = 2 ∧ vN (vjob 0x20 0 [(68, 3, 1), (67, 1, 1)]).raw.toNat = 2) := by
  unfold ReadsAll VeRuns ReadsFirst OnTime
  refine ⟨?_, ?_, ?_, ?_, ?_, ?_, ?_⟩ <;> decide +kernel

/-- A tile descriptor of `rows` rows: strips from 0, granule 0. -/
def tjob (op ty rows : Nat) (fs : List (Nat × Nat × Nat)) : Job := job 2 op ([(113, 2, ty), (77, 7, rows)] ++ fs)
/-- A seat that runs it, with the entries 0-127 written and the core memory `m`. -/
def tileSt (j : Job) (m : Mem) : State :=
  seatSt { cox := { state := .walking }, core := m, vec := { cur := some j, written := (List.range 128).map fun e => (e, 0) } }

theorem tileSt_core (j : Job) (m : Mem) : (seatOf (tileSt j m) 0).core = m := rfl

/-- A curve image of zeros but for the byte at 0x400, with CRC `c`. -/
def image (c : Nat) : Mem := mwr [(0x400, 1)] 0x3C 4 c

/-- The CRC of an image, formed step by step. -/
theorem curveCrc_run (m : Mem) : curveCrc m =
    (let f := crcByte 0x82F63B78
     BitVec.ofNat 32 (memRun f m 0x400 0x40 (memRun f m 0x3C 0 0xFFFFFFFF) ^^^ 0xFFFFFFFF)) := by
  simp only [curveCrc, crc32c, memRun_eq, List.foldl_append]

theorem image_crc : mrd (image 1132968106) 0x3C 4 = (curveCrc (image 1132968106)).toNat := by rw [curveCrc_run]; decide +kernel
theorem image_bad : mrd (image 1) 0x3C 4 ≠ (curveCrc (image 1)).toNat := by rw [curveCrc_run]; decide +kernel

theorem witness_VectorTiles :
    (let s := tileSt (tjob 0x19 0 0 []) (image 1132968106)
     let x := seatOf s 0
     VeRuns s 0 (tjob 0x19 0 0 []) 0x19 ∧ bankEvents x (tjob 0x19 0 0 []) = [] ∧ mslice x.core 0 1088 = image 1132968106 ∧
     curveBad (image 1132968106) = false ∧ mrd (image 1132968106) 0x3C 4 = (curveCrc (image 1132968106)).toNat) ∧
    (let s := tileSt (tjob 0x19 0 0 []) (image 1)
     let x := seatOf s 0
     VeRuns s 0 (tjob 0x19 0 0 []) 0x19 ∧ bankEvents x (tjob 0x19 0 0 []) = [] ∧ mslice x.core 0 1088 = image 1 ∧
     (tjob 0x19 0 0 []).torn = false ∧ mrd (image 1) 0x3C 4 ≠ (curveCrc (image 1)).toNat) ∧
    (let j := tjob 0x32 0 64 [(33, 8, 64)]
     let s := tileSt j (sealTile [] 3 (mkTag 0 0 3 8 0) 0 0 0)
     let x := seatOf s 0
     (VeRuns s 0 j 0x32 ∧ bankEvents x j = [] ∧ vRows j.raw.toNat ≤ 64 ∧ 0 + 64 ≤ vDb j.raw.toNat) ∧
     (tileTag (coreTile x 0 3) 3 = mkTag x.cox.ctx 0 3 fmtFp32 0 ∧ tileStored (coreTile x 0 3) 3 = (tileCrc (coreTile x 0 3) 3).toNat)) ∧
    (let j := tjob 0x31 0 64 [(85, 2, 1), (33, 8, 64)]
     let s := tileSt j (sealTile [] 2 (mkTag 0 0 2 1 0) 0 0 0)
     let x := seatOf s 0
     (VeRuns s 0 j 0x31 ∧ bankEvents x j = [] ∧ vQfmt j.raw.toNat ≠ 2 ∧ vRows j.raw.toNat ≤ 64 ∧ 0 + 64 ≤ vDb j.raw.toNat) ∧
     (tileTag (coreTile x 0 2) 2 = mkTag x.cox.ctx 0 2 (vQfmt j.raw.toNat) 0 ∧
       tileStored (coreTile x 0 2) 2 = (tileCrc (coreTile x 0 2) 2).toNat)) ∧
    (let j := tjob 0x33 0 64 [(162, 8, 64)]
     let s := tileSt j []
     let x := seatOf s 0
     VeRuns s 0 j 0x33 ∧ bankEvents x j = [] ∧ ∀ k, k < 128 → readable x.vec (tileEntry 0 64 k) (veAt x j k) = true) ∧
    (let j := tjob 0x30 0 64 [(162, 8, 64)]
     let s := tileSt j []
     let x := seatOf s 0
     VeRuns s 0 j 0x30 ∧ bankEvents x j = [] ∧ vQfmt j.raw.toNat ≠ 2 ∧ vRows j.raw.toNat = 64 ∧
     ∀ k, k < 2 * 64 → readable x.vec (tileEntry 0 64 k) (veAt x j k) = true) := by
  unfold VeRuns OnTime
  refine ⟨⟨?_, ?_, ?_, ?_, image_crc⟩, ⟨?_, ?_, ?_, ?_, image_bad⟩, ⟨?_, ?_⟩, ⟨?_, ?_⟩, ?_, ?_⟩
  case refine_10 =>
    have h := coreTile_sealed (seatOf (tileSt (tjob 0x32 0 64 [(33, 8, 64)]) (sealTile [] 3 (mkTag 0 0 3 8 0) 0 0 0)) 0) 0 3 []
      (mkTag 0 0 3 8 0) 0 0 0 (fun a _ => by rw [Nat.mul_zero, Nat.zero_add, tileSt_core])
    exact ⟨h.1.trans (by decide), h.2⟩
  case refine_12 =>
    have h := coreTile_sealed (seatOf (tileSt (tjob 0x31 0 64 [(85, 2, 1), (33, 8, 64)]) (sealTile [] 2 (mkTag 0 0 2 1 0) 0 0 0)) 0) 0 2 []
      (mkTag 0 0 2 1 0) 0 0 0 (fun a _ => by rw [Nat.mul_zero, Nat.zero_add, tileSt_core])
    exact ⟨h.1.trans (by decide), h.2⟩
  all_goals decide +kernel

/-- Lane `l` of entry 254 after a vector operation on the operand cache `opc`, once every write has taken effect. -/
def v254 (o : Outcome State Fault Refusal) (l : Nat) : Option Word := (out o).map fun t => laneOf (opcSettle (seatOf t 0).vec 99) 254 l

/-- Lane 0 of entries 0, 2 and 4 holds `a`, `b` and `c`; lane 0 of the mask entry is 1. -/
def vIn (op ty sub : Nat) (a b c : Word) : State :=
  veSt (vjob op ty [(71, 4, sub)]) [0, 1, 2, 3, 4, 5, 6, 7] [(0, a), (64, b), (128, c), (192, 1)] []

theorem test_vadd : v254 (exec (.vadd 0) (vIn 2 0 0 0x3F800000 0x40000000 0)) 0 = some 0x40400000 := by decide +kernel
theorem test_vadd_int_wraps : v254 (exec (.vadd 0) (vIn 2 2 0 0xFFFFFFFF 2 0)) 0 = some 1 := by decide +kernel
theorem test_vsub : v254 (exec (.vsub 0) (vIn 3 0 0 0x3F800000 0x40000000 0)) 0 = some 0xBF800000 := by decide +kernel
theorem test_vmul : v254 (exec (.vmul 0) (vIn 4 0 0 0x40400000 0x40000000 0)) 0 = some 0x40C00000 := by decide +kernel
/-- 1 + 2^-12 squared, less 1 + 2^-11, is 2^-24 with one rounding. -/
theorem test_fma : v254 (exec (.fma 0) (vIn 5 0 0 0x3F800800 0x3F800800 0xBF801000)) 0 = some 0x33800000 := by decide +kernel
theorem test_mov_bf16 : v254 (exec (.mov 0) (vIn 1 1 0 0x3F818000 0 0)) 0 = some 0x3F820000 := by decide +kernel
theorem test_vmin_nan : v254 (exec (.vmin 0) (vIn 6 0 0 0x7FC00001 0 0)) 0 = some 0x7FC00000 := by decide +kernel
theorem test_vmax_zeros : v254 (exec (.vmax 0) (vIn 7 0 0 0x80000000 0 0)) 0 = some 0 := by decide +kernel
theorem test_vabs : v254 (exec (.vabs 0) (vIn 8 2 0 0x80000000 0 0)) 0 = some 0x80000000 := by decide +kernel
theorem test_vneg : v254 (exec (.vneg 0) (vIn 9 0 0 0 0 0)) 0 = some 0x80000000 := by decide +kernel
theorem test_cmp_ne_nan : v254 (exec (.cmp 0) (vIn 0x0A 0 1 0x7FC00000 0 0)) 0 = some 1 := by decide +kernel
theorem test_sel : v254 (exec (.sel 0) (vIn 0x0B 2 0 7 9 0)) 0 = some 9 := by decide +kernel
theorem test_vxor : v254 (exec (.vxor 0) (vIn 0x0E 2 0 6 5 0)) 0 = some 3 := by decide +kernel
theorem test_shift_arithmetic : v254 (exec (.shift 0) (vIn 0x0F 2 2 0x80000000 33 0)) 0 = some 0xC0000000 := by decide +kernel
theorem test_cvt : v254 (exec (.cvt 0) (vIn 0x10 0 0 0xFFFFFFFF 0 0)) 0 = some 0xBF800000 := by decide +kernel
/-- Lane 1 is masked off and keeps its word. -/
theorem test_mask : v254 (exec (.vadd 0) (veSt (vjob 2 2 []) [0, 1, 2, 3, 6, 7] [(0, 1), (1, 1), (192, 1), (254 * 32 + 1, 8)] [])) 1 = some 8 := by decide +kernel
/-- COMPRESS of the one active element, lane 3, puts it first. -/
theorem test_compress : v254 (exec (.compress 0) (veSt (vjob 0x28 0 []) [0, 1, 6, 7] [(3, 9), (195, 1)] [])) 0 = some 9 := by decide +kernel
/-- EXPAND gives the active element, lane 3, dense element 0. -/
theorem test_expand : v254 (exec (.expand 0) (veSt (vjob 0x29 0 []) [0, 1, 6, 7] [(0, 9), (195, 1)] [])) 3 = some 9 := by decide +kernel
/-- GATHER by index 33 of a window of two entries, and by one that lies outside it. -/
theorem test_gather : v254 (exec (.gather 0) (veSt (vjob 0x2A 0 [(64, 3, 1)]) [0, 1, 2, 3, 6, 7] [(33, 9), (64, 33), (192, 1)] [])) 0 = some 9 := by decide +kernel
theorem test_gather_outside : (out (exec (.gather 0) (veSt (vjob 0x2A 0 [(64, 3, 1)]) [0, 1, 2, 3, 6, 7] [(33, 9), (64, 64), (192, 1)] []))).map
    (fun t => (seatOf t 0).vec.oor) = some 1 := by decide +kernel
/-- TOPK of 5 at index 3 and 9 at index 33: the highest value stands first, and its index in the next entry. -/
theorem test_topk : (out (exec (.topk 0) (veSt (vjob 0x21 2 [(66, 5, 1)]) [0, 1, 6, 7] [(3, 5), (33, 9), (195, 1), (225, 1)] []))).map (fun t =>
    let o := opcSettle (seatOf t 0).vec 99
    [laneOf o 254 0, laneOf o 254 1, laneOf o 255 0, laneOf o 255 1]) = some [9, 5, 33, 3] := by decide +kernel


/-! ## Engines and packets -/

/-- Seat 0 walks and its engine `e` is `g`. -/
def engSt (e : EngIx) (g : Eng) : State := seatSt { ({ cox := { state := .walking } } : Seat).putEng e g with core := [(0, 7)] }

/-- A SEND of 257 granules, the most, to core memory of seat 1; a GET of 17; a WORD and a FINISH to a pool. -/
def send257 : Job := job 4 1 [(162, 5, 1), (158, 4, 1), (97, 9, 257)]
def get17 : Job := job 3 2 [(158, 4, 8), (97, 9, 17), (132, 26, 4)]
def wordJob : Job := job 4 3 [(158, 4, 8), (132, 26, 2), (100, 32, 9)]
def finishJob : Job := job 4 4 [(158, 4, 8), (150, 8, 3), (118, 32, 5), (78, 32, 6)]
def rset2 : Job := job 3 0x10 [(183, 3, 2), (179, 4, 1), (83, 96, 5)]
def release1 : Job := job 5 3 [(183, 3, 1)]

theorem witness_EngineTransfers :
    (let s := engSt 1 { cur := some send257, sent := 16 }
     let x := seatOf s 0
     EngRuns s 0 1 opSend send257 ∧ 16 * (x.eng 1).sent < sLen send257.raw.toNat ∧ x.cox.gaps = [] ∧
     OnTime s 0 (readsEnd x send257 1 256 (packetFrom s (x.eng 1) send257) - 1) ∧ outboxRoom (x.eng 1) 1 = true) ∧
    (let s := engSt 0 { cur := some get17, sent := 1 }
     let x := seatOf s 0
     EngRuns s 0 0 opGet get17 ∧ 16 * (x.eng 0).sent < sLen get17.raw.toNat ∧ OnTime s 0 (headerAt s x (x.eng 0) get17) ∧
     outboxRoom (x.eng 0) 0 = true) ∧
    (let s := engSt 1 { cur := some wordJob }
     let x := seatOf s 0
     EngRuns s 0 1 opWord wordJob ∧ OnTime s 0 (headerAt s x (x.eng 1) wordJob) ∧ outboxRoom (x.eng 1) 0 = true) ∧
    (let s := engSt 1 { cur := some finishJob }
     let x := seatOf s 0
     EngRuns s 0 1 opFinish finishJob ∧ OnTime s 0 (headerAt s x (x.eng 1) finishJob) ∧ outboxRoom (x.eng 1) 0 = true) ∧
    (let s := engSt 1 { cur := some wordJob, outbox := List.replicate 16 { head := some {} } }
     let x := seatOf s 0
     EngRuns s 0 1 opWord wordJob ∧ runsAt x (headerAt s x (x.eng 1) wordJob) = true ∧ outboxRoom (x.eng 1) 0 = false) ∧
    (let s := seatSt (({} : Seat).putEng 1 { cur := some wordJob })
     let x := seatOf s 0
     EngRuns s 0 1 opWord wordJob ∧ runsAt x (headerAt s x (x.eng 1) wordJob) = false) := by
  unfold EngRuns OnTime
  refine ⟨?_, ?_, ?_, ?_, ?_, ?_⟩ <;> decide +kernel

theorem witness_EngineStartAndRelease :
    (let s := engSt 0 { queue := [rset2] }
     let g := (seatOf s 0).eng 0
     g.queue = [rset2] ∧ OnTime s 0 (max rset2.issued g.freeAt) ∧ g.cur = none ∧ g.releasing = none ∧ (seatOf s 0).cox.hold ≠ .queue 2) ∧
    (let s := seatSt { ({ cox := { state := .walking, hold := .queue 2 } } : Seat).putEng 0 { queue := [rset2] } with core := [] }
     let g := (seatOf s 0).eng 0
     g.queue = [rset2] ∧ OnTime s 0 (max rset2.issued g.freeAt) ∧ g.cur = none ∧ g.releasing = none ∧ (seatOf s 0).cox.hold = .queue 2) ∧
    (let s := engSt 0 { cur := some rset2 }
     EngRuns s 0 0 opRset rset2 ∧ runsAt (seatOf s 0) rset2.start = true ∧ stillBefore (seatOf s 0) rset2.start = true) ∧
    (let s := engSt 0 { cur := some release1 }
     ((seatOf s 0).eng 0).cur = some release1 ∧ runsAt (seatOf s 0) release1.start = true ∧ clocked s 0 = true ∧
     dClass release1.raw.toNat = 5 ∧ dOp release1.raw.toNat = 3) ∧
    (let s := engSt 0 { releasing := some release1, out := [{ isWrite := true, scope := 1 }] }
     ((seatOf s 0).eng 0).cur = none ∧ ((seatOf s 0).eng 0).releasing = some release1 ∧
     ∃ o ∈ ((seatOf s 0).eng 0).out, o.isWrite = true ∧ o.scope ≤ yScope release1.raw.toNat) ∧
    (let s := engSt 0 { releasing := some release1, out := [{ isWrite := true, scope := 2 }, { isWrite := false, scope := 0 }] }
     ((seatOf s 0).eng 0).releasing = some release1 ∧ (∀ c, OnTime s 0 c) ∧
     ∀ o ∈ ((seatOf s 0).eng 0).out, o.isWrite = true → yScope release1.raw.toNat < o.scope) := by
  unfold EngRuns OnTime
  refine ⟨by decide +kernel, by decide +kernel, by decide +kernel, by decide +kernel, by decide +kernel, by decide +kernel,
    fun c => ⟨by decide +kernel, rfl, rfl⟩, by decide +kernel⟩

/-- A packet of TYPE `ty` to space `sp`, offset `o`, of seat 0 of crew 0, with further header fields. -/
def pk (ty sp o : Nat) (fs : List (Nat × Nat × Nat)) (data : List Granule) : Pkt :=
  ⟨BitVec.ofNat 512 (pack ([(0, 4, ty), (36, 64, fabricAddr 0 0 0 0 sp o)] ++ fs)), data⟩

/-- That packet has come from seat 5 to `tg`. -/
def dlv (tg : Target) (p : Pkt) : Deliv := { target := tg, pkt := p, sender := some 5 }
/-- It is at its destination; the rest of the part is `s`. -/
def arrSt (s : State) (tg : Target) (p : Pkt) : State := { s with noc := { s.noc with arrive := [dlv tg p] } }

/-- A header of TYPE `ty` to address `a`, of way `t`, with further fields. -/
def hflit (ty a : Nat) (fs : List (Nat × Nat × Nat)) (t : Trip) : Flit :=
  { head := some t, data := BitVec.ofNat 512 (pack ([(0, 4, ty), (36, 64, a)] ++ fs)), last := true }

/-- Seats 0 and 1 stand in crew 0's map, of which `f` are fenced; half 0 is in power state `half`, and crew 0 in Paddle or not. -/
def netSt (f : BitVec 24) (half : Nat) (paddle : Bool) : State :=
  { State.reset with noc := { State.reset.noc with map := [(0, { phys := [0, 1], fenced := f })] },
                     pwr := { State.reset.pwr with half := [(0, half)] }, clk := { State.reset.clk with dom := [(0, { paddle := paddle })] } }

/-- Input `p` of node `n` on channel `v` holds `b`. -/
def atIn (s : State) (n p v : Nat) (b : Buf) : State := { s with noc := { s.noc with buf := (bufKey n p v, b) :: s.noc.buf } }

/-- The header `f` stands in the outbound buffer of engine 0 of seat 0, `k` earlier packets of which await answers. -/
def boxSt (f : Flit) (k : Nat) : State :=
  { netSt 0 0 false with seats := [(0, { cox := { state := .walking }, dma := { outbox := [f], out := List.replicate (k + 1) {} } })] }

/-- The way of a packet that has not met its router. -/
def fresh : Trip := { entered := false, sender := some 0 }

/-- A packet that seat 0 sends stands as the statements of its entry ask. -/
def Enters (k ty a : Nat) (fs : List (Nat × Nat × Nat)) : Prop :=
  let s := boxSt (hflit ty a fs fresh) k
  AtFront s 0 9 1 (hflit ty a fs fresh) fresh ∧ outboxOpen s 0 9 = decide (k < 128)

theorem witness_MeshEntry :
    Enters 128 1 0 [] ∧
    (Enters 0 1 (2 ^ 63) [] ∧ 2 ≤ fld (2 ^ 63) 62 2) ∧
    (let a := fabricAddr 1 0 0 0 1 0
     Enters 127 1 a [] ∧ fld a 62 2 < 2 ∧ fld a 50 12 ≠ State.reset.chain.node) ∧
    (let a := fabricAddr 0 1 0 0 8 0
     Enters 0 1 a [] ∧ fld a 62 2 < 2 ∧ fld a 50 12 = State.reset.chain.node ∧ fld a 34 4 = 8) ∧
    (let a := fabricAddr 0 0 48 0 1 0
     Enters 0 1 a [] ∧ fld a 62 2 < 2 ∧ fld a 50 12 = State.reset.chain.node ∧ fld a 34 4 ≠ 8 ∧ 47 < fld a 43 6) ∧
    (let a := fabricAddr 0 0 0 2 1 0
     Enters 0 1 a [] ∧ fld a 34 4 ≠ 8 ∧ fld a 43 6 ≤ 47 ∧ physAt (boxSt (hflit 1 a [] fresh) 0) 0 0 (fld a 38 5) = none) ∧
    (let a := fabricAddr 0 0 0 1 1 0
     Enters 0 1 a [] ∧ fld a 34 4 ≠ 8 ∧ fld a 43 6 ≤ 47 ∧ physAt (boxSt (hflit 1 a [] fresh) 0) 0 0 (fld a 38 5) = some 1) ∧
    (pMcast (hflit 1 0 [] fresh).data.toNat = 0 ∧
      128 ≤ ((seatOf (boxSt (hflit 1 0 [] fresh) 128) 0).eng 0).out.length -
        ((source (boxSt (hflit 1 0 [] fresh) 128) 0 9 1).flits.filter fun f => f.head.isSome).length) := by
  unfold Enters AtFront
  refine ⟨?_, ?_, ?_, ?_, ?_, ?_, ?_, ?_⟩ <;> decide +kernel

theorem witness_AnswersAndMulticast :
    (dlv (.seat 0) (pk 1 1 0 [] [])).group = none ∧
    (let g : Machine.Group := { left := 2, hdr := (pk 1 1 0 [] []).hdr, sender := 5 }
     let s := { State.reset with noc := { State.reset.noc with groups := [(4, g)] } }
     { dlv (.seat 0) (pk 1 1 0 [] []) with group := some 4 }.group = some 4 ∧ tfind s.noc.groups 4 = some g ∧ 1 < g.left) ∧
    (let g : Machine.Group := { left := 1, refused := 1, code := 2, stale := 1, hdr := (pk 1 1 0 [] []).hdr, sender := 5 }
     g.left = 1 ∧ 0 < g.refused ∧ g.code < 16) ∧
    (let a := fabricAddr 0 0 0 0 1 0
     let fs := [(134, 2, 1), (136, 48, 5)]
     let f := hflit 1 a fs fresh
     let s := boxSt f 0
     let ms := members s 0 f.data.toNat
     Enters 0 1 a fs ∧ fld a 62 2 < 2 ∧ fld a 50 12 = s.chain.node ∧ fld a 34 4 ≠ 8 ∧ pMcast f.data.toNat ≠ 0 ∧
     (ms.filter fun m => (physAt s 0 m.1 m.2).isNone).length = 1 ∧ ms.length = 2) ∧
    (let t : Trip := { goal := .crew 0, spread := true, sender := some 5, group := some 3 }
     let f := hflit 1 0 [(134, 2, 1), (136, 48, 2)] t
     let s := atIn (netSt 0 0 false) 0 3 1 { flits := [f] }
     AtFront s 0 3 1 f t ∧ 0 ∈ dueOuts 0 3 (source s 0 3 1) ∧ t.group ≠ none ∧ isMember s 0 f.data.toNat = false ∧
     t.ahead (coordOf 0) = [] ∧ t.goal = .crew (crewOf 0)) := by
  unfold Enters AtFront
  refine ⟨?_, ?_, ?_, ?_, ?_⟩ <;> decide +kernel

/-- A packet at the end of its way stands as the statements about it ask. -/
def AtEnd (s : State) (n p v o : Nat) (f : Flit) (t : Trip) : Prop :=
  AtFront s n p v f t ∧ t.entered = true ∧ o ∈ dueOuts n p (source s n p v)

/-- A request to seat 0 that has come to its router from seat 5, and one toward half 0 at row switch 3. -/
def toSeat : Trip := { goal := .seat 0, sender := some 5 }
/-- The same, of multicast 3. -/
def toMany : Trip := { goal := .crew 0, spread := true, sender := some 5, group := some 3 }

theorem witness_WayEnds :
    (let s := atIn (netSt 1 0 false) 0 4 1 { flits := [hflit 1 0 [] toSeat] }
     AtEnd s 0 4 1 0 (hflit 1 0 [] toSeat) toSeat ∧ toSeat.group = none ∧ seatFenced s 0 = true) ∧
    (let f := hflit 1 0 [(134, 2, 1), (136, 48, 1)] toMany
     let s := atIn { netSt 1 0 false with noc := { (netSt 1 0 false).noc with mapLag := [(0, [0, 1], [0])] } } 0 4 1 { flits := [f] }
     AtEnd s 0 4 1 0 f toMany ∧ toMany.group = some 3 ∧ isMember s 0 f.data.toNat = true ∧ seatFenced s 0 = true) ∧
    (let s := atIn (netSt 0 0 true) 0 4 1 { flits := [hflit 1 0 [] toSeat] }
     AtEnd s 0 4 1 0 (hflit 1 0 [] toSeat) toSeat ∧ seatFenced s 0 = false ∧ (domOf s (crewOf 0)).paddle = true ∧ (source s 0 4 1).noted = false) ∧
    (let s := atIn (netSt 0 0 true) 0 4 1 { flits := [hflit 1 0 [] toSeat], noted := true }
     AtEnd s 0 4 1 0 (hflit 1 0 [] toSeat) toSeat ∧ seatFenced s 0 = false ∧ (source s 0 4 1).noted = true) ∧
    (let s := atIn (netSt 0 3 false) 2307 1 1 { flits := [hflit 1 0 [] toSeat] }
     AtEnd s 2307 1 1 4 (hflit 1 0 [] toSeat) toSeat ∧ halfBoated s 0 = true ∧ halfEasy s 0 = false ∧ seatFenced s 0 = false) ∧
    (let s := atIn (netSt 0 3 false) 2307 1 2 { flits := [hflit 6 0 [] toSeat] }
     AtEnd s 2307 1 2 4 (hflit 6 0 [] toSeat) toSeat ∧ halfBoated s 0 = true ∧ halfEasy s 0 = false) ∧
    (let s := atIn (netSt 0 2 false) 2307 1 1 { flits := [hflit 1 0 [] toSeat] }
     AtEnd s 2307 1 1 4 (hflit 1 0 [] toSeat) toSeat ∧ halfEasy s 0 = true ∧ (source s 2307 1 1).noted = false ∧ seatFenced s 0 = false) := by
  unfold AtEnd AtFront
  refine ⟨?_, ?_, ?_, ?_, ?_, ?_, ?_⟩ <;> decide +kernel

/-- A granule whose bytes count up from 1. -/
def gran : Granule := BitVec.ofNat 512 0x04030201

theorem witness_WritesLand :
    (let d : Deliv := { dlv (.seat 0) (pk 1 1 0 [(193, 5, 1)] []) with verdict := some .stale }
     let s := { State.reset with noc := { State.reset.noc with arrive := [d] } }
     Arrives s 0 tyWrite (.seat 0) d ∧ d.verdict = some .stale) ∧
    (let p := pk 1 1 0 [(193, 5, 1)] [gran]
     let s := arrSt (seatSt { cox := { filling := true } }) (.seat 0) p
     Arrives s 0 tyWrite (.seat 0) (dlv (.seat 0) p) ∧ (dlv (.seat 0) p).verdict = none ∧ pSpace p.hdr.toNat = 1 ∧ (seatOf s 0).cox.filling = true) ∧
    (let p := pk 1 1 0x5FFC0 [(184, 8, 63), (192, 1, 1), (193, 5, 1)] [gran]
     let s := arrSt State.reset (.seat 0) p
     Arrives s 0 tyWrite (.seat 0) (dlv (.seat 0) p) ∧ (seatOf s 0).cox.filling = false ∧ liveAt s 0 (pEpoch p.hdr.toNat) = true ∧
     InSeat (pSpace p.hdr.toNat) (pOff p.hdr.toNat) (64 * pLen p.hdr.toNat) 64 ∧ pLen p.hdr.toNat = 1 ∧ pLctr p.hdr.toNat ≤ 63 ∧
     0 ∉ (dlv (.seat 0) p).wrote ∧ p.data[0]? = some gran) ∧
    (let p := pk 1 2 0xFFC0 [(193, 5, 1)] [gran]
     let s := arrSt State.reset (.seat 0) p
     Arrives s 0 tyWrite (.seat 0) (dlv (.seat 0) p) ∧ liveAt s 0 (pEpoch p.hdr.toNat) = true ∧ pLen p.hdr.toNat = 1 ∧
     InSeat (pSpace p.hdr.toNat) (pOff p.hdr.toNat) (64 * pLen p.hdr.toNat) 64 ∧ pageBusy (seatOf s 0) (pOff p.hdr.toNat) 64 = false) ∧
    (let p := pk 1 1 0 [(20, 16, 1), (193, 5, 1)] [gran]
     let s := arrSt State.reset (.seat 0) p
     Arrives s 0 tyWrite (.seat 0) (dlv (.seat 0) p) ∧ liveAt s 0 (pEpoch p.hdr.toNat) = false) ∧
    (let p := pk 1 1 0x60000 [(193, 5, 1)] [gran]
     let s := arrSt State.reset (.seat 0) p
     Arrives s 0 tyWrite (.seat 0) (dlv (.seat 0) p) ∧ liveAt s 0 (pEpoch p.hdr.toNat) = true ∧ (dlv (.seat 0) p).wrote = [] ∧
     ¬ InSeat (pSpace p.hdr.toNat) (pOff p.hdr.toNat) (64 * pLen p.hdr.toNat) 64) ∧
    (let p := pk 1 2 0 [(193, 5, 1)] [gran]
     let s := arrSt (seatSt { cox := { use0 := some (1, 0) } }) (.seat 0) p
     Arrives s 0 tyWrite (.seat 0) (dlv (.seat 0) p) ∧ liveAt s 0 (pEpoch p.hdr.toNat) = true ∧
     InSeat (pSpace p.hdr.toNat) (pOff p.hdr.toNat) (64 * pLen p.hdr.toNat) 64 ∧ pageBusy (seatOf s 0) (pOff p.hdr.toNat) (64 * pLen p.hdr.toNat) = true) ∧
    (let p := pk 1 8 0x4FFFFFC0 [(193, 5, 1)] [gran]
     let s := arrSt State.reset (.pool 0) p
     Arrives s 0 tyWrite (.pool 0) (dlv (.pool 0) p) ∧ liveAt s (poolTable 0) (pEpoch p.hdr.toNat) = true ∧ pOff p.hdr.toNat % 64 = 0 ∧
     pOff p.hdr.toNat + 64 * pLen p.hdr.toNat = 0x50000000 ∧ spanOpen (poolOf s 0) (pOff p.hdr.toNat) 64 = true ∧ p.data[0]? = some gran) ∧
    (let p := pk 1 8 0x4FFFFFC0 [(193, 5, 1)] [gran]
     let s := arrSt { State.reset with pools := [(0, { ready := 0x7FFFF })] } (.pool 0) p
     Arrives s 0 tyWrite (.pool 0) (dlv (.pool 0) p) ∧ spanOpen (poolOf s 0) (pOff p.hdr.toNat) (64 * pLen p.hdr.toNat) = false) ∧
    (let p := pk 1 8 0x50000000 [(193, 5, 1)] [gran]
     Arrives (arrSt State.reset (.pool 0) p) 0 tyWrite (.pool 0) (dlv (.pool 0) p) ∧ ¬ (pOff p.hdr.toNat + 64 * pLen p.hdr.toNat ≤ 0x50000000)) ∧
    (let p := pk 1 8 0 [(20, 16, 1), (193, 5, 1)] [gran]
     let s := arrSt State.reset (.pool 0) p
     Arrives s 0 tyWrite (.pool 0) (dlv (.pool 0) p) ∧ liveAt s (poolTable 0) (pEpoch p.hdr.toNat) = false) ∧
    (let p := pk 2 1 0x5FFFC [] []
     let s := arrSt State.reset (.seat 0) p
     Arrives s 0 tyWord (.seat 0) (dlv (.seat 0) p) ∧ liveAt s 0 (pEpoch p.hdr.toNat) = true ∧ (seatOf s 0).cox.filling = false ∧
     InSeat (pSpace p.hdr.toNat) (pOff p.hdr.toNat) 4 4) ∧
    (let p := pk 2 4 0x1FC [] []
     let s := arrSt State.reset (.seat 0) p
     Arrives s 0 tyWord (.seat 0) (dlv (.seat 0) p) ∧ pSpace p.hdr.toNat = 4 ∧ pOff p.hdr.toNat % 4 = 0 ∧ pOff p.hdr.toNat < 0x200) ∧
    (let p := pk 2 8 0x500007FC [] []
     let s := arrSt State.reset (.pool 1) p
     Arrives s 0 tyWord (.pool 1) (dlv (.pool 1) p) ∧ liveAt s (poolTable 1) (pEpoch p.hdr.toNat) = true ∧ 0x50000000 ≤ pOff p.hdr.toNat ∧
     pOff p.hdr.toNat < 0x50000800 ∧ pOff p.hdr.toNat % 4 = 0) ∧
    (let p := pk 2 8 0x4FFFFFFC [] []
     Arrives (arrSt State.reset (.pool 1) p) 0 tyWord (.pool 1) (dlv (.pool 1) p) ∧ pOff p.hdr.toNat < 0x50000000) := by
  unfold Arrives InSeat
  refine ⟨?_, ?_, ?_, ?_, ?_, ?_, ?_, ?_, ?_, ?_, ?_, ?_, ?_, ?_, ?_⟩ <;> decide +kernel

/-- A FINISH of counter 63 with EXPECT 5 and SLACK 1. -/
def fin63 : Pkt := pk 3 4 0x1F8 [(298, 32, 9), (330, 32, 5), (362, 8, 1)] []
/-- The same for the last counter of a pool. -/
def fin255 : Pkt := pk 3 8 0x500007F8 [(298, 32, 9), (330, 32, 5), (362, 8, 1)] []
/-- FINISH at seat 0 with the counter at `c` and `n` finishes held. -/
def finSt (c : Word) (n : Nat) : State :=
  arrSt (seatSt { cox := { state := .walking }, lnd := { ctr := [(63, c)], held := List.replicate n {} } }) (.seat 0) fin63
/-- The same at the pool of half 0. -/
def finPl (c : Word) (n : Nat) : State :=
  arrSt { State.reset with pools := [(0, { lnd := { ctr := [(255, c)], held := List.replicate n {} } })] } (.pool 0) fin255

theorem witness_Finishes :
    (Arrives (finSt 5 7) 0 tyFinish (.seat 0) (dlv (.seat 0) fin63) ∧ liveAt (finSt 5 7) 0 (pEpoch fin63.hdr.toNat) = true ∧
      pSpace fin63.hdr.toNat = 4 ∧ pOff fin63.hdr.toNat = 0x1F8 ∧ (seatOf (finSt 5 7) 0).lnd.held.length = 7 ∧
      satisfies (tget 0 (seatOf (finSt 5 7) 0).lnd.ctr 63) 5 = true ∧ ¬ ((1 : Int) < ((5 : Word) - 5).toInt)) ∧
    ((1 : Int) < ((7 : Word) - 5).toInt ∧ satisfies (tget 0 (seatOf (finSt 7 7) 0).lnd.ctr 63) 5 = true ∧
      (seatOf (finSt 7 7) 0).cox.state = .walking) ∧
    (satisfies (tget 0 (seatOf (finSt 4 7) 0).lnd.ctr 63) 5 = false ∧ (seatOf (finSt 4 7) 0).lnd.held.length = 7) ∧
    (Arrives (finSt 5 8) 0 tyFinish (.seat 0) (dlv (.seat 0) fin63) ∧ 8 ≤ (seatOf (finSt 5 8) 0).lnd.held.length) ∧
    (Arrives (finPl 6 31) 0 tyFinish (.pool 0) (dlv (.pool 0) fin255) ∧ liveAt (finPl 6 31) (poolTable 0) (pEpoch fin255.hdr.toNat) = true ∧
      pOff fin255.hdr.toNat = 0x500007F8 ∧ (poolOf (finPl 6 31) 0).lnd.held.length = 31 ∧
      satisfies (tget 0 (poolOf (finPl 6 31) 0).lnd.ctr 255) 5 = true ∧ ¬ ((1 : Int) < ((6 : Word) - 5).toInt)) ∧
    (satisfies (tget 0 (poolOf (finPl 4 31) 0).lnd.ctr 255) 5 = false ∧ (poolOf (finPl 4 31) 0).lnd.held.length = 31) ∧
    (Arrives (finPl 4 32) 0 tyFinish (.pool 0) (dlv (.pool 0) fin255) ∧ 32 ≤ (poolOf (finPl 4 32) 0).lnd.held.length) ∧
    (let f : Finish := { expect := 5, slack := 1, hit := some 6 }
     f.hit = some 6 ∧ ((6 : Word) - f.expect).toInt ≤ f.slack ∧ (seatOf (seatSt { lnd := { held := [f] } }) 0).lnd.held[0]? = some f ∧
     (poolOf { State.reset with pools := [(1, { lnd := { held := [f] } })] } 1).lnd.held[0]? = some f) := by
  unfold Arrives
  refine ⟨?_, ?_, ?_, ?_, ?_, ?_, ?_, ?_⟩ <;> decide +kernel

theorem witness_ReadsAndAnswers :
    (let p := pk 4 1 0x5FC00 [(136, 48, 16)] []
     let s := arrSt State.reset (.seat 0) p
     Arrives s 0 tyRead (.seat 0) (dlv (.seat 0) p) ∧ liveAt s 0 (pEpoch p.hdr.toNat) = true ∧ pCount p.hdr.toNat = 16 ∧
     InSeat (pSpace p.hdr.toNat) (pOff p.hdr.toNat) (64 * pCount p.hdr.toNat) 64 ∧ (seatOf s 0).cox.filling = false) ∧
    (let p := pk 4 2 0 [(136, 48, 1)] []
     let s := arrSt State.reset (.seat 0) p
     Arrives s 0 tyRead (.seat 0) (dlv (.seat 0) p) ∧ pSpace p.hdr.toNat = 2 ∧ InSeat 2 (pOff p.hdr.toNat) (64 * pCount p.hdr.toNat) 64) ∧
    (let p := pk 4 8 0x4FFFFFC0 [(136, 48, 1)] []
     let s := arrSt State.reset (.pool 0) p
     Arrives s 0 tyRead (.pool 0) (dlv (.pool 0) p) ∧ liveAt s (poolTable 0) (pEpoch p.hdr.toNat) = true ∧ pOff p.hdr.toNat % 64 = 0 ∧
     pOff p.hdr.toNat + 64 * pCount p.hdr.toNat ≤ 0x50000000 ∧ spanOpen (poolOf s 0) (pOff p.hdr.toNat) 64 = true) ∧
    (let p := pk 5 1 0 [(193, 5, 1), (192, 1, 1)] [gran]
     Arrives (arrSt State.reset (.seat 0) p) 0 tyRdata (.seat 0) (dlv (.seat 0) p) ∧ liveAt State.reset 0 (pEpoch p.hdr.toNat) = true ∧
     (dlv (.seat 0) p).verdict = none ∧ pLen p.hdr.toNat = 1 ∧ 0 ∉ (dlv (.seat 0) p).wrote ∧ p.data[0]? = some gran) ∧
    (let p := pk 5 1 0 [(20, 16, 1), (193, 5, 1)] [gran]
     Arrives (arrSt State.reset (.seat 0) p) 0 tyRdata (.seat 0) (dlv (.seat 0) p) ∧ liveAt State.reset 0 (pEpoch p.hdr.toNat) = false ∧
     (dlv (.seat 0) p).full = true) ∧
    (let p := pk 6 0 0 [] []
     Arrives (arrSt State.reset (.seat 0) p) 0 tyAck (.seat 0) (dlv (.seat 0) p)) ∧
    (let p := pk 7 0 0 [(4, 4, 5), (8, 12, 0xFFF), (132, 2, 1)] []
     let o : Outst := { tag := 0xFFF }
     let s := arrSt (seatSt { cox := { state := .walking }, net := { out := [o] } }) (.seat 0) p
     Arrives s 0 tyNack (.seat 0) (dlv (.seat 0) p) ∧ (seatOf s 0).cox.state = .walking ∧ (seatOf s 0).cox.epoch = pEpoch p.hdr.toNat ∧
     awaited (seatOf s 0) p.hdr.toNat = some o ∧ pStatus p.hdr.toNat = 5) := by
  unfold Arrives InSeat
  refine ⟨?_, ?_, ?_, ?_, ?_, ?_, ?_⟩ <;> decide +kernel

/-- Router 0 holds the header `f` of a request to seat 1 on its west input; the next router holds `k` flits there. -/
def eastSt (f : Flit) (k : Nat) : State :=
  atIn (atIn (netSt 0 0 false) 1 3 1 { flits := List.replicate k {} }) 0 3 1 { flits := [f] }
/-- A packet on its way to seat 1. -/
def toOne : Trip := { goal := .seat 1, sender := some 5 }
/-- A granule of data, last of its packet. -/
def body : Flit := { data := 9, last := true }

theorem witness_RouterForward :
    (source State.reset 0 0 0).flits = [] ∧
    (let s := { netSt 0 0 false with clk := { State.reset.clk with dom := [(0, { stop := .step })] } }
     linkRuns s 0 3 = false) ∧
    (let f := hflit 10 0 [] toOne
     (source (eastSt f 0) 0 3 1).flits.head? = some f ∧ f.head = some toOne ∧ linkRuns (eastSt f 0) 0 3 = true ∧ 9 < pType f.data.toNat ∧
     pType (hflit 0 0 [] toOne).data.toNat = 0) ∧
    (let f := hflit 1 0 [] toOne
     let s := eastSt f 7
     AtFront s 0 3 1 f toOne ∧ toOne.entered = true ∧ (source s 0 3 1).left = [] ∧ mayPass s 0 3 1 4 = true ∧
     dueOuts 0 3 (source s 0 3 1) = [4]) ∧
    (let f := hflit 1 0 [] toOne
     let s := eastSt f 8
     AtFront s 0 3 1 f toOne ∧ hasRoom s (landing 0 3 4) 1 = false ∧ mayPass s 0 3 1 4 = false) ∧
    (let f := hflit 1 0 [] toSeat
     let s := atIn (netSt 0 0 false) 0 4 1 { flits := [f] }
     AtFront s 0 4 1 f toSeat ∧ seatFenced s 0 = false ∧ (domOf s (crewOf 0)).paddle = false ∧ mayPass s 0 4 1 0 = true ∧
     dueOuts 0 4 (source s 0 4 1) = [0]) ∧
    (let s := atIn (netSt 0 0 false) 0 3 1 { flits := [body], outs := [4] }
     (source s 0 3 1).flits.head? = some body ∧ body.head = none ∧ linkRuns s 0 3 = true ∧ (source s 0 3 1).left = [] ∧
     mayPass { s with noc := { s.noc with lock := [(bufKey 0 4 1, 4)] } } 0 3 1 4 = true ∧ (source s 0 3 1).outs = [4]) ∧
    (let s := atIn (netSt 0 0 false) 0 3 0 { flits := [hflit 9 0 [] toOne] }
     couldUse s 0 0 4 = true) ∧
    tget 0 ({ (netSt 0 0 false).noc with lock := [(bufKey 0 4 1, 3)] }).lock (bufKey 0 4 1) = 2 + 1 := by
  unfold AtFront
  refine ⟨?_, ?_, ?_, ?_, ?_, ?_, ?_, ?_, ?_⟩ <;> decide +kernel

theorem witness_WaysAndCredits :
    NetworkBounded State.reset ∧ step State.reset = .next State.reset ∧
    (let t : Trip := { legs := [(5, 7)], goal := .seat 1000 }
     t.ahead (coordOf 0) = [(5, 7)] ∧ (5, 7) ≠ coordOf 0 ∧ 5 / 48 = (coordOf 0).1 / 48) ∧
    (let t : Trip := { legs := [coordOf 0], goal := .seat 1000 }
     t.ahead (coordOf 0) = [] ∧ halfOf 0 = halfOf 1000) ∧
    (halfOf 0 = 0 ∧ halfOf 2000 = 1) := by
  refine ⟨⟨fun n p v k _ => Nat.zero_le k, fun d h => absurd h (List.not_mem_nil)⟩, ?_, ?_, ?_, ?_⟩
  · rfl
  all_goals decide +kernel

theorem witness_ControlTraffic :
    (let p := pk 8 0 0 [] []
     let s := arrSt (seatSt { cox := { dispatched := some (1, 0) } }) (.seat 0) p
     Arrives s 0 tyStart (.seat 0) (dlv (.seat 0) p) ∧ (seatOf s 0).cox.dispatched ≠ none) ∧
    ((65 : BitVec 16) ≠ 0 ∧ (65 : BitVec 16).toNat % 64 = 1 ∧ (classOf { State.reset with str := { classes := [(1, { state := 2 })] } } 1).state = 2) ∧
    halfEasy (netSt 0 2 false) 0 = true ∧
    (isCrossing 5 4 = true ∧ (∀ v, v < 3 → (bufOf State.reset 5 8 v).flits = []) ∧
      (bufOf (atIn State.reset 5 8 1 { flits := [body] }) 5 8 1).flits ≠ []) ∧
    (let s := { State.reset with noc := { State.reset.noc with map := [(3, { due := true })] },
                                 ctxs := { State.reset.ctxs with ctx := [(2, { g0 := { alloc := [(72 * 96, 0)] }, g1 := { alloc := [(95 * 96, 0)] } })] } }
     (mapOf s 3).due = true ∧ crewBusy s 3 = false ∧ (∃ p ∈ (ctxOf s 2).g0.alloc, p.1 / 96 / 24 = 3) ∧ ∃ p ∈ (ctxOf s 2).g1.alloc, p.1 / 96 / 24 = 3) ∧
    crewBusy { State.reset with str := { runs := [(1, { heats := [{ phase := .dispatched, seats := [72] }] })] } } 3 = true := by
  unfold Arrives
  decide +kernel

/-! Values by hand. -/

/-- 09 R288: the second packet of a SEND of 17 granules holds one granule, 16 granules on. -/
theorem test_send : (out (exec (.send 0 1) (engSt 1 { cur := some (job 4 1 [(162, 5, 1), (158, 4, 1), (97, 9, 17)]), sent := 1 }))).map (fun t =>
    ((seatOf t 0).net.outbox.head?).map fun f => (pLen f.data.toNat, fld (pDest f.data.toNat) 0 34, fld (pDest f.data.toNat) 38 5)) =
    some (some (1, 1024, 1)) := by decide +kernel
/-- 07 R238: a WRITE of one granule counts one. -/
theorem test_write : (out (exec (.writePkt 0 0)
    (arrSt (seatSt { lnd := { ctr := [(3, 0xFFFFFFFF)] } }) (.seat 0) (pk 1 1 64 [(184, 8, 3), (192, 1, 1), (193, 5, 1)] [gran])))).map
    (fun t => (mread (seatOf t 0).core 66, tget 0 (seatOf t 0).lnd.ctr 3, (bufOf t 0 portAnswers vcRsp).flits.map fun f => pType f.data.toNat)) =
    some (3, 0, [6]) := by decide +kernel
theorem test_word : (out (exec (.wordPkt 0) (arrSt State.reset (.seat 0) (pk 2 4 0x1C [(298, 32, 9)] [])))).map
    (fun t => tget 0 (seatOf t 0).lnd.flag 3) = some 9 := by decide +kernel
theorem test_finish : (out (exec (.finishPkt 0) (finSt 6 0))).map (fun t => tget 0 (seatOf t 0).lnd.flag 63) = some 9 := by decide +kernel
theorem test_finish_full : (out (exec (.finishPkt 0) (finSt 4 8))).map
    (fun t => (bufOf t 0 portAnswers vcRsp).flits.map fun f => (pType f.data.toNat, pStatus f.data.toNat)) = some [(7, 6)] := by decide +kernel
theorem test_read : (out (exec (.readPkt 0) (arrSt (seatSt { core := [(65, 7)] }) (.seat 0) (pk 4 1 64 [(136, 48, 1)] [])))).map
    (fun t => let fs := (bufOf t 0 portAnswers vcRsp).flits
      (fs.head?.map fun f => pType f.data.toNat, fs.getLast?.map (·.data))) = some (some 5, some 0x700) := by decide +kernel
/-- 09 R278: a packet of router 0 for seat 1 of crew 0 leaves to the east, and stands at the next router. -/
theorem test_forward : (out (exec (.routerForward 0 3 1 4 0) (eastSt (hflit 1 0 [] toOne) 0))).map
    (fun t => ((bufOf t 0 3 1).flits.length, (bufOf t 1 3 1).flits.map (·.head))) = some (0, [some toOne]) := by decide +kernel


/-! ## The weight store and the pools -/

/-- Every bank of a seat with the debt `n`. -/
def debts (n : Nat) : Tbl Nat := (List.range 32).map fun b => (b, n)

theorem witness_Refresh :
    (halfEasy State.reset 0 = false ∧ halfBoated State.reset 0 = false) ∧
    (let s := { seatSt { wst := { accrued := 6251 } } with clk := { State.reset.clk with ticks := 12500, dom := [(0, { accrual := some 0 })] } }
     let p := (domOf s (crewOf 0)).accrual.getD s.clk.ticks
     (seatOf s 0).wst.accrued = 6250 + 1 ∧ 6250 % 6250 = p % 6250 ∧ dueAccrual (seatOf s 0).wst p ≤ s.clk.ticks) ∧
    (let s := { seatSt { wst := { accrued := 6251 } } with clk := { State.reset.clk with ticks := 12499, dom := [(0, { accrual := some 0 })] } }
     s.clk.ticks < dueAccrual (seatOf s 0).wst ((domOf s (crewOf 0)).accrual.getD s.clk.ticks)) ∧
    (∀ b, b < 32 → debtOf (seatOf (seatSt { wst := { debt := debts 127 } }) 0) b < 128) ∧
    (let s := seatSt { wst := { debt := debts 1 } }
     0 < debtOf (seatOf s 0) 31 ∧ (seatOf s 0).wst.forcing = none ∧ restSlot (seatOf s 0) 31 0 225 = true) ∧
    (let s := seatSt { cox := { cycle := 8 }, wst := { debt := [(31, 128)] } }
     (∃ b, b < 32 ∧ 128 ≤ debtOf (seatOf s 0) b) ∧ (seatOf s 0).wst.forcing = none ∧ clocked s 0 = true ∧ hardPending s (crewOf 0) = false ∧
     (seatOf s 0).cox.cycle ≤ 8) ∧
    (let s := seatSt { cox := { state := .walking, cycle := 8 }, wst := { forcing := some 8 } }
     (seatOf s 0).wst.forcing = some 8 ∧ (seatOf s 0).cox.state = .walking ∧ (seatOf s 0).cox.cycle ≤ 8) := by
  refine ⟨?_, ?_, ?_, ?_, ?_, ⟨⟨31, ?_, ?_⟩, ?_, ?_, ?_, ?_⟩, ?_⟩ <;> decide +kernel

/-- A seat with that side-port work. -/
def workSt (ws : List SideWork) (m : Mem) : State := seatSt { wst := { work := ws }, store := m }

theorem witness_SidePort :
    (refreshes (workSt [] []) 0 = true ∧ nextWork (seatOf (workSt [.diag 98303, .write 98303 gran] []) 0) 0 = some 1) ∧
    (seatOf (workSt [.diag 98303, .write 98303 gran] []) 0).wst.work[1]? = some (.write 98303 gran) ∧
    (nextWork (seatOf (workSt [.diag 98303] []) 0) 0 = some 0 ∧ (seatOf (workSt [.diag 98303] []) 0).wst.work[0]? = some (.diag 98303)) ∧
    (let s := { workSt [.diag 98303] [] with sec := { State.reset.sec with unlocked := true, scope := 2 } }
     s.sec.unlocked = true ∧ s.sec.scope.getLsbD 1 = true) ∧
    (workSt [] []).sec.unlocked = false ∧
    (nextWork (seatOf (workSt [.scrub 0 33] []) 0) 0 = some 0 ∧ (seatOf (workSt [.scrub 0 33] []) 0).wst.work[0]? = some (.scrub 0 33)) ∧
    (seatOf (workSt [.scrub 0 34] []) 0).wst.work[0]? = some (.scrub 0 34) ∧
    (let m := mslice (seatOf (workSt [.scrub 0 34] (tileOf 1 1)) 0).store (64 * 0) 2240
     tileCrc m kindWeight ≠ BitVec.ofNat 32 (tileStored m kindWeight)) ∧
    (let m := mslice (seatOf (workSt [.scrub 0 34] (tileOf 1 574935358)) 0).store (64 * 0) 2240
     tileCrc m kindWeight = BitVec.ofNat 32 (tileStored m kindWeight)) ∧
    (let t := (seatOf (seatSt { wst := { extents := [0, 70], scrubAt := 35 } }) 0).wst
     t.scrubEn = true ∧ (∀ k ∈ t.work, workRank k ≠ 2) ∧ t.scrubTick = 0 ∧ t.extents.find? (fun e => decide (t.scrubAt ≤ e)) = some 70) ∧
    (let s := workSt [.fill 7 2] []
     nextWork (seatOf s 0) 0 = some 0 ∧ (seatOf s 0).wst.work[0]? = some (.fill 7 2) ∧ ∀ e k, .scrub e k ∈ (seatOf s 0).wst.work → 7 < e ∨ e + 35 ≤ 7) ∧
    ((1 : Word).getLsbD 0 = true ∧ (seatOf State.reset 0).disabled = false ∧ (2 : Word).getLsbD 0 = false) ∧
    ((85 : Int) < (86 : Byte).toInt ∧ (82 : Byte).toInt ≤ 82 ∧ ¬ ((83 : Byte).toInt ≤ 82)) := by
  refine ⟨?_, ?_, ?_, ?_, ?_, ?_, ?_, ?_, ?_, ?_, ⟨?_, ?_, ?_⟩, ?_, ?_⟩
  case refine_8 => dsimp only; rw [tileCrc_run]; decide +kernel
  case refine_9 => dsimp only; rw [tileCrc_run]; decide +kernel
  case refine_13 => intro e k h; simp [workSt, seatSt, seatOf, tget, tfind] at h
  all_goals decide +kernel

theorem witness_PoolSegments :
    (base.glb.fw = .ready ∧ poolRuns base 0 = true ∧ (poolOf base 0).ready.getLsbD 19 = true ∧ (poolOf base 0).closing.getLsbD 19 = false ∧
      graphInSeg base 0 19 = false) ∧
    (let s := { base with str := { graphs := [(3, { off := 0x4FFFF000, bytes := 0x1000 })] }, pools := [(0, { closing := 0x80000 })] }
     graphInSeg s 0 19 = true ∧ (poolOf s 0).closing.getLsbD 19 = true) ∧
    graphInSeg { base with str := { graphs := [(3, { off := 0x4FFFF000, bytes := 0x1000 })] } } 0 19 = true ∧
    ((poolOf { base with pools := [(1, { closing := 0x80000 })] } 1).closing.getLsbD 19 = true ∧
      graphInSeg { base with pools := [(1, { closing := 0x80000 })] } 1 19 = false) ∧
    (let s := { base with pools := [(1, { on := 0x7FFFF })] }
     poolRuns s 1 = true ∧ (poolOf s 1).on.getLsbD 19 = false ∧ (poolOf s 1).dead.getLsbD 19 = false) ∧
    (poolOf base 1).on.getLsbD 19 = true := by decide +kernel

/-- 05 R174: at the lowest clock step a forced refresh holds a seat for 360 cycles and takes 8 from every bank. -/
theorem test_forcedRefresh : (out (exec (.forcedRefreshEnd 0)
    { seatSt { cox := { state := .walking, cycle := 8 }, wst := { forcing := some 8, debt := debts 128 } } with
      clk := { State.reset.clk with dom := [(0, { step := 6 })] } })).map
    (fun t => ((seatOf t 0).cox.cycle, debtOf (seatOf t 0) 31, (seatOf t 0).cox.heldRefresh)) = some (368, 120, 360) := by decide +kernel

/-- A diagnostic read without debug access shows all ones. -/
theorem test_diagRead : (out (exec (.sidePortTransfer 0 0) (workSt [.diag 5] [(320, 7)]))).map (fun t => (seatOf t 0).wst.diagData) =
    some (BitVec.allOnes 512) := by decide +kernel


/-! ## The starter -/

theorem witness_CounterSatisfies : (2 ^ 31 < 2 ^ 32) ∧ (2 ^ 31 + 1 < 2 ^ 32) := by decide

/-- 07 R239 at the bound: a counter 2^31 past its target satisfies it, and one granule more does not. -/
theorem test_satisfies : satisfies (5 + 0x80000000) 5 = true ∧ satisfies (5 + 0x80000001) 5 = false := by decide

/-- A graph image of one heat for logical seat 0 of crew 0 and one page image of one descriptor, with header CRC `c`. -/
def graphImage (c : Nat) : Mem :=
  mwr [(0, 0x48), (1, 0x47), (2, 0x57), (3, 0x4E), (4, 1), (8, 1), (0xA, 1), (0xD, 2), (0x10, 0x40), (0x15, 4),
    (0x40, 0x60), (0x44, 1), (0x205, 1), (0x230, 1), (0x260, 1)] 0x3C 4 c

/-- GRAPH_SUBMIT from half `half`, offset `off`, with that image at offset 0 of pool 0 and `n` graphs submitted. -/
def submitSt (half off c n : Nat) : State :=
  cmd { base with pools := [(0, { mem := graphImage c })], str := { graphs := (List.range n).map fun k => (k, {}) } } 0x20
    [(128, 8, half), (192, 64, off)]

/-- The header CRC of an image, formed step by step. -/
theorem headerCrc_run (g : Src) : headerCrcBad g =
    (let f := crcByte 0x82F63B78
     BitVec.ofNat 32 (memRun f g.mem (512 * gHeats g) (g.off + gHeatTable g) (memRun f g.mem 0x3C (g.off + 0) 0xFFFFFFFF) ^^^ 0xFFFFFFFF)
       != w32 (g.rd 0x3C 4)) := by
  simp only [headerCrcBad, crc32c, memRun_eq, Src.bytes, List.foldl_append]

theorem image_submits : submitRefusal (submitSt 0 0 1838110741 15) 0 0 = none := by
  simp only [submitRefusal, headerCrc_run]
  decide +kernel

/-- RUN of graph `n` with RUN_TAG 16 for completion ring 15. -/
def runCmd (s : State) (n : Nat) : State := cmd s 0x22 [(128, 8, n), (144, 8, 15), (160, 16, 16)]

theorem witness_GraphsAndRuns :
    (let s := submitSt 0 0 1838110741 15
     commandOf s 0 0x20 = some (cmdVal 0x20 []) ∧ halfEasy s 0 = false ∧ tfind s.str.graphs 15 = none ∧
     (∀ m, m < 15 → tfind s.str.graphs m ≠ none) ∧ submitRefusal s 0 0 = none) ∧
    (let s := submitSt 1 0x4FFFF000 0 0
     commandOf s 0 0x20 = some (cmdVal 0x20 [(128, 8, 1), (192, 64, 0x4FFFF000)]) ∧ cb (cmdVal 0x20 [(128, 8, 1), (192, 64, 0x4FFFF000)]) 0x10 1 = 1 ∧
     cb (cmdVal 0x20 [(128, 8, 1), (192, 64, 0x4FFFF000)]) 0x18 8 = 0x4FFFF000 ∧ tfind s.str.graphs 0 = none ∧
     submitRefusal s 1 0x4FFFF000 = some (stBadGraph, 0xFFFF)) ∧
    (∀ n, n < 16 → tfind (submitSt 0 0 0 16).str.graphs n ≠ none) ∧
    (commandOf (submitSt 2 0 0 0) 0 0x20 = some (cmdVal 0x20 [(128, 8, 2)]) ∧ 1 < cb (cmdVal 0x20 [(128, 8, 2)]) 0x10 1) ∧
    (let s := cmd (runSt [hd] [{}] {}) 0x21 [(128, 8, 3)]
     commandOf s 0 0x21 = some (cmdVal 0x21 [(128, 8, 3)]) ∧ tfind s.str.graphs 3 = none) ∧
    (let s := cmd (runSt [hd] [{}] {}) 0x21 []
     commandOf s 0 0x21 = some (cmdVal 0x21 []) ∧ tfind s.str.graphs 0 ≠ none ∧ ∃ p ∈ s.str.runs, p.2.graph = 0) ∧
    (let s := cmd { base with str := { graphs := [(0, {})], runs := [(1, { graph := 3 })] } } 0x21 []
     commandOf s 0 0x21 = some (cmdVal 0x21 []) ∧ tfind s.str.graphs 0 ≠ none ∧ ∀ p ∈ s.str.runs, p.2.graph ≠ 0) ∧
    (let s := runCmd { base with glb := { base.glb with halted := true } } 0
     (commandOf s 0 0x22).isSome ∧ haltRefuses s = true) ∧
    (let s := runCmd base 0
     let c := cmdVal 0x22 [(144, 8, 15), (160, 16, 16)]
     commandOf s 0 0x22 = some c ∧ haltRefuses s = false ∧ s.glb.ready = true ∧ cb c 0x11 1 ≤ 1 ∧ cb c 0x12 1 = 15 ∧ tfind s.str.graphs 0 = none) ∧
    (let s0 := runSt [{ hd with ctx := 15 }] [] {}
     let runs : Tbl Run := (List.range 15).map fun k => (k + 1, { graph := 0, tag := BitVec.ofNat 16 (k + 1) })
     let cx : Tbl Ctx := [(15, { state := .resident, g1 := { state := .current, num := 255 } })]
     let s := runCmd { s0 with str := { s0.str with runs := runs }, ctxs := { s0.ctxs with ctx := cx } } 0
     tfind s.str.graphs 0 = some { heats := [{ hd with ctx := 15 }], images := [{ off := 64, count := 1, crc := 0x8A9136AA }] } ∧
     (cqrOf s 15).enable = true ∧ s.str.runs.length = 15 ∧ (∀ p ∈ s.str.runs, p.2.tag ≠ 16) ∧
     (∀ k, k < 16 → (∃ d ∈ ([{ hd with ctx := 15 }] : List HeatDesc), d.ctx = k) → (ctxOf s k).state ≠ .free) ∧
     (∀ k, k < 16 → (∃ d ∈ ([{ hd with ctx := 15 }] : List HeatDesc), d.ctx = k) → currentGen (ctxOf s k) ≠ none)) ∧
    (let s := cmd base 0x23 [(128, 16, 7)]
     commandOf s 0 0x23 = some (cmdVal 0x23 [(128, 16, 7)]) ∧ runOf s 7 = none) ∧
    (let s := cmd (runSt [hd, hd] [{ phase := .dispatched, seats := [0] }, {}] {}) 0x23 [(128, 16, 1)]
     commandOf s 0 0x23 = some (cmdVal 0x23 [(128, 16, 1)]) ∧ cb (cmdVal 0x23 [(128, 16, 1)]) 0x10 2 = 1 ∧
     ∃ run, runOf s 1 = some run ∧ run.cancel = none ∧ ∃ x ∈ run.heats, x.phase.ended = false) := by
  refine ⟨⟨?_, ?_, ?_, ?_, image_submits⟩, ?_, ?_, ?_, ?_, ?_, ?_, ?_, ?_, ?_, ?_, ?_, ?_, ⟨_, rfl, ?_, ?_⟩⟩ <;> decide +kernel

/-- A dependence of kind `k`. -/
def dep (k flags arg unit value : Nat) : DepRaw := BitVec.ofNat 128 (pack [(0, 8, k), (8, 8, flags), (16, 16, arg), (32, 32, unit), (64, 64, value)])

/-- The place that a heat of `hd` takes. -/
def place0 : Place := { role := 0, image := 0, ordinal := 0, q := 0, l := 0 }

theorem witness_PreloadAndReadiness :
    (let s := runSt [hd] [{}] { desc := [(0x8000, 1)], cox := { use0 := some (9, 9) } }
     let g : Graph := { heats := [hd], images := [{ off := 64, count := 1, crc := 0x8A9136AA }] }
     heatOf s 1 0 = some {} ∧ graphOf s 1 = some g ∧ (places (hdOf s 1 0)).find? (fun p => placeSeat s p == some 0) = some place0 ∧
     freePage (seatOf s 0) = some 1 ∧ g.images[0]? = some { off := 64, count := 1, crc := 0x8A9136AA } ∧ wantsPage s 1 0 0 {} = true ∧
     preloadWaits s 1 0 0 = false ∧ (mapOf s 0).due = false ∧ halfBoated s 0 = false ∧ halfEasy s 0 = false ∧ (domOf s 0).paddle = false ∧
     rangeServes (poolOf s 0) 64 32 = true ∧ crc32c (mbytes (poolOf s 0).mem 64 32) = 0x8A9136AA) ∧
    (let s := { runSt [hd] [{}] {} with pools := [(0, { ready := 0 })] }
     freePage (seatOf s 0) = some 0 ∧ rangeServes (poolOf s 0) 64 32 = false) ∧
    (let s := runSt [{ hd with deps := [dep 1 0 1 0 0] }, hd] [{}, { phase := .completed }] {}
     heatOf s 1 0 = some {} ∧ depsMet s 1 0 {} = true) ∧
    (let s := runSt [{ hd with deps := [dep 1 0 1 0 0] }, hd] [{}, {}] {}
     depsMet s 1 0 {} = false ∧ failedPred s 1 0 {} = none ∧ depSeatGone s 1 0 {} = false) ∧
    (let s := runSt [{ hd with deps := [0, dep 4 2 0 0 0] }] [{}] {}
     ∃ run, runOf s 1 = some run ∧ (hdOf s 1 0).deps[1]? = some (dep 4 2 0 0 0) ∧ depKind (dep 4 2 0 0 0) = 4 ∧
       depTime run (dep 4 2 0 0 0) ≤ domTime s 98) ∧
    (let s := runSt [{ hd with deps := [0, dep 4 2 0 0 1] }] [{}] {}
     ∃ run, runOf s 1 = some run ∧ domTime s 98 < depTime run (dep 4 2 0 0 1)) ∧
    (let s := runSt [hd, { hd with deps := [dep 1 0 0 0 0] }] [{ phase := .aborted }, {}] {}
     heatOf s 1 1 = some {} ∧ failedPred s 1 1 {} = some 0) ∧
    (let s := runSt [{ hd with deps := [dep 2 0 0 32 1] }] [{}] {}
     failedPred s 1 0 {} = none ∧ depSeatGone s 1 0 {} = true) := by
  refine ⟨?_, ?_, ?_, ?_, ⟨_, rfl, ?_, ?_, ?_⟩, ⟨_, rfl, ?_⟩, ?_, ?_⟩ <;> decide +kernel

/-- Heat 0 is ready and preloaded. -/
def readySt : State := runSt [hd] [{ phase := .ready, pre := [0] }] {}
/-- The same with its context faulted, and with every class held. -/
def faultedSt : State := { readySt with flt := { readySt.flt with faulted := 1 } }
def classlessSt : State := { readySt with str := { readySt.str with classes := (List.range 64).map fun k => (k, { state := 1 }) } }

theorem witness_DispatchAndBegin :
    (let x : Heat := { phase := .ready, pre := [0] }
     let run : Run := { heats := [x], gens := [(0, 1)] }
     runOf readySt 1 = some run ∧ run.heats[0]? = some x ∧ dispatchable readySt 1 0 x = true ∧ freeClasses readySt ≠ [] ∧
     overtaken readySt 1 0 x = false ∧ dispatchCheck readySt run (hdOf readySt 1 0) = none ∧
     boundGen readySt run (hdOf readySt 1 0).ctx = some { state := .current, num := 1 } ∧
     dispatchable faultedSt 1 0 x = true ∧ freeClasses faultedSt ≠ [] ∧ overtaken faultedSt 1 0 x = false ∧
     dispatchCheck faultedSt run (hdOf faultedSt 1 0) = some 2 ∧
     dispatchable classlessSt 1 0 x = true ∧ freeClasses classlessSt = [] ∧ x.waited = false) ∧
    (let s := runSt [hd] [] { core := [(0, 1)], cox := { filling := true, dispatched := some (1, 0) } }
     crewInRow s 0 = true ∧ (domOf s 0).stop = .none ∧ (seatOf s 0).cox.state = .noHeat ∧ (seatOf s 0).cox.filling = true ∧ (seatOf s 0).winWait = []) ∧
    (let s := runSt [hd] [] { core := [(0, 1)], winWait := [(0x5FFFC, some 7)], cox := { filling := true, dispatched := some (1, 0) } }
     (seatOf s 0).cox.filling = true ∧ (seatOf s 0).winWait = [(0x5FFFC, some 7)]) ∧
    (let s := runSt [hd] [] { cox := { use1 := some (1, 0), started := true, dispatched := some (1, 0) } }
     crewInRow s 0 = true ∧ (seatOf s 0).cox.state = .noHeat ∧ (seatOf s 0).cox.dispatched = some (1, 0) ∧ pageOf (seatOf s 0) 1 0 = some 1 ∧
     (seatOf s 0).cox.started = true ∧ (seatOf s 0).cox.filling = false ∧ (domOf s 0).stop = .none) := by
  refine ⟨?_, ?_, ?_, ?_⟩ <;> decide +kernel

/-- Heat 0 is dispatched on seat 0, which has finished its plan; its descriptor is `d` and the run's ring holds `n` entries. -/
def doneSt (d : HeatDesc) (z : Heat) (n : Nat) (g : Word) : State :=
  let s := runSt [d, hd] [z, {}] { cox := { state := .pastEnd, guard := [(0, g)] } }
  { s with cq := { s.cq with cq := [(0, { enable := true, hold := List.replicate n {} })] } }
/-- That heat. -/
def doneHeat : Heat := { phase := .dispatched, seats := [0], finished := [0], cls := 2, epoch := 66 }

theorem witness_HeatsEnd :
    (let s := doneSt { hd with flags := 2, succ := 1 } doneHeat 0 0
     let run : Run := { heats := [doneHeat, {}], gens := [(0, 1)] }
     runOf s 1 = some run ∧ run.heats[0]? = some doneHeat ∧ doneHeat.phase = .dispatched ∧ doneHeat.abortReq = none ∧ doneHeat.freed = false ∧
     (∀ w ∈ doneHeat.seats, w ∈ doneHeat.finished ∧ (seatOf s w).cox.state = .pastEnd) ∧ allAnswered s doneHeat.seats doneHeat.epoch = true ∧
     (gather s doneHeat.seats).1 = 0 ∧ (hdOf s 1 0).hasSucc = true ∧ heatOf s 1 1 = some {} ∧ (hdOf s 1 0).succ ≠ 0) ∧
    (let s := doneSt { hd with flags := 1 } doneHeat 255 0
     (hdOf s 1 0).hasDigest = true ∧ holdFull s 0 = false ∧ (hdOf s 1 0).hasSucc = false) ∧
    (let s := doneSt { hd with flags := 1 } doneHeat 256 0
     (hdOf s 1 0).hasDigest = true ∧ holdFull s 0 = true) ∧
    (let x : Heat := { doneHeat with abortReq := some (16, 9) }
     heatOf (runSt [hd] [x] {}) 1 0 = some x ∧ x.abortReq = some (16, 9) ∧ seqAfter 9 (runSt [hd] [x] {}).flt.handled = true) ∧
    (let s := { runSt [{ hd with watchdog := 5 }] [doneHeat] { lnd := { held := [{}] } } with clk := { base.clk with ticks := 5 } }
     doneHeat.freed = false ∧ (hdOf s 1 0).watchdog ≠ 0 ∧ doneHeat.startTick + (hdOf s 1 0).watchdog ≤ s.clk.ticks ∧
     ∃ w ∈ doneHeat.seats, lateSeat (seatOf s w) = true) ∧
    (let s := { runSt [{ hd with watchdog := 5 }] [doneHeat] {} with clk := { base.clk with ticks := 5 } }
     doneHeat.startTick + (hdOf s 1 0).watchdog ≤ s.clk.ticks ∧ ∀ w ∈ doneHeat.seats, lateSeat (seatOf s w) = false) ∧
    (let s := { runSt [{ hd with watchdog := 5 }] [doneHeat] {} with clk := { base.clk with ticks := 4 } }
     s.clk.ticks < doneHeat.startTick + (hdOf s 1 0).watchdog) ∧
    (let k : ClassSt := { state := 2, epoch := 127 }
     let s := { seatSt { dma := { out := [{ epoch := 63 }] } } with str := { classes := [(63, k)] } }
     let t := { seatSt { net := { out := [{ epoch := 127 }] } } with str := { classes := [(63, k)] } }
     let u := { State.reset with str := { classes := [(63, k)], lag := [(5, 63, 127)] } }
     (classOf s 63).state = 2 ∧ (∀ e ∈ s.str.lag, e.2.1 ≠ 63) ∧
     (∀ p ∈ s.seats, ∀ o ∈ p.2.dma.out ++ p.2.net.out, o.epoch ≠ (classOf s 63).epoch) ∧
     (classOf t 63).state = 2 ∧ (∃ p ∈ t.seats, ∃ o ∈ p.2.dma.out ++ p.2.net.out, o.epoch = (classOf t 63).epoch) ∧
     (classOf u 63).state = 2 ∧ ∃ e ∈ u.str.lag, e.2.1 = 63) ∧
    (let s := seatSt { cox := { state := .halted, epoch := 65 }, first := { count := 1 } }
     (seatOf s 0).cox.state = .halted ∧ (classOf s 1).epoch ≠ (seatOf s 0).cox.epoch ∧ (seatOf s 0).first.count ≠ 0) ∧
    (let s := { seatSt { cox := { state := .halted, epoch := 65 } } with str := { classes := [(1, { state := 2, epoch := 65 })] } }
     (classOf s 1).epoch = (seatOf s 0).cox.epoch ∧ (classOf s 1).state ≠ 0) := by
  refine ⟨?_, ?_, ?_, ?_, ?_, ?_, ?_, ?_, ?_, ?_⟩ <;> decide +kernel

/-- 07 R220: the one heat of a run completes, and the run is live no more. -/
theorem test_heatComplete : (out (exec (.heatComplete 1 0) (runSt [hd] [doneHeat] { cox := { state := .pastEnd } }))).map
    (fun t => ((runOf t 1).isNone, (seatOf t 0).cox.state)) = some (true, .noHeat) := by decide +kernel
/-- 07 R231: with its predecessor aborted the pending heat is abandoned with PREDECESSOR, 0x0101 of the starter's records. -/
theorem test_heatAbandon : (out (exec (.heatAbandon 1 1) (runSt [hd, { hd with deps := [dep 1 0 0 0 0] }, hd] [{ phase := .aborted }, {}, {}] {}))).map
    (fun t => ((heatOf t 1 1).map (·.phase), t.flt.path.map (·.code))) = some (some .abandoned, [0x0101]) := by decide +kernel


/-! ## Contexts and loads -/

/-- The part with publisher 7 enrolled and context `k` as `x`. -/
def ctxSt (k : Nat) (x : Ctx) : State :=
  { base with ctxs := { base.ctxs with ctx := [(k, x)] },
              sec := { base.sec with stateRec := { base.sec.stateRec with pubs := [(7, (1, 2))] } } }

/-- A command on context 15 with publisher, generation or flags `f`. -/
def ctxArgs (k f : Nat) : List (Nat × Nat × Nat) := [(128, 8, k), (136, 8, f)]

/-- A context with a CURRENT and a READY generation. -/
def twoGens : Ctx := { state := .resident, g0 := { state := .current, num := 255, alloc := [(0, 1)] }, g1 := { state := .ready, num := 1 } }

theorem witness_ContextsAndGenerations :
    (commandOf (cmd base 0x10 (ctxArgs 15 7)) 0 0x10 = some (cmdVal 0x10 (ctxArgs 15 7)) ∧ cb (cmdVal 0x10 (ctxArgs 15 7)) 0x10 1 = 15 ∧
      cb (cmdVal 0x10 (ctxArgs 15 7)) 0x11 1 = 7 ∧ 15 < cb (cmdVal 0x10 (ctxArgs 16 7)) 0x10 1 ∧
      (ctxOf (ctxSt 15 twoGens) 15).state ≠ .free ∧ (ctxOf base 15).state = .free ∧ tfind base.sec.stateRec.pubs 7 = none ∧
      tfind (ctxSt 0 {}).sec.stateRec.pubs 7 ≠ none) ∧
    (let s := cmd (ctxSt 15 twoGens) 0x14 (ctxArgs 15 0)
     commandOf s 0 0x14 = some (cmdVal 0x14 (ctxArgs 15 0)) ∧ (ctxOf s 14).state = .free ∧ (ctxOf s 15).state ≠ .free ∧ ctxNamed s 15 = false ∧
     ctxLoading s 15 = false ∧ (ctxOf s 15).g0.alloc = [(0, 1)]) ∧
    ctxNamed (runSt [hd] [{}] {}) 0 = true ∧
    ctxLoading { base with ctxs := { base.ctxs with loads := [{ ctx := 15 }] } } 15 = true ∧
    (let s := cmd (ctxSt 15 twoGens) 0x13 (ctxArgs 15 1)
     let c := cmdVal 0x13 (ctxArgs 15 1)
     commandOf s 0 0x13 = some c ∧ haltRefuses s = false ∧ cb c 0x10 1 = 15 ∧ (ctxOf s 15).state ≠ .free ∧
     (let a := (ctxOf s 15).g1
      let b := (ctxOf s 15).g0
      a.state = .ready ∧ b.state ≠ .ready ∧ a.num = cb c 0x11 1 ∧ a.complete = true ∧ b.state = .current ∧ genBound s 15 b.num = false)) ∧
    (let s := { runSt [hd] [{}] {} with ctxs := { base.ctxs with ctx := [(0, { twoGens with g0 := { state := .current, num := 1 } })] } }
     genBound s 0 (ctxOf s 0).g0.num = true) ∧
    (let x : Ctx := { state := .resident, g0 := { state := .ready, num := 2, lostMap := true } }
     x.g0.state = .ready ∧ x.g0.complete = false ∧ x.g1.state = .empty) ∧
    (let x : Ctx := { state := .created }
     x.g0.state ≠ .ready ∧ x.g1.state ≠ .ready) ∧
    haltRefuses { base with glb := { base.glb with halted := true } } = true := by
  refine ⟨?_, ?_, ?_, ?_, ?_, ?_, ?_, ?_, ?_⟩ <;> decide +kernel

/-- A shard image of one segment for grade 0: model 5, version 3, one key entry for device key 9, one block for logical seat 0 of crew 0. -/
def shard : Mem :=
  let f : List (Nat × Nat × Nat) := [(0, 4, 0x4E57534D), (4, 1, 1), (8, 1, 5), (0x18, 4, 3), (0x1E, 2, 1), (0x20, 4, 1), (0x24, 4, 1),
    (0x28, 8, 2272), (0x30, 8, 0xA000), (0x38, 4, 0x8000), (0x3C, 4, 0x6D40), (0x100, 1, 8), (0x8000, 4, 0x4E574B42), (0x8004, 2, 1), (0x8040, 8, 9)]
  f.foldl (fun m e => mwr m e.1 e.2.1 e.2.2) []

/-- SHARD_LOAD into context 15 from a host image of 45,280 bytes, the least that holds the image. -/
def loadArgs (f : Nat) : List (Nat × Nat × Nat) := [(128, 8, 15), (136, 8, f), (256, 64, 0xA8E0)]
/-- The part that may take it. -/
def loadSt (f : Nat) (x : Ctx) : State :=
  cmd { ctxSt 15 x with glb := { base.glb with gradeValid := true }, noc := { base.noc with map := [(0, { phys := [1] })] },
                        sec := { base.sec with keyId := 9, stateRec := { base.sec.stateRec with pubs := [(7, (1, 2))] } } } 0x11 (loadArgs f)

/-- TILE_REPAIR of generation 1 of context 15, all its segments but by number, and the part with such a generation, loaded by an image of hash `h`. -/
def repairArgs : List (Nat × Nat × Nat) := [(152, 8, 1), (160, 8, 1)] ++ loadArgs 0
def repairSt (h : BitVec 384) : State :=
  let s := ctxSt 15 { state := .resident, slot := 7, g0 := { state := .current, num := 1, segs := 1, hash := h } }
  { cmd s 0x12 repairArgs with flt := s.flt }

/-- Room without an eviction. -/
theorem makeRoom_free (s : State) (k : Nat) (need : List (Nat × List Nat)) (may : Bool) (h : shortfall s need = 0) :
    makeRoom s k need may = some (s, 0) := if_pos h

/-- The part with a context that publisher 7 has, and the command; the same with a generation to repair. -/
def loadSt0 : State := loadSt 0 { state := .created, slot := 7 }
def loadCmd0 : Nat := cmdVal 0x11 (loadArgs 0)
def repairCmd : Nat := cmdVal 0x12 repairArgs

theorem load_accepted : commandOf loadSt0 0 0x11 = some loadCmd0 ∧ haltRefuses loadSt0 = false ∧ debugOpen loadSt0 = false ∧ cb loadCmd0 0x10 1 = 15 ∧
    cb loadCmd0 0x11 1 ≤ 3 ∧ loadSt0.glb.gradeValid = true ∧ (ctxOf loadSt0 15).state ≠ .free ∧ ctxLoading loadSt0 15 = false ∧
    (ctxOf loadSt0 15).g0.state = .empty ∧ sourceAsleep loadSt0 loadCmd0 = false := by decide +kernel
theorem load_sources : loadImage loadSt0 loadCmd0 none = .inr stHostAccess ∧ loadImage loadSt0 loadCmd0 (some shard) = .inl shard := by decide +kernel
theorem load_manifest : manifestBad shard (cb loadCmd0 0x20 8) = false ∧ manifestBad [] (cb loadCmd0 0x20 8) = true ∧
    shGrade shard = loadSt0.glb.grade.toNat ∧ shGrade shard ≠ 1 ∧ (ctxOf loadSt0 15).model = none ∧ (ctxOf loadSt0 15).version ≤ shVersion shard ∧
    shVersion shard < ({ version := 4 } : Ctx).version := by decide +kernel
theorem mrd_unlisted (m : Mem) (a n : Nat) (h : ∀ p ∈ m, p.1 < a ∨ a + n ≤ p.1) : mrd m a n = 0 := by
  have e (b : Nat) (hb : a ≤ b ∧ b < a + n) : mread m b = 0 := by
    unfold mread tget
    have hm : tfind m b = none := by
      induction m with
      | nil => rfl
      | cons p t ih =>
        have hp := h p (by simp)
        rw [tfind, if_neg (by omega)]
        exact ih fun q hq => h q (by simp [hq])
    rw [hm]; rfl
  induction n generalizing a with
  | zero => rfl
  | succ n ih =>
    rw [mrd, e a ⟨Nat.le_refl _, by omega⟩, ih (a + 1) (fun p hp => by have := h p hp; omega) fun b hb => e b ⟨by omega, by omega⟩]
    rfl
theorem load_cells : (((List.range 96).flatMap fun q => (List.range 24).map fun l => (q, l)).filter fun p => shBlocks shard p.1 p.2 != 0) = [(0, 0)] := by
  have hs : ∀ p ∈ shard, p.1 < 0x10C ∨ 0x6D00 ≤ p.1 := by decide +kernel
  have h0 : shBlocks shard 0 0 = 8 := by decide +kernel
  have hc : ((List.range 96).flatMap fun q => (List.range 24).map fun l => (q, l)) =
      (0, 0) :: (((List.range 96).flatMap fun q => (List.range 24).map fun l => (q, l)).drop 1) := by decide +kernel
  have hd : ∀ p ∈ (((List.range 96).flatMap fun q => (List.range 24).map fun l => (q, l)).drop 1), 1 ≤ 24 * p.1 + p.2 ∧ 24 * p.1 + p.2 < 2304 := by
    decide +kernel
  rw [hc, List.filter_cons]
  simp only [h0]
  rw [if_pos (by decide), List.filter_eq_nil_iff.mpr]
  intro p hp
  have := hd p hp
  have z : shBlocks shard p.1 p.2 = 0 := mrd_unlisted _ _ _ fun q hq => by have := hs q hq; omega
  simp [z]
theorem load_seats : mapSeats loadSt0 shard = some [(1, [3])] := by
  have e : ([(0, 0)] : List (Nat × Nat)).mapM (fun p => (physOf loadSt0 p.1 p.2).map fun w => (w, blockList (shBlocks shard p.1 p.2))) = some [(1, [3])] := by
    decide +kernel
  unfold mapSeats
  simp only [load_cells]
  exact e
theorem load_room : makeRoom loadSt0 15 [(1, [3])] false = some (loadSt0, 0) := makeRoom_free _ _ _ _ (by decide +kernel)
theorem load_keys : keyEntry loadSt0 shard = some 0x8040 ∧ keyEntry (ctxSt 15 {}) shard = none ∧ sigFlags base 15 shard 1 ≠ 0 := by decide +kernel
theorem repair_live (h : BitVec 384) : genNum (repairSt h) 15 1 = some { state := .current, num := 1, segs := 1, hash := h } := rfl
theorem repair_accepted : commandOf (repairSt 0) 0 0x12 = some repairCmd ∧ cb repairCmd 0x13 1 = 1 ∧ cb repairCmd 0x14 1 ≤ 12 ∧
    (∀ i ∈ repairList repairCmd 1, i < 1) ∧ genNum (repairSt 0) 15 2 = none := by decide +kernel

/-- The part with the job `j` at the head of the load engine's queue. -/
def behind (s : State) (j : LoadJob) : State := { s with ctxs := { s.ctxs with loads := [j] } }

/-- All but what the signatures and the key unwrap give, which is open: the hash in `repair_live` may be the image's own. -/
theorem witness_LoadsBegin :
    (commandOf loadSt0 0 0x11 = some loadCmd0 ∧ loadImage loadSt0 loadCmd0 (some shard) = .inl shard ∧
      manifestBad shard (cb loadCmd0 0x20 8) = false ∧ mapSeats loadSt0 shard = some [(1, [3])] ∧
      makeRoom loadSt0 15 [(1, [3])] false = some (loadSt0, 0) ∧ keyEntry loadSt0 shard = some 0x8040) ∧
    commandOf (repairSt 0) 0 0x12 = some repairCmd ∧
    (∀ h, genNum (repairSt h) 15 1 = some { state := .current, num := 1, segs := 1, hash := h }) ∧
    (LoadRuns loadSt0 0 0x11 loadCmd0 false ∧ LoadRuns (repairSt 0) 0 0x12 repairCmd false) ∧
    (loadTurn (behind loadSt0 { ctx := 3 }) 0 0x11 = none ∧ ctxLoading (behind loadSt0 { ctx := 3 }) 15 = false ∧
      (behind loadSt0 { ctx := 3 }).ctxs.loads ≠ [] ∧ commandOf (behind loadSt0 { ctx := 3 }) 0 0x11 = some loadCmd0) ∧
    (LoadRuns (behind loadSt0 { waiting := some loadCmd0, ctx := 15 }) 0 0x11 loadCmd0 true ∧
      LoadRuns (behind (repairSt 0) { waiting := some repairCmd, ctx := 15 }) 0 0x12 repairCmd true) := by
  refine ⟨⟨load_accepted.1, load_sources.2, load_manifest.1, load_seats, load_room, load_keys.1⟩, repair_accepted.1, repair_live, ?_, ?_, ?_⟩ <;>
    (try unfold LoadRuns) <;> decide +kernel

/-- A load whose first of two segments is next, with the segment table `tab`. -/
def job0 (tab : List (BitVec 384 × BitVec 128)) : LoadJob := { ctx := 15, gen := 1, todo := [0, 1], stream := 1048577, table := tab }
/-- The part with that load running. -/
def segSt (tab : List (BitVec 384 × BitVec 128)) : State :=
  { base with ctxs := { ctx := [(15, { state := .resident, g0 := { state := .loading, num := 1, segs := 2 } })], loads := [job0 tab] } }

/-- Whether a segment's GCM tag holds is open; both cases need a segment whose hash is right. -/
theorem witness_LoadsRun :
    (∀ tab, (segSt tab).ctxs.loads = [job0 tab] ∧ (job0 tab).todo = [0, 1] ∧ (job0 tab).pool = none ∧
      genNum (segSt tab) 15 1 = some { state := .loading, num := 1, segs := 2 } ∧ genZeroing (segSt tab) { state := .loading, num := 1, segs := 2 } = false) ∧
    (∀ bs, Config.sha384 bs ≠ ((job0 [(Config.sha384 bs + 1, 0)]).table.getD 0 (0, 0)).1) ∧
    (∀ bs, Config.sha384 bs = ((job0 [(Config.sha384 bs, 0)]).table.getD 0 (0, 0)).1) ∧
    (let g : Gen := { state := .loading, num := 1, segs := 2, tiles := 3, recs := [(0, 1), (1, 2)] }
     let j : LoadJob := { ctx := 15, gen := 1, tiles := [(5, 989)] }
     let s := { base with ctxs := { ctx := [(15, { state := .resident, g0 := g })], loads := [j] } }
     s.ctxs.loads = [j] ∧ genNum s j.ctx j.gen = some g ∧ genNum s j.ctx 2 = none ∧ j.todo = [] ∧ j.waiting = none ∧ s.glb.fw = .ready ∧
     mayReply s j.src = true ∧ s.seats = [] ∧
     g.recs.foldl (fun n p => n + p.2) 0 = g.tiles ∧ j.repair = false ∧ j.src ≠ 16) ∧
    (let g : Gen := { state := .current, num := 1, segs := 1, tiles := 2, recs := [(0, 1)] }
     g.recs.foldl (fun n p => n + p.2) 0 ≠ g.tiles ∧ g.failed = []) ∧
    (let s := { base with ctxs := { base.ctxs with zeroing := [221183, 221185] } }
     221183 ∈ s.ctxs.zeroing ∧ 221183 < 221184 ∧ refreshes s (221183 / 96) = true ∧ 221184 + 1 ∈ s.ctxs.zeroing ∧ refreshes s 1152 = true ∧
     (seatOf s (221183 / 96)).store = [] ∧ (seatOf s (221183 / 96)).wst.work = [] ∧ s.seats = []) ∧
    (let x : Seat := { store := [(65536 * 95, 1)], wst := { work := [.fill (1024 * 95) 1] } }
     let s := { base with seats := [(2303, x)] }
     mread (seatOf s 2303).store (65536 * 95) ≠ 0 ∧ SideWork.fill (1024 * 95) 1 ∈ (seatOf s 2303).wst.work ∧
     (∃ p ∈ s.seats, halfOf p.1 = 1 ∧ p.2.store ≠ [])) := by
  refine ⟨fun tab => ⟨rfl, rfl, rfl, rfl, ?_⟩, fun bs h => ?_, fun bs => rfl, ?_, ?_, ?_, ?_⟩
  · rfl
  · have e := congrArg BitVec.toNat (BitVec.self_eq_add_right.mp h)
    exact absurd e (by decide +kernel)
  all_goals decide +kernel

/-- 11 R358: with a run bound to it the generation that was CURRENT retires. -/
theorem test_generationSwitch : (out (exec (.generationSwitch 0) (cmd (ctxSt 15 twoGens) 0x13 (ctxArgs 15 1)))).map
    (fun t => ((ctxOf t 15).g0.state, (ctxOf t 15).g1.state, t.ctxs.zeroing)) = some (.empty, .current, [1]) := by decide +kernel
/-- 11 R352: the last granule of a fill becomes zero, and the fill of the block ends once all of it reads as zero. -/
theorem test_blockZeroFill : (out (exec (.blockZeroFill 97) { seatSt {} with
    seats := [(1, { store := [(65535, 1), (131072, 3)] })], ctxs := { zeroing := [97] } })).map
    (fun t => (t.ctxs.zeroing, (seatOf t 1).store)) = some ([], [(65535, 1), (131072, 3)]) ∧
  (out (exec (.sidePortTransfer 0 0) (workSt [.fill 1024 1] [(65535, 1), (65536, 2)]))).map (fun t => ((seatOf t 0).store, (seatOf t 0).wst.work)) =
    some ([(65535, 1)], []) := by decide +kernel


/-! ## The host interface -/

/-- Submission ring `r` is `q`, and the round robin stands at ring `t`. -/
def sqSt (r : Nat) (q : Sq) (t : Nat) : State := { base with cq := { base.cq with sq := [(r, q)], turn := t } }

/-- A ring whose only entry is its last slot. -/
def oneLeft : Sq := { enable := true, head := 15, tail := 0, opened := true, version := 0x201 }

/-- The entry of opcode `op` with fields `fs`. -/
def entry (op : Nat) (fs : List (Nat × Nat × Nat)) : BitVec 512 := BitVec.ofNat 512 (cmdVal op fs)

theorem witness_CommandsAndReplies :
    ((0x20 : Nat) < 2 ^ 16 ∧ 2 ^ 128 - 1 < 2 ^ 128) ∧ (cOpcode (cmdVal 0x22 []) = 0x22 ∧ cOpcode (cmdVal 0x3A []) ≠ 0x22) ∧
    (let s := { base with cq := { base.cq with sq := [(3, { oneLeft with waiting := 1, ordered := true }), (15, oneLeft)], turn := 3 } }
     s.glb.fw = .ready ∧ snivanBusy s = false ∧ ringReadable (sqOf s 15) = true ∧ (3 ∈ before s.cq.turn 15 ∧ ringReadable (sqOf s 3) = true) ∧
     ∀ n ∈ before s.cq.turn 15, ringReadable (sqOf s n) = true → (sqOf s n).ordered = true ∧ 0 < (sqOf s n).waiting) ∧
    (let q := sqOf (sqSt 15 { oneLeft with waiting := 1 } 0) 15
     bit (cb (entry 0x3A [(8, 8, 1)]).toNat 1 1) 0 = true ∧ 0 < q.waiting ∧ bit (cb (entry 0x3A []).toNat 1 1) 0 = false) ∧
    (let q := sqOf (sqSt 0 { oneLeft with opened := false } 1) 0
     q.waiting = 0 ∧ q.opened = false ∧ cOpcode (entry 2 []).toNat ≠ 1 ∧ cOpcode (entry 1 []).toNat = 1) ∧
    (let q := sqOf (sqSt 0 oneLeft 0) 0
     q.opened = true ∧ cOpcode (entry 0xFF []).toNat ∉ opcodes ∧ cOpcode (entry 0x3A []).toNat ∈ opcodes ∧ 1 ≤ q.version.toNat % 256 ∧
     reservedBad (entry 0x3A [(504, 8, 1)]).toNat = true ∧ reservedBad (entry 0x3A [(136, 8, 1)]).toNat = false) ∧
    (cOpcode (entry 0x22 []).toNat ∈ opcodes ∧ cOpcode (entry 0x22 []).toNat ≠ 0x3A) ∧
    (let s (w : Nat) (op : Nat) (v : Nat) := sqSt 16 { opened := true, waiting := w, cur := some (entry op [(128, 8, v)]) } 0
     commandOf (s 0 1 2) 16 1 = some (cmdVal 1 [(128, 8, 2)]) ∧ (sqOf (s 0 1 2) 16).waiting = 0 ∧ cb (cmdVal 1 [(128, 8, 2)]) 0x10 1 = 2 ∧
     0 < (sqOf (s 1 1 2) 16).waiting ∧ commandOf (s 0 1 3) 16 1 = some (cmdVal 1 [(128, 8, 3)]) ∧ cb (cmdVal 1 [(128, 8, 3)]) 0x10 1 ≠ 2 ∧
     commandOf (s 0 2 0) 16 2 = some (cmdVal 2 [])) := by
  refine ⟨?_, ?_, ?_, ?_, ?_, ?_, ?_, ?_⟩ <;> decide +kernel

theorem witness_RingsAndDoorbells :
    ((0x100 : Word).getLsbD 8 = true ∧ (feedOf { base with cq := { base.cq with feed := [(7, { stopped := true })] } } 7).stopped = true) ∧
    (sqOf base 15).enable = false ∧ (cqrOf base 15).enable = false ∧ (feedOf base 7).enable = false ∧
    (let q := sqOf (sqSt 15 { enable := true, head := 4095, tail := 4095 } 0) 15
     q.enable = true ∧ q.cur = none ∧ q.waiting = 0 ∧ q.head = q.tail) ∧
    (sqOf (sqSt 15 { enable := true, waiting := 1 } 0) 15).waiting ≠ 0 ∧
    (let s := { base with cq := { base.cq with cq := [(15, { enable := true }), (14, { enable := true })], sq := [(0, { enable := true, cq := 14 })] } }
     (cqrOf s 15).enable = true ∧ cqrUsed s 15 = false ∧ (cqrOf s 14).enable = true ∧ cqrUsed s 14 = true) ∧
    (let s := { base with cq := { base.cq with feed := [(6, { enable := true }), (7, { enable := true, prog := [{}] })] } }
     (feedOf s 6).enable = true ∧ (feedOf s 6).prog = [] ∧ (feedOf s 7).enable = true ∧ (feedOf s 7).prog ≠ []) := by
  refine ⟨?_, ?_, ?_, ?_, ?_, ?_, ?_, ?_⟩ <;> decide +kernel

/-- Completion ring 15 is `c`. -/
def cqrSt (c : Cqr) : State := { base with cq := { base.cq with cq := [(15, c)] } }

theorem witness_CompletionsPosted :
    (let c := cqrOf (cqrSt { enable := true, head := 1, tail := 15, hold := [{}] }) 15
     c.hold = ({} : CEntry) :: [] ∧ c.enable = true ∧ ({} : CEntry).slots ≤ ringRoom c ∧ ({} : CEntry).second = none) ∧
    (let c := cqrOf (cqrSt { enable := true, head := 2, tail := 15, hold := [{ second := some 5 }] }) 15
     c.hold = ({ second := some 5 } : CEntry) :: [] ∧ ({ second := some 5 } : CEntry).slots = ringRoom c) ∧
    (let c := cqrOf (cqrSt { enable := true, head := 1, tail := 15, hold := [{ second := some 5 }] }) 15
     ringRoom c < ({ second := some 5 } : CEntry).slots) ∧
    (let s := cqrSt { vector := 63, coalCount := 0xFFFF, since := 0xFFFF }
     let v := max 1 (cqrOf s 15).vector.toNat
     0 < (cqrOf s 15).since ∧ max 1 (cqrOf s 15).coalCount.toNat ≤ (cqrOf s 15).since ∧ s.cq.masked.getLsbD v = true ∧
     ({ s.cq with masked := 0 } : Cq).masked.getLsbD v = false) ∧
    (let s := { cqrSt { coalCount := 9, coalUs := 10, since := 1, sinceAt := 5 } with clk := { base.clk with ticks := 1005 } }
     0 < (cqrOf s 15).since ∧ (cqrOf s 15).coalUs ≠ 0 ∧ (cqrOf s 15).sinceAt + 100 * (cqrOf s 15).coalUs.toNat ≤ s.clk.ticks) ∧
    (cqrOf base 15).since = 0 := by
  refine ⟨?_, ?_, ?_, ?_, ?_, ?_⟩ <;> decide +kernel

/-- 13 R412: an entry in the last slot carries the ring's phase, and the phase turns. -/
theorem test_completionPost : (out (exec (.completionPost 15) (cqrSt { enable := true, head := 1, tail := 15, hold := [{}] }))).map
    (fun t => (mread t.hostMem 480, mread t.hostMem 484, (cqrOf t 15).tail, (cqrOf t 15).phase)) = some (1, 1, 0, false) := by decide +kernel
/-- 13 R413: a masked vector leaves its pending bit set. -/
theorem test_msix : (out (exec (.msixInterrupt 15) (cqrSt { vector := 63, since := 1 }))).map
    (fun t => (t.cq.pba, (cqrOf t 15).since)) = some (0x8000000000000000, 0) := by decide +kernel
/-- 13 R410: what is in a doorbell above its field has no effect. -/
theorem test_doorbell : (out (exec (.submissionDoorbell 15 0xFFFFF001) base)).map (fun t => (sqOf t 15).tail) = some 1 := by decide +kernel
/-- 13 R417: a session of a newer minor opens at the device's own. -/
theorem test_openSession : (out (exec (.openSession 0) { cmd base 1 [(128, 8, 2), (136, 8, 9)] with
    cq := { (cmd base 1 [(128, 8, 2), (136, 8, 9)]).cq with sq := [(0, { cur := some (entry 1 [(128, 8, 2), (136, 8, 9)]) })] } })).map
    (fun t => ((sqOf t 0).opened, (sqOf t 0).version, (sqOf t 0).cur)) = some (true, 0x201, none) := by decide +kernel
/-- 13 R414: the reserved CID is refused with BAD_PARAMETER. -/
theorem test_commandRead : (out (exec (.commandRead 0 (some (entry 0x3A [(16, 16, 0xFFFF)]))) (sqSt 0 oneLeft 0))).map
    (fun t => (((sqOf t 0).head, (sqOf t 0).cur), (cqrOf t 0).hold.map fun e => (fld e.first.toNat 16 16, fld e.first.toNat 64 16))) =
    some ((0, none), [(0xFFFF, 2)]) := by decide +kernel

theorem witness_Bar2 :
    ({ base.sec with ide := true }.ide = true ∧ base.sec.ide = false) ∧
    (let o := 0xCFFFFFFF % 0x80000000
     (o + 1 ≤ 0x50000000 ∧ 0 < 1 ∧ o / 64 = (o + 1 - 1) / 64) ∧ halfBoated base (0xCFFFFFFF / 0x80000000) = false ∧ halfEasy base (0xCFFFFFFF / 0x80000000) = false ∧
     halfEasy { base with pwr := { base.pwr with half := [(1, 2)] } } (0xCFFFFFFF / 0x80000000) = true ∧ segOpen (poolOf base 1) o = true ∧
     segOpen (poolOf { base with pools := [(1, { ready := 0x7FFFF })] } 1) o = false) ∧
    (let o := 0x500007FC
     0x50000000 ≤ o ∧ o + 4 ≤ 0x50000800 ∧ o % 4 = 0) ∧
    (¬ (0x50000000 + 1 ≤ 0x50000000) ∧ ¬ (0x50000800 + 4 ≤ 0x50000800)) := by
  refine ⟨?_, ?_, ?_, ?_⟩ <;> decide +kernel

/-- 13 R408: a write to the last byte of half 1's pool lands; a read across a granule is refused. -/
theorem test_bar2 : ((out (exec (.bar2Access 0xCFFFFFFF 1 (some [(0, 7)]) false) base)).map (fun t => (poolOf t 1).mem), (out (exec (.bar2Access 63 2 none true)
    base)).map (fun t => (t.glb.bar2Ur, t.glb.bad))) = (some [(0x4FFFFFFF, 7)], some (true, 1)) := by decide +kernel

/-- Feed ring 7 is `q`. -/
def feedSt (q : Feed) : State := { base with cq := { base.cq with feed := [(7, q)] } }

/-- A feed descriptor of OP `op`, FLAGS `fl` for `n` granules of half 1's pool from granule `g` on, counter 255, host address `a`. -/
def fdesc (op fl n g a : Nat) : BitVec 256 :=
  BitVec.ofNat 256 (pack [(0, 8, op), (8, 8, fl), (16, 8, 1), (24, 8, 255), (32, 32, n), (64, 64, a), (128, 32, g), (160, 16, 9)])

/-- A ring with three descriptors in progress, and one that is next in the last slot. -/
def feedQ : Feed := { enable := true, head := 15, tail := 0, prog := [{}, {}, {}] }

theorem witness_Feeds :
    (feedMayStart (feedOf (feedSt feedQ) 7) = true ∧ bit (fdFlags (fdesc 1 1 1 0x13FFFFE 0).toNat) 2 = false ∧
      (feedOf (feedSt { feedQ with prog := [] }) 7).prog = [] ∧ feedMayStart (feedOf (feedSt { feedQ with prog := [{}, {}, {}, {}] }) 7) = false) ∧
    (fdBad (fdesc 1 1 3 0x13FFFFE 0).toNat = true ∧ fdBad (fdesc 1 1 2 0x13FFFFE 0).toNat = false ∧ fdBad (fdesc 2 1 1 0 0).toNat = true ∧ fdBad (fdesc 0 8 1 0 0).toNat = true) ∧
    (let s := feedSt feedQ
     let x := (fdesc 1 1 1 0x13FFFFE 0).toNat
     fdBad x = false ∧ halfBoated s (fdHalf x) = false ∧ halfEasy s (fdHalf x) = false ∧ fdGranules x = 1 ∧ fdGranules x ≤ ([gran] : List Granule).length ∧ fdOp x = 1 ∧ bit (fdFlags x) 0 = true ∧
     ∀ k, k < fdGranules x → segOpen (poolOf s (fdHalf x)) (64 * (fdPool x + k)) = true) ∧
    (let s := { feedSt feedQ with pwr := { base.pwr with half := [(1, 2)] } }
     let x := (fdesc 1 1 1 0x13FFFFE 0).toNat
     fdBad x = false ∧ fdOp x ≠ 0 ∧ halfEasy s (fdHalf x) = true ∧ (feedOf s 7).noted = false) ∧
    (fdBad (fdesc 0 0 0 0 0).toNat = false ∧ fdOp (fdesc 0 0 0 0 0).toNat = 0) ∧
    (let x := (fdesc 1 2 2 0 0).toNat
     fdBad x = false ∧ bit (fdFlags x) 0 = false) ∧
    (let x := (fdesc 2 2 1 0x13FFFFE 0xFFFFFFFFFFFFFFC0).toNat
     fdBad x = false ∧ fdOp x = 2 ∧ fdGranules x ≤ ([0] : List Granule).length) ∧
    (let q := feedOf (feedSt { prog := [{ raw := fdesc 1 0 1 0 0 }] }) 7
     q.prog = ({ raw := fdesc 1 0 1 0 0 } : FeedJob) :: [] ∧ bit (fdFlags (fdesc 1 0 1 0 0).toNat) 1 = false) ∧
    (let s := feedSt { prog := [{ raw := fdesc 1 2 1 0 0 }, { status := 2 }] }
     let q := feedOf s 7
     holdFull s q.cq.toNat = false ∧ bit (fdFlags (fdesc 1 2 1 0 0).toNat) 1 = true ∧ ({ status := 2 } : FeedJob).status ≠ stSuccess) := by
  refine ⟨?_, ?_, ?_, ?_, ?_, ?_, ?_, ?_, ?_⟩ <;> decide +kernel

/-- 13 R425: a feed of two granules with COUNT counts both. -/
theorem test_feedStart : (out (exec (.feedStart 7 (some (fdesc 1 1 2 0 0)) [1, 2]) (feedSt feedQ))).map
    (fun t => ((poolOf t 1).mem, tget 0 (poolOf t 1).lnd.ctr 255, (feedOf t 7).granules)) = some ([(0, 1), (64, 2)], 2, 2) := by decide +kernel
/-- 13 R426: the ring stops once its failed descriptor has ended. -/
theorem test_feedEnd : (out (exec (.feedEnd 7) (feedSt { prog := [{ status := 2 }], failedAt := some 3 }))).map
    (fun t => ((feedOf t 7).stopped, t.flt.path.map fun r => r.code, (cqrOf t 0).hold.length)) = some (true, [0x0203], 1) := by decide +kernel

theorem witness_FunctionReset :
    snivanStarted State.reset = false ∧ snivanStarted base = true ∧ (3 / 4 = 0 ∧ 11 / 4 = 2 ∧ 16 / 4 = 4 ∧ 27 / 4 = 6) ∧ configMask 0 = 0 ∧
    ∃ a, a % 4 = 0 ∧ configMask a ≠ 0 ∧ a ≠ Config.pmCap + 4 := by
  refine ⟨by decide +kernel, by decide +kernel, by decide, by decide, ?_⟩
  by_cases h : Config.pmCap = 0
  · exact ⟨12, by decide, by decide, by omega⟩
  · exact ⟨4, by decide, by decide, by omega⟩

/-- 13 R401: before Snivan has started a configuration request is answered with Configuration Request Retry Status. -/
theorem test_configuration : (out (exec (.configurationRequest 0 none) State.reset)).map (fun t => t.pins.crs) = some 1 := by decide +kernel
/-- 13 R400: the identity word. -/
theorem test_identity : (out (exec (.configurationRequest 0 none) base)).map (fun t => t.glb.readData.setWidth 16) = some 0x27C5 := by decide +kernel


/-! ## Frames of the fabric -/

/-- The frame of flit `f` and envelope bits `e` below the CRC field `x` (10 R308). -/
def frameOf (f : BitVec 2048) (e : BitVec 48) (x : BitVec 64) : Frame := { flit := f, env := x ++ e }

/-- The same with its CRC (10 R309). -/
def sealFrame (f : BitVec 2048) (e : BitVec 48) : Frame := frameOf f e (crc64 (bytesOf f.toNat 256 ++ bytesOf e.toNat 6))

theorem frameOf_env (f : BitVec 2048) (e : BitVec 48) (x : BitVec 64) : (frameOf f e x).env.toNat = 2 ^ 48 * x.toNat + e.toNat := by
  unfold frameOf
  rw [BitVec.toNat_append, ← Nat.shiftLeft_add_eq_or_of_lt e.isLt, Nat.shiftLeft_eq, Nat.mul_comm]

theorem frameOf_good (f : BitVec 2048) (e : BitVec 48) (x : BitVec 64) :
    frameGood (frameOf f e x) = (crc64 (bytesOf f.toNat 256 ++ bytesOf e.toNat 6) == x) := by
  have he := e.isLt
  have hc := x.isLt
  unfold frameGood fld
  rw [frameOf_env, Nat.mul_add_mod, Nat.mod_eq_of_lt he, Nat.shiftRight_eq_div_pow, Nat.mul_add_div (by decide), Nat.div_eq_of_lt he, Nat.add_zero,
    Nat.mod_eq_of_lt hc]
  simp [frameOf]

theorem sealFrame_good (f : BitVec 2048) (e : BitVec 48) : frameGood (sealFrame f e) = true := by
  unfold sealFrame; rw [frameOf_good]; exact beq_self_eq_true _

/-- A frame whose CRC field is off by its lowest bit. -/
def badFrame (e : BitVec 48) : Frame := frameOf 0 e (crc64 (bytesOf (0 : BitVec 2048).toNat 256 ++ bytesOf e.toNat 6) ^^^ 1)

theorem badFrame_bad (e : BitVec 48) : frameGood (badFrame e) = false := by
  unfold badFrame
  rw [frameOf_good, beq_eq_false_iff_ne]
  generalize crc64 _ = c
  intro h
  have h2 := congrArg (fun v => v ^^^ c) h
  simp at h2

/-- What the envelope holds below its CRC is what it was made from. -/
theorem frameOf_fld (f : BitVec 2048) (e : BitVec 48) (x : BitVec 64) (lo w : Nat) (h : lo + w ≤ 48) :
    fld (frameOf f e x).env.toNat lo w = fld e.toNat lo w := by
  unfold fld
  have he := e.isLt
  rw [frameOf_env]
  generalize x.toNat = c
  apply Nat.eq_of_testBit_eq
  intro i
  simp only [Nat.testBit_mod_two_pow, Nat.testBit_shiftRight]
  by_cases hi : i < w
  · simp only [hi, decide_true, Bool.true_and]
    rw [Nat.testBit_two_pow_mul_add _ he, if_pos (by omega)]
  · simp [hi]

theorem sealFrame_fld (f : BitVec 2048) (e : BitVec 48) (lo w : Nat) (h : lo + w ≤ 48) : fld (sealFrame f e).env.toNat lo w = fld e.toNat lo w :=
  frameOf_fld f e _ lo w h

theorem badFrame_kind (e : BitVec 48) : eKind (badFrame e).env.toNat = fld e.toNat 0 2 := frameOf_fld 0 e _ 0 2 (by decide)

theorem sealFrame_bit (f : BitVec 2048) (e : BitVec 48) (i : Nat) (h : i < 48) : bit (sealFrame f e).env.toNat i = bit e.toNat i := by
  unfold bit; rw [sealFrame_fld f e i 1 h]

/-- Such a frame of KIND `k` with neither ACK_VALID nor NAK. -/
theorem sealFrame_plain (f : BitVec 2048) (e : BitVec 48) (k : Nat) (hk : fld e.toNat 0 2 = k) (ha : bit e.toNat 26 = false)
    (hn : bit e.toNat 27 = false) : Plain (sealFrame f e) k := by
  refine ⟨sealFrame_good f e, ?_, ?_, ?_⟩
  · unfold eKind; rw [sealFrame_fld f e 0 2 (by decide)]; exact hk
  · unfold eAckValid; rw [sealFrame_bit f e 26 (by decide)]; exact ha
  · unfold eNak; rw [sealFrame_bit f e 27 (by decide)]; exact hn


/-! ## Clocks, time and power -/

/-- Domain `d` is `m`. -/
def domSt (d : Nat) (m : Dom) : State := { base with clk := { base.clk with dom := [(d, m)] } }

/-- Unit references: crew 47 of half 1, half 1, the chip, the fleet, and a crew that does not exist. -/
def crew95 : Nat := pack [(29, 3, 1), (16, 1, 1), (10, 6, 47)]
def half1 : Nat := pack [(29, 3, 2), (16, 1, 1)]
def chip0 : Nat := pack [(29, 3, 3)]
def fleet : Nat := pack [(29, 3, 4)]
def crewNone : Nat := pack [(29, 3, 1), (10, 6, 48)]

/-- A command of opcode `op` for unit `u` with first parameter `v`. -/
def unitCmd (u v : Nat) : List (Nat × Nat × Nat) := [(32, 32, u), (128, 8, v)]

theorem witness_StepsAndPowerCap :
    (let s := domSt 95 { locked := true, ceiling := 6, changeTick := 0 }
     let m := domOf s 95
     m.locked = true ∧ m.stop = .none ∧ dueStep s 95 ≠ m.step ∧ crewRefreshing s 95 = false ∧ changeSpaced s 95 = true ∧ m.step < dueStep s 95) ∧
    (let s0 := domSt 95 { locked := true, step := 6, changeTick := 1 }
     let s := { s0 with clk := { s0.clk with ticks := 1000 } }
     let m := domOf s 95
     m.locked = true ∧ m.stop = .none ∧ dueStep s 95 < m.step ∧ crewRefreshing s 95 = false ∧ changeSpaced s 95 = true ∧
     railMv s (95 / 48) < needMv s (dueStep s 95) ∧ ¬ (needMv s 1 ≤ railMv s 1) ∧ needMv s 3 ≤ railMv s 1) ∧
    (let s := domSt 96 { locked := true, step := 6 }
     (domOf s 96).locked = true ∧ (domOf s 96).stop = .none ∧ dueStep s 96 ≠ (domOf s 96).step ∧ changeSpaced s 96 = true) ∧
    (let s := domSt 95 { stop := .step, stopTick := 5 }
     (domOf s 95).stop = .step ∧ 124 < (domOf s 95).stopTick + 120 ∧ (domOf s 95).stopTick + 120 ≤ 125) ∧
    (let s0 := domSt 95 { locked := true, changeTick := 2, clamped := true }
     let s := { s0 with clk := { s0.clk with ticks := 1000, limit := 3 } }
     let m := domOf s 95
     m.locked = true ∧ m.stop = .none ∧ crewRefreshing s 95 = false ∧ changeSpaced s 95 = false ∧ m.step < hardIndex s 95) ∧
    (let s0 := domSt 95 { locked := true, changeTick := 2, ceiling := 6 }
     let s := { s0 with clk := { s0.clk with ticks := 1000 } }
     changeSpaced s 95 = false ∧ hardIndex s 95 ≤ (domOf s 95).step) ∧
    (base.pwr.supply.length = 2 ∧ base.pwr.want.length = 2) ∧
    (let c (u v : Nat) := cmdVal 0x39 (unitCmd u v)
     let s (u v : Nat) := cmd base 0x39 (unitCmd u v)
     (commandOf (s crewNone 6) 0 0x39 = some (c crewNone 6) ∧ unitBad (s crewNone 6) (cUnit (c crewNone 6)) 1 3 false = true) ∧
     (commandOf (s crew95 7) 0 0x39 = some (c crew95 7) ∧ unitBad (s crew95 7) (cUnit (c crew95 7)) 1 3 false = false ∧ 6 < cb (c crew95 7) 0x10 1) ∧
     (commandOf (s chip0 6) 0 0x39 = some (c chip0 6) ∧ unitBad (s chip0 6) (cUnit (c chip0 6)) 1 3 false = false ∧ cb (c chip0 6) 0x10 1 ≤ 6) ∧
     unitBad base fleet 1 3 false = true) ∧
    (base.glb.ready = true ∧ base.glb.fw = .ready ∧ State.reset.glb.ready = false) ∧
    (let xs (w : Nat) := ((1000 * (1000 * w) / 1000000 + base.pwr.otherW.toNat) :: base.pwr.samples).take 10
     1500 * (xs 1121).length < (xs 1121).sum ∧ base.clk.cap < 6 ∧ ¬ (1500 * (xs 1120).length < (xs 1120).sum) ∧
     95 * 1500 * (xs 1045).length ≤ (xs 1045).sum * 100 ∧ (xs 1044).sum * 100 < 95 * 1500 * (xs 1044).length) := by
  refine ⟨?_, ?_, ?_, ?_, ?_, ?_, ?_, ?_, ?_, ?_⟩ <;> decide +kernel

/-- 12 R379: a step change ends after 120 ticks. -/
theorem test_stepChangeEnd : (let s (n : Nat) := { domSt 95 { stop := .step, target := 6 } with clk := { (domSt 95 { stop := .step, target := 6 }).clk with ticks := n } }
    ((out (exec (.stepChangeEnd 95) (s 119))).map fun t => (domOf t 95).stop, (out (exec (.stepChangeEnd 95) (s 120))).map fun t => (domOf t 95).step)) =
    (some .step, some 6) := by decide +kernel
/-- 12 R380: a faster step first raises its rail. -/
theorem test_stepChange : (out (exec (.stepChange 95) (domSt 95 { locked := true, step := 6 }))).map (fun t => (t.pwr.want, (domOf t 95).stop)) =
    some ([750, 850], .none) := by decide +kernel

/-- The master at 50 after `n` ticks, with a copy that is behind, one that is ahead and one whose clocks are stopped. -/
def syncSt (load : Option (BitVec 64)) (n : Nat) (role : BitVec 2) : State :=
  let ds : Tbl Dom := [(96, { stop := .step }), (97, { frozen := some 60 }), (98, { offset := 0 - 70 })]
  { base with fab := { base.fab with role := role }, clk := { base.clk with ticks := n, master := 50, load := load, dom := ds } }

theorem witness_Time :
    ((1 : Word).getLsbD 0 = true ∧ (2 : Word).getLsbD 0 = false) ∧
    (let s := { base with fab := { base.fab with role := 2 } }
     s.fab.role = 2) ∧
    (let s := { base with str := { base.str with admits := 1 }, clk := { base.clk with master := 1 } }
     0 < s.str.admits ∧ s.clk.setHi ++ s.clk.setLo < s.clk.master) ∧
    ¬ (base.fab.role = 2 ∨ 0 < base.str.admits ∧ base.clk.setHi ++ base.clk.setLo < base.clk.master) ∧
    (let s := syncSt
     (s none 100 0).clk.ticks % 100 = 0 ∧ (s none 100 0).pins.refLost = false ∧ (s none 100 0).clk.load = none ∧
     ((s (some 50) 100 0).clk.load = some 50 ∧ (s (some 50) 100 0).fab.role ≠ 2 ∧ (s (some 50) 100 0).clk.master ≤ 50) ∧
     ((s (some 49) 100 2).clk.load = some 49 ∧ (s (some 49) 100 2).fab.role = 2) ∧
     ((domOf (s none 100 0) 98).stop = .none ∧ domTime (s none 100 0) 98 ≤ 50) ∧ ((domOf (s none 100 0) 97).stop = .none ∧ 50 < domTime (s none 100 0) 97) ∧
     (domOf (s none 100 0) 96).stop ≠ .none ∧ (s none 101 0).clk.ticks % 100 ≠ 0) ∧
    (let c (r u : Nat) := cmdVal 0x3A [(128, 8, r), (136, 8, u)]
     let s (r u : Nat) := cmd base 0x3A [(128, 8, r), (136, 8, u)]
     (commandOf (s 3 0) 0 0x3A = some (c 3 0) ∧ 2 < cb (c 3 0) 0x10 1) ∧ (commandOf (s 2 12) 0 0x3A = some (c 2 12) ∧ 11 < cb (c 2 12) 0x11 1) ∧
     (commandOf (s 2 11) 0 0x3A = some (c 2 11) ∧ cb (c 2 11) 0x10 1 ≤ 2 ∧ cb (c 2 11) 0x11 1 ≤ 11 ∧ (s 2 11).fab.role.toNat ≠ cb (c 2 11) 0x10 1)) ∧
    (let f : BitVec 2048 := BitVec.ofNat 2048 (pack [(432, 8, 3), (440, 8, 254), (448, 16, 0xFFFF)])
     let s := { base with fab := { base.fab with role := 2, upstream := 11, ports := [(11, { state := .active, rxFrames := [sealFrame f 2] })] } }
     Quiet s 11 ∧ Received s 11 (sealFrame f 2) [] ∧ (∀ k, k < 4 → cf f.toNat (2 * k) 2 = (creditOf (portOf s 11) k).returned) ∧
     (∀ k, k < 4 → (creditOf (portOf s 11) k).returned < 65536) ∧ bit (cf f.toNat 0x36 1) 0 = true ∧ s.fab.role = 2 ∧ s.fab.upstream.toNat = 11 ∧
     Plain (sealFrame f 2) 2) ∧
    (let s (n : Nat) := { base with fab := { base.fab with role := 2, locked := true, sampleAt := 7 }, clk := { base.clk with ticks := n } }
     portLive (s 7) 0 = false ∧ portLive (s 7) (partner 0) = false ∧ (s 10007).fab.sampleAt + 10000 ≤ (s 10007).clk.ticks ∧
     ¬ ((s 10006).fab.sampleAt + 10000 ≤ (s 10006).clk.ticks)) ∧
    portLive { base with fab := { base.fab with ports := [(1, { state := .active })] } } (partner 0) = true := by
  refine ⟨?_, ?_, ?_, ?_, ?_, ?_, ⟨⟨rfl, rfl, rfl⟩, rfl, ?_, fun k _ => ?_, ?_, rfl, ?_, sealFrame_plain _ _ _ ?_ ?_ ?_⟩, ?_, ?_⟩
  case refine_8 => exact Nat.zero_lt_succ _
  all_goals decide +kernel

/-- 12 R384: at a sync a copy that is ahead stands still, and one that is behind is set. -/
theorem test_timeSync : (out (exec .timeSync { base with clk := { base.clk with master := 50, dom := [(97, { offset := 60 }), (98, { offset := 40 })] } })).map
    (fun t => ((domOf t 97).frozen, domTime t 98)) = some (some 60, 50) := by decide +kernel

theorem witness_DroopHeatAndClocks :
    (let need := ([850, 800, 760, 720, 680, 630, 600] : List Nat).getD (domOf (domSt 95 { step := 6 }) 95).step 600
     need ≤ 600 ∧ 599 < need ∧ (Config.maxStretchMv need < 599 ∨ 599 = Config.maxStretchMv need ∨ 599 < Config.maxStretchMv need)) ∧
    (let s := { domSt 95 { step := 6, sagged := 2501, sagWindow := 1 } with clk := { (domSt 95 { step := 6, sagged := 2501, sagWindow := 1 }).clk with ticks := 19999 } }
     (domOf s 95).stop = .none ∧ (domOf s 95).sagWindow = s.clk.ticks / 10000 ∧ (domOf s 95).sagDone = false ∧ 100 * 500 < 20 * (domOf s 95).sagged ∧
     20 * 2500 ≤ 100 * 500) ∧
    (halfBoated base (95 / 48) = false ∧ (109 : Byte).toInt < 110 ∧ 110 ≤ (110 : Byte).toInt ∧ 103 < (104 : Byte).toInt ∧ (103 : Byte).toInt ≤ 103 ∧
      95 < (96 : Byte).toInt ∧ 90 < (91 : Byte).toInt ∧ (95 : Byte).toInt ≤ 95 ∧ (90 : Byte).toInt ≤ 90 ∧ (0xFF : Byte).toInt < 110) ∧
    ((domOf (domSt 95 { cool := 9 }) 95).cool + 1 = 10 ∧ (domOf (domSt 95 { cool := 8 }) 95).cool + 1 ≠ 10 ∧
      (domOf (domSt 95 { clamped := true }) 95).clamped = true ∧ (domOf base 95).clamped = false) ∧
    (base.glb.ready = true ∧ base.glb.fw = .ready ∧ base.pins.thermtrip = false ∧ base.pins.refLost = false) ∧
    { base.pins with refLost := true }.refLost = true ∧
    ((domOf (domSt 99 { locked := true }) 99).locked = true ∧ (domOf base 99).locked = false) := by
  refine ⟨⟨?_, ?_, ?_⟩, ?_, ?_, ?_, ?_, ?_, ?_⟩
  case refine_3 => omega
  all_goals decide +kernel

/-- 12 R393: ten samples in a row at 90 degrees or below take one step back. -/
theorem test_junction : (out (exec (.junctionSample 95 90) (domSt 95 { prot := 2, cool := 9, clamped := true }))).map
    (fun t => ((domOf t 95).prot, (domOf t 95).cool, (domOf t 95).clamped, t.pwr.tjMax)) = some (1, 0, false, 90) := by decide +kernel
/-- 12 R382: one millivolt below the step's level stretches, or is below where the part is defined. -/
theorem test_droop : (out (exec (.droopStretching 0 850) (domSt 0 { stretched := true }))).map (fun t => (domOf t 0).stretched) = some false := by
  decide +kernel

/-- The part with the power requests `rs`, halves in the states `hs`, and crew 95 as `m`. -/
def pwrSt (rs : List PwrReq) (hs : Tbl Nat) (m : Dom) : State :=
  { base with pwr := { base.pwr with reqs := rs, half := hs }, clk := { base.clk with dom := [(95, m)] } }

theorem witness_PowerStates :
    (let c (u n : Nat) := cmdVal 0x38 (unitCmd u n)
     let s (u n : Nat) := cmd base 0x38 (unitCmd u n)
     (commandOf (s crew95 2) 0 0x38 = some (c crew95 2) ∧ unitBad (s crew95 2) (cUnit (c crew95 2)) 2 3 false = true) ∧
     (let t := { s half1 3 with str := { base.str with graphs := [(0, { half := 1 })] } }
      unitBad t (cUnit (c half1 3)) 2 3 false = false ∧ cb (c half1 3) 0x10 1 = 3 ∧ ∃ g ∈ t.str.graphs, g.2.half ∈ unitHalves (cUnit (c half1 3))) ∧
     (commandOf (s half1 3) 0 0x38 = some (c half1 3) ∧ unitBad (s half1 3) (cUnit (c half1 3)) 2 3 false = false ∧ cb (c half1 3) 0x10 1 = 3 ∧
      ∀ g ∈ (s half1 3).str.graphs, g.2.half ∉ unitHalves (cUnit (c half1 3))) ∧
     (commandOf (s crew95 0) 0 0x38 = some (c crew95 0) ∧ unitBad (s crew95 0) (cUnit (c crew95 0)) 1 3 false = false)) ∧
    (let o : PwrReq := { unit := BitVec.ofNat 32 crew95, state := 1 }
     let r : PwrReq := { unit := BitVec.ofNat 32 crew95 }
     o ∈ (pwrSt [o] [] { paddle := true }).pwr.reqs ∧ 0 < o.state ∧ reqsMeet o r = true ∧ 95 ∈ unitCrews crew95 ∧
     0 < crewState (pwrSt [o] [] { paddle := true }) 95 ∧ crewState (pwrSt [o] [] { paddle := true }) 95 = 1 ∧
     2 ≤ crewState (pwrSt [o] [(1, 3)] {}) 95) ∧
    (let r : PwrReq := { unit := BitVec.ofNat 32 half1, state := 2 }
     (∀ o ∈ base.pwr.reqs, ¬ (2 < o.state ∧ reqsMeet o r = true)) ∧ (∀ q ∈ unitCrews half1, crewState base q ≤ 2) ∧
     ∀ o ∈ base.pwr.reqs ++ [r], reqMet base o = false) ∧
    (let r : PwrReq := { unit := BitVec.ofNat 32 crew95, state := 1 }
     (pwrSt [{}, r] [] {}).pwr.reqs[1]? = some r ∧ (pwrSt [{}, r] [] {}).glb.fw = .ready ∧ 95 ∈ unitCrews r.unit.toNat ∧
     crewAwake (pwrSt [{}, r] [] {}) 95 = true ∧ paddleMay (pwrSt [{}, r] [] {}) 95 = true) ∧
    (let r (n : Nat) : PwrReq := { unit := BitVec.ofNat 32 half1, state := n }
     let s (n : Nat) := pwrSt [r n] [] {}
     (s 2).pwr.reqs[0]? = some (r 2) ∧ uLevel (r 2).unit.toNat = 2 ∧ uHalf (r 2).unit.toNat = 1 ∧ tget 0 (s 2).pwr.half 1 < 2 ∧
     tget false (s 2).pwr.waking 1 = false ∧ easyMay (s 2) 1 = true ∧
     easyMay { s 2 with ctxs := { base.ctxs with zeroing := [221185] } } 1 = false ∧
     (s 3).pwr.reqs[0]? = some (r 3) ∧ boatedMay (s 3) 1 = true ∧ tget 0 (pwrSt [] [(1, 2)] {}).pwr.half 1 < 3 ∧
     boatedMay { s 3 with str := { base.str with graphs := [(0, { half := 1 })] } } 1 = false ∧
     (let x : Gen := { state := .current, num := 1, segs := 1, alloc := [(96 * 2303, 0)] }
      x.state ≠ .empty ∧ 0 < x.segs ∧ x.inHalf 1 = true ∧ halfOf 2303 = 1 ∧ halfOf 1151 ≠ 1)) ∧
    (let r : PwrReq := { unit := BitVec.ofNat 32 chip0, state := 3 }
     let s := pwrSt [r] [(0, 3), (1, 3)] {}
     s.pwr.reqs[0]? = some r ∧ uLevel r.unit.toNat = 3 ∧ halfBoated s 0 = true ∧ halfBoated s 1 = true ∧ s.pwr.chipBoated = false ∧
     ∀ p, p < 12 → (portOf s p).unacked = []) ∧
    (let r : PwrReq := { unit := BitVec.ofNat 32 chip0, state := 2, tick := 3 }
     (10000002 < r.tick + 10000000 ∧ r.tick + 10000000 ≤ 10000003) ∧ ∀ m ∈ reqMembers base r, memberDone base r m.1 = false) ∧
    (base.glb.fw = .ready ∧ crewAwake base 95 = true ∧ paddleMay base 95 = true ∧ base.pwr.autoPaddle = false ∧
      { base.pwr with autoPaddle := true }.autoPaddle = true ∧
      (domOf (domSt 95 { idleAt := 1 }) 95).idleAt + 100 * base.pwr.idleUs.toNat ≤ 1 + 100 * base.pwr.idleUs.toNat ∧
      100 * base.pwr.idleUs.toNat < (domOf (domSt 95 { idleAt := 1 }) 95).idleAt + 100 * base.pwr.idleUs.toNat) ∧
    (let u : Word := BitVec.ofNat 32 crew95
     let s := { pwrSt [] [] { paddle := true } with noc := { base.noc with buf := [(bufKey 2303 4 1, { flits := [{}], noted := true })] } }
     uLevel u.toNat = 1 ∧ uCrew u.toNat < 48 ∧ uQ u.toNat = 95 ∧ (domOf s 95).paddle = true ∧ crewWanted s 95 = true ∧
     (domOf (pwrSt [] [] { paddle := true, waking := true }) 95).paddle = true ∧ (domOf (pwrSt [] [] { paddle := true, waking := true }) 95).waking = true) ∧
    (let u : Word := BitVec.ofNat 32 half1
     let s (n : Nat) := { pwrSt [] [(1, n)] {} with noc := { base.noc with buf := [(bufKey 2304 5 1, { flits := [{}] })] } }
     let w (n : Nat) := { s n with pwr := { (s n).pwr with waking := [(1, true)] } }
     uLevel u.toNat = 2 ∧ uHalf u.toNat = 1 ∧ halfEasy (s 2) 1 = true ∧ halfWanted (s 2) 1 = true ∧ halfEasy (w 2) 1 = true ∧
     tget false (w 2).pwr.waking 1 = true ∧ halfBoated (w 3) 1 = true ∧ tget false (w 3).pwr.waking 1 = true) := by
  refine ⟨⟨?_, ⟨?_, ?_, (0, { half := 1 }), ?_, ?_⟩, ?_, ?_⟩, ?_, ?_, ?_, ?_, ?_, ?_, ?_, ?_, ?_⟩ <;> decide +kernel

/-- 12 R389: a crew enters Paddle for a request, which is then met. -/
theorem test_powerStateEntry : (let r : PwrReq := { unit := BitVec.ofNat 32 crew95, state := 1 }
    (out (exec (.powerStateEntry 0) (pwrSt [r] [] {}))).map fun t => ((domOf t 95).paddle, t.pwr.reqs)) = some (true, []) := by decide +kernel

theorem witness_WeighEnoughCleared :
    (let s := cmd base 0x31 [(128, 8, 1)]
     let c := cmdVal 0x31 [(128, 8, 1)]
     commandOf s 0 0x31 = some c ∧ cb c 0x10 1 = 1 ∧ s.pwr.haltActive = false ∧ (∀ p ∈ s.str.classes, p.2.state ≠ 2) ∧
     ¬ (s.flt.haltCode = 0x300 ∨ s.flt.haltCode = 0x301 ∨ s.flt.haltCode = 0x302)) ∧
    (∃ p ∈ ([(63, { state := 2 })] : Tbl ClassSt), p.2.state = 2) ∧ { base.pwr with haltActive := true }.haltActive = true ∧
    { base.flt with haltCode := 0x302 }.haltCode = 0x302 := by
  refine ⟨?_, ⟨(63, { state := 2 }), ?_, ?_⟩, ?_, ?_⟩ <;> decide +kernel

/-- 15 R467: the thermal trip's weigh-enough is not to be cleared. -/
theorem test_weighEnoughCleared : (out (exec (.faultClearWeighEnough 0) { cmd base 0x31 [(128, 8, 1)] with glb := { base.glb with halted := true }, flt := { base.flt with haltCode := 0x302 } })).map
    (fun t => (t.glb.halted, (cqrOf t 0).hold.map fun e => fld e.first.toNat 64 16)) = some (true, [stBusy]) := by decide +kernel

/-- The part out of reset. -/
def live : State := { base with pins := { base.pins with reset := false } }

theorem witness_WeighEnough :
    (let c (u : Nat) := cmdVal 0x30 [(32, 32, u)]
     let s (u : Nat) := cmd base 0x30 [(32, 32, u)]
     (commandOf (s half1) 0 0x30 = some (c half1) ∧ unitBad (s half1) (cUnit (c half1)) 3 4 false = true) ∧
     (commandOf (s fleet) 0 0x30 = some (c fleet) ∧ unitBad (s fleet) (cUnit (c fleet)) 3 4 false = false ∧ uLevel (cUnit (c fleet)) = 4) ∧
     (commandOf (s chip0) 0 0x30 = some (c chip0) ∧ unitBad (s chip0) (cUnit (c chip0)) 3 4 false = false ∧ uLevel (cUnit (c chip0)) ≠ 4)) ∧
    (live.pins.reset = false ∧ live.pwr.haltActive = false ∧ live.pwr.limitActive = false ∧ startingUp live = false ∧ live.chain.fleetHalt = false ∧
      base.pwr.haltFleet = true ∧ { base.pwr with haltFleet := false }.haltFleet = false) ∧
    (let s := { State.reset with pins := { State.reset.pins with reset := false } }
     s.pins.reset = false ∧ s.pwr.haltActive = false ∧ startingUp s = true) ∧
    ({ base.pwr with haltActive := true, limitActive := true }.haltActive = true ∧ { base.chain with fleetHalt := true }.fleetHalt = true) ∧
    (let s := domSt 95 { stop := .step, target := 3 }
     (domOf s 95).stop = .step ∧ (domOf s 95).target < limitStep s) := by
  refine ⟨?_, ?_, ?_, ?_, ?_⟩ <;> decide +kernel

/-- 12 R395: HALT_N held for 1 us counts, 1 ns less does not. -/
theorem test_halt : ((out (exec (.haltAssert 999) live)).map (fun t => t.glb.halted), (out (exec (.haltAssert 1000) live)).map
    (fun t => (t.glb.halted, t.chain.sternHalts))) = (some false, some (true, 16)) := by decide +kernel


/-! ## Faults -/

/-- The part with the chip log's records `l` up to number `n`, of which Snivan has handled `k`, and `p` on the fault path. -/
def logSt (l : Tbl Record) (n k : Word) (p : List Record) : State := { base with flt := { base.flt with log := l, lastSeq := n, handled := k, path := p } }

/-- A seat fault's record: seat 23 of crew 95, context 15, heat 0 of run 1. -/
def seatRec (code : BitVec 16) : Record :=
  { code := code, kind := 0, unit := BitVec.ofNat 32 (pack [(16, 1, 1), (10, 6, 47)]), phys := 23, ctx := 15, heat := 0, epoch := 5, run := 1 }

theorem witness_FaultLog :
    (let s := logSt [(1023, { seq := 1023 })] 0xFFFFFFFF 0 [{}, seatRec 1]
     s.flt.path[1]? = some (seatRec 1) ∧ nextSeq s.flt.lastSeq = 1) ∧
    (let s := logSt [(0, { seq := 0xFFFFFC00 }), (1, { seq := 0xFFFFFC01 })] 0xFFFFFFFF 0 [{}]
     (let n := nextSeq s.flt.lastSeq
      let old := tget ({} : Record) s.flt.log (n.toNat % 1024)
      old.seq ≠ 0 ∧ seqAfter old.seq 0xFFFFFC00 = true ∧ seqAfter old.seq 0xFFFFFC01 = false)) ∧
    (let x : Heat := { phase := .dispatched, epoch := 5 }
     let s := runSt [hd] [x] {}
     ((seatRec 1).kind = 0 ∧ (seatRec 1).heat ≠ 0xFFFF ∧ heatOf s (seatRec 1).run.toNat (seatRec 1).heat.toNat = some x ∧
      x.phase = .dispatched ∧ x.epoch = (seatRec 1).epoch ∧ x.abortReq = none)) ∧
    (let fs : List (Nat × Nat × Nat) := [(128, 32, 0xFFFFFFFF), (160, 16, 1024)]
     let s := cmd (logSt [(1, { seq := 1 }), (1023, { seq := 0xFFFFFFFF })] 1 0 []) 0x41 fs
     let c := cmdVal 0x41 fs
     commandOf s 0 0x41 = some c ∧ 1 ≤ cb c 0x14 2 ∧ cb c 0x14 2 ≤ 1024 ∧ logHas s (BitVec.ofNat 32 (cb c 0x10 4)) = true ∧
     seqAfter (BitVec.ofNat 32 (cb c 0x10 4)) s.flt.lastSeq = false ∧ ∃ a ∈ heldFrom s 1024 s.flt.lastSeq, a.seq = BitVec.ofNat 32 (cb c 0x10 4)) := by
  refine ⟨?_, ?_, ?_, ?_, ?_, ?_, ?_, ?_, { seq := 0xFFFFFFFF }, ?_, ?_⟩ <;> decide +kernel

/-- 15 R458: the record after 0xFFFF_FFFF is number 1, and takes slot 1. -/
theorem test_recordLogged : (out (exec (.recordLogged 0) (logSt [] 0xFFFFFFFF 0 [seatRec 1]))).map
    (fun t => (t.flt.lastSeq, t.flt.log.map fun e => (e.1, e.2.seq), t.flt.path)) = some (1, [(1, 1)], []) := by decide +kernel
/-- 15 R459: LOG_READ from a number that the log has lost gives the oldest held. -/
theorem test_logRead : (out (exec (.logRead 0 true) (cmd (logSt [(7, { seq := 7 }), (8, { seq := 8 })] 8 0 []) 0x41 [(128, 32, 2), (160, 16, 1)]))).map
    (fun t => t.hostMem) = some [(0, 7)] := by decide +kernel

theorem witness_HandlingAndFences :
    (base.flt.handled = base.flt.lastSeq ∧ base.glb.fw = .ready) ∧
    (let s := { logSt [(1, seatRec 1)] 1 0xFFFFFFFF [] with flt := { (logSt [(1, { seatRec 1 with seq := 1 })] 1 0xFFFFFFFF []).flt with holds := [{ ctx := 15, seq := some 1 }] } }
     let n := nextSeq s.flt.handled
     s.flt.handled ≠ s.flt.lastSeq ∧ n = 1 ∧ (∃ h ∈ s.flt.holds, h.seq = some n ∧ h.ctx < 16) ∧ logHas s n = true ∧ s.glb.skip ≠ some n ∧
     marksContext (logSlot s n.toNat) = true ∧ (logSlot s n.toNat).ctx.toNat < 16 ∧ { s.glb with skip := some n }.skip = some n ∧
     (∀ h ∈ s.flt.holds, h.seq = some n → h.ctx ≠ 14) ∧ (logSlot s n.toNat).ctx.toNat ≠ 14) ∧
    (let r := { seatRec 0x82 with seq := 1 }
     let s := logSt [(1, r)] 1 0 []
     logHas s 1 = true ∧ 0x80 ≤ r.code ∧ r.code ≤ 0x82 ∧ r.phys ≠ 0xFF ∧ r.kind ≠ 4 ∧ recSeat r = 2303 ∧ (seatOf s (recSeat r)).disabled = false) ∧
    (let c (k : Nat) := cmdVal 0x31 [(136, 8, k)]
     let s (k : Nat) (x : Ctx) := cmd (ctxSt 15 x) 0x31 [(136, 8, k)]
     (commandOf (s 16 {}) 0 0x31 = some (c 16) ∧ cb (c 16) 0x10 1 = 0 ∧ 15 < cb (c 16) 0x11 1) ∧
     (commandOf (s 15 {}) 0 0x31 = some (c 15) ∧ cb (c 15) 0x11 1 ≤ 15 ∧ (ctxOf (s 15 {}) (cb (c 15) 0x11 1)).state = .free) ∧
     (ctxOf (s 15 { state := .created }) (cb (c 15) 0x11 1)).state ≠ .free) ∧
    ({ base.glb with fw := .starting }.fw = .starting ∧ base.glb.fwTick + 25000000 ≤ { base.clk with ticks := 25000000 }.ticks ∧
      base.clk.ticks < base.glb.fwTick + 25000000) ∧
    (let c (u v : Nat) := cmdVal 0x32 (unitCmd u v)
     let s (u v : Nat) := late base 0x32 (unitCmd u v)
     commandOf (cmd base 0x32 (unitCmd crewNone 0)) 0 0x32 = some (c crewNone 0) ∧
     (commandOf (s crewNone 0) 0 0x32 = none ∧ bgOf (s crewNone 0) 0 0x32 = some (c crewNone 0) ∧ unitBad (s crewNone 0) (cUnit (c crewNone 0)) 0 3 true = true) ∧
     (bgOf (s crew95 2) 0 0x32 = some (c crew95 2) ∧ unitBad (s crew95 2) (cUnit (c crew95 2)) 0 3 true = false ∧ 1 < cb (c crew95 2) 0x10 1) ∧
     (bgOf (s crew95 1) 0 0x32 = some (c crew95 1) ∧ cb (c crew95 1) 0x10 1 = 1 ∧ 2303 ∈ unitSeats base (cUnit (c crew95 1)) ∧
      fenceNeedless base 2303 = false)) ∧
    (let u := pack [(4, 1, 1)]
     let x : Heat := { phase := .dispatched, seats := [0], epoch := 64 }
     let s := late (runSt [hd] [x] {}) 0x32 (unitCmd u 0)
     bgOf s 0 0x32 = some (cmdVal 0x32 (unitCmd u 0)) ∧ unitBad s u 0 3 true = false ∧ (unitSeats s u).filter (fun w => !fenceNeedless s w) = [0] ∧
     seatHeat s 0 = some (1, 0) ∧ heatOf s 1 0 = some x ∧ x.phase = .dispatched) := by
  refine ⟨?_, ⟨?_, ?_, ⟨{ ctx := 15, seq := some 1 }, ?_, ?_, ?_⟩, ?_, ?_, ?_, ?_, ?_, ?_, ?_⟩, ?_, ?_, ?_, ?_, ?_⟩ <;> decide +kernel

/-- 15 R461: a seat fault marks its context. -/
theorem test_recordHandling : (out (exec .recordHandling (logSt [(1, { seatRec 1 with seq := 1 })] 1 0 []))).map
    (fun t => (t.flt.handled, t.flt.faulted)) = some (1, 0x8000) := by decide +kernel
/-- 15 R470, 14 R441: a fence that asks for it is kept in flash. -/
theorem test_fenceSeat : (out (exec (.fenceSeat 0) (late base 0x32 (unitCmd (pack [(16, 1, 1), (10, 6, 47), (5, 5, 23), (4, 1, 1)]) 1)))).map
    (fun t => ((mapOf t 95).fenced, t.sec.flash.fences.length)) = some (0x800000, 1) := by decide +kernel


/-! ## Registers and ports -/

/-- TELEMETRY of `sel` into 0xFFC0 bytes of the host's memory. -/
def telArgs (sel : Nat) : List (Nat × Nat × Nat) := [(128, 16, sel), (192, 64, 0x1000), (256, 32, 0xFFC0)]

/-- Seat 2303 is `x`. -/
def lastSeat (x : Seat) : State := { base with seats := [(2303, x)] }

theorem witness_RegistersAndPorts :
    (isMsix 0x23FF 4 = false ∧ 0x24 % 4 = 0 ∧ isMsix 0x26 4 = false ∧ 0x26 % 4 ≠ 0 ∧ isMsix 0x24 8 = false ∧ isMsix 0xFFC 4 = false ∧
      base.glb.fw ≠ .recovery ∧ bar0Read base 0xFFC = none) ∧
    (bar0Read base 0x24 = some 0x1F ∧ windowOf 0x24 = none ∧ windowOf 0x18FFFFC = some (2303, 0xFFC) ∧
      (bar0Read (lastSeat { winSpace := 1 }) 0x18FFFFC).isSome = true ∧
      (domOf { base with clk := { base.clk with dom := [(95, { paddle := true })] } } (crewOf 2303)).paddle = true) ∧
    { base.glb with fw := .recovery }.fw = .recovery ∧
    ((sqOf base 15).enable = false ∧ (sqOf (sqSt 15 { enable := true } 0) 15).enable = true) ∧
    (let s := lastSeat { winSpace := 1, winBase := 383 }
     let x := seatOf s 2303
     (x.winSpace = 1 ∧ 1024 * x.winBase.toNat + 1020 + 4 ≤ 0x60000) ∧ 1020 % 4 = 0 ∧ 1020 < 1024 ∧ x.disabled = false ∧
     (domOf s (crewOf 2303)).paddle = false ∧ halfBoated s (halfOf 2303) = false ∧ x.cox.filling = false ∧
     (seatOf (lastSeat { winSpace := 1, cox := { filling := true } }) 2303).cox.filling = true) ∧
    (let s := lastSeat { winSpace := 2, winBase := 63 }
     let x := seatOf s 2303
     (x.winSpace = 2 ∧ 1024 * x.winBase.toNat + 1020 + 4 ≤ 0x10000) ∧ pageBusy x (1024 * 63 + 1020) 4 = false ∧
     pageBusy { x with cox := { x.cox with use1 := some 5 } } (1024 * 63 + 1020) 4 = true) ∧
    (commandOf (cmd base 0x40 (telArgs 128)) 0 0x40 = some (cmdVal 0x40 (telArgs 128)) ∧ 127 < cb (cmdVal 0x40 (telArgs 128)) 0x10 2 ∧
      commandOf (cmd base 0x40 (telArgs 127)) 0 0x40 = some (cmdVal 0x40 (telArgs 127)) ∧ cb (cmdVal 0x40 (telArgs 127)) 0x10 2 ≤ 127 ∧
      (let c := cmdVal 0x40 (telArgs 0)
       let s := { base with cq := { base.cq with sq := [(16, { cur := some (BitVec.ofNat 512 c), waiting := 1 })] } }
       commandOf s 16 0x40 = some c ∧ cb c 0x10 2 ≤ 127)) ∧
    (live.pins.reset = false ∧ base.pins.reset = true) ∧
    (let s (r : Option (BitVec 512)) := { live with pins := { live.pins with i3cAddr := some 8 }, cq := { base.cq with i3cReply := r } }
     (List.replicate 64 (0 : Byte)).length = 64 ∧ (s none).pins.i3cAddr ≠ none ∧ (s none).glb.fw = .ready ∧ (sqOf (s none) 16).cur = none ∧
     (sqOf (s none) 16).waiting = 0 ∧ bit ((List.replicate 64 (0 : Byte)).getD 1 0).toNat 0 = false ∧ readRefusal (sqOf (s none) 16) 16 1 = none ∧
     readRefusal (sqOf (s none) 16) 16 0x22 = some stNoSession ∧ live.pins.i3cAddr = none ∧ (s (some 4)).cq.i3cReply = some 4 ∧
     bit (4 : BitVec 512).toNat 2 = true) ∧
    (let s := { base with pins := { base.pins with pwrgd := 5 } }
     s.pins.reset = true ∧ s.pins.pwrgd.getLsbD 0 = true ∧ s.pins.pwrgd.getLsbD 2 = true ∧ base.pins.pwrgd.getLsbD 0 = false) ∧
    State.reset.glb.fw ≠ .ready := by
  refine ⟨?_, ?_, ?_, ?_, ?_, ?_, ?_, ?_, ?_, ?_, ?_⟩ <;> decide +kernel

/-- 13 R405: a write of eight bytes to a word register is dropped and counted. -/
theorem test_registerWrite : (out (exec (.registerWrite 0x24 8 (some 3)) base)).map (fun t => (t.glb.eventMask, t.glb.bad)) = some (0x1F, 1) := by decide +kernel
/-- 13 R407: a read through the window of seat 2303, of the last word of its core memory. -/
theorem test_seatWindow : (out (exec (.seatWindowAccess 2303 1020 none) (lastSeat { winSpace := 1, winBase := 383, core := [(0x5FFFF, 9)] }))).map
    (fun t => t.glb.readData) = some 0x09000000 := by decide +kernel
/-- 14 R451: a telemetry block that the host's buffer cannot take is answered HOST_ACCESS. -/
theorem test_telemetry : (out (exec (.telemetry 0 false) (cmd base 0x40 (telArgs 0)))).map
    (fun t => (cqrOf t 0).hold.map fun e => fld e.first.toNat 64 16) = some [stHostAccess] := by decide +kernel
/-- 16 R489: a private instruction without debug access is BYPASS. -/
theorem test_tap : (out (exec (.tapInstruction (.other 5)) base)).map (fun t => t.pins.tap) = some .bypass := by decide +kernel


/-! ## Reset, start-up and trust -/

/-- The part in start-up stage `n`, with Snivan as `fw`. -/
def stageSt (n : Nat) (fw : Fw) : State := { State.reset with glb := { State.reset.glb with fw := fw, stage := n } }

theorem witness_Resets :
    ((9999 : Nat) < 10000 ∧ (999 : Nat) < 1000 ∧ (3 : Fin 4) ≠ 0) ∧
    (let s := { State.reset with pins := { State.reset.pins with pwrgd := 0xF } }
     s.pins.reset = true ∧ s.pins.released = false ∧ s.pins.pwrgd = 0xF ∧ State.reset.pins.pwrgd ≠ 0xF) ∧
    (let s := { State.reset with pins := { State.reset.pins with pwrgd := 7, released := true } }
     s.pins.reset = true ∧ s.pins.released = true ∧ ∀ k, k < 4 → k ≠ (3 : Fin 4).val → s.pins.pwrgd.getLsbD k = true) ∧
    live.pins.reset = false := by
  refine ⟨?_, ?_, ?_, ?_⟩ <;> decide +kernel

/-- 16 R486: RESET_N asserted for less than 10 us does nothing; for 10 us the part is reset and keeps its flash. -/
theorem test_resetAssert : ((out (exec (.resetAssert 9999) live)).map (fun t => t.pins.reset), (out (exec (.resetAssert 10000) { live with
    sec := { live.sec with flash := { live.sec.flash with grade := [(5, 1)] }, ide := true } })).map (fun t => (t.pins.reset, t.sec.flash.grade, t.sec.ide))) =
    (some false, some (true, [(5, 1)], false)) := by decide +kernel
/-- 16 R484: the link trains only once the management clock runs. -/
theorem test_perst : (out (exec .perstDeassert State.reset)).map (fun t => (t.pins.perst, t.pins.link)) = some (false, false) := by decide +kernel

theorem witness_StartupStages :
    (startupAt (stageSt 2 .starting) 2 = true ∧ (∀ d ∈ [98], 98 ≤ d) ∧ ∃ d ∈ [98, 97], d < 98) ∧
    (startupAt (stageSt 3 .starting) 3 = true ∧ ¬ (3 ≤ 2 ∧ 6 ≤ 6) ∧ ¬ (3 ≤ 3 ∧ 7 ≤ 6)) ∧ startupAt (stageSt 4 .starting) 4 = true ∧
    startupAt (stageSt 5 .starting) 5 = true ∧
    (let s := { stageSt 6 .starting with glb := { (stageSt 6 .starting).glb with recordOk := true }, seats := [(2303, { failed := true })] }
     startupAt s 6 = true ∧ gradePasses s = true ∧ (seatOf s 2303).failed = true ∧ gradePasses (stageSt 6 .starting) = false ∧ s.chain.head = false ∧
     { s.chain with head := true }.head = true) ∧
    (let s := { stageSt 8 .ready with fab := { State.reset.fab with ports := (List.range 12).map fun k => (k, { en := false }) } }
     s.glb.stage = 8 ∧ (∀ p, p < 12 → portSettled s p = true) ∧ ∃ p, p < 12 ∧ portSettled (stageSt 8 .ready) p = false) ∧
    (startupAt (stageSt 2 .ready) 2 = false ∧ startupAt base 3 = false ∧ startupAt base 4 = false ∧ startupAt base 5 = false ∧ startupAt base 6 = false ∧
      base.glb.stage ≠ 8) ∧
    (let s := { stageSt 7 .starting with glb := { (stageSt 7 .starting).glb with trial := true, lateHalt := some 0x306 } }
     s.glb.fw = .starting ∧ 7 ≤ s.glb.stage ∧ s.glb.trial = true ∧ s.glb.lateHalt = some 0x306) := by
  refine ⟨⟨?_, ?_, 97, ?_⟩, ?_, ?_, ?_, ?_, ⟨?_, ?_, 0, ?_, ?_⟩, ?_, ?_⟩ <;> decide +kernel

/-- 09 R296, 16 R491: all crossings of 6 cycles pass, one of 7 among them does not. -/
theorem witness_Crossings :
    (∀ k ∈ fifos, 3 ≤ tget 6 [] k ∧ tget 6 [] k ≤ 6) ∧ ∃ k ∈ fifos, ¬ (3 ≤ tget 6 [(36771, 7)] k ∧ tget 6 [(36771, 7)] k ≤ 6) := by
  refine ⟨fun k _ => by simp [tget, tfind], 36771, ?_, by decide⟩
  simp only [fifos, List.mem_flatMap, List.mem_map, List.mem_range, List.mem_filter]
  exact ⟨36771 / 16, by decide, 36771 % 16, by decide +kernel, by decide⟩

/-- 14 R440: without a good record there is no grade. -/
theorem test_fillAndGrade : (out (exec .fillAndGrade (stageSt 6 .starting))).map (fun t => (t.glb.grade, t.glb.gradeValid, t.glb.stage)) =
    some (0xFF, false, 7) := by decide +kernel

/-- An ENUM frame (14 R447). -/
def enumOf (v : Nat) : Nat := 256 * v + 1 + 2 ^ 24 * (crc8 (bytesOf (256 * v + 1) 3)).toNat

/-- The part with the chain `c`, in stage `n`. -/
def chainSt (c : Chain) (n : Nat) : State := { live with chain := c, glb := { live.glb with stage := n } }

theorem witness_EnumerationChain :
    (base.pins.reset = true ∧ 2 ^ 32 ≤ (2 ^ 32 : Nat) ∧ live.pins.reset = false ∧ enumValue 0x01000001 = none) ∧
    (enumOf 4096 % 256 = 1 ∧ enumValue (enumOf 4096) = some 4096 ∧ enumValue (enumOf 4095) = some 4095 ∧ enumValue (enumOf 8191) = some 8191) ∧
    (chainSt { head := true, valid := true } 9).chain.head = true ∧ (chainSt { head := true, valid := true } 9).chain.valid = true ∧
    (let s := chainSt { node := 4095, valid := true } 9
     s.chain.head = false ∧ s.chain.valid = true ∧ 4095 = s.chain.node ∧ 4096 ≠ s.chain.node) ∧
    (let s := chainSt {} 6
     s.chain.head = false ∧ s.chain.valid = false ∧ s.glb.stage < 7) ∧
    (let s := { chainSt {} 7 with fab := { live.fab with ports := [(11, { state := .off, en := false })] } }
     s.chain.head = false ∧ s.chain.valid = false ∧ 7 ≤ s.glb.stage ∧ s.glb.fw = .ready ∧ (portOf s 0).state = .off ∧ (portOf s 11).en = false) := by
  refine ⟨?_, ?_, ?_, ?_, ?_, ?_, ?_⟩ <;> decide +kernel

/-- 14 R448: a part takes the number it is sent and sends the next. -/
theorem test_enumFrame : (out (exec (.enumFrame (enumOf 4095)) (chainSt {} 7))).map
    (fun t => (t.chain.node, t.chain.valid, t.chain.sternEnum, t.glb.stage)) = some (4095, true, some (enumOf 4096), 8) := by decide +kernel

theorem witness_ChainRing :
    (let s := chainSt { head := true } 9
     s.pins.reset = false ∧ s.chain.head = true ∧ enumOf 8191 % 256 = 1 ∧ enumValue (enumOf 8191) = some 8191) ∧
    (State.reset.chain.ring = false → State.reset.chain.size = 0) ∧ (out (step State.reset)).isSome = true := by
  refine ⟨?_, ?_, ?_⟩ <;> decide +kernel

/-- An image header of TYPE `ty` with a body of `b` bytes. -/
def signedImage (ty b : Nat) : Mem := [(0, 0x49), (1, 0x46), (2, 0x57), (3, 0x4E)] ++ mwr [] 4 4 (ty + 256) ++ mwr [] 0x10 4 b

/-- FW_UPDATE with FLAGS `fl` and a source of 4,096 bytes. -/
def updArgs (fl : Nat) : List (Nat × Nat × Nat) := [(128, 8, fl), (256, 64, 4096)]

/-- All but what the signatures and the renewal's key give, which is open. -/
theorem witness_Trust :
    (let s (n : Nat) := late { base with sec := { base.sec with stateRec := { base.sec.stateRec with index := n } } } 0x48 []
     commandOf (cmd base 0x48 []) 0 0x48 = some (cmdVal 0x48 []) ∧ commandOf (s 1048576) 0 0x48 = none ∧ bgOf (s 1048576) 0 0x48 = some (cmdVal 0x48 []) ∧
     bgOf (s 1048575) 0 0x48 = some (cmdVal 0x48 []) ∧ treeSize ≤ (s 1048576).sec.stateRec.index ∧ (s 1048575).sec.stateRec.index < treeSize) ∧
    (let s (f : Nat) := late base 0x49 (updArgs f)
     let busy := { cmd base 0x49 (updArgs 1) with cq := { (cmd base 0x49 (updArgs 1)).cq with bg := [(15, cmdVal 0x49 [])] } }
     commandOf (cmd base 0x49 (updArgs 1)) 0 0x49 = some (cmdVal 0x49 (updArgs 1)) ∧ (∀ p ∈ (cmd base 0x49 (updArgs 1)).cq.bg, cOpcode p.2 ≠ 0x49) ∧
     commandOf busy 0 0x49 = some (cmdVal 0x49 (updArgs 1)) ∧ busy.cq.bg.map (fun p => cOpcode p.2) = [0x49] ∧
     commandOf (s 2) 0 0x49 = none ∧ bgOf (s 2) 0 0x49 = some (cmdVal 0x49 (updArgs 2)) ∧ ¬ (2 ≤ imType (signedImage 1 64) ∧ imType (signedImage 1 64) ≤ 4) ∧
     ¬ (2 ≤ imType (signedImage 5 64) ∧ imType (signedImage 5 64) ≤ 4) ∧ 1 < cb (cmdVal 0x49 (updArgs 2)) 0x10 1 ∧
     bgOf (s 1) 0 0x49 = some (cmdVal 0x49 (updArgs 1)) ∧ cb (cmdVal 0x49 (updArgs 1)) 0x10 1 ≤ 1 ∧ { base.glb with activate := true }.activate = true ∧
     base.glb.activate = false ∧ imRefusal (s 1) [] 1 (cb (cmdVal 0x49 (updArgs 1)) 0x20 8) = some 0x50) ∧
    (let s := { base with glb := { base.glb with activate := true }, sec := { base.sec with flash := { base.sec.flash with rec0 := some base.sec.stateRec } } }
     s.glb.activate = true ∧ s.glb.fw = .ready ∧ currentRec s.sec.flash = some s.sec.stateRec) ∧
    (let s := stageSt 1 .recovery
     (1 : Word).getLsbD 0 = true ∧ (2 : Word).getLsbD 0 = false ∧ s.glb.fw = .recovery ∧
     imRefusal s s.glb.recWin 1 (min 1048576 s.glb.recLen.toNat) = some 0x50) ∧
    (let s := late base 0x49 (updArgs 1)
     let c := cmdVal 0x49 (updArgs 1)
     (commandOf s 0 0x49 = none ∧ bgOf s 0 0x49 = some c) ∧ (imType (signedImage 2 0) = 2 ∧ updateRefusal s c (signedImage 2 0) 2 = some 0x50) ∧ (imType (signedImage 3 0) = 3 ∧ updateRefusal s c (signedImage 3 0) 3 = some 0x50) ∧
     imType (signedImage 4 0) = 4 ∧ updateRefusal s c (signedImage 4 0) 4 = some 0x50) ∧
    (enrolBad (signedImage 2 0) = true ∧ enrolBad (signedImage 2 1440) = true ∧ enrolBad (signedImage 2 161) = true ∧
      (let m := signedImage 2 320 ++ [(0x40, 7), (0x47, 9)]
       enrolBad m = false ∧ imBody m / 160 = 2 ∧ (enrolEntry m 0).1 = 7 ∧ (enrolEntry m 1).1 = 0 ∧ (enrolEntry m 1).2 = (0, 0) ∧
       ∃ p ∈ (ctxSt 15 { state := .created, slot := 7 }).ctxs.ctx, p.2.state ≠ .free ∧ tfind (enrol m [(7, (1, 2))]) p.2.slot ≠ tfind [(7, (1, 2))] p.2.slot)) ∧
    (let m := signedImage 3 64 ++ [(0x40, 9), (0x48, 3)]
     mrd m 0x40 8 ≠ base.glb.nonce.toNat ∧ mrd m 0x40 8 = { base.glb with nonce := 9 }.nonce.toNat ∧ base.str.runs = [] ∧ base.ctxs.loads = [] ∧
     base.ctxs.zeroing = [] ∧ (runSt [] [] {}).str.runs ≠ []) := by
  refine ⟨?_, ?_, ?_, ?_, ?_, ⟨?_, ?_, ?_, ?_, ?_, ?_, ?_, ?_, (15, { state := .created, slot := 7 }), ?_, ?_, ?_⟩, ?_⟩ <;> decide +kernel

/-- 14 R429: an image that is none is refused with IMAGE_FORMAT. -/
theorem test_fwUpdate : (out (exec (.fwUpdate 0 (some []) true) (late base 0x49 (updArgs 0)))).map
    (fun t => (cqrOf t 0).hold.map fun e => fld e.first.toNat 64 16) = some [0x50] := by decide +kernel
/-- 14 R431: the same in recovery. -/
theorem test_recoveryGo : (out (exec (.recoveryGo 1) (stageSt 1 .recovery))).map (fun t => (t.glb.recStatus, t.glb.fw)) = some (0x50, .recovery) := by
  decide +kernel


/-! ## The fabric -/

/-- The part whose ports are `ps`, at reference tick `n`. -/
def portsSt (ps : Tbl Port) (n : Nat) : State := { base with fab := { base.fab with ports := ps }, clk := { base.clk with ticks := n } }

/-- Port 11 is `x`. -/
def portSt (x : Port) : State := portsSt [(11, x)] 0

theorem witness_PortTraining :
    ((portOf (portSt { state := .detect }) 11).state = .detect ∧ (portOf base 11).state ≠ .detect) ∧
    ((portOf (portSt { state := .equalise }) 11).state = .equalise ∧ (portOf (portSt { state := .lock }) 11).state = .lock ∧
      (portOf (portSt { state := .width }) 11).state = .width) ∧
    (let two (lanes : Byte) (k : Nat) : Prop := lanes.getLsbD (2 * k) = true ∧ lanes.getLsbD (2 * k + 1) = true
     (∀ k, k < 4 → ¬ two 0x55 k) ∧ (∀ k, k < 4 → two 0xFF k) ∧ (two 0x1F 0 ∧ two 0x1F 1 ∧ (0x1F : Byte) ≠ 0xFF) ∧
     (¬ (two 0xFC 0 ∧ two 0xFC 1) ∧ two 0xFC 2 ∧ two 0xFC 3) ∧
     (¬ (two 0xC0 0 ∧ two 0xC0 1) ∧ ¬ (two 0xC0 2 ∧ two 0xC0 3) ∧ two 0xC0 3 ∧ ∀ j, j < 3 → ¬ two 0xC0 j)) ∧
    (let x (lo hi : Nat) : Port := { state := .identify, offer := some (lo, hi), partnerNode := 5 }
     (portOf (portSt (x 0x22 0x22)) 11).offer = some (0x22, 0x22) ∧ min 0x22 0x21 < max 0x22 0x20 ∧ min 0x1F 0x21 < max 0x10 0x20 ∧
     max 0x10 0x20 ≤ min 0x20 0x21 ∧ max 0x21 0x20 ≤ min 0x30 0x21 ∧ (portOf (portSt { state := .identify }) 11).offer = none ∧
     base.chain.valid = false ∧ ({ node := 5, valid := true } : Chain).valid = true ∧ (x 0x20 0x20).partnerNode = ({ node := 5, valid := true } : Chain).node ∧
     (x 0x20 0x20).partnerNode ≠ ({ node := 4, valid := true } : Chain).node) ∧
    (let x : Port := { state := .creditInit, advSeen := true, ackSeen := true }
     (portOf (portSt x) 11).advSeen = true ∧ x.ackSeen = true ∧ x.sched = false ∧ (portOf (portSt { state := .creditInit }) 11).advSeen = false) ∧
    ((7 : Word).getLsbD 0 = true ∧ (7 : Word).getLsbD 1 = true ∧ (7 : Word).getLsbD 2 = true ∧ (0 : Word).getLsbD 0 = false) ∧
    (let s := portsSt [(10, { state := .active, sched := true }), (11, { state := .active })] 0
     (portOf s 11).state = .active ∧ (pairOf s (11 / 2)).split = false ∧ portLive s (partner 11) = true ∧ (portOf s (partner 11)).sched = true ∧
     partner 11 < 11 ∧ 10 < partner 10 ∧ (portOf s 11).badAt.length < 17 ∧ (portOf s 11).sched = false) ∧
    portLive (portSt { state := .down }) (partner 11) = false := by
  refine ⟨?_, ?_, ?_, ?_, ?_, ?_, ?_, ?_⟩ <;> decide +kernel

/-- 10 R315: the lanes 6 and 7 alone make a port of two lanes, lane set 3. -/
theorem test_width : (out (exec (.portTrainingStep 11 0xC0 true) (portSt { state := .width }))).map
    (fun t => ((portOf t 11).state, (portOf t 11).width, (portOf t 11).laneset)) = some (.identify, 2, 3) := by decide +kernel

/-- A fabric packet with header fields `fs`. -/
def fpk (fs : List (Nat × Nat × Nat)) (data : List Granule) : Pkt := ⟨BitVec.ofNat 512 (pack fs), data⟩

/-- A request by FTAG 9 from here, for port 11 as its first hop. -/
def fReq (ty : Nat) : Pkt := fpk [(0, 4, ty), (8, 12, 9), (149, 5, 1), (154, 4, 13)] []

theorem witness_Failover :
    (let s := portsSt [(10, { state := .active }), (11, { state := .active, unacked := [{ pkt := fReq 2 }], tx := [fReq 2] })] 0
     portLive s 11 = true ∧ (pairOf s (11 / 2)).split = false ∧
     (∀ k ∈ (portOf s 11).unacked.map (fun e => setHdr e.pkt 140 1 1) ++ (portOf s 11).tx, nextPort k = 11) ∧ Stalled s (partner 11)) ∧
    (let s := portSt { state := .active, sched := true, tx := [fReq 2] }
     portLive s 11 = true ∧ portLive s (partner 11) = false ∧ (portOf s 11).sched = true) ∧
    (let s0 := portsSt [(11, { fast := true })] 2006
     let s := { s0 with fab := { s0.fab with pairs := [(5, { held := [(7, fReq 2)] })] } }
     ∀ e ∈ (pairOf s 5).held, s.clk.ticks < e.1 + 2000 ∧ pairWaits s (nextPort e.2) = true) ∧
    (let s0 := portsSt [(11, { fast := true })] 2007
     let s := { s0 with fab := { s0.fab with pairs := [(5, { held := [(7, fReq 2)] })], ftags := [(9, { seat := 3 })] } }
     (pairOf s 5).held = [(7, fReq 2)] ∧ 7 + 2000 ≤ s.clk.ticks ∧ fIsRsp (fReq 2).hdr.toNat = false ∧ fPtr (fReq 2).hdr.toNat = 1 ∧
     ftagOf s (fTag (fReq 2).hdr.toNat) = some { seat := 3 } ∧ ({ seat := 3 } : Ftag).complete = false ∧ ({ seat := 3 } : Ftag).isMulti = false ∧
     ({ seat := 3 } : Ftag).isRead = false ∧ pairWaits base (nextPort (fReq 2)) = false) := by
  unfold Stalled
  refine ⟨?_, ?_, ?_, ?_⟩ <;> decide +kernel

/-- An ACTIVE port that expects number 5. -/
def rxPort : Port := { state := .active, rxSeq := 5 }

/-- A one-slot frame's envelope with number `n`. -/
def envOf (kind n : Nat) (fs : List (Nat × Nat × Nat)) : BitVec 48 := BitVec.ofNat 48 (pack ([(0, 2, kind), (2, 12, n), (28, 2, 1)] ++ fs))

theorem sequence_frame (n : Nat) (hn : n < 4096) : Plain (sealFrame 0 (envOf 1 n [])) 1 ∧ eSeq (sealFrame 0 (envOf 1 n [])).env.toNat = n ∧
    eSlot (sealFrame 0 (envOf 1 n [])).env.toNat 0 = 1 ∧ eSlot (sealFrame 0 (envOf 1 n [])).env.toNat 1 = 0 ∧
    eSlot (sealFrame 0 (envOf 1 n [])).env.toNat 2 = 0 ∧ eSlot (sealFrame 0 (envOf 1 n [])).env.toNat 3 = 0 := by
  have key : ∀ n : BitVec 12, fld (envOf 1 n.toNat []).toNat 0 2 = 1 ∧ bit (envOf 1 n.toNat []).toNat 26 = false ∧
      bit (envOf 1 n.toNat []).toNat 27 = false ∧ fld (envOf 1 n.toNat []).toNat 2 12 = n.toNat ∧ fld (envOf 1 n.toNat []).toNat 28 2 = 1 ∧
      fld (envOf 1 n.toNat []).toNat 30 2 = 0 ∧ fld (envOf 1 n.toNat []).toNat 32 2 = 0 ∧ fld (envOf 1 n.toNat []).toNat 34 2 = 0 := by decide +kernel
  have h := key (BitVec.ofNat 12 n)
  rw [BitVec.toNat_ofNat, Nat.mod_eq_of_lt hn] at h
  obtain ⟨hk, ha, hb, hs, h0, h1, h2, h3⟩ := h
  refine ⟨sealFrame_plain _ _ _ hk ha hb, ?_, ?_, ?_, ?_, ?_⟩
  · unfold eSeq; rw [sealFrame_fld _ _ _ _ (by decide)]; exact hs
  all_goals
    unfold eSlot
    rw [sealFrame_fld _ _ _ _ (by decide)]
    assumption

/-- The frame of flit `f` whose envelope has KIND `kind`, number `n` and the further bits `fs`. -/
def wire (f : BitVec 2048) (kind n : Nat) (fs : List (Nat × Nat × Nat)) : Frame := sealFrame f (envOf kind n fs)

/-- Port 11 is `x` and has received `fr`. -/
def gotSt (x : Port) (fr : Frame) : State := portSt { x with rxFrames := [fr] }

theorem gotSt_received (x : Port) (fr : Frame) : Received (gotSt x fr) 11 fr [] := rfl

theorem wire_kind (f : BitVec 2048) (kind n : Nat) (fs : List (Nat × Nat × Nat)) :
    eKind (wire f kind n fs).env.toNat = fld (envOf kind n fs).toNat 0 2 := sealFrame_fld _ _ 0 2 (by decide)

theorem wire_ack (f : BitVec 2048) (kind n : Nat) (fs : List (Nat × Nat × Nat)) :
    eAckValid (wire f kind n fs).env.toNat = bit (envOf kind n fs).toNat 26 := sealFrame_bit _ _ 26 (by decide)

theorem wire_nak (f : BitVec 2048) (kind n : Nat) (fs : List (Nat × Nat × Nat)) :
    eNak (wire f kind n fs).env.toNat = bit (envOf kind n fs).toNat 27 := sealFrame_bit _ _ 27 (by decide)

theorem wire_plain (f : BitVec 2048) (kind n : Nat) (fs : List (Nat × Nat × Nat)) (hk : fld (envOf kind n fs).toNat 0 2 = kind)
    (ha : bit (envOf kind n fs).toNat 26 = false) (hn : bit (envOf kind n fs).toNat 27 = false) : Plain (wire f kind n fs) kind :=
  sealFrame_plain _ _ _ hk ha hn

/-- Of 544 symbols all 0, the word itself; of one with 16 symbols off, none. -/
def rsZero : List (BitVec 10) := List.replicate 544 0
def rsBad : List (BitVec 10) := List.replicate 528 0 ++ (List.range 16).map fun k => BitVec.ofNat 10 (61 * k + 7)

theorem witness_RsCodeword : receives (portOf base 11) = false ∧ receives rxPort = true ∧ rsBad.length = 544 ∧ rsDecode (rsBad.map BitVec.toNat) = none ∧
    rsDecode (rsZero.map BitVec.toNat) = some (rsZero.map BitVec.toNat, 0) := by
  refine ⟨?_, ?_, ?_, ?_, ?_⟩ <;> decide +kernel

theorem witness_FramesDiscarded :
    base.fab.ports = [] ∧ (portOf base 11).rxFrames = [] ∧
    (∀ kind, kind < 4 → frameGood (badFrame (envOf kind 0 [])) = false ∧ eKind (badFrame (envOf kind 0 [])).env.toNat = kind) ∧
    (gotSt {} (wire 0 1 0 []) |> fun s => (portOf s 11).state ≠ .active) ∧ Plain (wire 0 1 5 []) 1 ∧ Plain (wire 0 1 5 [(30, 2, 3)]) 1 ∧
    eSlot (wire 0 1 5 [(30, 2, 3)]).env.toNat 1 = 3 ∧ Quiet (gotSt rxPort (wire 0 1 5 [(30, 2, 3)])) 11 := by
  refine ⟨rfl, ?_, fun kind hk => ⟨badFrame_bad _, ?_⟩, ?_, wire_plain _ _ _ _ ?_ ?_ ?_, wire_plain _ _ _ _ ?_ ?_ ?_, ?_, ?_⟩
  case refine_2 =>
    rw [badFrame_kind]
    have h : ∀ k : Fin 4, fld (envOf k.val 0 []).toNat 0 2 = k.val := by decide +kernel
    exact h ⟨kind, hk⟩
  case refine_10 => unfold eSlot; rw [wire, sealFrame_fld _ _ _ _ (by decide)]; decide +kernel
  all_goals try unfold Quiet
  all_goals decide +kernel

theorem witness_FrameAccepted :
    (let s := gotSt rxPort (sealFrame 0 (envOf 1 5 []))
     Quiet s 11 ∧ (portOf s 11).rxSlots = [] ∧ fCarried (0 % 2 ^ 512) = 0 ∧ (creditOf (portOf s 11) (classKey (0 % 2 ^ 512))).buffered < 512 ∧
     ∀ k, (creditOf (portOf s 11) k).buffered ≤ if k % 2 = 0 then 512 else 2048) ∧
    (let x : Port := { rxPort with credit := [(0, { buffered := 512 })] }
     (creditOf x (classKey (0 % 2 ^ 512))).buffered = 512 ∧ ∀ k, k < 4 → (creditOf x k).buffered ≤ if k % 2 = 0 then 512 else 2048) ∧
    ((5 + 4096 - 5) % 4096 = 0 ∧ (5 + 4096 - 4) % 4096 = 1 ∧ (5 + 4096 - 2053) % 4096 = 2048 ∧ (5 + 4096 - 2052) % 4096 = 2049) ∧
    (∀ n, n < 4096 → Plain (sealFrame 0 (envOf 1 n [])) 1 ∧ eSeq (sealFrame 0 (envOf 1 n [])).env.toNat = n ∧
      eSlot (sealFrame 0 (envOf 1 n [])).env.toNat 0 = 1 ∧ eSlot (sealFrame 0 (envOf 1 n [])).env.toNat 1 = 0 ∧
      eSlot (sealFrame 0 (envOf 1 n [])).env.toNat 2 = 0 ∧ eSlot (sealFrame 0 (envOf 1 n [])).env.toNat 3 = 0) ∧
    (let k := pack [(124, 16, 5), (140, 1, 1)] % 2 ^ 512
     let d : Pair := { seen := true, high := 5, record := [5] }
     fFailover k = true ∧ fCarried k = 0 ∧ d.seen = true ∧ diff16 (fPairSeq k) d.high ≤ 0 ∧ fPairSeq k ∈ d.record ∧ diff16 5 4101 ≤ -4096 ∧
     ¬ diff16 5 4100 ≤ -4096) := by
  refine ⟨⟨?_, ?_, ?_, ?_, fun k => ?_⟩, ?_, ?_, sequence_frame, ?_⟩
  case refine_5 => exact Nat.zero_le _
  all_goals try unfold Quiet
  all_goals decide +kernel

theorem witness_AcksAndNaks :
    (let x : Port := { state := .active, unacked := [{ seq := 4095, frames := 2, pkt := fReq 2 }], replayRun := 6 }
     ackDrop 0 x.unacked ≠ x.unacked ∧ x.unacked ≠ [] ∧ x.replayRun < 7 ∧ Quiet (gotSt x (wire 0 0 0 [(26, 1, 1)])) 11) ∧
    (let fr := wire 0 0 0 [(26, 1, 1)]
     frameGood fr = true ∧ eKind fr.env.toNat = 0 ∧ eAckValid fr.env.toNat = true ∧ eNak fr.env.toNat = false) ∧
    (let fr := wire 0 0 0 [(27, 1, 1)]
     frameGood fr = true ∧ eKind fr.env.toNat = 0 ∧ eAckValid fr.env.toNat = false ∧ eNak fr.env.toNat = true) ∧
    (let s (n : Nat) := portsSt [(11, { state := .active, unacked := [{ pkt := fReq 2 }], ackTick := 7, replayRun := 7 })] n
     portLive (s 207) 11 = true ∧ (portOf (s 207) 11).unacked ≠ [] ∧ (portOf (s 207) 11).ackTick + 200 ≤ (s 207).clk.ticks ∧
     (s 206).clk.ticks < (portOf (s 206) 11).ackTick + 200 ∧ 7 ≤ (portOf (s 207) 11).replayRun) := by
  refine ⟨?_, ⟨sealFrame_good _ _, ?_, ?_, ?_⟩, ⟨sealFrame_good _ _, ?_, ?_, ?_⟩, ?_⟩
  case refine_1 => unfold Quiet; decide +kernel
  all_goals try rw [wire_kind]
  all_goals try rw [wire_ack]
  all_goals try rw [wire_nak]
  all_goals decide +kernel

theorem witness_PacketSent :
    (let x : Port := { state := .active, tx := [fReq 2], credit := [(0, { adv := 1 })] }
     let h := (fReq 2).hdr.toNat
     portLive (gotSt x (wire 0 0 0 [])) 11 = true ∧ x.resend = 0 ∧ x.tx = [fReq 2] ∧ (fReq 2).data.length = fCarried h ∧
     1 ≤ (creditOf x (classKey h)).free ∧ fCarried h ≤ (creditOf x (classKey h + 1)).free ∧ bufferedFrames x + (fCarried h + 4) / 4 ≤ 512 ∧
     firstChip h = true ∧ expired (fabTime base) (fpk [(149, 5, 2)] []).hdr.toNat = false ∧ fFailover h = false) ∧ Plain (wire 0 0 0 []) 0 := by
  refine ⟨?_, wire_plain _ _ _ _ ?_ ?_ ?_⟩ <;> decide +kernel

theorem witness_ControlFrames :
    (let fr := wire (BitVec.ofNat 2048 (pack [(72, 8, 6)])) 2 0 []
     Plain fr 2 ∧ eKind fr.env.toNat = 2 ∧ cf fr.flit.toNat 9 1 = 6) ∧
    ((portOf (portSt { state := .identify }) 11).state = .identify ∧ (portOf (portSt { state := .creditInit }) 11).state = .creditInit) ∧
    (let x : Port := { state := .active, credit := [(0, { charged := 3, returned := 65535 })] }
     let fr := wire (BitVec.ofNat 2048 (pack [(0, 16, 3)])) 2 0 []
     Quiet (gotSt x fr) 11 ∧ Plain fr 2 ∧
     ∀ k, k < 4 → (cf fr.flit.toNat (2 * k) 2 + 65536 - (creditOf x k).returned % 65536) % 65536 ≤ (creditOf x k).owed) ∧
    (let x : Port := { state := .active, credit := [(0, { charged := 3, returned := 3 })] }
     let fr := wire (BitVec.ofNat 2048 (pack [(0, 16, 3), (432, 8, 3)])) 2 0 []
     let s := { gotSt x fr with fab := { (gotSt x fr).fab with role := 2, upstream := 11 } }
     Quiet s 11 ∧ Received s 11 fr [] ∧ Plain fr 2 ∧ (∀ k, k < 4 → cf fr.flit.toNat (2 * k) 2 = (creditOf (portOf s 11) k).returned) ∧
     (∀ k, k < 4 → (creditOf (portOf s 11) k).returned < 65536) ∧ bit (cf fr.flit.toNat 0x36 1) 0 = true ∧ s.fab.role = 2 ∧
     s.fab.upstream.toNat = 11) := by
  refine ⟨⟨wire_plain _ _ _ _ ?_ ?_ ?_, ?_, ?_⟩, ?_, ⟨?_, wire_plain _ _ _ _ ?_ ?_ ?_, ?_⟩, ⟨?_, rfl, wire_plain _ _ _ _ ?_ ?_ ?_, ?_, ?_, ?_, ?_, ?_⟩⟩
  case refine_4 => rw [wire_kind]; decide +kernel
  all_goals try unfold Quiet
  all_goals decide +kernel

/-- Packet `p` of seat 7, whole in the fabric complex. -/
def outbound (p : Pkt) : Deliv := { target := .fabric, pkt := p, full := true, sender := some 7 }

/-- The part with class 5 held by heat 0 of run 1, whose tag is `tag` and whose graph has the routes `rs`; packet `p` from seat 7 has reached the
fabric complex, and `fs` are the tags in use. Port 11 is ACTIVE and has no credit. -/
def egSt (tag : BitVec 16) (rs : List RouteEnt) (p : Pkt) (fs : Tbl Ftag) : State :=
  let s := runSt [hd] [{ phase := .dispatched, cls := 5, epoch := 5 }] {}
  { s with
    str := { s.str with graphs := [(0, { routes := rs })], runs := [(1, { tag := tag })], classes := [(5, { state := 1, epoch := 5, run := 1 })] }
    noc := { s.noc with arrive := [outbound p] }
    fab := { s.fab with ftags := fs, ports := [(11, { state := .active })] } }

/-- A packet of TYPE `ty` for node 4095 with epoch `e`. -/
def outPk (ty e : Nat) : Pkt := ⟨BitVec.ofNat 512 (pack [(0, 4, ty), (20, 16, e), (36, 64, fabricAddr 4095 0 0 0 1 0)]), [gran]⟩

/-- The unicast route to node 4095 by port 11, and the set of it and node 0. -/
def route1 : RouteEnt := { key := 4095, count := 1, hops := 13 }
def routeSet : RouteEnt := { key := 4095, isSet := true, members := [4094] }
def routeMem : RouteEnt := { key := 4094, count := 1, hops := 13 }

theorem tfind_listed {α : Type} (t : Tbl α) (k : Nat) (v : α) (h : (k, v) ∈ t) : tfind t k ≠ none := by
  induction t with
  | nil => simp at h
  | cons p t ih =>
    unfold tfind
    split
    · simp
    · next hp =>
      rcases List.mem_cons.mp h with e | e
      · exact absurd (congrArg Prod.fst e).symm hp
      · exact ih e

/-- Every tag in use. -/
@[irreducible] def allTags : Tbl Ftag := (List.range 4096).map fun k => (k, {})

theorem newFtag_full (s : State) (h : s.fab.ftags = allTags) : newFtag s = none := by
  unfold newFtag
  rw [List.find?_eq_none]
  intro k hk
  have := tfind_listed allTags k {} (by unfold allTags; exact List.mem_map.mpr ⟨k, hk, rfl⟩)
  unfold ftagOf
  rw [h]
  cases hf : tfind allTags k with
  | none => exact absurd hf this
  | some f => simp

/-- Tag 9 is `f`, at reference tick `n`, and the answer `k` waits for it. -/
def tagSt (f : Ftag) (n : Nat) (k : Pkt) : State :=
  { portsSt [(11, { state := .active })] n with fab := { base.fab with ports := [(11, { state := .active })], ftags := [(9, f)], answers := [k] } }

/-- An answer of TYPE `ty` and STATUS `st` by FTAG 9. -/
def fAns (ty st : Nat) : Pkt := fpk [(0, 4, ty), (4, 4, st), (8, 12, 9)] [gran]

theorem witness_FabricRequests :
    (let s := egSt 3 [route1] (outPk 4 0) []
     s.noc.arrive[0]? = some (outbound (outPk 4 0)) ∧ (outbound (outPk 4 0)).group = none ∧ pType (outPk 4 0).hdr.toNat = 4 ∧
     pEpoch (outPk 4 0).hdr.toNat = 0 ∧ pEpoch (outPk 4 6).hdr.toNat ≠ 0 ∧ liveAt s fabTable (pEpoch (outPk 4 6).hdr.toNat) = false ∧
     pType (outPk 1 5).hdr.toNat = 1) ∧
    (let s0 := egSt 3 [route1] (outPk 4 6) []
     let s := { s0 with str := { s0.str with lag := [(fabTable, 6, 6)] } }
     liveAt s fabTable (pEpoch (outPk 4 6).hdr.toNat) = true ∧ epochRun s (pEpoch (outPk 4 6).hdr.toNat) = none) ∧
    (let s := egSt 0 [route1] (outPk 1 5) []
     liveAt s fabTable (pEpoch (outPk 1 5).hdr.toNat) = true ∧
     epochRun s (pEpoch (outPk 1 5).hdr.toNat) = some ({ tag := 0 }, { routes := [route1] })) ∧
    (∀ p, newFtag (egSt 3 [route1] p allTags) = none) ∧
    (let s := egSt 3 [] (outPk 1 5) [(0, {})]
     epochRun s (pEpoch (outPk 1 5).hdr.toNat) = some ({ tag := 3 }, { routes := [] }) ∧ newFtag s = some 1 ∧ ∀ e ∈ ([] : List RouteEnt), e.key ≠ 4095) ∧
    (let s := egSt 3 [route1] (outPk 1 5) []
     newFtag s = some 0 ∧ fld (pDest (outPk 1 5).hdr.toNat) 50 12 = 4095 ∧ [route1].find? (fun e => e.key == 4095) = some route1 ∧ route1.isSet = false ∧
     1 ≤ route1.count ∧ Stalled s (hopPort (fld route1.hops.toNat 0 4))) ∧
    (let s := egSt 3 [routeSet, routeMem] (outPk 1 5) []
     [routeSet, routeMem].find? (fun e => e.key == 4095) = some routeSet ∧ routeSet.isSet = true ∧ pType (outPk 2 5).hdr.toNat ≠ 1 ∧
     pType (outPk 1 5).hdr.toNat = 1 ∧
     ∀ m ∈ routeSet.members.filterMap (routeTo { routes := [routeSet, routeMem] }), 1 ≤ m.count ∧ portLive s (hopPort (fld m.hops.toNat 0 4)) = true) ∧
    (let f : Ftag := { seat := 7, tick := 7, sent := [fReq 2], left := 1 }
     let s (n : Nat) := tagSt f n (fAns 6 0)
     ftagOf (s 20007) 9 = some f ∧ ftagOf (s 0) 8 = none ∧ f.isRead = false ∧ f.complete = false ∧ f.unsent = 0 ∧ 0 < { f with unsent := 1 }.unsent ∧ f.tick + 20000 ≤ (s 20007).clk.ticks ∧ f.code < 16 ∧
     (s 20006).clk.ticks < f.tick + 20000) ∧
    (let f : Ftag := { seat := 7, hdr := (outPk 4 5).hdr, tick := 7, issues := 2, sent := [fReq 4], left := 1 }
     let s (n : Nat) := tagSt f n (fAns 5 0)
     ftagOf (s 40007) 9 = some f ∧ f.isRead = true ∧ f.complete = false ∧ f.unsent = 0 ∧ f.refused = 0 ∧ f.tick + 40000 ≤ (s 40007).clk.ticks ∧
     (s 40006).clk.ticks < f.tick + 40000 ∧ f.issues < 3 ∧ f.tick + 10000 * f.issues ≤ (s 20007).clk.ticks ∧ f.sent = [fReq 4] ∧
     fPtr (fReq 4).hdr.toNat < 16 ∧ Stalled (s 20007) (hopPort (fHop (fReq 4).hdr.toNat (fPtr (fReq 4).hdr.toNat - 1))) ∧
     (s 20006).clk.ticks < f.tick + 10000 * f.issues) ∧
    (let f : Ftag := { complete := true, last := 7 }
     let s (n : Nat) := tagSt f n (fAns 5 0)
     ftagOf (s 20007) 9 = some f ∧ f.complete = true ∧ f.last + 20000 ≤ (s 20007).clk.ticks ∧ (s 20006).clk.ticks < f.last + 20000) ∧
    (let f : Ftag := { seat := 7, hdr := (outPk 4 5).hdr }
     let s := tagSt f 0 (fAns 5 0)
     s.fab.answers[0]? = some (fAns 5 0) ∧ ftagOf s (fTag (fAns 5 0).hdr.toNat) = some f ∧ fType (fAns 5 0).hdr.toNat = 5 ∧ f.complete = false ∧
     liveAt s fabTable (pEpoch f.hdr.toNat) = false ∧ liveAt s fabTable (pEpoch (outPk 4 0).hdr.toNat) = true) ∧
    (let f : Ftag := { seat := 7, hdr := (outPk 2 5).hdr }
     f.complete = false ∧ f.isMulti = false ∧ f.isRead = false ∧ fType (fAns 6 0).hdr.toNat = 6 ∧ fType (fAns 7 8).hdr.toNat = 7) ∧
    (let m : Pkt := fpk [(32, 64, 2 ^ 62), (154, 4, 12)] []
     let k : Pkt := fpk [(32, 64, 2 ^ 62), (154, 4, 13)] []
     let h (ty st : Nat) : Nat := (fpk [(0, 4, ty), (4, 4, st), (8, 12, 9), (144, 5, 1), (154, 4, 12)] []).hdr.toNat
     let f (n r t : Nat) : Ftag := { seat := 7, hdr := (outPk 1 5).hdr, sent := [m, k], left := n, refused := r, code := 8, stale := t }
     (f 2 0 0).complete = false ∧ (f 2 0 0).isMulti = true ∧ (f 2 0 0).isRead = false ∧ (f 2 0 0).sent = [m] ++ k :: [] ∧ 1 < (f 2 0 0).left ∧
     (∀ j, j < fHops (h 6 0) → fHop k.hdr.toNat j = hopBack (fHop (h 6 0) (fHops (h 6 0) - 1 - j))) ∧
     (∃ j, j < fHops (h 6 0) ∧ fHop m.hdr.toNat j ≠ hopBack (fHop (h 6 0) (fHops (h 6 0) - 1 - j))) ∧
     (fType (h 6 0) = 6 ∧ fStatus (h 6 0) = 0 ∧ fStatus (h 6 1) = 1 ∧ fType (h 7 8) = 7 ∧ (f 2 0 0).refused = 0) ∧
     (f 1 1 1).left = 1 ∧ 0 < (f 1 1 1).refused ∧ 0 < (f 1 0 1).stale ∧ (f 1 0 0).stale = 0 ∧ (f 1 1 1).code < 16) := by
  unfold Stalled
  refine ⟨?_, ?_, ?_, fun p => newFtag_full _ rfl, ?_, ?_, ?_, ?_, ?_, ?_, ?_, ?_, ?_, ?_, ?_, ?_, ?_, ?_, ⟨0, ?_, ?_⟩, ?_, ?_⟩ <;> decide +kernel

/-- 10 R334: a transfer is given up after 200 us, 20,000 ticks. -/
theorem test_giveUp : (let s (n : Nat) := tagSt { seat := 7, tick := 7, sent := [fReq 2], left := 1 } n (fAns 6 0)
    ((out (exec (.fabricGiveUp 9) (s 20006))).map fun t => t.fab.givenUp, (out (exec (.fabricGiveUp 9) (s 20007))).map fun t => t.fab.givenUp)) =
    (some 0, some 1) := by decide +kernel

/-- Packet `k` has come in at port 11, whose pair's record is `d`; port 10 is ACTIVE and has no credit. -/
def inSt (k : Pkt) (d : Pair) : State :=
  { base with fab := { base.fab with rx := [(11, k)], pairs := [(5, d)], ports := [(8, { state := .active }), (9, { state := .active }), (10, { state := .active })] } }

/-- A packet from another part with `n` hops, the pointer at `q`, hops 0 and 1 by `h`, and further fields. -/
def inPk (ty n q h : Nat) (fs : List (Nat × Nat × Nat)) : Pkt := fpk ([(0, 4, ty), (144, 5, n), (149, 5, q), (154, 4, h), (158, 4, h)] ++ fs) []

theorem witness_FabricArrivals :
    (let k := inPk 1 1 1 0 [(303, 16, 65485)]
     (inSt k {}).fab.rx[0]? = some (11, k) ∧ fFailover k.hdr.toNat = false ∧ expired (fabTime (inSt k {})) k.hdr.toNat = true ∧
     expired (fabTime (inSt k {})) (inPk 1 1 1 0 [(303, 16, 65486)]).hdr.toNat = false) ∧
    (fType (inPk 0 1 1 0 []).hdr.toNat = 0 ∧ 7 < fType (inPk 8 1 1 0 []).hdr.toNat) ∧
    (let k := inPk 7 16 1 5 []
     let s := inSt k {}
     expired (fabTime s) k.hdr.toNat = false ∧ 1 ≤ fType k.hdr.toNat ∧ fType k.hdr.toNat ≤ 7 ∧ fPtr k.hdr.toNat < fHops k.hdr.toNat ∧
     fPtr k.hdr.toNat < 16 ∧ Stalled s (hopPort (fHop k.hdr.toNat (fPtr k.hdr.toNat)))) ∧
    (let k := inPk 5 16 16 0 []
     fHops k.hdr.toNat ≤ fPtr k.hdr.toNat ∧ 5 ≤ fType k.hdr.toNat) ∧
    (let k := inPk 4 1 1 0 [(96, 12, 0), (108, 16, 3)]
     let s := { inSt k {} with str := { base.str with runs := [(1, { tag := 3, heats := [{ phase := .dispatched, epoch := 5 }] })] } }
     fType k.hdr.toNat ≤ 4 ∧ fld (fDest k.hdr.toNat) 50 12 = s.chain.node ∧ fld (fDest k.hdr.toNat) 62 2 ≤ 1 ∧
     destEpoch s (fRunTag k.hdr.toNat) (fDheatOf k.hdr.toNat) (fld (fDest k.hdr.toNat) 34 4 == 8) = some 5 ∧
     destEpoch (inSt k {}) (fRunTag k.hdr.toNat) (fDheatOf k.hdr.toNat) (fld (fDest k.hdr.toNat) 34 4 == 8) = none ∧
     (fld (fDest k.hdr.toNat) 34 4 == 8) = false ∧ halfBoated s (fld (fDest k.hdr.toNat) 49 1) = false ∧
     halfEasy s (fld (fDest k.hdr.toNat) 49 1) = false ∧ fld (fDest k.hdr.toNat) 43 6 ≤ 47 ∧
     (let s2 := { s with noc := { s.noc with map := [(0, { phys := [0] })] } }
      physAt s2 (2424 + fld (fDest k.hdr.toNat) 43 6 % 8 * 6) 0 0 = some 0)) ∧
    (let a := fDest (inPk 4 1 1 0 [(32, 64, fabricAddr 0 1 0 0 8 0)]).hdr.toNat
     (fld a 34 4 == 8) = true ∧ fld a 49 1 = 1 ∧ fld a 50 12 = base.chain.node ∧ fld a 62 2 ≤ 1) ∧
    (let k := inPk 4 2 2 4 [(32, 64, fabricAddr 4095 0 0 0 1 0)]
     let s := inSt k {}
     fld (fDest k.hdr.toNat) 50 12 ≠ s.chain.node ∧ 1 ≤ fPtr k.hdr.toNat ∧ fPtr k.hdr.toNat ≤ 16 ∧
     Stalled s (hopPort (hopBack (fHop k.hdr.toNat (fPtr k.hdr.toNat - 1))))) ∧
    (let s := { base with str := { base.str with runs := [(1, { tag := 3, heats := [{ phase := .ready }] })] } }
     s.str.runs.find? (fun e => e.2.tag == 3) = some (1, { tag := 3, heats := [{ phase := .ready }] }) ∧ ({ phase := .ready } : Heat).phase = .ready) := by
  unfold Stalled
  refine ⟨?_, ?_, ?_, ?_, ?_, ?_, ?_, ?_⟩ <;> decide +kernel

/-- 10 R332, 07 R236: a request for a heat that has no epoch here is stale and is answered, not delivered. -/
theorem test_fabricArrival : (out (exec (.fabricArrival 0) (inSt (inPk 4 1 1 0 [(108, 16, 3)]) {}))).map
    (fun t => (t.fab.rx, t.noc.buf, t.str.stale)) = some ([], [], 1) := by decide +kernel


/-! ## The block as a whole -/

theorem witness_StepRunsFrontCommand :
    (base.pending = [] ∧ base.pins.refLost = false ∧ base.pins.reset = true) ∧ (live.pending = [] ∧ live.pins.reset = false) ∧
    { live with pins := { live.pins with refLost := true } }.pins.refLost = true := by decide +kernel

/-- The command in front runs, and the queue keeps the rest; an idle tick counts. -/
theorem test_step : ((out (step { live with pending := [.ackSeqWrite 3, .ackSeqWrite 4] })).map fun t => (t.flt.ackSeq, t.pending),
    (out (step live)).map fun t => t.clk.ticks) = (some (3, [.ackSeqWrite 4]), some 1) := by decide +kernel

theorem witness_StepKeepsCanonicalMemories :
    (let s := { live with seats := [(3, { core := [(5, 1)] })], pending := [.eventsClear 0] }
     s.memoriesCanonical = true ∧ (out (step s)).isSome = true) := by decide +kernel

theorem witness_CommandFrames : (out (exec (.ackSeqWrite 3) base)).isSome = true := by decide +kernel

theorem witness_OnlyDroopStops : (∀ q mv, Instr.ackSeqWrite 3 ≠ .droopStretching q mv) ∧
    ∀ mv, mv < 850 → mv < Config.maxStretchMv 850 → ¬ Completes (.droopStretching 0 mv) base := by
  refine ⟨fun q mv h => (by cases h), fun mv h1 h2 hc => ?_⟩
  obtain ⟨t, ht⟩ := hc
  have e : exec (.droopStretching 0 mv) base = .fault .supplyBelowDefined := by
    show execDroopStretching 0 mv base = _
    unfold execDroopStretching
    have hd : (domOf base 0).step = 0 := by decide +kernel
    have hs : (domOf base 0).stop = .none := by decide +kernel
    simp only [stepMv, hd, hs, Fin.val_zero]
    simp [Nat.not_le.mpr h1, h2]
  rw [e] at ht
  cases ht

/-! ## Well-formed commands -/

/-- A term that each check of WellFormed refuses, beside one that it admits. -/
theorem wf_images : (Instr.shardLoad 0 (some [(5, 1), (3, 1)])).wf = false ∧ (Instr.tileRepair 0 (some [(3, 0)])).wf = false ∧
    (Instr.fwUpdate 0 (some [(3, 1), (3, 1)]) true).wf = false ∧ (Instr.publisherEnrolment 0 (some [(3, 0)]) true).wf = false ∧
    (Instr.debugToken 0 (some [(3, 0)])).wf = false ∧ (Instr.certificateRenewal 0 (some [(3, 0)]) true).wf = false ∧
    (Instr.shardLoad 0 (some [(3, 1), (5, 1)])).wf = true ∧ (Instr.loadSegment (some [(1048576, 1)])).wf = false ∧
    (Instr.loadSegment (some [(1048575, 1)])).wf = true := by decide +kernel

theorem wf_host : (Instr.ringEnable { kind := 2, n := 8 }).wf = false ∧ (Instr.ringDisable { kind := 2, n := 15 }).wf = false ∧
    (Instr.ringDisable { kind := 1, n := 15 }).wf = true ∧ (Instr.registerWrite 0x3FFFFFD 4 none).wf = false ∧ (Instr.registerWrite 0 3 (some 0)).wf = false ∧
    (Instr.registerWrite 0x3FFFFFC 4 (some 0)).wf = true ∧ (Instr.seatWindowAccess 0 1024 none).wf = false ∧ (Instr.seatWindowAccess 0 2 none).wf = false ∧
    (Instr.seatWindowAccess 2303 1020 none).wf = true ∧ (Instr.bar2Access 0 0 none true).wf = false ∧
    (Instr.bar2Access 0xFFFFFFFF 2 none true).wf = false ∧ (Instr.bar2Access 0 1 (some [(1, 1)]) true).wf = false ∧
    (Instr.bar2Access 0 1 (some [(0, 1)]) true).wf = true ∧ (Instr.configurationRequest 4096 none).wf = false ∧
    (Instr.configurationRequest 4095 none).wf = true ∧ (Instr.i3cWrite (List.replicate 65 0)).wf = false ∧ (Instr.i3cWrite []).wf = true := by
  decide +kernel

theorem wf_startup : (Instr.resetRelease (some { slotA := [(0x200000, 1)] }) true true).wf = false ∧
    (Instr.resetRelease (some { slotB := [(0x200000, 1)] }) true true).wf = false ∧ (Instr.resetRelease (some { grade := [(0x1000, 1)] }) true true).wf = false ∧
    (Instr.resetRelease (some { certs := [(0xC000, 1)] }) true true).wf = false ∧
    (Instr.resetRelease (some { fences := List.replicate 257 {} }) true true).wf = false ∧
    (Instr.resetRelease (some { rec0 := some { pubs := [(8, (0, 0))] } }) true true).wf = false ∧ (Instr.resetRelease (some {}) true true).wf = true ∧
    (Instr.railsAndClocks [98]).wf = false ∧ (Instr.railsAndClocks [97]).wf = true ∧ (Instr.crossingCalibration 4 [(36864, 3)] 0).wf = false ∧
    (Instr.crossingCalibration 9 [(36863, 3)] 0).wf = true ∧ (Instr.rsCodeword 0 [0]).wf = false ∧ (Instr.rsCodeword 0 (List.replicate 544 0)).wf = true ∧ (Instr.dramTraining [2344]).wf = false ∧ (Instr.dramTraining [2343]).wf = true ∧
    (Instr.seatSelfTest [2304]).wf = false ∧ (Instr.seatSelfTest [2303]).wf = true ∧ (Instr.enumFrame (2 ^ 32 + 1)).wf = false ∧
    (Instr.enumFrame (2 ^ 32)).wf = true := by
  decide +kernel

theorem wf_feed (data : List Granule) : (data.length = 16777217 → (Instr.feedStart 0 none data).wf = false) ∧
    (data.length = 16777216 → (Instr.feedStart 0 none data).wf = true) := by
  constructor
  all_goals
    intro h
    rw [Instr.wf, h]
    decide

theorem wf_units : (Instr.wakeRequest 0).wf = false ∧ (Instr.wakeComplete (BitVec.ofNat 32 (pack [(29, 3, 3)]))).wf = false ∧
    (Instr.wakeRequest (BitVec.ofNat 32 crew95)).wf = true ∧ (Instr.wakeComplete (BitVec.ofNat 32 half1)).wf = true ∧
    (Instr.portRetrain 0 4).wf = false ∧ (Instr.portRetrain 0 3).wf = true ∧ (Instr.fabricGiveUp 4096).wf = false ∧ (Instr.readReissue 4096).wf = false ∧
    (Instr.ftagRelease 4096).wf = false ∧ (Instr.ftagRelease 4095).wf = true := by decide +kernel

theorem wf_heats : (Instr.preload 65536 0 0).wf = false ∧ (Instr.heatReady 0 4096).wf = false ∧ (Instr.heatDispatch 65536 0).wf = false ∧
    (Instr.heatComplete 0 4096).wf = false ∧ (Instr.heatAbort 65536 0).wf = false ∧ (Instr.heatAbandon 0 4096).wf = false ∧
    (Instr.heatWatchdog 65536 0).wf = false ∧ (Instr.heatDispatch 65535 4095).wf = true ∧ (Instr.timeDependence 0 0 8).wf = false ∧
    (Instr.timeDependence 0 0 7).wf = true ∧ (Instr.descriptorComplete 0 1024).wf = false ∧ (Instr.descriptorComplete 0 1023).wf = true ∧
    (Instr.blockZeroFill 221186).wf = false ∧ (Instr.blockZeroFill 221185).wf = true := by decide +kernel

end Sys2Proof.Tests
end

section
/-!
SUPPORT. The frame of each command: the components that it may change, one lemma per command, from the frames of the shared operations.
-/
namespace Sys2Proof.Machine
open Host (Outcome)

variable {ps : List Part}

/-! ## Rows: a command that a shared row gates leaves what its own meaning leaves -/

theorem commandRow_leaves {s : State} {src op : Nat} {f : Nat → State} (h : ∀ c, (f c).hide ps = s.hide ps) :
    Leaves ps s (commandRow s src op f) := by
  unfold commandRow
  split <;> simp only [leaves_next, h]

theorem lateRow_leaves {s : State} {src op : Nat} {f : Nat → State} (h_cq : Part.cq ∈ ps) (h : ∀ c, (f c).hide ps = s.hide ps) :
    Leaves ps s (lateRow s src op f) := by
  unfold lateRow
  repeat' split
  all_goals simp only [leaves_next, beginBg_hide, h, h_cq]

theorem loadRow_leaves {s : State} {src op : Nat} {f : Bool → Nat → State} (h : ∀ turn c, (f turn c).hide ps = s.hide ps) :
    Leaves ps s (loadRow s src op f) := by
  unfold loadRow
  split
  · exact (leaves_next _ _).mpr (h _ _)
  · exact commandRow_leaves (h false)

theorem updateStart_leaves {s : State} {src : Nat} {f : Nat → State} (h_cq : Part.cq ∈ ps) (h : ∀ c, (f c).hide ps = s.hide ps) :
    Leaves ps s (updateStart s src f) := by
  unfold updateStart
  repeat' split
  all_goals simp only [leaves_next, answer_hide, beginBg_hide, h, h_cq]

theorem updateRow_leaves {src : SrcIx} {img : Option Mem} {ty : Nat} {s : State} {f : Nat → Mem → State} (h_cq : Part.cq ∈ ps)
    (h : ∀ c m, (f c m).hide ps = s.hide ps) : Leaves ps s (updateRow src img ty s f) := by
  refine updateStart_leaves h_cq fun c => ?_
  repeat' split
  all_goals simp only [finishBg_hide, h, h_cq]

theorem coxRow_leaves {cls op w : Nat} {s : State} {f : Seat → Job → State} (h : ∀ x j, (f x j).hide ps = s.hide ps) :
    Leaves ps s (coxRow cls op w s f) := by
  unfold coxRow
  dsimp only
  repeat' split
  all_goals simp only [leaves_next, h]

theorem ctrlRow_leaves (op w : Nat) (s : State) (v : Seat → Job → Word) :
    Leaves [.seats] s (coxRow clsCtrl op w s fun x j => ctrlWrite s w x j (v x j)) :=
  coxRow_leaves fun _ _ => ctrlWrite_hide _ _ _ _ _ (by decide)

theorem mxRow_leaves {op u w : Nat} {s : State} {fin : Seat → Job → Nat} {ev : Seat → Job → List Ev} {eff : Seat → Job → State}
    (h_seats : Part.seats ∈ ps) (h_flt : Part.flt ∈ ps) (h : ∀ x j, (eff x j).hide ps = s.hide ps) :
    Leaves ps s (mxRow op u w s fin ev eff) := by
  unfold mxRow
  dsimp only
  repeat' split
  all_goals simp only [leaves_next, putSeat_hide, raiseEvents_hide, h, h_seats, h_flt]

theorem veRow_leaves {op w : Nat} {s : State} {f : Seat → Job → State} (h : ∀ x j, (f x j).hide ps = s.hide ps) :
    Leaves ps s (veRow op w s f) := by
  unfold veRow
  dsimp only
  repeat' split
  all_goals simp only [leaves_next, h]

theorem runElem_leaves (op w : Nat) (s : State) : Leaves [.seats, .flt] s (runElem op w s) :=
  veRow_leaves fun _ _ => veEnd_hide _ _ _ _ _ _ (by decide) (by decide)

theorem engineRow_leaves {op : Nat} {w : SeatIx} {e : EngIx} {s : State} {f : Seat → Job → State}
    (h : ∀ x j, (f x j).hide ps = s.hide ps) : Leaves ps s (engineRow op w e s f) := by
  unfold engineRow
  dsimp only
  repeat' split
  all_goals simp only [leaves_next, h]

theorem packetRow_leaves {ty i : Nat} {s : State} {seat pool : Nat → Deliv → State} {fabric : Deliv → State} (h_clk : Part.clk ∈ ps)
    (h_noc : Part.noc ∈ ps) (hs : ∀ w d, (seat w d).hide ps = s.hide ps) (hp : ∀ n d, (pool n d).hide ps = s.hide ps)
    (hf : ∀ d, (fabric d).hide ps = s.hide ps) : Leaves ps s (packetRow ty i s seat pool fabric) := by
  unfold packetRow
  repeat' split
  all_goals simp only [leaves_next, takeArrive_hide, hs, hp, hf, h_clk, h_noc]

theorem takeFrame_hide {s u : State} {p kind : Nat} {f : Frame} (h_fab : Part.fab ∈ ps) (h : takeFrame s p kind = some (f, u)) :
    u.hide ps = s.hide ps := by
  unfold takeFrame at h
  (repeat' split at h) <;> cases h
  exact modPort_hide _ _ _ h_fab

theorem frameRow_leaves {s : State} {p kind : Nat} {act : State → Frame → State} (h_fab : Part.fab ∈ ps)
    (h : ∀ u f, (act u f).hide ps = u.hide ps) : Leaves ps s (frameRow s p kind act) := by
  unfold frameRow
  split
  · exact (leaves_next _ _).mpr rfl
  · next hu =>
    simp only [leaves_ite, leaves_next, ↓hide_ite, crcFails_hide, modPort_hide, h, takeFrame_hide h_fab hu, ite_self, h_fab]

/-! ## Commands of the host and of the management bus (13, 11, 07, 12, 14) -/

theorem execOpenSession_frame (src : SrcIx) (s : State) : Leaves [.cq] s (execOpenSession src s) := by
  refine commandRow_leaves fun c => ?_
  simp (disch := decide) only [answer_hide, modSq_hide, ↓hide_ite, ite_self]

theorem execCloseSession_frame (src : SrcIx) (s : State) : Leaves [.cq] s (execCloseSession src s) := by
  refine commandRow_leaves fun c => ?_
  simp (disch := decide) only [answer_hide, modSq_hide, ↓hide_ite, ite_self]

theorem execContextCreate_frame (src : SrcIx) (s : State) : Leaves [.ctxs, .cq] s (execContextCreate src s) := by
  refine commandRow_leaves fun c => ?_
  simp (disch := decide) only [answer_hide, modCtx_hide, ↓hide_ite, ite_self]

theorem execShardLoad_frame (src : SrcIx) (img : Option Mem) (s : State) :
    Leaves [.seats, .str, .ctxs, .cq, .pwr, .flt, .noc] s (execShardLoad src img s) := by
  refine loadRow_leaves fun turn c => ?_
  dsimp only
  repeat' split
  all_goals simp (disch := decide) only [loadAnswer_hide, answer_hide, queueLoad_hide, holdRead_hide, checkLoad_hide]

theorem execTileRepair_frame (src : SrcIx) (img : Option Mem) (s : State) :
    Leaves [.ctxs, .cq, .pwr, .flt, .noc] s (execTileRepair src img s) := by
  refine loadRow_leaves fun turn c => ?_
  dsimp only
  repeat' split
  all_goals simp (disch := decide) only [loadAnswer_hide, answer_hide, queueLoad_hide, holdRead_hide, checkRepair_hide]

theorem execGenerationSwitch_frame (src : SrcIx) (s : State) : Leaves [.seats, .ctxs, .cq] s (execGenerationSwitch src s) := by
  refine commandRow_leaves fun c => ?_
  dsimp only
  repeat' split
  all_goals simp (disch := decide) only [answer_hide, releaseRetired_hide, modCtx_hide]

theorem execEvict_frame (src : SrcIx) (s : State) : Leaves [.seats, .str, .ctxs, .cq, .flt] s (execEvict src s) := by
  refine commandRow_leaves fun c => ?_
  simp (disch := decide) only [answer_hide, evictCtx_hide, ↓hide_ite, ite_self]

theorem execGraphSubmit_frame (src : SrcIx) (s : State) : Leaves [.str, .cq, .pwr, .noc] s (execGraphSubmit src s) := by
  refine commandRow_leaves fun c => ?_
  dsimp only
  repeat' split
  all_goals simp (disch := decide) only [↓hide_str, answer_hide, holdRead_hide]

theorem execGraphRelease_frame (src : SrcIx) (s : State) : Leaves [.str, .cq] s (execGraphRelease src s) := by
  refine commandRow_leaves fun c => ?_
  simp (disch := decide) only [↓hide_str, answer_hide, ↓hide_ite, ite_self]

theorem execRun_frame (src : SrcIx) (s : State) : Leaves [.str, .cq] s (execRun src s) := by
  refine commandRow_leaves fun c => ?_
  dsimp only
  repeat' split
  all_goals simp only [↓hide_str, answer_hide, answer2_hide, latchDeps_hide, List.mem_cons, true_or, or_true]

theorem execCancel_frame (src : SrcIx) (s : State) : Leaves [.seats, .str, .ctxs, .cq, .clk, .flt, .pools] s (execCancel src s) := by
  refine commandRow_leaves fun c => ?_
  dsimp only
  repeat' split
  all_goals simp (disch := decide) only [answer_hide, modRun_hide, goBackground_hide, cancelRun_hide]

theorem execWeighEnough_frame (src : SrcIx) (s : State) :
    Leaves [.seats, .str, .ctxs, .cq, .clk, .flt, .glb, .pools, .chain, .pins] s (execWeighEnough src s) := by
  refine commandRow_leaves fun c => ?_
  simp (disch := decide) only [answer_hide, chipHalt_hide, fleetHalt_hide, ↓hide_ite, ite_self]

theorem execFaultClearContext_frame (src : SrcIx) (s : State) : Leaves [.cq, .flt] s (execFaultClearContext src s) := by
  refine commandRow_leaves fun c => ?_
  simp (disch := decide) only [↓hide_flt, answer_hide, ↓hide_ite, ite_self]

theorem execFaultClearWeighEnough_frame (src : SrcIx) (s : State) :
    Leaves [.cq, .flt, .glb, .chain, .pins] s (execFaultClearWeighEnough src s) := by
  refine commandRow_leaves fun c => ?_
  simp (disch := decide) only [answer_hide, clearHalt_hide, ↓hide_ite, ite_self]

theorem execFenceSeat_frame (src : SrcIx) (s : State) :
    Leaves [.seats, .str, .ctxs, .cq, .clk, .flt, .sec, .noc, .pools, .free] s (execFenceSeat src s) := by
  refine lateRow_leaves (by decide) fun c => ?_
  simp only [↓hide_foldl, implies_true, finishBg_hide, recordFence_hide, fenceOne_hide, ↓hide_ite, ite_self, List.mem_cons, true_or,
    or_true]

theorem execPowerState_frame (src : SrcIx) (s : State) : Leaves [.cq, .clk, .pwr] s (execPowerState src s) := by
  refine commandRow_leaves fun c => ?_
  simp only [↓hide_foldl, implies_true, ↓hide_pwr, answer_hide, goBackground_hide, answerLate_hide, settleReqs_hide, wakeFor_hide,
    ↓hide_ite, ite_self, List.mem_cons, true_or, or_true]

theorem execSetStep_frame (src : SrcIx) (s : State) : Leaves [.cq, .clk, .pwr] s (execSetStep src s) := by
  refine commandRow_leaves fun c => ?_
  simp only [↓hide_foldl, implies_true, answer_hide, lowerRails_hide, modDom_hide, ↓hide_ite, ite_self, List.mem_cons, true_or, or_true]

theorem execTimeRole_frame (src : SrcIx) (s : State) : Leaves [.cq, .clk, .fab] s (execTimeRole src s) := by
  refine commandRow_leaves fun c => ?_
  simp (disch := decide) only [answer_hide, setRole_hide, ↓hide_ite, ite_self]

theorem execTelemetry_frame (src : SrcIx) (ok : Bool) (s : State) : Leaves [.cq, .hostMem] s (execTelemetry src ok s) := by
  refine commandRow_leaves fun c => ?_
  simp (disch := decide) only [answer_hide, writeBuffer_hide, ↓hide_ite, ite_self]

theorem execLogRead_frame (src : SrcIx) (ok : Bool) (s : State) : Leaves [.cq, .hostMem] s (execLogRead src ok s) := by
  refine commandRow_leaves fun c => ?_
  dsimp only
  repeat' split
  all_goals simp (disch := decide) only [answer_hide, writeBuffer_hide]

theorem execAttest_frame (src : SrcIx) (ok fl : Bool) (s : State) : Leaves [.cq, .sec, .hostMem, .free] s (execAttest src ok fl s) := by
  refine lateRow_leaves (by decide) fun c => ?_
  simp (disch := decide) only [finishBg_hide, writeRec_hide, drawn_hide, writeBuffer_hide, ↓hide_ite, ite_self]

theorem execFwUpdate_frame (src : SrcIx) (img : Option Mem) (fl : Bool) (s : State) :
    Leaves [.cq, .glb, .sec] s (execFwUpdate src img fl s) := by
  refine updateStart_leaves (by decide) fun c => ?_
  dsimp only
  repeat' split
  all_goals simp (disch := decide) only [↓hide_glb, finishBg_hide, putSlotImage_hide]

theorem execPublisherEnrolment_frame (src : SrcIx) (img : Option Mem) (fl : Bool) (s : State) :
    Leaves [.cq, .sec] s (execPublisherEnrolment src img fl s) := by
  refine updateRow_leaves (by decide) fun c m => ?_
  simp (disch := decide) only [finishBg_hide, writeRec_hide, ↓hide_ite, ite_self]

theorem execDebugToken_frame (src : SrcIx) (img : Option Mem) (s : State) :
    Leaves [.seats, .str, .ctxs, .cq, .flt, .sec] s (execDebugToken src img s) := by
  refine updateRow_leaves (by decide) fun c m => ?_
  simp only [↓hide_foldl, implies_true, ↓hide_sec, finishBg_hide, evictCtx_hide, settleUnlock_hide, ↓hide_ite, ite_self, List.mem_cons,
    true_or, or_true]

theorem execCertificateRenewal_frame (src : SrcIx) (img : Option Mem) (fl : Bool) (s : State) :
    Leaves [.cq, .sec] s (execCertificateRenewal src img fl s) := by
  refine updateRow_leaves (by decide) fun c m => ?_
  simp (disch := decide) only [finishBg_hide, writeRec_hide, ↓hide_ite, ite_self]

theorem execFwActivate_frame (puf : Bool) (s : State) : Leaves [.flt, .glb, .sec, .pins] s (execFwActivate puf s) := by
  simp (disch := decide) only [execFwActivate, leaves_ite, leaves_next, ↓hide_glb, writeRec_hide, restartSnivan_hide, ite_self]

theorem execSnivanReady_frame (s : State) :
    Leaves [.seats, .str, .ctxs, .cq, .clk, .flt, .glb, .sec, .pools, .pins] s (execSnivanReady s) := by
  simp (disch := decide) only [execSnivanReady, leaves_next, becomeReady_hide, ↓hide_ite, ite_self]

/-! ## Rings, registers, BAR and configuration accesses (13) -/

theorem execSubmissionDoorbell_frame (r : RingIx) (val : Word) (s : State) : Leaves [.cq] s (execSubmissionDoorbell r val s) := by
  simp (disch := decide) only [execSubmissionDoorbell, leaves_next, modSq_hide]

theorem execCommandRead_frame (r : RingIx) (entry : Option (BitVec 512)) (s : State) : Leaves [.cq] s (execCommandRead r entry s) := by
  unfold execCommandRead
  dsimp only
  repeat' split
  all_goals simp (disch := decide) only [leaves_next, ↓hide_cq, modSq_hide, sendReply_hide, readCommand_hide]

theorem execCompletionDoorbell_frame (r : RingIx) (val : Word) (s : State) : Leaves [.cq] s (execCompletionDoorbell r val s) := by
  simp (disch := decide) only [execCompletionDoorbell, leaves_next, modCqr_hide]

theorem execFeedDoorbell_frame (f : FeedIx) (val : Word) (s : State) : Leaves [.cq] s (execFeedDoorbell f val s) := by
  simp (disch := decide) only [execFeedDoorbell, leaves_next, modFeed_hide]

theorem execRingEnable_frame (r : RingRef) (s : State) : Leaves [.cq] s (execRingEnable r s) := by
  simp (disch := decide) only [execRingEnable, leaves_ite, leaves_next, enableSq_hide, enableCqr_hide, enableFeed_hide, ite_self]

theorem execRingDisable_frame (r : RingRef) (s : State) : Leaves [.cq] s (execRingDisable r s) := by
  simp (disch := decide) only [execRingDisable, leaves_ite, leaves_next, disableSq_hide, disableCqr_hide, disableFeed_hide, ↓hide_ite,
    ite_self]

theorem execClkTimeLoRead_frame (s : State) : Leaves [.clk, .glb] s (execClkTimeLoRead s) := by
  simp (disch := decide) only [execClkTimeLoRead, leaves_next, ↓hide_clk_glb]

theorem execRegisterWrite_frame (off size : Nat) (val : Option (BitVec 64)) (s : State) :
    Leaves [.seats, .cq, .clk, .pwr, .flt, .glb, .noc, .fab] s (execRegisterWrite off size val s) := by
  unfold execRegisterWrite
  repeat' split
  all_goals simp (disch := decide) only [leaves_next, registerRead_hide, badAccess_hide, registerPut_hide]

theorem execSeatWindowAccess_frame (w : SeatIx) (off : Nat) (wr : Option Word) (s : State) :
    Leaves [.seats, .clk, .glb] s (execSeatWindowAccess w off wr s) := by
  unfold execSeatWindowAccess
  dsimp only
  repeat' split
  all_goals simp (disch := decide) only [leaves_next, ↓hide_glb, wakeWindow_hide, badAccess_hide, windowWrite_hide, modSeat_hide]

theorem execBar2Access_frame (off len : Nat) (wr : Option Mem) (prot : Bool) (s : State) :
    Leaves [.str, .pwr, .glb, .noc, .pools] s (execBar2Access off len wr prot s) := by
  simp (disch := decide) only [execBar2Access, leaves_ite, leaves_next, badAccess_hide, bar2Refuse_hide, bar2Pool_hide, ↓hide_ite, ite_self]

/-! ## Resets, pins and clocks lost (13, 14, 12, 16) -/

theorem execFunctionLevelReset_frame (s : State) :
    Leaves [.seats, .str, .ctxs, .cq, .clk, .flt, .glb, .pools, .pins] s (execFunctionLevelReset s) := by
  simp (disch := decide) only [execFunctionLevelReset, leaves_next, functionReset_hide]

theorem execPerstAssert_frame (s : State) : Leaves [.seats, .str, .ctxs, .cq, .clk, .flt, .glb, .pools, .pins] s (execPerstAssert s) := by
  simp (disch := decide) only [execPerstAssert, leaves_next, ↓hide_pins, functionReset_hide, ↓hide_ite, ite_self]

theorem execPerstDeassert_frame (s : State) : Leaves [.pins] s (execPerstDeassert s) := by
  simp (disch := decide) only [execPerstDeassert, leaves_next, ↓hide_pins]

theorem execConfigurationRequest_frame (off : Nat) (wr : Option Word) (s : State) :
    Leaves [.glb, .pins] s (execConfigurationRequest off wr s) := by
  unfold execConfigurationRequest
  repeat' split
  all_goals simp (disch := decide) only [leaves_next, ↓hide_glb_pins, configWrite_hide]

theorem execResetAssert_frame (ns : Nat) (s : State) :
    Leaves [.seats, .str, .ctxs, .cq, .clk, .pwr, .flt, .glb, .sec, .noc, .pools, .fab, .chain, .pins, .free] s (execResetAssert ns s) := by
  simp (disch := decide) only [execResetAssert, leaves_next, resetPart_hide, ↓hide_ite, ite_self]

theorem execResetRelease_frame (flash : Option Flash) (puf head : Bool) (s : State) :
    Leaves [.clk, .flt, .glb, .sec, .chain, .pins, .free] s (execResetRelease flash puf head s) := by
  simp (disch := decide) only [execResetRelease, leaves_ite, leaves_next, ↓hide_sec_pins, tryRelease_hide, ite_self]

theorem execPwrgdDeassert_frame (g : Fin 4) (ns : Nat) (s : State) :
    Leaves [.seats, .str, .ctxs, .cq, .clk, .pwr, .flt, .glb, .sec, .noc, .pools, .fab, .chain, .pins, .free] s (execPwrgdDeassert g ns s) := by
  simp (disch := decide) only [execPwrgdDeassert, leaves_ite, leaves_next, ↓hide_flt_pins, powerLost_hide, ite_self]

theorem execPwrgdAssert_frame (g : Fin 4) (s : State) : Leaves [.clk, .flt, .glb, .sec, .chain, .pins, .free] s (execPwrgdAssert g s) := by
  simp (disch := decide) only [execPwrgdAssert, leaves_next, ↓hide_pins, tryRelease_hide]

theorem execHaltAssert_frame (ns : Nat) (s : State) :
    Leaves [.seats, .str, .ctxs, .cq, .clk, .pwr, .flt, .glb, .pools, .chain, .pins] s (execHaltAssert ns s) := by
  simp (disch := decide) only [execHaltAssert, leaves_ite, leaves_next, ↓hide_pwr, boardHalt_hide, fleetHalt_hide, ↓hide_ite, ite_self]

theorem execHaltDeassert_frame (ns : Nat) (s : State) : Leaves [.pwr] s (execHaltDeassert ns s) := by
  simp (disch := decide) only [execHaltDeassert, leaves_ite, leaves_next, ↓hide_pwr, ite_self]

theorem execLimitAssert_frame (ns : Nat) (s : State) : Leaves [.clk, .pwr] s (execLimitAssert ns s) := by
  simp only [execLimitAssert, leaves_ite, leaves_next, ↓hide_foldl, implies_true, ↓hide_pwr, retarget_hide, ↓hide_ite, ite_self,
    List.mem_cons, true_or, or_true]

theorem execLimitDeassert_frame (ns : Nat) (s : State) : Leaves [.pwr] s (execLimitDeassert ns s) := by
  simp (disch := decide) only [execLimitDeassert, leaves_ite, leaves_next, ↓hide_pwr, ite_self]

theorem execThermtrip_frame (q : CrewIx) (tj : Byte) (s : State) :
    Leaves [.seats, .str, .ctxs, .cq, .clk, .flt, .glb, .pools, .pins] s (execThermtrip q tj s) := by
  simp (disch := decide) only [execThermtrip, leaves_ite, leaves_next, tripThermal_hide, ite_self]

theorem execClkReflost_frame (s : State) : Leaves [.seats, .str, .ctxs, .cq, .clk, .flt, .glb, .pools, .pins] s (execClkReflost s) := by
  simp (disch := decide) only [execClkReflost, leaves_ite, leaves_next, ↓hide_pins, raiseAlert_hide, chipHalt_hide, stopAll_hide, ite_self]

theorem execClkUnlock_frame (d : DomIx) (s : State) :
    Leaves [.seats, .str, .ctxs, .cq, .clk, .flt, .glb, .pools, .pins] s (execClkUnlock d s) := by
  simp (disch := decide) only [execClkUnlock, leaves_ite, leaves_next, unlockDomain_hide, ite_self]

theorem execMgmtWatchdog_frame (puf : Bool) (s : State) :
    Leaves [.seats, .str, .ctxs, .cq, .clk, .flt, .glb, .sec, .pools, .pins] s (execMgmtWatchdog puf s) := by
  simp (disch := decide) only [execMgmtWatchdog, leaves_ite, leaves_next, ↓hide_glb, raiseAlert_hide, chipHalt_hide, restartSnivan_hide,
    ite_self]

/-! ## Start-up and the chain (14, 16) -/

theorem execRailsAndClocks_frame (bad : List Nat) (s : State) :
    Leaves [.seats, .str, .ctxs, .cq, .clk, .pwr, .flt, .glb, .sec, .pools, .pins] s (execRailsAndClocks bad s) := by
  simp only [execRailsAndClocks, leaves_ite, leaves_next, ↓hide_foldl, implies_true, ↓hide_pwr, lockDomain_hide, toStage_hide,
    startupFails_hide, unlockDomain_hide, ite_self, List.mem_cons, true_or, or_true]

theorem execCrossingCalibration_frame (base : Nat) (lats : Tbl Nat) (d : DomIx) (s : State) :
    Leaves [.seats, .str, .ctxs, .cq, .clk, .flt, .glb, .sec, .noc, .pools, .pins] s (execCrossingCalibration base lats d s) := by
  simp (disch := decide) only [execCrossingCalibration, leaves_ite, leaves_next, ↓hide_noc, toStage_hide, startupFails_hide,
    raiseAlert_hide, chipHalt_hide, ite_self]

theorem execDramTraining_frame (bad : List Nat) (s : State) : Leaves [.seats, .glb, .pools] s (execDramTraining bad s) := by
  simp only [execDramTraining, leaves_ite, leaves_next, ↓hide_foldl, implies_true, toStage_hide, segmentDead_hide, markFailed_hide,
    ite_self, List.mem_cons, true_or, or_true]

theorem execSeatSelfTest_frame (bad : List Nat) (s : State) : Leaves [.seats, .glb] s (execSeatSelfTest bad s) := by
  simp (disch := decide) only [execSeatSelfTest, leaves_ite, leaves_next, ↓hide_seats, toStage_hide, markFailed_hide, ite_self]

theorem execFillAndGrade_frame (s : State) :
    Leaves [.seats, .str, .ctxs, .cq, .clk, .pwr, .flt, .glb, .sec, .noc, .pools, .fab, .chain, .pins, .free] s (execFillAndGrade s) := by
  simp only [execFillAndGrade, leaves_ite, leaves_next, ↓hide_foldl, implies_true, ↓hide_seats_pools, applyGrade_hide, setRail_hide,
    serveReady_hide, toStage_hide, takeNode_hide, ↓hide_ite, ite_self, List.mem_cons, true_or, or_true]

theorem execFabricTrainingEnd_frame (s : State) : Leaves [.pwr, .glb] s (execFabricTrainingEnd s) := by
  simp (disch := decide) only [execFabricTrainingEnd, leaves_ite, leaves_next, ↓hide_glb, lowerRails_hide, ite_self]

theorem execEnumTimer_frame (s : State) : Leaves [.chain] s (execEnumTimer s) := by
  simp (disch := decide) only [execEnumTimer, leaves_next, ↓hide_chain, sendEnum_hide, ↓hide_ite, ite_self]

theorem execEnumFrame_frame (frame : Nat) (s : State) : Leaves [.flt, .glb, .fab, .chain] s (execEnumFrame frame s) := by
  unfold execEnumFrame
  repeat' split
  all_goals simp (disch := decide) only [leaves_next, ↓hide_chain, onEnum_hide]

theorem execHaltSymbol_frame (s : State) :
    Leaves [.seats, .str, .ctxs, .cq, .clk, .flt, .glb, .pools, .chain, .pins] s (execHaltSymbol s) := by
  simp (disch := decide) only [execHaltSymbol, leaves_ite, leaves_next, ↓hide_chain, fleetHalt_hide, boardHalt_hide, ↓hide_ite, ite_self]

theorem execI3cWrite_frame (data : List Byte) (s : State) : Leaves [.cq] s (execI3cWrite data s) := by
  simp (disch := decide) only [execI3cWrite, leaves_ite, leaves_next, ↓hide_cq, readCommand_hide, ite_self]

theorem execI3cRead_frame (s : State) : Leaves [.cq] s (execI3cRead s) := by
  unfold execI3cRead
  dsimp only
  repeat' split
  all_goals simp (disch := decide) only [leaves_next, ↓hide_cq]

/-! ## The cox's walk (06) -/

theorem execDescriptorPresent_frame (w : SeatIx) (s : State) : Leaves [.seats, .flt] s (execDescriptorPresent w s) := by
  simp (disch := decide) only [execDescriptorPresent, leaves_next, present_hide]

theorem execQueueHoldEnd_frame (w : SeatIx) (s : State) : Leaves [.seats, .flt] s (execQueueHoldEnd w s) := by
  unfold execQueueHoldEnd
  dsimp only
  repeat' split
  all_goals simp (disch := decide) only [leaves_next, modCox_hide, issueJob_hide]

theorem execLoopIteration_frame (w : SeatIx) (s : State) : Leaves [.seats] s (execLoopIteration w s) := by
  unfold execLoopIteration
  dsimp only
  repeat' split
  all_goals simp (disch := decide) only [leaves_next, putSeat_hide]

/-! ## The matrix array (03) -/

theorem execBload_frame (w : SeatIx) (s : State) : Leaves [.seats, .flt] s (execBload w s) :=
  mxRow_leaves (by decide) (by decide) fun _ _ => putSeat_hide _ _ _ (by decide)

theorem execAload_frame (w : SeatIx) (s : State) : Leaves [.seats, .flt] s (execAload w s) :=
  mxRow_leaves (by decide) (by decide) fun _ _ => putSeat_hide _ _ _ (by decide)

theorem execDiag_frame (w : SeatIx) (s : State) : Leaves [.seats, .flt] s (execDiag w s) :=
  mxRow_leaves (by decide) (by decide) fun _ _ => putSeat_hide _ _ _ (by decide)

theorem execProduct_frame (w : SeatIx) (s : State) : Leaves [.seats, .flt] s (execProduct w s) := by
  unfold execProduct
  dsimp only
  repeat' split
  all_goals simp only [leaves_next, ↓hide_foldl, implies_true, guardRaise_hide, putSeat_hide, List.mem_cons, true_or, or_true]

theorem execDrain_frame (w : SeatIx) (s : State) : Leaves [.seats, .flt] s (execDrain w s) := by
  unfold execDrain
  dsimp only
  repeat' split
  all_goals simp only [leaves_next, putSeat_hide, raiseEvents_hide, List.mem_cons, true_or, or_true]

theorem execMxUnitStart_frame (w : SeatIx) (u : UnitIx) (s : State) : Leaves [.seats, .flt] s (execMxUnitStart w u s) := by
  unfold execMxUnitStart
  dsimp only
  repeat' split
  all_goals simp (disch := decide) only [leaves_next, putSeat_hide, raiseEvents_hide]

theorem execPassStart_frame (w : SeatIx) (s : State) : Leaves [.seats, .flt] s (execPassStart w s) := by
  unfold execPassStart
  dsimp only
  repeat' split
  all_goals simp (disch := decide) only [leaves_next, putSeat_hide, raiseEvents_hide]

/-! ## The vector engine (04) -/

theorem execMov_frame (w : SeatIx) (s : State) : Leaves [.seats, .flt] s (execMov w s) := runElem_leaves 0x01 w.val s
theorem execVadd_frame (w : SeatIx) (s : State) : Leaves [.seats, .flt] s (execVadd w s) := runElem_leaves 0x02 w.val s
theorem execVsub_frame (w : SeatIx) (s : State) : Leaves [.seats, .flt] s (execVsub w s) := runElem_leaves 0x03 w.val s
theorem execVmul_frame (w : SeatIx) (s : State) : Leaves [.seats, .flt] s (execVmul w s) := runElem_leaves 0x04 w.val s
theorem execFma_frame (w : SeatIx) (s : State) : Leaves [.seats, .flt] s (execFma w s) := runElem_leaves 0x05 w.val s
theorem execVmin_frame (w : SeatIx) (s : State) : Leaves [.seats, .flt] s (execVmin w s) := runElem_leaves 0x06 w.val s
theorem execVmax_frame (w : SeatIx) (s : State) : Leaves [.seats, .flt] s (execVmax w s) := runElem_leaves 0x07 w.val s
theorem execVabs_frame (w : SeatIx) (s : State) : Leaves [.seats, .flt] s (execVabs w s) := runElem_leaves 0x08 w.val s
theorem execVneg_frame (w : SeatIx) (s : State) : Leaves [.seats, .flt] s (execVneg w s) := runElem_leaves 0x09 w.val s
theorem execCmp_frame (w : SeatIx) (s : State) : Leaves [.seats, .flt] s (execCmp w s) := runElem_leaves 0x0A w.val s
theorem execSel_frame (w : SeatIx) (s : State) : Leaves [.seats, .flt] s (execSel w s) := runElem_leaves 0x0B w.val s
theorem execVand_frame (w : SeatIx) (s : State) : Leaves [.seats, .flt] s (execVand w s) := runElem_leaves 0x0C w.val s
theorem execVor_frame (w : SeatIx) (s : State) : Leaves [.seats, .flt] s (execVor w s) := runElem_leaves 0x0D w.val s
theorem execVxor_frame (w : SeatIx) (s : State) : Leaves [.seats, .flt] s (execVxor w s) := runElem_leaves 0x0E w.val s
theorem execShift_frame (w : SeatIx) (s : State) : Leaves [.seats, .flt] s (execShift w s) := runElem_leaves 0x0F w.val s
theorem execCvt_frame (w : SeatIx) (s : State) : Leaves [.seats, .flt] s (execCvt w s) := runElem_leaves 0x10 w.val s

theorem execCurve_frame (w : SeatIx) (s : State) : Leaves [.seats, .flt] s (execCurve w s) :=
  veRow_leaves fun _ _ => veEnd_hide _ _ _ _ _ _ (by decide) (by decide)

theorem execCtload_frame (w : SeatIx) (s : State) : Leaves [.seats, .flt] s (execCtload w s) := by
  refine veRow_leaves fun x j => ?_
  simp (disch := decide) only [putSeat_hide, raiseEvents_hide, ↓hide_ite, ite_self]

theorem execReduce_frame (w : SeatIx) (s : State) : Leaves [.seats, .flt] s (execReduce w s) :=
  veRow_leaves fun _ _ => veEnd_hide _ _ _ _ _ _ (by decide) (by decide)

theorem execTopk_frame (w : SeatIx) (s : State) : Leaves [.seats, .flt] s (execTopk w s) :=
  veRow_leaves fun _ _ => veEnd_hide _ _ _ _ _ _ (by decide) (by decide)

theorem execCompress_frame (w : SeatIx) (s : State) : Leaves [.seats, .flt] s (execCompress w s) := by
  refine veRow_leaves fun x j => ?_
  dsimp only
  repeat' split
  all_goals simp only [veEnd_hide, putSeat_hide, List.mem_cons, true_or, or_true]

theorem execExpand_frame (w : SeatIx) (s : State) : Leaves [.seats, .flt] s (execExpand w s) := by
  refine veRow_leaves fun x j => ?_
  simp only [veEnd_hide, List.mem_cons, true_or, or_true]

theorem execGather_frame (w : SeatIx) (s : State) : Leaves [.seats, .flt] s (execGather w s) :=
  veRow_leaves fun _ _ => veEnd_hide _ _ _ _ _ _ (by decide) (by decide)

theorem execRand_frame (w : SeatIx) (s : State) : Leaves [.seats, .flt] s (execRand w s) :=
  veRow_leaves fun _ _ => veEnd_hide _ _ _ _ _ _ (by decide) (by decide)

theorem execQuantize_frame (w : SeatIx) (s : State) : Leaves [.seats, .flt] s (execQuantize w s) := by
  unfold execQuantize
  dsimp only
  repeat' split
  all_goals simp only [leaves_next, ↓hide_foldl, implies_true, jobFault_hide, putSeat_hide, guardRaise_hide, raiseEvents_hide, ↓hide_ite,
    ite_self, List.mem_cons, true_or, or_true]

theorem execDequantize_frame (w : SeatIx) (s : State) : Leaves [.seats, .flt] s (execDequantize w s) := by
  refine veRow_leaves fun x j => ?_
  simp only [putSeat_hide, raiseEvents_hide, ↓hide_ite, ite_self, List.mem_cons, true_or, or_true]

theorem execVload_frame (w : SeatIx) (s : State) : Leaves [.seats, .flt] s (execVload w s) := by
  refine veRow_leaves fun x j => ?_
  simp only [putSeat_hide, raiseEvents_hide, ↓hide_ite, ite_self, List.mem_cons, true_or, or_true]

theorem execVstore_frame (w : SeatIx) (s : State) : Leaves [.seats, .flt] s (execVstore w s) := by
  unfold execVstore
  dsimp only
  repeat' split
  all_goals simp (disch := decide) only [leaves_next, putSeat_hide, raiseEvents_hide]

theorem execVeStart_frame (w : SeatIx) (s : State) : Leaves [.seats, .flt] s (execVeStart w s) := by
  unfold execVeStart
  dsimp only
  repeat' split
  all_goals simp (disch := decide) only [leaves_next, jobFault_hide, putSeat_hide]

/-! ## The DMA and send engines, synchronisation and CTRL (09, 07, 06) -/

theorem execSend_frame (w : SeatIx) (e : EngIx) (s : State) : Leaves [.seats, .free] s (execSend w e s) :=
  engineRow_leaves fun _ _ => transmit_hide _ _ _ _ _ _ _ _ (by decide) (by decide)

theorem execGet_frame (w : SeatIx) (e : EngIx) (s : State) : Leaves [.seats, .free] s (execGet w e s) :=
  engineRow_leaves fun _ _ => transmit_hide _ _ _ _ _ _ _ _ (by decide) (by decide)

theorem execWord_frame (w : SeatIx) (e : EngIx) (s : State) : Leaves [.seats, .free] s (execWord w e s) :=
  engineRow_leaves fun _ _ => transmit_hide _ _ _ _ _ _ _ _ (by decide) (by decide)

theorem execFinish_frame (w : SeatIx) (e : EngIx) (s : State) : Leaves [.seats, .free] s (execFinish w e s) :=
  engineRow_leaves fun _ _ => transmit_hide _ _ _ _ _ _ _ _ (by decide) (by decide)

theorem execRset_frame (w : SeatIx) (e : EngIx) (s : State) : Leaves [.seats] s (execRset w e s) := by
  refine engineRow_leaves fun x j => ?_
  simp (disch := decide) only [finishEngine_hide, putSeat_hide, ↓hide_ite, ite_self]

theorem execEngineStart_frame (w : SeatIx) (e : EngIx) (s : State) : Leaves [.seats] s (execEngineStart w e s) := by
  unfold execEngineStart
  dsimp only
  repeat' split
  all_goals simp (disch := decide) only [leaves_next, putSeat_hide]

theorem execCatchCond_frame (w : SeatIx) (s : State) : Leaves [.seats] s (execCatchCond w s) := by
  unfold execCatchCond
  dsimp only
  repeat' split
  all_goals simp (disch := decide) only [leaves_next, modCox_hide]

theorem execCatchSatisfied_frame (w : SeatIx) (held : Nat) (s : State) : Leaves [.seats, .flt] s (execCatchSatisfied w held s) := by
  unfold execCatchSatisfied
  dsimp only
  repeat' split
  all_goals simp (disch := decide) only [leaves_next, issueJob_hide, putSeat_hide]

theorem execAcquire_frame (w : SeatIx) (s : State) : Leaves [.seats] s (execAcquire w s) :=
  coxRow_leaves fun _ _ => putSeat_hide _ _ _ (by decide)

theorem execRelease_frame (w : SeatIx) (e : EngIx) (s : State) : Leaves [.seats] s (execRelease w e s) := by
  unfold execRelease
  dsimp only
  repeat' split
  all_goals simp (disch := decide) only [leaves_next, putSeat_hide]

theorem execReleaseComplete_frame (w : SeatIx) (e : EngIx) (s : State) : Leaves [.seats, .free] s (execReleaseComplete w e s) := by
  unfold execReleaseComplete
  dsimp only
  repeat' split
  all_goals simp (disch := decide) only [leaves_next, finishEngine_hide, putSeat_hide, drawn_hide]

theorem execLoop_frame (w : SeatIx) (s : State) : Leaves [.seats, .flt] s (execLoop w s) := by
  refine coxRow_leaves fun x j => ?_
  dsimp only
  repeat' split
  all_goals simp (disch := decide) only [jobFault_hide, putSeat_hide]

theorem execNop_frame (w : SeatIx) (s : State) : Leaves [.seats] s (execNop w s) := coxRow_leaves fun _ _ => putSeat_hide _ _ _ (by decide)

theorem execCset_frame (w : SeatIx) (s : State) : Leaves [.seats] s (execCset w s) := ctrlRow_leaves 1 w.val s _
theorem execCadd_frame (w : SeatIx) (s : State) : Leaves [.seats] s (execCadd w s) := ctrlRow_leaves 2 w.val s _
theorem execCsub_frame (w : SeatIx) (s : State) : Leaves [.seats] s (execCsub w s) := ctrlRow_leaves 3 w.val s _
theorem execCmul_frame (w : SeatIx) (s : State) : Leaves [.seats] s (execCmul w s) := ctrlRow_leaves 4 w.val s _
theorem execCand_frame (w : SeatIx) (s : State) : Leaves [.seats] s (execCand w s) := ctrlRow_leaves 5 w.val s _
theorem execCshr_frame (w : SeatIx) (s : State) : Leaves [.seats] s (execCshr w s) := ctrlRow_leaves 6 w.val s _
theorem execCid_frame (w : SeatIx) (s : State) : Leaves [.seats] s (execCid w s) := ctrlRow_leaves 8 w.val s _

theorem execCmpset_frame (w : SeatIx) (s : State) : Leaves [.seats] s (execCmpset w s) :=
  coxRow_leaves fun _ _ => putSeat_hide _ _ _ (by decide)

theorem execEndPlan_frame (w : SeatIx) (s : State) : Leaves [.seats, .flt] s (execEndPlan w s) := by
  refine coxRow_leaves fun x j => ?_
  simp (disch := decide) only [jobFault_hide, putSeat_hide, ↓hide_ite, ite_self]

theorem execDescriptorComplete_frame (w : SeatIx) (i : Nat) (s : State) : Leaves [.seats, .flt] s (execDescriptorComplete w i s) := by
  unfold execDescriptorComplete
  dsimp only
  repeat' split
  all_goals simp (disch := decide) only [leaves_next, putSeat_hide, guardRaise_hide]

theorem execPlanFinished_frame (w : SeatIx) (s : State) : Leaves [.seats, .str] s (execPlanFinished w s) := by
  simp (disch := decide) only [execPlanFinished, leaves_ite, leaves_next, modCox_hide, modHeat_hide, ite_self]

/-! ## Refresh, the side port and the scrubber (05) -/

theorem execRefreshAccrual_frame (w : SeatIx) (s : State) : Leaves [.seats, .clk] s (execRefreshAccrual w s) := by
  simp (disch := decide) only [execRefreshAccrual, leaves_ite, leaves_next, modWst_hide, modDom_hide, ite_self]

theorem execRefreshOperation_frame (w : SeatIx) (b : BankIx) (ahead : Nat) (s : State) :
    Leaves [.seats] s (execRefreshOperation w b ahead s) := by
  simp (disch := decide) only [execRefreshOperation, leaves_ite, leaves_next, modWst_hide, ite_self]

theorem execForcedRefresh_frame (w : SeatIx) (c : Nat) (s : State) : Leaves [.seats] s (execForcedRefresh w c s) := by
  simp (disch := decide) only [execForcedRefresh, leaves_ite, leaves_next, modWst_hide, ite_self]

theorem execForcedRefreshEnd_frame (w : SeatIx) (s : State) : Leaves [.seats] s (execForcedRefreshEnd w s) := by
  unfold execForcedRefreshEnd
  dsimp only
  repeat' split
  all_goals simp (disch := decide) only [leaves_next, putSeat_hide]

theorem execSidePortTransfer_frame (w : SeatIx) (ahead : Nat) (s : State) :
    Leaves [.seats, .flt, .free] s (execSidePortTransfer w ahead s) := by
  unfold execSidePortTransfer
  dsimp only
  repeat' split
  all_goals simp (disch := decide) only [leaves_next, modWst_hide, modSeat_hide, diagRead_hide, scrubEnd_hide]

theorem execScrubTile_frame (w : SeatIx) (s : State) : Leaves [.seats] s (execScrubTile w s) := by
  unfold execScrubTile
  dsimp only
  repeat' split
  all_goals simp (disch := decide) only [leaves_next, modWst_hide]

/-! ## Samples, clocks and power states (12) -/

theorem execDramSample_frame (q : CrewIx) (t : Byte) (s : State) : Leaves [.seats, .clk] s (execDramSample q t s) := by
  simp only [execDramSample, leaves_next, ↓hide_foldl, implies_true, modDom_hide, modWst_hide, List.mem_cons, true_or, or_true]

theorem execJunctionSample_frame (q : CrewIx) (tj : Byte) (s : State) :
    Leaves [.seats, .str, .ctxs, .cq, .clk, .pwr, .flt, .glb, .pools, .pins] s (execJunctionSample q tj s) := by
  simp (disch := decide) only [execJunctionSample, leaves_ite, leaves_next, ↓hide_pwr, modDom_hide, lowerRails_hide, clamp_hide,
    tripThermal_hide, ↓hide_ite, ite_self]

theorem execSustainedDroop_frame (q : CrewIx) (s : State) : Leaves [.clk, .flt] s (execSustainedDroop q s) := by
  simp (disch := decide) only [execSustainedDroop, leaves_ite, leaves_next, modDom_hide, report_hide, ite_self]

theorem execPowerCapMeasure_frame (mvW maW mvE maE : Nat) (s : State) : Leaves [.clk, .pwr] s (execPowerCapMeasure mvW maW mvE maE s) := by
  simp only [execPowerCapMeasure, leaves_ite, leaves_next, ↓hide_clk_pwr, lowerRails_hide, ite_self, List.mem_cons, true_or, or_true]

theorem execStepChange_frame (d : DomIx) (s : State) : Leaves [.clk, .pwr, .noc, .free] s (execStepChange d s) := by
  simp (disch := decide) only [execStepChange, leaves_ite, leaves_next, setRail_hide, beginStop_hide, ite_self]

theorem execStepChangeEnd_frame (d : DomIx) (s : State) : Leaves [.clk, .pwr] s (execStepChangeEnd d s) := by
  simp (disch := decide) only [execStepChangeEnd, leaves_ite, leaves_next, modDom_hide, lowerRail_hide, ↓hide_ite, ite_self]

theorem execRailSettled_frame (h : HalfIx) (s : State) : Leaves [.pwr] s (execRailSettled h s) := by
  simp (disch := decide) only [execRailSettled, leaves_next, ↓hide_pwr]

theorem execTimeSync_frame (s : State) : Leaves [.clk] s (execTimeSync s) := by
  simp only [execTimeSync, leaves_ite, leaves_next, ↓hide_foldl, implies_true, syncDomain_hide, takeLoad_hide, ite_self, List.mem_cons,
    true_or]

theorem execPowerStateEntry_frame (i : Nat) (s : State) :
    Leaves [.seats, .str, .ctxs, .cq, .clk, .pwr, .flt, .noc, .pools, .fab] s (execPowerStateEntry i s) := by
  unfold execPowerStateEntry
  repeat' split
  all_goals simp only [leaves_next, ↓hide_foldl, implies_true, settleReqs_hide, enterChip_hide, enterMember_hide, List.mem_cons, true_or,
    or_true]

theorem execPowerRequestTimeout_frame (i : Nat) (s : State) : Leaves [.cq, .pwr] s (execPowerRequestTimeout i s) := by
  unfold execPowerRequestTimeout
  dsimp only
  repeat' split
  all_goals simp (disch := decide) only [leaves_next, ↓hide_pwr, answerLate_hide]

theorem execAutoPaddle_frame (q : CrewIx) (s : State) : Leaves [.cq, .clk, .pwr] s (execAutoPaddle q s) := by
  simp (disch := decide) only [execAutoPaddle, leaves_ite, leaves_next, settleReqs_hide, enterPaddle_hide, ite_self]

theorem execWakeRequest_frame (unit : Word) (s : State) : Leaves [.clk, .pwr] s (execWakeRequest unit s) := by
  simp (disch := decide) only [execWakeRequest, leaves_ite, leaves_next, modDom_hide, wakeHalf_hide, ite_self]

theorem execWakeComplete_frame (unit : Word) (s : State) :
    Leaves [.seats, .str, .ctxs, .cq, .clk, .pwr, .glb, .noc, .pools, .fab] s (execWakeComplete unit s) := by
  simp (disch := decide) only [execWakeComplete, leaves_ite, leaves_next, settleReqs_hide, modDom_hide, leaveBoated_hide, leaveEasy_hide,
    ite_self]

theorem execSegmentPowerDown_frame (h : HalfIx) (g : SegIx) (s : State) : Leaves [.pools] s (execSegmentPowerDown h g s) := by
  simp (disch := decide) only [execSegmentPowerDown, leaves_ite, leaves_next, modPool_hide, ite_self]

theorem execSegmentClose_frame (h : HalfIx) (g : SegIx) (s : State) : Leaves [.pools] s (execSegmentClose h g s) := by
  simp (disch := decide) only [execSegmentClose, leaves_ite, leaves_next, modPool_hide, ite_self]

theorem execSegmentWake_frame (h : HalfIx) (g : SegIx) (s : State) : Leaves [.pools] s (execSegmentWake h g s) := by
  simp (disch := decide) only [execSegmentWake, leaves_ite, leaves_next, modPool_hide, ite_self]

theorem execSegmentReady_frame (h : HalfIx) (g : SegIx) (s : State) : Leaves [.pools] s (execSegmentReady h g s) := by
  simp (disch := decide) only [execSegmentReady, leaves_ite, leaves_next, modPool_hide, ite_self]

/-! ## Heats (07) -/

theorem execPreload_frame (r h : Nat) (w : SeatIx) (s : State) :
    Leaves [.seats, .str, .ctxs, .cq, .clk, .pwr, .flt, .noc] s (execPreload r h w s) := by
  unfold execPreload
  dsimp only
  repeat' split
  all_goals simp (disch := decide) only [leaves_next, wakeHalf_hide, holdRead_hide, modDom_hide, abandonHeat_hide, modSeat_hide,
    touchCrew_hide, modHeat_hide]

theorem execHeatReady_frame (r h : Nat) (s : State) : Leaves [.str] s (execHeatReady r h s) := by
  unfold execHeatReady
  dsimp only
  repeat' split
  all_goals simp (disch := decide) only [leaves_next, ↓hide_str, modHeat_hide]

theorem execTimeDependence_frame (r h d : Nat) (s : State) : Leaves [.str] s (execTimeDependence r h d s) := by
  unfold execTimeDependence
  repeat' split
  all_goals simp (disch := decide) only [leaves_next, modHeat_hide]

theorem execHeatDispatch_frame (r h : Nat) (s : State) :
    Leaves [.seats, .str, .ctxs, .cq, .clk, .flt, .noc, .free] s (execHeatDispatch r h s) := by
  unfold execHeatDispatch
  dsimp only
  repeat' split
  all_goals simp only [leaves_next, ↓hide_foldl, implies_true, ↓hide_str, modHeat_hide, abandonHeat_hide, modClass_hide, drawn_hide,
    latchDeps_hide, dispatchSeat_hide, modCtx_hide, List.mem_cons, true_or, or_true]

theorem execCoreFill_frame (w : SeatIx) (s : State) : Leaves [.seats, .glb] s (execCoreFill w s) := by
  simp (disch := decide) only [execCoreFill, leaves_ite, leaves_next, landWindow_hide, putSeat_hide, ite_self]

theorem execHeatStart_frame (w : SeatIx) (s : State) : Leaves [.seats] s (execHeatStart w s) := by
  unfold execHeatStart
  dsimp only
  repeat' split
  all_goals simp (disch := decide) only [leaves_next, putSeat_hide]

theorem execHeatComplete_frame (r h : Nat) (s : State) : Leaves [.seats, .str, .ctxs, .cq, .clk, .pools] s (execHeatComplete r h s) := by
  unfold execHeatComplete
  dsimp only
  repeat' split
  all_goals simp (disch := decide) only [leaves_next, freeHeat_hide, modHeat_hide, retire_hide, postHeat_hide, skipHeat_hide,
    settleRun_hide]

theorem execHeatAbort_frame (r h : Nat) (s : State) : Leaves [.seats, .str, .ctxs, .cq, .clk, .flt, .pools] s (execHeatAbort r h s) := by
  unfold execHeatAbort
  repeat' split
  all_goals simp (disch := decide) only [leaves_next, abortHeat_hide]

theorem execHeatAbandon_frame (r h : Nat) (s : State) : Leaves [.seats, .str, .ctxs, .cq, .flt] s (execHeatAbandon r h s) := by
  unfold execHeatAbandon
  repeat' split
  all_goals simp (disch := decide) only [leaves_next, abandonHeat_hide]

theorem execHeatWatchdog_frame (r h : Nat) (s : State) : Leaves [.seats, .str, .ctxs, .cq, .clk, .flt, .pools] s (execHeatWatchdog r h s) := by
  unfold execHeatWatchdog
  dsimp only
  repeat' split
  all_goals simp (disch := decide) only [leaves_next, abortHeat_hide]

theorem execClassFree_frame (k : Fin 64) (s : State) : Leaves [.str] s (execClassFree k s) := by
  simp (disch := decide) only [execClassFree, leaves_ite, leaves_next, modClass_hide, ite_self]

theorem execSeatLastLogged_frame (w : SeatIx) (s : State) : Leaves [.seats, .flt] s (execSeatLastLogged w s) := by
  simp (disch := decide) only [execSeatLastLogged, leaves_ite, leaves_next, report_hide, modSeat_hide, ↓hide_ite, ite_self]

/-! ## Completions and packets (13, 09) -/

theorem execCompletionPost_frame (r : RingIx) (s : State) : Leaves [.cq, .hostMem] s (execCompletionPost r s) := by
  unfold execCompletionPost
  dsimp only
  repeat' split
  all_goals simp (disch := decide) only [leaves_next, ↓hide_cq_hostMem, modCqr_hide]

theorem execMsixInterrupt_frame (r : RingIx) (s : State) : Leaves [.cq] s (execMsixInterrupt r s) := by
  simp (disch := decide) only [execMsixInterrupt, leaves_ite, leaves_next, raiseVector_hide, modCqr_hide, ite_self]

theorem execWritePkt_frame (i g : Nat) (s : State) : Leaves [.seats, .str, .clk, .noc, .pools] s (execWritePkt i g s) := by
  refine packetRow_leaves (by decide) (by decide) ?_ ?_ ?_ <;> intros
  all_goals simp (disch := decide) only [writeSeat_hide, writePool_hide]

theorem execWordPkt_frame (i : Nat) (s : State) : Leaves [.seats, .str, .clk, .noc, .pools] s (execWordPkt i s) := by
  refine packetRow_leaves (by decide) (by decide) ?_ ?_ ?_ <;> intros
  all_goals simp (disch := decide) only [wordSeat_hide, wordPool_hide]

theorem execFinishPkt_frame (i : Nat) (s : State) : Leaves [.seats, .str, .clk, .flt, .noc, .pools] s (execFinishPkt i s) := by
  refine packetRow_leaves (by decide) (by decide) ?_ ?_ ?_ <;> intros
  all_goals simp (disch := decide) only [finishSeat_hide, finishPool_hide]

theorem execFinishRelease_frame (pool : Bool) (n : Nat) (i : Nat) (s : State) :
    Leaves [.seats, .flt, .pools] s (execFinishRelease pool n i s) := by
  unfold execFinishRelease
  dsimp only
  repeat' split
  all_goals simp (disch := decide) only [leaves_next, releasePool_hide, modPool_hide, releaseSeat_hide, modSeat_hide]

theorem execReadPkt_frame (i : Nat) (s : State) : Leaves [.seats, .str, .clk, .noc, .pools] s (execReadPkt i s) := by
  refine packetRow_leaves (by decide) (by decide) ?_ ?_ ?_ <;> intros
  all_goals simp (disch := decide) only [readSeat_hide, readPool_hide]

theorem execRdataPkt_frame (i g : Nat) (s : State) : Leaves [.seats, .str, .clk, .noc, .fab] s (execRdataPkt i g s) := by
  refine packetRow_leaves (by decide) (by decide) ?_ ?_ ?_ <;> intros
  all_goals simp (disch := decide) only [rdataSeat_hide, takeArrive_hide, inboundAnswer_hide, ↓hide_ite, ite_self]

theorem execAckPkt_frame (i : Nat) (s : State) : Leaves [.seats, .clk, .noc, .fab] s (execAckPkt i s) := by
  refine packetRow_leaves (by decide) (by decide) ?_ ?_ ?_ <;> intros
  all_goals simp (disch := decide) only [settleOut_hide, takeArrive_hide, inboundAnswer_hide]

theorem execNackPkt_frame (i : Nat) (s : State) : Leaves [.seats, .clk, .flt, .noc, .fab] s (execNackPkt i s) := by
  refine packetRow_leaves (by decide) (by decide) ?_ ?_ ?_ <;> intros
  all_goals simp (disch := decide) only [nackSeat_hide, takeArrive_hide, inboundAnswer_hide]

theorem execStartMsg_frame (i : Nat) (s : State) : Leaves [.seats, .clk, .noc] s (execStartMsg i s) := by
  refine packetRow_leaves (by decide) (by decide) ?_ ?_ ?_ <;> intros
  all_goals simp (disch := decide) only [modCox_hide, takeArrive_hide]

theorem execControlMsg_frame (op : CtlOp) (s : State) : Leaves [.str, .pwr, .noc, .pools] s (execControlMsg op s) := by
  unfold execControlMsg
  dsimp only
  repeat' split
  all_goals simp only [leaves_next, ↓hide_foldl, implies_true, ↓hide_str, dropFinishes_hide, wakeHalf_hide, takeMap_hide, List.mem_cons,
    true_or, or_true]

/-- What a flit meets at its seat's own router or at the seam may take it away (09 R298, R299). -/
theorem execRouterForward_frame (n : NodeIx) (p : NodePort) (v : VcIx) (o : NodePort) (ecc : Nat) (s : State) :
    Leaves [.seats, .clk, .pwr, .flt, .noc] s (execRouterForward n p v o ecc s) := by
  unfold execRouterForward
  dsimp only
  split
  · exact (leaves_next _ _).mpr rfl
  split
  · exact (leaves_next _ _).mpr rfl
  split
  · simp (disch := decide) only [leaves_ite, leaves_next, passFlit_hide, ite_self]
  split
  · simp (disch := decide) only [leaves_next, discarded_hide, putSource_hide]
  split
  · simp (disch := decide) only [leaves_ite, leaves_next, enterMesh_hide, ite_self]
  split
  · next hm =>
    rw [leaves_next]
    split at hm
    · cases hm
    split at hm
    · exact atOwnSeat_hide _ _ _ _ _ _ _ (by decide) (by decide) (by decide) hm
    split at hm
    · exact atSeam_hide _ _ _ _ _ _ _ _ (by decide) (by decide) (by decide) hm
    · cases hm
  · simp (disch := decide) only [leaves_ite, leaves_next, passFlit_hide, ite_self]

theorem execCrossingRecentre_frame (n : NodeIx) (p : NodePort) (s : State) : Leaves [.noc] s (execCrossingRecentre n p s) := by
  simp (disch := decide) only [execCrossingRecentre, leaves_ite, leaves_next, setOffset_hide, ite_self]

theorem execSeatMapReassign_frame (q : CrewIx) (s : State) : Leaves [.seats, .str, .ctxs, .noc] s (execSeatMapReassign q s) := by
  simp (disch := decide) only [execSeatMapReassign, leaves_ite, leaves_next, ↓hide_ctxs_noc, modMap_hide, lagMap_hide, releaseCrew_hide,
    ite_self]

/-! ## Records, loads and feeds (15, 11, 13) -/

theorem execRecordLogged_frame (i : Nat) (s : State) : Leaves [.seats, .str, .cq, .flt, .glb, .pins] s (execRecordLogged i s) := by
  unfold execRecordLogged
  repeat' split
  all_goals simp (disch := decide) only [leaves_next, ↓hide_flt, acceptRecord_hide]

theorem execRecordHandling_frame (s : State) :
    Leaves [.seats, .str, .ctxs, .cq, .clk, .flt, .glb, .sec, .noc, .pools, .free] s (execRecordHandling s) := by
  unfold execRecordHandling
  dsimp only
  repeat' split
  all_goals simp (disch := decide) only [leaves_next, ↓hide_flt_glb, releaseHolds_hide, markContext_hide, actOn_hide]

theorem execSnivanHandler_frame (puf : Bool) (s : State) :
    Leaves [.seats, .str, .ctxs, .cq, .clk, .flt, .glb, .sec, .pools, .pins] s (execSnivanHandler puf s) := by
  unfold execSnivanHandler
  dsimp only
  repeat' split
  all_goals simp (disch := decide) only [leaves_next, ↓hide_glb, raiseAlert_hide, chipHalt_hide, restartSnivan_hide]

theorem execLoadSegment_frame (img : Option Mem) (s : State) : Leaves [.seats, .ctxs, .pwr, .flt, .noc] s (execLoadSegment img s) := by
  unfold execLoadSegment
  repeat' split
  all_goals simp (disch := decide) only [leaves_next, holdRead_hide, loadSegment_hide, modLoad_hide]

theorem execLoadComplete_frame (s : State) : Leaves [.seats, .ctxs, .cq, .flt] s (execLoadComplete s) := by
  unfold execLoadComplete
  repeat' split
  all_goals simp (disch := decide) only [leaves_next, answerLate_hide, dropLoad_hide, finishLoad_hide]

theorem execBlockZeroFill_frame (k : Nat) (s : State) : Leaves [.ctxs, .flt, .sec] s (execBlockZeroFill k s) := by
  simp (disch := decide) only [execBlockZeroFill, leaves_ite, leaves_next, settleUnlock_hide, fillDone_hide, ite_self]

theorem execFeedStart_frame (f : FeedIx) (desc : Option (BitVec 256)) (data : List Granule) (s : State) :
    Leaves [.str, .cq, .pwr, .noc, .pools, .hostMem] s (execFeedStart f desc data s) := by
  unfold execFeedStart
  dsimp only
  repeat' split
  all_goals simp (disch := decide) only [leaves_next, modFeed_hide, noteHeld_hide, feedMove_hide]

theorem execFeedEnd_frame (f : FeedIx) (s : State) : Leaves [.cq, .flt] s (execFeedEnd f s) := by
  unfold execFeedEnd
  dsimp only
  repeat' split
  all_goals simp (disch := decide) only [leaves_next, modFeed_hide, report_hide, postEntry_hide]

/-! ## The fabric (10) and what is left -/

theorem execPortSignalDetect_frame (p : PortIx) (s : State) : Leaves [.fab] s (execPortSignalDetect p s) := by
  simp (disch := decide) only [execPortSignalDetect, leaves_ite, leaves_next, modPort_hide, ite_self]

theorem execPortTrainingStep_frame (p : PortIx) (lanes : Byte) (named : Bool) (s : State) :
    Leaves [.flt, .noc, .fab] s (execPortTrainingStep p lanes named s) := by
  unfold execPortTrainingStep
  dsimp only
  repeat' split
  all_goals simp (disch := decide) only [leaves_next, modPort_hide, trainFails_hide, identify_hide, portUp_hide]

theorem execPortRetrain_frame (p : PortIx) (cause : Nat) (s : State) : Leaves [.flt, .noc, .fab] s (execPortRetrain p cause s) := by
  simp (disch := decide) only [execPortRetrain, leaves_ite, leaves_next, startRetrain_hide, otherRetrain_hide, ↓hide_ite, ite_self]

theorem execSequencedFrame_frame (p : PortIx) (s : State) : Leaves [.flt, .noc, .fab, .free] s (execSequencedFrame p s) := by
  refine frameRow_leaves (by decide) fun u f => ?_
  simp (disch := decide) only [sequenced_hide, ↓hide_ite, ite_self]

theorem execControlFrame_frame (p : PortIx) (s : State) : Leaves [.clk, .flt, .noc, .fab, .free] s (execControlFrame p s) := by
  refine frameRow_leaves (by decide) fun u f => ?_
  simp (disch := decide) only [controlled_hide]

theorem execControlFrameTimer_frame (p : PortIx) (s : State) : Leaves [.fab, .free] s (execControlFrameTimer p s) := by
  unfold execControlFrameTimer
  dsimp only
  repeat' split
  all_goals simp (disch := decide) only [leaves_next, modPort_hide, drawn_hide]

theorem execReplayTimeout_frame (p : PortIx) (s : State) : Leaves [.flt, .noc, .fab] s (execReplayTimeout p s) := by
  simp (disch := decide) only [execReplayTimeout, leaves_ite, leaves_next, replay_hide, ite_self]

theorem execPairHoldTimeout_frame (pr : Fin 6) (s : State) : Leaves [.noc, .fab] s (execPairHoldTimeout pr s) := by
  simp only [execPairHoldTimeout, leaves_next, ↓hide_foldl, implies_true, modPair_hide, refusePort_hide, List.mem_cons, true_or, or_true]

theorem execFabricEgress_frame (i : Nat) (s : State) : Leaves [.str, .clk, .noc, .fab] s (execFabricEgress i s) := by
  unfold execFabricEgress
  dsimp only
  repeat' split
  all_goals simp (disch := decide) only [leaves_next, takeArrive_hide, answerPkt_hide, countFabNack_hide, staleElse_hide, sendCopies_hide]

theorem execFabricArrival_frame (i : Nat) (s : State) : Leaves [.str, .pwr, .noc, .fab, .free] s (execFabricArrival i s) := by
  unfold execFabricArrival
  dsimp only
  repeat' split
  all_goals simp (disch := decide) only [leaves_next, ↓hide_fab, leaveBuffer_hide, launch_hide, lastChip_hide]

theorem execFabricAnswer_frame (i : Nat) (s : State) : Leaves [.str, .noc, .fab] s (execFabricAnswer i s) := by
  unfold execFabricAnswer
  dsimp only
  repeat' split
  all_goals simp (disch := decide) only [leaves_next, ↓hide_fab, readDone_hide, ftagAnswer_hide]

theorem execFabricGiveUp_frame (t : Nat) (s : State) : Leaves [.noc, .fab] s (execFabricGiveUp t s) := by
  unfold execFabricGiveUp
  repeat' split
  all_goals simp (disch := decide) only [leaves_next, giveUp_hide]

theorem execReadReissue_frame (t : Nat) (s : State) : Leaves [.noc, .fab] s (execReadReissue t s) := by
  unfold execReadReissue
  dsimp only
  repeat' split
  all_goals simp only [leaves_next, ↓hide_foldl, implies_true, ↓hide_fab, giveUp_hide, putFtag_hide, launch_hide, List.mem_cons, true_or,
    or_true]

theorem execTimeSampleLoss_frame (s : State) : Leaves [.clk, .fab] s (execTimeSampleLoss s) := by
  simp (disch := decide) only [execTimeSampleLoss, leaves_ite, leaves_next, ↓hide_clk_fab, ite_self]

theorem execRsCodeword_frame (p : PortIx) (word : List (BitVec 10)) (s : State) : Leaves [.fab] s (execRsCodeword p word s) := by
  unfold execRsCodeword
  repeat' split
  all_goals simp (disch := decide) only [leaves_next, modPort_hide]

theorem execIdleFrame_frame (p : PortIx) (s : State) : Leaves [.flt, .noc, .fab, .free] s (execIdleFrame p s) := by
  refine frameRow_leaves (by decide) fun u f => ?_
  simp (disch := decide) only [takeAck_hide, ↓hide_ite, ite_self]

theorem execDroopStretching_frame (q : CrewIx) (mv : Nat) (s : State) : Leaves [.clk, .noc, .free] s (execDroopStretching q mv s) := by
  simp (disch := decide) only [execDroopStretching, leaves_ite, leaves_next, modDom_hide, crossingMoves_hide, ↓hide_ite, ite_self,
    leaves_fault]

theorem execFtagRelease_frame (t : Nat) (s : State) : Leaves [.fab] s (execFtagRelease t s) := by
  unfold execFtagRelease
  repeat' split
  all_goals simp (disch := decide) only [leaves_next, freeFtag_hide]

theorem execIdeKm_frame (s : State) : Leaves [.sec] s (execIdeKm s) := by
  simp (disch := decide) only [execIdeKm, leaves_next, ↓hide_sec, ↓hide_ite, ite_self]

theorem execTapInstruction_frame (ir : TapIr) (s : State) : Leaves [.pins] s (execTapInstruction ir s) := by
  simp (disch := decide) only [execTapInstruction, leaves_next, ↓hide_pins]

theorem execDynamicAddress_frame (addr : BitVec 7) (s : State) : Leaves [.pins] s (execDynamicAddress addr s) := by
  simp (disch := decide) only [execDynamicAddress, leaves_ite, leaves_next, ↓hide_pins, ite_self]

/-! ## All commands -/

/-- Every command leaves alone the components that `touches` does not list for it. -/
theorem exec_leaves (c : Instr) (s : State) : Leaves (touches c) s (exec c s) := by
  cases c with
  | openSession src => exact execOpenSession_frame src s
  | closeSession src => exact execCloseSession_frame src s
  | contextCreate src => exact execContextCreate_frame src s
  | shardLoad src img => exact execShardLoad_frame src img s
  | tileRepair src img => exact execTileRepair_frame src img s
  | generationSwitch src => exact execGenerationSwitch_frame src s
  | evict src => exact execEvict_frame src s
  | graphSubmit src => exact execGraphSubmit_frame src s
  | graphRelease src => exact execGraphRelease_frame src s
  | run src => exact execRun_frame src s
  | cancel src => exact execCancel_frame src s
  | weighEnough src => exact execWeighEnough_frame src s
  | faultClearContext src => exact execFaultClearContext_frame src s
  | faultClearWeighEnough src => exact execFaultClearWeighEnough_frame src s
  | fenceSeat src => exact execFenceSeat_frame src s
  | powerState src => exact execPowerState_frame src s
  | setStep src => exact execSetStep_frame src s
  | timeRole src => exact execTimeRole_frame src s
  | telemetry src ok => exact execTelemetry_frame src ok s
  | logRead src ok => exact execLogRead_frame src ok s
  | attest src ok fl => exact execAttest_frame src ok fl s
  | fwUpdate src img fl => exact execFwUpdate_frame src img fl s
  | publisherEnrolment src img fl => exact execPublisherEnrolment_frame src img fl s
  | debugToken src img => exact execDebugToken_frame src img s
  | certificateRenewal src img fl => exact execCertificateRenewal_frame src img fl s
  | fwActivate puf => exact execFwActivate_frame puf s
  | snivanReady => exact execSnivanReady_frame s
  | submissionDoorbell r val => exact execSubmissionDoorbell_frame r val s
  | commandRead r entry => exact execCommandRead_frame r entry s
  | completionDoorbell r val => exact execCompletionDoorbell_frame r val s
  | feedDoorbell f val => exact execFeedDoorbell_frame f val s
  | feedResume f val => exact execFeedResume_leaves (ps := [.cq]) f val s (by decide)
  | ringEnable r => exact execRingEnable_frame r s
  | ringDisable r => exact execRingDisable_frame r s
  | clkTimeLoad val => exact execClkTimeLoad_leaves (ps := [.clk]) val s (by decide)
  | clkTimeLoRead => exact execClkTimeLoRead_frame s
  | wstDiagGo w val => exact execWstDiagGo_leaves (ps := [.seats]) w val s (by decide)
  | fabPortRetrain p val => exact execFabPortRetrain_leaves (ps := [.flt, .noc, .fab]) p val s (by decide) (by decide) (by decide)
  | fabPortRetrainFull p val => exact execFabPortRetrainFull_leaves (ps := [.flt, .noc, .fab]) p val s (by decide) (by decide) (by decide)
  | fabPortEnWrite p val => exact execFabPortEnWrite_leaves (ps := [.flt, .noc, .fab]) p val s (by decide) (by decide) (by decide)
  | recoveryGo val => exact execRecoveryGo_leaves (ps := [.glb]) val s (by decide)
  | eventsClear val => exact execEventsClear_leaves (ps := [.glb]) val s (by decide)
  | ackSeqWrite val => exact execAckSeqWrite_leaves (ps := [.flt]) val s (by decide)
  | registerWrite off size val => exact execRegisterWrite_frame off size val s
  | seatWindowAccess w off wr => exact execSeatWindowAccess_frame w off wr s
  | bar2Access off len wr prot => exact execBar2Access_frame off len wr prot s
  | functionLevelReset => exact execFunctionLevelReset_frame s
  | perstAssert => exact execPerstAssert_frame s
  | perstDeassert => exact execPerstDeassert_frame s
  | configurationRequest off wr => exact execConfigurationRequest_frame off wr s
  | resetAssert ns => exact execResetAssert_frame ns s
  | resetRelease flash puf head => exact execResetRelease_frame flash puf head s
  | pwrgdDeassert g ns => exact execPwrgdDeassert_frame g ns s
  | pwrgdAssert g => exact execPwrgdAssert_frame g s
  | haltAssert ns => exact execHaltAssert_frame ns s
  | haltDeassert ns => exact execHaltDeassert_frame ns s
  | limitAssert ns => exact execLimitAssert_frame ns s
  | limitDeassert ns => exact execLimitDeassert_frame ns s
  | thermtrip q tj => exact execThermtrip_frame q tj s
  | clkReflost => exact execClkReflost_frame s
  | clkUnlock d => exact execClkUnlock_frame d s
  | mgmtWatchdog puf => exact execMgmtWatchdog_frame puf s
  | railsAndClocks bad => exact execRailsAndClocks_frame bad s
  | crossingCalibration base lats d => exact execCrossingCalibration_frame base lats d s
  | dramTraining bad => exact execDramTraining_frame bad s
  | seatSelfTest bad => exact execSeatSelfTest_frame bad s
  | fillAndGrade => exact execFillAndGrade_frame s
  | fabricTrainingEnd => exact execFabricTrainingEnd_frame s
  | enumTimer => exact execEnumTimer_frame s
  | enumFrame frame => exact execEnumFrame_frame frame s
  | haltSymbol => exact execHaltSymbol_frame s
  | i3cWrite data => exact execI3cWrite_frame data s
  | i3cRead => exact execI3cRead_frame s
  | descriptorPresent w => exact execDescriptorPresent_frame w s
  | queueHoldEnd w => exact execQueueHoldEnd_frame w s
  | loopIteration w => exact execLoopIteration_frame w s
  | bload w => exact execBload_frame w s
  | aload w => exact execAload_frame w s
  | diag w => exact execDiag_frame w s
  | product w => exact execProduct_frame w s
  | drain w => exact execDrain_frame w s
  | mxUnitStart w u => exact execMxUnitStart_frame w u s
  | passStart w => exact execPassStart_frame w s
  | mov w => exact execMov_frame w s
  | vadd w => exact execVadd_frame w s
  | vsub w => exact execVsub_frame w s
  | vmul w => exact execVmul_frame w s
  | fma w => exact execFma_frame w s
  | vmin w => exact execVmin_frame w s
  | vmax w => exact execVmax_frame w s
  | vabs w => exact execVabs_frame w s
  | vneg w => exact execVneg_frame w s
  | cmp w => exact execCmp_frame w s
  | sel w => exact execSel_frame w s
  | vand w => exact execVand_frame w s
  | vor w => exact execVor_frame w s
  | vxor w => exact execVxor_frame w s
  | shift w => exact execShift_frame w s
  | cvt w => exact execCvt_frame w s
  | curve w => exact execCurve_frame w s
  | ctload w => exact execCtload_frame w s
  | reduce w => exact execReduce_frame w s
  | topk w => exact execTopk_frame w s
  | compress w => exact execCompress_frame w s
  | expand w => exact execExpand_frame w s
  | gather w => exact execGather_frame w s
  | rand w => exact execRand_frame w s
  | quantize w => exact execQuantize_frame w s
  | dequantize w => exact execDequantize_frame w s
  | vload w => exact execVload_frame w s
  | vstore w => exact execVstore_frame w s
  | veStart w => exact execVeStart_frame w s
  | send w e => exact execSend_frame w e s
  | get w e => exact execGet_frame w e s
  | word w e => exact execWord_frame w e s
  | finish w e => exact execFinish_frame w e s
  | rset w e => exact execRset_frame w e s
  | engineStart w e => exact execEngineStart_frame w e s
  | catchCond w => exact execCatchCond_frame w s
  | catchSatisfied w held => exact execCatchSatisfied_frame w held s
  | acquire w => exact execAcquire_frame w s
  | release w e => exact execRelease_frame w e s
  | releaseComplete w e => exact execReleaseComplete_frame w e s
  | loop w => exact execLoop_frame w s
  | nop w => exact execNop_frame w s
  | cset w => exact execCset_frame w s
  | cadd w => exact execCadd_frame w s
  | csub w => exact execCsub_frame w s
  | cmul w => exact execCmul_frame w s
  | cand w => exact execCand_frame w s
  | cshr w => exact execCshr_frame w s
  | cid w => exact execCid_frame w s
  | cmpset w => exact execCmpset_frame w s
  | endPlan w => exact execEndPlan_frame w s
  | descriptorComplete w idx => exact execDescriptorComplete_frame w idx s
  | planFinished w => exact execPlanFinished_frame w s
  | refreshAccrual w => exact execRefreshAccrual_frame w s
  | refreshOperation w b ahead => exact execRefreshOperation_frame w b ahead s
  | forcedRefresh w c => exact execForcedRefresh_frame w c s
  | forcedRefreshEnd w => exact execForcedRefreshEnd_frame w s
  | sidePortTransfer w ahead => exact execSidePortTransfer_frame w ahead s
  | scrubTile w => exact execScrubTile_frame w s
  | dramSample q t => exact execDramSample_frame q t s
  | junctionSample q tj => exact execJunctionSample_frame q tj s
  | sustainedDroop q => exact execSustainedDroop_frame q s
  | powerCapMeasure mvW maW mvE maE => exact execPowerCapMeasure_frame mvW maW mvE maE s
  | stepChange d => exact execStepChange_frame d s
  | stepChangeEnd d => exact execStepChangeEnd_frame d s
  | railSettled h => exact execRailSettled_frame h s
  | timeSync => exact execTimeSync_frame s
  | powerStateEntry k => exact execPowerStateEntry_frame k s
  | powerRequestTimeout k => exact execPowerRequestTimeout_frame k s
  | autoPaddle q => exact execAutoPaddle_frame q s
  | wakeRequest unit => exact execWakeRequest_frame unit s
  | wakeComplete unit => exact execWakeComplete_frame unit s
  | segmentPowerDown h g => exact execSegmentPowerDown_frame h g s
  | segmentClose h g => exact execSegmentClose_frame h g s
  | segmentWake h g => exact execSegmentWake_frame h g s
  | segmentReady h g => exact execSegmentReady_frame h g s
  | preload r h w => exact execPreload_frame r h w s
  | heatReady r h => exact execHeatReady_frame r h s
  | timeDependence r h d => exact execTimeDependence_frame r h d s
  | heatDispatch r h => exact execHeatDispatch_frame r h s
  | coreFill w => exact execCoreFill_frame w s
  | heatStart w => exact execHeatStart_frame w s
  | heatComplete r h => exact execHeatComplete_frame r h s
  | heatAbort r h => exact execHeatAbort_frame r h s
  | heatAbandon r h => exact execHeatAbandon_frame r h s
  | heatWatchdog r h => exact execHeatWatchdog_frame r h s
  | classFree k => exact execClassFree_frame k s
  | seatLastLogged w => exact execSeatLastLogged_frame w s
  | completionPost r => exact execCompletionPost_frame r s
  | msixInterrupt r => exact execMsixInterrupt_frame r s
  | writePkt k g => exact execWritePkt_frame k g s
  | wordPkt k => exact execWordPkt_frame k s
  | finishPkt k => exact execFinishPkt_frame k s
  | finishRelease pool n k => exact execFinishRelease_frame pool n k s
  | readPkt k => exact execReadPkt_frame k s
  | rdataPkt k g => exact execRdataPkt_frame k g s
  | ackPkt k => exact execAckPkt_frame k s
  | nackPkt k => exact execNackPkt_frame k s
  | startMsg k => exact execStartMsg_frame k s
  | controlMsg op => exact execControlMsg_frame op s
  | routerForward n p v o ecc => exact execRouterForward_frame n p v o ecc s
  | crossingRecentre n p => exact execCrossingRecentre_frame n p s
  | seatMapReassign q => exact execSeatMapReassign_frame q s
  | recordLogged k => exact execRecordLogged_frame k s
  | recordHandling => exact execRecordHandling_frame s
  | snivanHandler puf => exact execSnivanHandler_frame puf s
  | loadSegment img => exact execLoadSegment_frame img s
  | loadComplete => exact execLoadComplete_frame s
  | blockZeroFill k => exact execBlockZeroFill_frame k s
  | feedStart f desc data => exact execFeedStart_frame f desc data s
  | feedEnd f => exact execFeedEnd_frame f s
  | portSignalDetect p => exact execPortSignalDetect_frame p s
  | portTrainingStep p lanes named => exact execPortTrainingStep_frame p lanes named s
  | portRetrain p cause => exact execPortRetrain_frame p cause s
  | sequencedFrame p => exact execSequencedFrame_frame p s
  | controlFrame p => exact execControlFrame_frame p s
  | controlFrameTimer p => exact execControlFrameTimer_frame p s
  | replayTimeout p => exact execReplayTimeout_frame p s
  | pairHoldTimeout pr => exact execPairHoldTimeout_frame pr s
  | fabricEgress k => exact execFabricEgress_frame k s
  | fabricArrival k => exact execFabricArrival_frame k s
  | fabricAnswer k => exact execFabricAnswer_frame k s
  | fabricGiveUp t => exact execFabricGiveUp_frame t s
  | readReissue t => exact execReadReissue_frame t s
  | timeSampleLoss => exact execTimeSampleLoss_frame s
  | rsCodeword p word => exact execRsCodeword_frame p word s
  | idleFrame p => exact execIdleFrame_frame p s
  | droopStretching q mv => exact execDroopStretching_frame q mv s
  | ftagRelease t => exact execFtagRelease_frame t s
  | ideKm => exact execIdeKm_frame s
  | tapInstruction ir => exact execTapInstruction_frame ir s
  | dynamicAddress addr => exact execDynamicAddress_frame addr s

/-- No command is listed to change the queue. -/
theorem pending_not_mem_touches (c : Instr) : Part.pending ∉ touches c := by
  cases c <;> simp [touches]

/-- Two states that agree outside `ps` have the same queue where `ps` does not hold it. -/
theorem pending_eq_of_hide {ps : List Part} {s t : State} (h : t.hide ps = s.hide ps) (hp : Part.pending ∉ ps) :
    t.pending = s.pending := by
  simpa [State.hide, hp] using congrArg State.pending h

end Sys2Proof.Machine
end

section
open Sys2Proof Sys2Proof.Machine

/-- Settles O59: every command keeps to its frame, and no frame holds the queue. -/
theorem commandFrames : Obligations.CommandFrames := by
  intro c s t h
  have hl : t.hide (touches c) = s.hide (touches c) := exec_leaves c s t h
  exact ⟨hl, pending_eq_of_hide hl (pending_not_mem_touches c)⟩

end

section
/-!
SUPPORT. What a halt keeps. The end of heats, on which a chip halt rests, changes no domain but the time since which its crew idles, no seat's
fuses or weight store, and no pool's contents: `State.units` gathers what is kept, and each shared operation on the way leaves it equal.
-/
namespace Sys2Proof.Machine

/-- What a halt keeps of the domains, the seats and the pools. -/
structure Units where
  /-- A domain, but for the time since which its crew idles. -/
  dom : Nat → Dom
  /-- Whether a seat is disabled and whether it has failed. -/
  fuses : Nat → Bool × Bool
  /-- A seat's weight store. -/
  store : Nat → Mem
  /-- A pool's contents and its dead segments. -/
  pool : Nat → Mem × BitVec 20

def State.units (s : State) : Units where
  dom d := { domOf s d with idleAt := 0 }
  fuses w := ((seatOf s w).disabled, (seatOf s w).failed)
  store w := (seatOf s w).store
  pool h := ((poolOf s h).mem, (poolOf s h).dead)

/-! ## Reading a component through a frame -/

section
variable {ps : List Part} {s t : State} (h : t.hide ps = s.hide ps)
include h

theorem seats_eq_of_hide (hp : Part.seats ∉ ps) : t.seats = s.seats := by
  simpa [State.hide, hp] using congrArg State.seats h

theorem clk_eq_of_hide (hp : Part.clk ∉ ps) : t.clk = s.clk := by
  simpa [State.hide, hp] using congrArg State.clk h

theorem pwr_eq_of_hide (hp : Part.pwr ∉ ps) : t.pwr = s.pwr := by
  simpa [State.hide, hp] using congrArg State.pwr h

theorem glb_eq_of_hide (hp : Part.glb ∉ ps) : t.glb = s.glb := by
  simpa [State.hide, hp] using congrArg State.glb h

theorem sec_eq_of_hide (hp : Part.sec ∉ ps) : t.sec = s.sec := by
  simpa [State.hide, hp] using congrArg State.sec h

theorem noc_eq_of_hide (hp : Part.noc ∉ ps) : t.noc = s.noc := by
  simpa [State.hide, hp] using congrArg State.noc h

theorem pools_eq_of_hide (hp : Part.pools ∉ ps) : t.pools = s.pools := by
  simpa [State.hide, hp] using congrArg State.pools h

theorem chain_eq_of_hide (hp : Part.chain ∉ ps) : t.chain = s.chain := by
  simpa [State.hide, hp] using congrArg State.chain h

theorem pins_eq_of_hide (hp : Part.pins ∉ ps) : t.pins = s.pins := by
  simpa [State.hide, hp] using congrArg State.pins h

end

/-! ## The units through each operation -/

theorem units_congr {s t : State} (hs : t.seats = s.seats) (hc : t.clk = s.clk) (hp : t.pools = s.pools) : t.units = s.units := by
  simp only [State.units, domOf, seatOf, poolOf, hs, hc, hp]

theorem units_eq_of_hide {ps : List Part} {s t : State} (h : t.hide ps = s.hide ps) (hs : Part.seats ∉ ps) (hc : Part.clk ∉ ps)
    (hp : Part.pools ∉ ps) : t.units = s.units :=
  units_congr (seats_eq_of_hide h hs) (clk_eq_of_hide h hc) (pools_eq_of_hide h hp)

theorem units_str (s : State) (x : Str) : State.units { s with str := x } = s.units := rfl

theorem units_str_flt (s : State) (x : Str) (y : Flt) : State.units { s with str := x, flt := y } = s.units := rfl

theorem units_ite (c : Prop) [Decidable c] (a b : State) : (if c then a else b).units = if c then a.units else b.units := by
  split <;> rfl

theorem units_foldl {α : Type} (l : List α) (f : State → α → State) (s : State) (h : ∀ u a, (f u a).units = u.units) :
    (l.foldl f s).units = s.units := by
  induction l generalizing s with
  | nil => rfl
  | cons a l ih => exact (ih _).trans (h s a)

theorem units_modSeat (s : State) (w : Nat) (f : Seat → Seat)
    (hf : ∀ x : Seat, (f x).disabled = x.disabled ∧ (f x).failed = x.failed ∧ (f x).store = x.store) :
    (modSeat s w f).units = s.units := by
  obtain ⟨hd, hl, hm⟩ := hf (seatOf s w)
  unfold State.units
  congr 1 <;> funext v <;> by_cases hv : v = w <;> simp [hv, hd, hl, hm]

theorem units_modWst (s : State) (w : Nat) (f : Wst → Wst) : (modWst s w f).units = s.units :=
  units_modSeat s w _ fun _ => ⟨rfl, rfl, rfl⟩

theorem units_modPool (s : State) (h : Nat) (f : Pool → Pool) (hf : ∀ p : Pool, (f p).mem = p.mem ∧ (f p).dead = p.dead) :
    (modPool s h f).units = s.units := by
  obtain ⟨hm, hd⟩ := hf (poolOf s h)
  unfold State.units
  congr 1
  funext g
  by_cases hg : g = h <;> simp [hg, hm, hd]

theorem units_touchCrew (s : State) (q : Nat) : (touchCrew s q).units = s.units := by
  unfold State.units
  congr 1
  funext d
  by_cases hd : d = q <;> simp [touchCrew, hd]

theorem units_endOnSeats (s : State) (r h : Nat) (seats : List Nat) : (endOnSeats s r h seats).units = s.units := by
  refine units_foldl _ _ _ fun u w => (units_touchCrew _ _).trans (units_modSeat u w _ fun x => ?_)
  unfold endOnSeat
  dsimp only
  split <;> exact ⟨rfl, rfl, rfl⟩

theorem units_releasePages (s : State) (r h : Nat) (seats : List Nat) : (releasePages s r h seats).units = s.units :=
  units_foldl _ _ _ fun u w => units_modSeat u w _ fun _ => ⟨rfl, rfl, rfl⟩

theorem units_retire (s : State) (k : Nat) (epoch : BitVec 16) : (retire s k epoch).units = s.units := by
  unfold retire
  refine (units_foldl _ _ _ fun u h => ?_).trans (units_congr rfl rfl rfl)
  exact (units_str _ _).trans (units_modPool u h _ fun _ => ⟨rfl, rfl⟩)

theorem units_report (s : State) (r : Record) : (report s r).units = s.units := units_congr rfl rfl rfl

theorem units_modHeat (s : State) (r h : Nat) (f : Heat → Heat) : (modHeat s r h f).units = s.units :=
  units_eq_of_hide (ps := [.str]) (modHeat_hide _ _ _ _ (by decide)) (by decide) (by decide) (by decide)

theorem units_postHeat (s : State) (r h cause : Nat) (seq : Word) : (postHeat s r h cause seq).units = s.units :=
  units_eq_of_hide (ps := [.cq]) (postHeat_hide _ _ _ _ _ (by decide)) (by decide) (by decide) (by decide)

theorem units_releaseGen (s : State) (c : Nat) (second : Bool) : (releaseGen s c second).units = s.units :=
  (units_foldl _ _ _ fun u _ => units_modWst u _ _).trans (units_congr rfl rfl rfl)

theorem units_releaseRetired (s : State) (c : Nat) : (releaseRetired s c).units = s.units := by
  unfold releaseRetired
  dsimp only
  repeat' split
  all_goals simp only [units_releaseGen]

theorem units_settleRun (s : State) (r : Nat) : (settleRun s r).units = s.units := by
  unfold settleRun
  split
  · rfl
  split
  · have hg (u : State) (l : List (Nat × Nat)) : (l.foldl (fun s p => releaseRetired s p.1) u).units = u.units :=
      units_foldl _ _ _ fun u p => units_releaseRetired u p.1
    dsimp only
    split
    · refine (units_eq_of_hide (ps := [.cq]) (answerLate_hide _ _ _ _ _ (by decide)) (by decide) (by decide) (by decide)).trans ?_
      exact hg _ _
    · exact hg _ _
  · rfl

theorem units_abortHeat (s : State) (r h cause : Nat) (seq : Word) : (abortHeat s r h cause seq).units = s.units := by
  unfold abortHeat
  split
  · rfl
  split
  · rfl
  simp only [units_settleRun, units_postHeat, units_report, ↓units_ite, ↓units_str_flt, units_modHeat, units_retire,
    units_endOnSeats, ite_self]

theorem units_abandonHeat (s : State) (r h cause pred : Nat) : (abandonHeat s r h cause pred).units = s.units := by
  unfold abandonHeat
  split
  · rfl
  split
  · rfl
  simp only [units_settleRun, units_postHeat, units_report, ↓units_str, units_modHeat, units_releasePages]

theorem units_cancelRuns (s : State) (cause : Nat) : (cancelRuns s cause).units = s.units := by
  refine units_foldl _ _ _ fun u r => ?_
  unfold cancelRun
  split
  · rfl
  · exact (units_foldl _ _ _ fun v h => units_abandonHeat v r h 6 0).trans (units_foldl _ _ _ fun v h => units_abortHeat v r h cause 0)

/-! ## Set bits -/

theorem getLsbD_setBit {w : Nat} (x : BitVec w) (i j : Nat) :
    (setBit x i).getLsbD j = (x.getLsbD j || (decide (j < w) && decide (i = j))) := by
  rw [setBit, BitVec.getLsbD_or, BitVec.getLsbD_ofNat, Nat.one_shiftLeft, Nat.testBit_two_pow]

theorem setBit_eq_self {w : Nat} {x : BitVec w} {i : Nat} (h : x.getLsbD i = true) : setBit x i = x := by
  refine BitVec.eq_of_getLsbD_eq fun j _ => ?_
  rw [getLsbD_setBit]
  by_cases hij : i = j
  · simp [← hij, h]
  · simp [hij]

/-! ## An event and a halt -/

theorem raiseVector_glb (s : State) (v : Nat) : (raiseVector s v).glb = s.glb :=
  glb_eq_of_hide (raiseVector_hide (ps := [.cq]) s v (by decide)) (by decide)

theorem raiseVector_pins (s : State) (v : Nat) : (raiseVector s v).pins = s.pins :=
  pins_eq_of_hide (raiseVector_hide (ps := [.cq]) s v (by decide)) (by decide)

theorem raiseEvent_glb (s : State) (b : Nat) : (raiseEvent s b).glb = { s.glb with events := setBit s.glb.events b } := by
  unfold raiseEvent
  split
  · next h => rw [setBit_eq_self h]
  · dsimp only
    split
    · rfl
    · rw [raiseVector_glb]

theorem raiseEvent_alert (s : State) (b : Nat) : (raiseEvent s b).pins.alert = s.pins.alert := by
  unfold raiseEvent
  split
  · rfl
  · dsimp only
    split
    · rfl
    · rw [raiseVector_pins]

theorem raiseEvent_units (s : State) (b : Nat) : (raiseEvent s b).units = s.units :=
  units_eq_of_hide (ps := [.cq, .glb, .pins]) (raiseEvent_hide s b (by decide) (by decide) (by decide)) (by decide) (by decide)
    (by decide)

/-- What stops in a halt: runs, loads and feeds. -/
theorem stopAllWork_hide (s : State) :
    (stopFeeds (stopLoads (cancelRuns s 21))).hide [.seats, .str, .ctxs, .cq, .clk, .flt, .pools] =
      s.hide [.seats, .str, .ctxs, .cq, .clk, .flt, .pools] := by
  simp (disch := decide) only [stopFeeds_hide, stopLoads_hide, cancelRuns_hide]

theorem stopAllWork_units (s : State) : (stopFeeds (stopLoads (cancelRuns s 21))).units = s.units := by
  refine (units_eq_of_hide (ps := [.ctxs, .cq, .flt]) ?_ (by decide) (by decide) (by decide)).trans (units_cancelRuns s 21)
  simp (disch := decide) only [stopFeeds_hide, stopLoads_hide]

theorem chipHalt_units (s : State) (kind code : Nat) (det : BitVec 128) : (chipHalt s kind code det).units = s.units := by
  unfold chipHalt
  dsimp only
  split
  · exact units_report _ _
  · exact (stopAllWork_units _).trans ((raiseEvent_units _ _).trans (units_congr rfl rfl rfl))

/-- A halt sets GLB's halt bit, and raises no event but bit 2. -/
theorem chipHalt_glb (s : State) (kind code : Nat) (det : BitVec 128) :
    ∃ ev, (chipHalt s kind code det).glb = { s.glb with halted := true, events := ev } ∧
      ∀ i, i ≠ 2 → ev.getLsbD i = s.glb.events.getLsbD i := by
  unfold chipHalt
  dsimp only
  split
  · next h => exact ⟨s.glb.events, by rw [report_glb, ← h], fun _ _ => rfl⟩
  · refine ⟨setBit s.glb.events 2, ?_, fun i hi => ?_⟩
    · rw [glb_eq_of_hide (stopAllWork_hide _) (by decide), raiseEvent_glb]
      rfl
    · simp [getLsbD_setBit, Ne.symm hi]

theorem chipHalt_alert (s : State) (kind code : Nat) (det : BitVec 128) :
    (chipHalt s kind code det).pins.alert = s.pins.alert := by
  unfold chipHalt
  dsimp only
  split
  · rfl
  · rw [pins_eq_of_hide (stopAllWork_hide _) (by decide), raiseEvent_alert]
    rfl

/-- From `s` to `t` the chip has halted and asserted ALERT_N, and GLB differs in the halt bit and the events alone. -/
structure HaltsWithAlert (s t : State) : Prop where
  glb : ∃ ev, t.glb = { s.glb with halted := true, events := ev }
  alert : t.pins.alert = true

theorem haltsWithAlert_raiseAlert (s : State) (kind code : Nat) (det : BitVec 128) (c : Byte) (hold : Bool) :
    HaltsWithAlert s (raiseAlert (chipHalt s kind code det) c hold) := by
  obtain ⟨ev, h, -⟩ := chipHalt_glb s kind code det
  exact ⟨⟨ev, h⟩, rfl⟩

theorem HaltsWithAlert.trans {s t u : State} (h : HaltsWithAlert s t) (k : HaltsWithAlert t u) : HaltsWithAlert s u := by
  obtain ⟨ev, hg⟩ := h.glb
  obtain ⟨ev', kg⟩ := k.glb
  exact ⟨⟨ev', by rw [kg, hg]⟩, k.alert⟩

end Sys2Proof.Machine
end

section
/-!
SUPPORT. Snivan's readiness (16 R490, 14 R438), and folds of steps that each change what they read at their own key.
-/
namespace Sys2Proof.Machine

/-! ## Snivan serves -/

theorem takeLateHalt_units (s : State) : (takeLateHalt s).units = s.units := by
  unfold takeLateHalt
  split
  · exact (chipHalt_units _ _ _ _).trans (units_congr rfl rfl rfl)
  · rfl

theorem takeLateHalt_glb (s : State) :
    ∃ ev, (takeLateHalt s).glb =
        { s.glb with lateHalt := none, halted := s.glb.halted || s.glb.lateHalt.isSome, events := ev } ∧
      ∀ i, i ≠ 2 → ev.getLsbD i = s.glb.events.getLsbD i := by
  unfold takeLateHalt
  split
  · next c h =>
    obtain ⟨ev, hg, he⟩ := chipHalt_glb { s with glb := { s.glb with lateHalt := none } } 5 c.toNat 0
    exact ⟨ev, by rw [hg]; simp [h], he⟩
  · next h =>
    refine ⟨s.glb.events, ?_, fun _ _ => rfl⟩
    rw [h, Option.isSome_none, Bool.or_false, ← h]

theorem takeLateHalt_alert (s : State) : (takeLateHalt s).pins.alert = s.pins.alert := by
  unfold takeLateHalt
  split
  · exact chipHalt_alert _ _ _ _
  · rfl

theorem takeLateHalt_sec (s : State) : (takeLateHalt s).sec = s.sec :=
  sec_eq_of_hide (takeLateHalt_hide (ps := [.seats, .str, .ctxs, .cq, .clk, .flt, .glb, .pools, .pins]) s (by decide) (by decide)
    (by decide) (by decide) (by decide) (by decide) (by decide) (by decide) (by decide)) (by decide)

theorem freshRec_glb (s : State) : (freshRec s).glb = s.glb :=
  glb_eq_of_hide (freshRec_hide (ps := [.sec]) s (by decide)) (by decide)

theorem commitTrial_glb (s : State) : (commitTrial s).glb = { s.glb with trial := false } := by
  unfold commitTrial
  split
  · rfl
  · next h => rw [← Bool.eq_false_of_not_eq_true h]

/-- What a trial that is committed writes into the state record (14 R438). -/
theorem commitTrial_record (s : State) (h : s.glb.trial = true) :
    (commitTrial s).sec.stateRec.trial = false ∧
      (commitTrial s).sec.stateRec.minSvn = max s.sec.stateRec.minSvn s.glb.fwSvn.toNat := by
  rw [commitTrial, if_pos h]
  exact ⟨rfl, rfl⟩

theorem freshRec_minSvn (s : State) : (freshRec s).sec.stateRec.minSvn = s.sec.stateRec.minSvn := by
  unfold freshRec
  split <;> rfl

theorem commitTrial_freshRec_hide (s : State) : (commitTrial (freshRec s)).hide [.glb, .sec] = s.hide [.glb, .sec] := by
  simp (disch := decide) only [commitTrial_hide, freshRec_hide]

theorem serveReady_units (s : State) : (serveReady s).units = s.units :=
  (takeLateHalt_units _).trans
    ((units_eq_of_hide (commitTrial_freshRec_hide _) (by decide) (by decide) (by decide)).trans (units_congr rfl rfl rfl))

theorem serveReady_glb (s : State) :
    ∃ ev, (serveReady s).glb = { s.glb with
          fw := .ready, wdTrial := s.glb.wdTrial && !s.glb.trial, trial := false, lateHalt := none,
          halted := s.glb.halted || s.glb.lateHalt.isSome, events := ev } ∧
      ∀ i, i ≠ 2 → ev.getLsbD i = s.glb.events.getLsbD i := by
  unfold serveReady
  have := takeLateHalt_glb (commitTrial (freshRec { s with glb := { s.glb with fw := .ready, wdTrial := s.glb.wdTrial && !s.glb.trial } }))
  rw [commitTrial_glb, freshRec_glb] at this
  exact this

theorem serveReady_alert (s : State) : (serveReady s).pins.alert = s.pins.alert := by
  unfold serveReady
  rw [takeLateHalt_alert, pins_eq_of_hide (commitTrial_freshRec_hide _) (by decide)]

theorem serveReady_record (s : State) (h : s.glb.trial = true) :
    (serveReady s).sec.stateRec.trial = false ∧
      (serveReady s).sec.stateRec.minSvn = max s.sec.stateRec.minSvn s.glb.fwSvn.toNat := by
  unfold serveReady
  rw [takeLateHalt_sec]
  have ht := commitTrial_record (freshRec { s with glb := { s.glb with fw := .ready, wdTrial := s.glb.wdTrial && !s.glb.trial } })
  rw [freshRec_glb, freshRec_minSvn] at ht
  exact ht h

theorem becomeReady_units (s : State) : (becomeReady s).units = s.units :=
  (raiseEvent_units _ _).trans (serveReady_units s)

theorem becomeReady_glb (s : State) :
    ∃ ev, (becomeReady s).glb = { s.glb with
          fw := .ready, wdTrial := s.glb.wdTrial && !s.glb.trial, trial := false, lateHalt := none,
          halted := s.glb.halted || s.glb.lateHalt.isSome, events := setBit ev 3 } := by
  obtain ⟨ev, h, -⟩ := serveReady_glb s
  exact ⟨ev, by rw [becomeReady, raiseEvent_glb, h]⟩

theorem becomeReady_alert (s : State) : (becomeReady s).pins.alert = s.pins.alert :=
  (raiseEvent_alert _ _).trans (serveReady_alert s)

theorem becomeReady_sec (s : State) : (becomeReady s).sec = (serveReady s).sec :=
  sec_eq_of_hide (raiseEvent_hide (ps := [.cq, .glb, .pins]) _ _ (by decide) (by decide) (by decide)) (by decide)

/-- Start-up has failed in stage `n` (16 R490): Snivan is ready, the chip in weigh-enough and ALERT_N asserted. -/
def FailsAt (t : State) (n : Nat) : Prop :=
  t.glb.startFailed = true ∧ t.glb.fw = .ready ∧ t.glb.stage = n ∧ t.glb.halted = true ∧ t.pins.alert = true

theorem startupFails_failsAt {s t : State} (h : HaltsWithAlert s t) : FailsAt (startupFails t) s.glb.stage := by
  obtain ⟨ev, hg⟩ := h.glb
  obtain ⟨ev', hb⟩ := becomeReady_glb { t with glb := { t.glb with startFailed := true } }
  have hg' : (startupFails t).glb = _ := hb
  have ha : (startupFails t).pins.alert = true := (becomeReady_alert _).trans h.alert
  simp [FailsAt, hg', hg, ha]

theorem startupFails_units (s : State) : (startupFails s).units = s.units :=
  (becomeReady_units _).trans (units_congr rfl rfl rfl)

/-! ## Folds over keys -/

/-- A fold of steps of which each changes what is read at its own key, as `F` says, and nothing at another. -/
theorem get_foldl {γ : Type} (get : State → Nat → γ) (step : State → Nat → State) (F : Nat → γ → γ)
    (hself : ∀ s a, get (step s a) a = F a (get s a)) (hne : ∀ s a b, b ≠ a → get (step s a) b = get s b)
    (hF : ∀ a x, F a (F a x) = F a x) (l : List Nat) (s : State) (b : Nat) :
    get (l.foldl step s) b = if b ∈ l then F b (get s b) else get s b := by
  induction l generalizing s with
  | nil => simp
  | cons a l ih =>
    rw [List.foldl_cons, ih]
    by_cases hb : b = a
    · subst hb
      simp [hself, hF]
    · simp [hne s a b hb, hb]

theorem tget_map {α β : Type} (f : α → β) (d : α) (e : β) (h : f d = e) (t : Tbl α) (i : Nat) :
    tget e (t.map fun p => (p.1, f p.2)) i = f (tget d t i) := by
  unfold tget
  induction t with
  | nil => exact h.symm
  | cons p t ih =>
    obtain ⟨k, v⟩ := p
    by_cases hk : k = i
    · simp [tfind, hk]
    · simpa [tfind, hk] using ih

end Sys2Proof.Machine
end

section
/-!
SUPPORT. The stages of start-up from 2 to 5 (09 R296, 16 R490, R491): rails and clocks, crossings, DRAM training and self-test.
-/
namespace Sys2Proof.Machine

theorem startupAt_iff {s : State} {n : Nat} :
    startupAt s n = true ↔ s.glb.fw = .starting ∧ s.glb.stage = n ∧ s.glb.startFailed = false := by
  simp [startupAt, and_assoc]

theorem toStage_glb (s : State) (n : Nat) : (toStage s n).glb = { s.glb with stage := n } := rfl
@[simp] theorem toStage_seats (s : State) (n : Nat) : (toStage s n).seats = s.seats := rfl
@[simp] theorem toStage_clk (s : State) (n : Nat) : (toStage s n).clk = s.clk := rfl
@[simp] theorem toStage_pwr (s : State) (n : Nat) : (toStage s n).pwr = s.pwr := rfl
@[simp] theorem toStage_noc (s : State) (n : Nat) : (toStage s n).noc = s.noc := rfl
@[simp] theorem seatOf_toStage (s : State) (n w : Nat) : seatOf (toStage s n) w = seatOf s w := rfl
@[simp] theorem poolOf_toStage (s : State) (n h : Nat) : poolOf (toStage s n) h = poolOf s h := rfl
@[simp] theorem domOf_toStage (s : State) (n d : Nat) : domOf (toStage s n) d = domOf s d := rfl
@[simp] theorem domTime_toStage (s : State) (n d : Nat) : domTime (toStage s n) d = domTime s d := rfl
@[simp] theorem latencyOf_toStage (s : State) (n k : Nat) : latencyOf (toStage s n) k = latencyOf s k := rfl

/-! ## Stage 2: rails and clocks -/

theorem domOf_lockDomains (i n : Nat) (s : State) (d : Nat) :
    domOf ((List.range n).foldl (lockDomain i) s) d =
      if d < n then
        { domOf s d with locked := true, stop := .none, frozen := none, step := if d ≤ 96 then i else 0,
                         offset := s.clk.master - BitVec.ofNat 64 s.clk.ticks }
      else domOf s d := by
  have h := get_foldl (fun u d => (domOf u d, u.clk.master, u.clk.ticks)) (lockDomain i)
    (fun d x => ({ x.1 with locked := true, stop := .none, frozen := none, step := if d ≤ 96 then i else 0,
                            offset := x.2.1 - BitVec.ofNat 64 x.2.2 }, x.2))
    (fun u a => by simp [lockDomain]; exact ⟨rfl, rfl⟩) (fun u a b hb => by simp [lockDomain, hb]; exact ⟨rfl, rfl⟩)
    (fun _ _ => rfl) (List.range n) s d
  rw [Prod.ext_iff] at h
  simpa only [List.mem_range, apply_ite Prod.fst] using h.1

theorem ticks_lockDomains (i : Nat) (l : List Nat) (s : State) : (l.foldl (lockDomain i) s).clk.ticks = s.clk.ticks := by
  induction l generalizing s with
  | nil => rfl
  | cons d l ih => exact ih _

theorem lockDomains_hide (i : Nat) (l : List Nat) (s : State) : (l.foldl (lockDomain i) s).hide [.clk] = s.hide [.clk] :=
  hide_foldl _ _ _ fun u d => lockDomain_hide i u d (by decide)

theorem locked_stop_of_units {s t : State} (h : t.units = s.units) (d : Nat) :
    (domOf t d).locked = (domOf s d).locked ∧ (domOf t d).stop = (domOf s d).stop := by
  have hd : ({ domOf t d with idleAt := 0 } : Dom) = { domOf s d with idleAt := 0 } := congrFun (congrArg Units.dom h) d
  exact ⟨congrArg (·.locked) hd, congrArg (·.stop) hd⟩

theorem unlockDomain_units (s : State) (d : Nat) :
    (unlockDomain s d).units = (modDom (stopDomain s d) d fun m => { m with locked := false }).units :=
  (units_congr rfl rfl rfl).trans (chipHalt_units _ _ _ _)

theorem unlockDomain_halts (s : State) (d : Nat) : HaltsWithAlert s (unlockDomain s d) := by
  obtain ⟨⟨ev, hg⟩, ha⟩ := haltsWithAlert_raiseAlert (modDom (stopDomain s d) d fun m => { m with locked := false }) 5 clkUnlockCode
    (detail d (domOf s d).tj.toNat 0 0 0) 6 true
  exact ⟨⟨ev, hg⟩, ha⟩

theorem HaltsWithAlert.unlockDomains {s t : State} (h : HaltsWithAlert s t) (l : List Nat) :
    HaltsWithAlert s (l.foldl unlockDomain t) := by
  induction l generalizing t with
  | nil => exact h
  | cons d l ih => exact ih (h.trans (unlockDomain_halts t d))

theorem unlockDomains_halts (s : State) {l : List Nat} (h : l ≠ []) : HaltsWithAlert s (l.foldl unlockDomain s) := by
  cases l with
  | nil => exact absurd rfl h
  | cons d l => exact (unlockDomain_halts s d).unlockDomains l

/-- A domain whose generator does not lock is left unlocked and stopped (16 R490). -/
theorem unlockDomains_stop (s : State) {l : List Nat} {d : Nat} (h : d ∈ l) :
    (domOf (l.foldl unlockDomain s) d).locked = false ∧ (domOf (l.foldl unlockDomain s) d).stop = .generator := by
  have hu (u : State) (a b : Nat) := locked_stop_of_units (unlockDomain_units u a) b
  have hf := get_foldl (fun u d => ((domOf u d).locked, (domOf u d).stop)) unlockDomain (fun _ _ => (false, .generator))
    (fun u a => by simp [hu u a a, stopDomain]) (fun u a b hb => by simp [hu u a b, stopDomain, hb]) (fun _ _ => rfl) l s d
  rw [if_pos h] at hf
  exact Prod.ext_iff.mp hf

theorem mem_failedDomains {bad : List Nat} {d : Nat} :
    d ∈ ((List.range 98).filter fun d => bad.contains d) ↔ d ∈ bad ∧ d < 98 := by
  simp [and_comm]

/-- The rails are up, at what the index at which start-up runs needs. -/
def railsOn (s : State) : State :=
  { s with pwr := { s.pwr with
    want := [needMv s (startStep s), needMv s (startStep s)], supply := [needMv s (startStep s), needMv s (startStep s)],
    vdd := [needMv s (startStep s), needMv s (startStep s)] } }

/-- Then the generators of domains 0 to 97 run. -/
def clocksUp (s : State) : State := (List.range 98).foldl (lockDomain (startStep s)) (railsOn s)

theorem clocksUp_hide (s : State) : (clocksUp s).hide [.clk] = (railsOn s).hide [.clk] := lockDomains_hide _ _ _

theorem clocksUp_dom (s : State) {d : Nat} (hd : d < 98) :
    (domOf (clocksUp s) d).locked = true ∧ (domOf (clocksUp s) d).stop = .none ∧ domTime (clocksUp s) d = s.clk.master ∧
      (d ≤ 96 → (domOf (clocksUp s) d).step = if s.pwr.limitActive then min 6 s.clk.limit.toNat else 0) := by
  have hdom := domOf_lockDomains (startStep s) 98 (railsOn s) d
  have hticks := ticks_lockDomains (startStep s) (List.range 98) (railsOn s)
  have hd99 : d ≠ 99 := by omega
  rw [if_pos hd] at hdom
  refine ⟨by rw [clocksUp, hdom], by rw [clocksUp, hdom], ?_, fun h96 => ?_⟩
  · rw [domTime, if_neg hd99, clocksUp, hdom, hticks]
    exact BitVec.sub_add_cancel _ _
  · rw [clocksUp, hdom]
    exact if_pos h96

theorem execRailsAndClocks_eq (s : State) (bad : List Nat) (h : startupAt s 2 = true) :
    execRailsAndClocks bad s =
      if ((List.range 98).filter fun d => bad.contains d).isEmpty then .next (toStage (clocksUp s) 3)
      else .next (startupFails (((List.range 98).filter fun d => bad.contains d).foldl unlockDomain (clocksUp s))) := by
  rw [execRailsAndClocks, if_pos h]
  rfl

theorem exec_railsAndClocks_good (s : State) (bad : List Nat) (h : startupAt s 2 = true) (hb : ∀ d ∈ bad, 98 ≤ d) :
    ∃ t, exec (.railsAndClocks bad) s = .next t ∧ t.glb.stage = 3 ∧
      (∀ d, d < 98 → (domOf t d).locked = true ∧ (domOf t d).stop = .none ∧ domTime t d = s.clk.master ∧
        (d ≤ 96 → (domOf t d).step = if s.pwr.limitActive then min 6 s.clk.limit.toNat else 0)) ∧
      t.pwr.supply = [needMv s (startStep s), needMv s (startStep s)] ∧ t.pwr.want = t.pwr.supply ∧ t.pwr.vdd = t.pwr.supply ∧
      t.seats = s.seats := by
  have hnone : ((List.range 98).filter fun d => bad.contains d).isEmpty = true :=
    List.isEmpty_iff.mpr <| List.eq_nil_iff_forall_not_mem.mpr fun d hd => by
      obtain ⟨hmem, hlt⟩ := mem_failedDomains.mp hd
      exact absurd (hb d hmem) (by omega)
  have hpwr : (clocksUp s).pwr = (railsOn s).pwr := pwr_eq_of_hide (clocksUp_hide s) (by decide)
  have hseats : (clocksUp s).seats = (railsOn s).seats := seats_eq_of_hide (clocksUp_hide s) (by decide)
  refine ⟨toStage (clocksUp s) 3, (execRailsAndClocks_eq s bad h).trans (if_pos hnone), rfl, fun d hd => ?_, ?_⟩
  · rw [domOf_toStage, domTime_toStage]
    exact clocksUp_dom s hd
  · rw [toStage_pwr, toStage_seats, hpwr, hseats]
    exact ⟨rfl, rfl, rfl, rfl⟩

theorem exec_railsAndClocks_bad (s : State) (bad : List Nat) (h : startupAt s 2 = true) (hb : ∃ d ∈ bad, d < 98) :
    ∃ t, exec (.railsAndClocks bad) s = .next t ∧ FailsAt t 2 ∧
      ∀ d ∈ bad, d < 98 → (domOf t d).locked = false ∧ (domOf t d).stop = .generator := by
  obtain ⟨d, hmem, hlt⟩ := hb
  have hne : ((List.range 98).filter fun d => bad.contains d) ≠ [] :=
    List.ne_nil_of_mem (mem_failedDomains.mpr ⟨hmem, hlt⟩)
  have hstage : (clocksUp s).glb.stage = 2 := by
    rw [glb_eq_of_hide (clocksUp_hide s) (by decide)]
    exact (startupAt_iff.mp h).2.1
  refine ⟨_, (execRailsAndClocks_eq s bad h).trans (if_neg fun he => hne (List.isEmpty_iff.mp he)),
    hstage ▸ startupFails_failsAt (unlockDomains_halts _ hne), fun e he hlt => ?_⟩
  obtain ⟨hlock, hstop⟩ := locked_stop_of_units
    (startupFails_units (((List.range 98).filter fun d => bad.contains d).foldl unlockDomain (clocksUp s))) e
  obtain ⟨hlock', hstop'⟩ := unlockDomains_stop (clocksUp s) (mem_failedDomains.mpr ⟨he, hlt⟩)
  exact ⟨hlock.trans hlock', hstop.trans hstop'⟩

/-! ## Stage 3: the crossings -/

/-- What a fold that takes the least and the greatest of the values of `f` gives. -/
theorem foldl_range_spec (f : Nat → Nat) (l : List Nat) (r q : Nat × Nat)
    (hq : l.foldl (fun r k => (min r.1 (f k), max r.2 (f k))) r = q) :
    (q.1 ≤ r.1 ∧ r.2 ≤ q.2 ∧ ∀ k ∈ l, q.1 ≤ f k ∧ f k ≤ q.2) ∧
      (q.1 = r.1 ∨ ∃ k ∈ l, f k = q.1) ∧ (q.2 = r.2 ∨ ∃ k ∈ l, f k = q.2) := by
  induction l generalizing r with
  | nil => subst hq; simp
  | cons a l ih =>
    obtain ⟨⟨h1, h2, hl⟩, h3, h4⟩ := ih _ hq
    dsimp only at h1 h2 h3 h4
    simp only [List.mem_cons, forall_eq_or_imp, exists_eq_or_imp]
    refine ⟨⟨h1.trans (min_le_left _ _), (le_max_left _ _).trans h2,
      ⟨h1.trans (min_le_right _ _), (le_max_right _ _).trans h2⟩, hl⟩, ?_, ?_⟩
    · rcases h3 with h3 | h3
      · exact (min_choice r.1 (f a)).imp h3.trans fun h => .inl (h3.trans h).symm
      · exact .inr (.inr h3)
    · rcases h4 with h4 | h4
      · exact (max_choice r.2 (f a)).imp h4.trans fun h => .inl (h4.trans h).symm
      · exact .inr (.inr h4)

/-- The router of seat 18 has a crossing to the south. -/
theorem fifos_ne_nil : fifos ≠ [] :=
  List.ne_nil_of_mem (a := 16 * 18 + 2) (by
    simp only [fifos, List.mem_flatMap, List.mem_map, List.mem_range, List.mem_filter]
    exact ⟨18, by decide, 2, by decide, rfl⟩)

theorem headD_fifos_mem : fifos.headD 0 ∈ fifos := by
  obtain ⟨k, l, h⟩ := List.exists_cons_of_ne_nil fifos_ne_nil
  rw [h]
  exact List.mem_cons_self

theorem latencyRange_eq_foldl (s : State) :
    latencyRange s = fifos.foldl (fun r k => (min r.1 (latencyOf s k), max r.2 (latencyOf s k))) (latencyOf s (fifos.headD 0), 0) := by
  simp only [latencyRange]

/-- The range of the crossings' latencies holds each of them, and its ends are two of them (09 R296). -/
theorem latencyRange_spec (s : State) :
    (∀ k ∈ fifos, (latencyRange s).1 ≤ latencyOf s k ∧ latencyOf s k ≤ (latencyRange s).2) ∧
      (∃ k ∈ fifos, latencyOf s k = (latencyRange s).1) ∧ ∃ k ∈ fifos, latencyOf s k = (latencyRange s).2 := by
  obtain ⟨⟨-, -, hl⟩, hmin, hmax⟩ := foldl_range_spec (latencyOf s) fifos _ _ (latencyRange_eq_foldl s).symm
  refine ⟨hl, ?_, ?_⟩
  · rcases hmin with hmin | hmin
    · exact ⟨_, headD_fifos_mem, hmin.symm⟩
    · exact hmin
  · rcases hmax with hmax | hmax
    · exact ⟨_, headD_fifos_mem, le_antisymm (hl _ headD_fifos_mem).2 (hmax.le.trans (Nat.zero_le _))⟩
    · exact hmax

theorem latencyRange_good_iff (s : State) :
    (3 ≤ (latencyRange s).1 ∧ (latencyRange s).2 ≤ 6) ↔ ∀ k ∈ fifos, 3 ≤ latencyOf s k ∧ latencyOf s k ≤ 6 := by
  obtain ⟨hl, ⟨a, ha, hmin⟩, ⟨b, hb, hmax⟩⟩ := latencyRange_spec s
  constructor
  · intro h k hk
    have := hl k hk
    omega
  · intro h
    have := h a ha
    have := h b hb
    omega

/-- The latencies of the crossings are `base` and `lats`. -/
def measured (s : State) (base : Nat) (lats : Tbl Nat) : State := { s with noc := { s.noc with latBase := base, lat := lats } }

/-- They are read, with their range. -/
def calibrated (s : State) (base : Nat) (lats : Tbl Nat) : State :=
  { s with noc := { s.noc with
    latBase := base, lat := lats, minLat := (latencyRange (measured s base lats)).1,
    maxLat := (latencyRange (measured s base lats)).2, xing := [] } }

theorem latencyOf_measured (s : State) (base : Nat) (lats : Tbl Nat) (k : Nat) : latencyOf (measured s base lats) k = tget base lats k := rfl

theorem latencyOf_calibrated (s : State) (base : Nat) (lats : Tbl Nat) (k : Nat) :
    latencyOf (calibrated s base lats) k = tget base lats k := rfl

theorem calibrated_minLat (s : State) (base : Nat) (lats : Tbl Nat) :
    (calibrated s base lats).noc.minLat = (latencyRange (measured s base lats)).1 := by
  simp only [calibrated]

theorem calibrated_maxLat (s : State) (base : Nat) (lats : Tbl Nat) :
    (calibrated s base lats).noc.maxLat = (latencyRange (measured s base lats)).2 := by
  simp only [calibrated]

theorem calibrated_hide (s : State) (base : Nat) (lats : Tbl Nat) : (calibrated s base lats).hide [.noc] = s.hide [.noc] := by
  rw [calibrated]
  exact hide_noc s _ (by decide)

/-- A crossing outside 3 to 6 cycles counts as a clock that is not locked. -/
def crossingAlert (s : State) (d : DomIx) (u : State) : State :=
  raiseAlert (chipHalt u 5 clkUnlockCode (detail d.val (domOf s d.val).tj.toNat 0 0 0)) 6 true

theorem execCrossingCalibration_eq (s : State) (base : Nat) (lats : Tbl Nat) (d : DomIx) (h : startupAt s 3 = true) :
    execCrossingCalibration base lats d s =
      if 3 ≤ (latencyRange (measured s base lats)).1 ∧ (latencyRange (measured s base lats)).2 ≤ 6 then
        .next (toStage (calibrated s base lats) 4)
      else .next (startupFails (crossingAlert s d (calibrated s base lats))) := by
  rw [execCrossingCalibration, if_pos h]
  rfl

theorem exec_crossingCalibration_calibrated (s : State) (base : Nat) (lats : Tbl Nat) (d : DomIx) (h : startupAt s 3 = true)
    (hg : ∀ k ∈ fifos, 3 ≤ tget base lats k ∧ tget base lats k ≤ 6) :
    exec (.crossingCalibration base lats d) s = .next (toStage (calibrated s base lats) 4) := by
  have hgood := (latencyRange_good_iff (measured s base lats)).mpr fun k hk => by
    rw [latencyOf_measured]
    exact hg k hk
  show execCrossingCalibration base lats d s = _
  rw [execCrossingCalibration_eq s base lats d h, if_pos hgood]

theorem calibrated_range (s : State) (base : Nat) (lats : Tbl Nat) :
    (∀ k ∈ fifos, (calibrated s base lats).noc.minLat ≤ tget base lats k ∧ tget base lats k ≤ (calibrated s base lats).noc.maxLat) ∧
      (∃ k ∈ fifos, tget base lats k = (calibrated s base lats).noc.minLat) ∧
        ∃ k ∈ fifos, tget base lats k = (calibrated s base lats).noc.maxLat := by
  have h := latencyRange_spec (measured s base lats)
  rw [calibrated_minLat, calibrated_maxLat]
  simpa only [latencyOf_measured] using h

theorem exec_crossingCalibration_good (s : State) (base : Nat) (lats : Tbl Nat) (d : DomIx) (h : startupAt s 3 = true)
    (hg : ∀ k ∈ fifos, 3 ≤ tget base lats k ∧ tget base lats k ≤ 6) :
    ∃ t, exec (.crossingCalibration base lats d) s = .next t ∧ t.glb = { s.glb with stage := 4 } ∧
      (∀ k, latencyOf t k = tget base lats k) ∧ (∀ k ∈ fifos, t.noc.minLat ≤ latencyOf t k ∧ latencyOf t k ≤ t.noc.maxLat) ∧
      (∃ k ∈ fifos, latencyOf t k = t.noc.minLat) ∧ (∃ k ∈ fifos, latencyOf t k = t.noc.maxLat) ∧ t.seats = s.seats ∧
      t.clk = s.clk := by
  have hrun := exec_crossingCalibration_calibrated s base lats d h hg
  obtain ⟨hl, hmin, hmax⟩ := calibrated_range s base lats
  have hlat := latencyOf_calibrated s base lats
  have hhide := calibrated_hide s base lats
  generalize calibrated s base lats = x at *
  refine ⟨toStage x 4, hrun, ?_, ?_⟩
  · rw [toStage_glb, glb_eq_of_hide hhide (by decide)]
  · have hlat' (k : Nat) : latencyOf (toStage x 4) k = tget base lats k := (latencyOf_toStage x 4 k).trans (hlat k)
    have hnoc := toStage_noc x 4
    simp only [hlat', hnoc]
    exact ⟨fun _ => trivial, hl, hmin, hmax, (toStage_seats x 4).trans (seats_eq_of_hide hhide (by decide)),
      (toStage_clk x 4).trans (clk_eq_of_hide hhide (by decide))⟩

theorem exec_crossingCalibration_bad (s : State) (base : Nat) (lats : Tbl Nat) (d : DomIx) (h : startupAt s 3 = true)
    (hg : ∃ k ∈ fifos, ¬ (3 ≤ tget base lats k ∧ tget base lats k ≤ 6)) :
    ∃ t, exec (.crossingCalibration base lats d) s = .next t ∧ FailsAt t 3 ∧ ∀ e, (domOf t e).stop = (domOf s e).stop := by
  obtain ⟨k, hk, hn⟩ := hg
  have hbad : ¬ (3 ≤ (latencyRange (measured s base lats)).1 ∧ (latencyRange (measured s base lats)).2 ≤ 6) :=
    fun hr => hn (by
      have hk' := (latencyRange_good_iff (measured s base lats)).mp hr k hk
      rwa [latencyOf_measured] at hk')
  have hstage : (calibrated s base lats).glb.stage = 3 := by
    rw [glb_eq_of_hide (calibrated_hide s base lats) (by decide)]
    exact (startupAt_iff.mp h).2.1
  refine ⟨startupFails (crossingAlert s d (calibrated s base lats)), ?_,
    hstage ▸ startupFails_failsAt (haltsWithAlert_raiseAlert (calibrated s base lats) _ _ _ _ _), fun e => ?_⟩
  · show execCrossingCalibration base lats d s = _
    rw [execCrossingCalibration_eq s base lats d h, if_neg hbad]
  · have hu : (crossingAlert s d (calibrated s base lats)).units = (calibrated s base lats).units :=
      (units_congr rfl rfl rfl).trans (chipHalt_units _ _ _ _)
    have hc : (calibrated s base lats).units = s.units :=
      units_eq_of_hide (calibrated_hide s base lats) (by decide) (by decide) (by decide)
    exact (locked_stop_of_units ((startupFails_units _).trans (hu.trans hc)) e).2

/-! ## Stages 4 and 5: DRAM training and self-test -/

theorem seatOf_markFailed (s : State) (bad : List Nat) {w : Nat} (hw : w < 2304) :
    seatOf (markFailed s bad) w = { seatOf s w with failed := (seatOf s w).failed || bad.contains w } := by
  have h := get_foldl seatOf (fun s w => modSeat s w fun x => { x with failed := true }) (fun _ x => { x with failed := true })
    (fun u a => seatOf_modSeat_self u a _) (fun u a b hb => seatOf_modSeat_ne u _ hb) (fun _ _ => rfl)
    ((List.range 2304).filter fun w => bad.contains w) s w
  rw [markFailed, h]
  cases hb : bad.contains w
  · simp only [List.mem_filter, hb, Bool.false_eq_true, and_false, if_false, Bool.or_false]
  · simp only [List.mem_filter, List.mem_range, hw, hb, and_self, if_true, Bool.or_true]

theorem segmentDead_dead (s : State) (h g i j : Nat) (hj : j < 20) :
    (poolOf (segmentDead s h g) i).dead.getLsbD j = ((poolOf s i).dead.getLsbD j || (decide (i = h) && decide (g = j))) := by
  by_cases hi : i = h
  · rw [hi, segmentDead, poolOf_modPool_self, getLsbD_setBit]
    simp only [hj, decide_true]
  · rw [segmentDead, poolOf_modPool_ne _ _ hi]
    simp only [hi, decide_false, Bool.false_and, Bool.or_false]

theorem segmentsDead_hide (s : State) (l : List Nat) :
    (l.foldl (fun s k => segmentDead s (k / 20) (k % 20)) s).hide [.pools] = s.hide [.pools] :=
  hide_foldl _ _ _ fun u k => segmentDead_hide u _ _ (by decide)

theorem segmentsDead_dead (s : State) (l : List Nat) (k : Nat) :
    (poolOf (l.foldl (fun s k => segmentDead s (k / 20) (k % 20)) s) (k / 20)).dead.getLsbD (k % 20) =
      ((poolOf s (k / 20)).dead.getLsbD (k % 20) || decide (k ∈ l)) := by
  have h := get_foldl (fun u k => (poolOf u (k / 20)).dead.getLsbD (k % 20)) (fun s k => segmentDead s (k / 20) (k % 20))
    (fun _ _ => true)
    (fun u a => by
      simp only [segmentDead_dead _ _ _ _ _ (Nat.mod_lt a (by decide : 0 < 20)), decide_true, Bool.and_self, Bool.or_true])
    (fun u a b hb => by
      have hk : (decide (b / 20 = a / 20) && decide (a % 20 = b % 20)) = false := by simp; omega
      simp only [segmentDead_dead _ _ _ _ _ (Nat.mod_lt b (by decide : 0 < 20)), hk, Bool.or_false])
    (fun _ _ => rfl) l s k
  rw [h]
  by_cases hk : k ∈ l <;> simp [hk]

theorem exec_dramTraining (s : State) (bad : List Nat) (h : startupAt s 4 = true) :
    ∃ t, exec (.dramTraining bad) s = .next t ∧ t.glb.stage = 5 ∧
      (∀ w, w < 2304 → (seatOf t w).failed = ((seatOf s w).failed || bad.contains w)) ∧
      ∀ h g, h < 2 → g < 20 → (poolOf t h).dead.getLsbD g = ((poolOf s h).dead.getLsbD g || bad.contains (2304 + 20 * h + g)) := by
  refine ⟨toStage (((List.range 40).filter fun k => bad.contains (2304 + k)).foldl
    (fun s k => segmentDead s (k / 20) (k % 20)) (markFailed s bad)) 5, ?_, rfl, fun w hw => ?_, fun n g hn hg => ?_⟩
  · show execDramTraining bad s = _
    rw [execDramTraining, if_pos h]
  · have hs := seats_eq_of_hide (segmentsDead_hide (markFailed s bad) ((List.range 40).filter fun k => bad.contains (2304 + k)))
      (by decide)
    have hw' := seatOf_markFailed s bad hw
    simp only [seatOf, toStage_seats, hs] at hw' ⊢
    rw [hw']
  · have hd := segmentsDead_dead (markFailed s bad) ((List.range 40).filter fun k => bad.contains (2304 + k)) (20 * n + g)
    have hdiv : (20 * n + g) / 20 = n := by omega
    have hmod : (20 * n + g) % 20 = g := by omega
    have hp : (markFailed s bad).pools = s.pools := pools_eq_of_hide (markFailed_hide (ps := [.seats]) s bad (by decide)) (by decide)
    have hlt : 20 * n + g < 40 := by omega
    rw [hdiv, hmod] at hd
    have hm (i : Nat) : poolOf (markFailed s bad) i = poolOf s i := by rw [poolOf, poolOf, hp]
    rw [poolOf_toStage, hd, hm]
    simp [hlt, Nat.add_assoc]

theorem exec_seatSelfTest (s : State) (bad : List Nat) (h : startupAt s 5 = true) :
    ∃ t, exec (.seatSelfTest bad) s = .next t ∧ t.glb.stage = 6 ∧
      ∀ w, w < 2304 → (seatOf t w).failed = ((seatOf s w).failed || bad.contains w) ∧ (seatOf t w).core = [] ∧ (seatOf t w).desc = [] ∧
        (seatOf t w).lnd.ctr = [] ∧ (seatOf t w).vec.opc = [] := by
  refine ⟨toStage (markFailed { s with seats := s.seats.map fun p => (p.1, p.2.tested) } bad) 6, ?_, rfl, fun w hw => ?_⟩
  · show execSeatSelfTest bad s = _
    rw [execSeatSelfTest, if_pos h]
  · have hm := seatOf_markFailed { s with seats := s.seats.map fun p => (p.1, p.2.tested) } bad hw
    have ht : seatOf { s with seats := s.seats.map fun p => (p.1, p.2.tested) } w = (seatOf s w).tested :=
      tget_map Seat.tested {} {} rfl s.seats w
    rw [seatOf_toStage, hm, ht]
    exact ⟨rfl, rfl, rfl, rfl, rfl⟩

end Sys2Proof.Machine
end

section
/-!
SUPPORT. Stage 6 (14 R440, 00 R3): weight stores and pools are filled with zeros and the grade record is applied. What `applyGrade` keeps of the
units, what it writes into the crews' maps, and the state in which stage 6 ends.
-/
namespace Sys2Proof.Machine

/-! ## Disabled seats -/

theorem seatOf_disableSeats (s : State) (keep : Nat → List Nat) {w : Nat} (hw : w < 2304) :
    seatOf (disableSeats s keep) w =
      { seatOf s w with disabled := (seatOf s w).disabled || !(keep (w / 24)).contains (w % 24) } := by
  have h := get_foldl seatOf (fun s w => modSeat s w fun x => { x with disabled := true }) (fun _ x => { x with disabled := true })
    (fun u a => seatOf_modSeat_self u a _) (fun u a b hb => seatOf_modSeat_ne u _ hb) (fun _ _ => rfl)
    ((List.range 2304).filter fun w => !(keep (w / 24)).contains (w % 24)) s w
  rw [disableSeats, h]
  cases hk : (keep (w / 24)).contains (w % 24)
  · simp only [List.mem_filter, List.mem_range, hw, hk, Bool.not_false, and_self, if_true, Bool.or_true]
  · simp only [List.mem_filter, hk, Bool.not_true, Bool.false_eq_true, and_false, if_false, Bool.or_false]

theorem store_disableSeats (s : State) (keep : Nat → List Nat) (w : Nat) : (seatOf (disableSeats s keep) w).store = (seatOf s w).store := by
  have h := get_foldl (fun u w => (seatOf u w).store) (fun s w => modSeat s w fun x => { x with disabled := true }) (fun _ x => x)
    (fun u a => by rw [seatOf_modSeat_self]) (fun u a b hb => by rw [seatOf_modSeat_ne u _ hb]) (fun _ _ => rfl)
    ((List.range 2304).filter fun w => !(keep (w / 24)).contains (w % 24)) s w
  rwa [ite_self] at h

theorem store_of_units {s t : State} (h : t.units = s.units) (w : Nat) : (seatOf t w).store = (seatOf s w).store :=
  congrFun (congrArg Units.store h) w

theorem mem_of_units {s t : State} (h : t.units = s.units) (n : Nat) : (poolOf t n).mem = (poolOf s n).mem :=
  congrArg Prod.fst (congrFun (congrArg Units.pool h) n)

theorem disabled_of_units {s t : State} (h : t.units = s.units) (w : Nat) : (seatOf t w).disabled = (seatOf s w).disabled :=
  congrArg Prod.fst (congrFun (congrArg Units.fuses h) w)

theorem failed_of_units {s t : State} (h : t.units = s.units) (w : Nat) : (seatOf t w).failed = (seatOf s w).failed :=
  congrArg Prod.snd (congrFun (congrArg Units.fuses h) w)

/-! ## Fences -/

theorem fenceOne_units (s : State) (w : Nat) : (fenceOne s w).units = s.units := by
  unfold fenceOne
  dsimp only
  split
  · exact (units_report _ _).trans ((units_abortHeat _ _ _ _ _).trans (units_congr rfl rfl rfl))
  · exact (units_report _ _).trans (units_congr rfl rfl rfl)

theorem fenceOne_noc (s : State) (w : Nat) :
    (fenceOne s w).noc = (modMap s (crewOf w) fun m => { m with fenced := setBit m.fenced (w % 24), due := true }).noc := by
  unfold fenceOne
  dsimp only
  split
  · rw [report_noc]
    exact noc_eq_of_hide (ps := [.seats, .str, .ctxs, .cq, .clk, .flt, .pools])
      (abortHeat_hide _ _ _ _ _ (by decide) (by decide) (by decide) (by decide) (by decide) (by decide) (by decide)) (by decide)
  · rw [report_noc]

theorem mapOf_of_noc {s t : State} (h : t.noc = s.noc) (q : Nat) : mapOf t q = mapOf s q := by
  rw [mapOf, mapOf, h]

theorem seatFenced_of_noc {s t : State} (h : t.noc = s.noc) (w : Nat) : seatFenced t w = seatFenced s w := by
  rw [seatFenced, seatFenced, mapOf_of_noc h]

theorem seatFenced_fenceOne_self (s : State) (w : Nat) : seatFenced (fenceOne s w) w = true := by
  rw [seatFenced_of_noc (fenceOne_noc s w), seatFenced, mapOf_modMap_self, getLsbD_setBit]
  simp [Nat.mod_lt]

theorem seatFenced_fenceOne_ne (s : State) {w v : Nat} (h : v ≠ w) : seatFenced (fenceOne s w) v = seatFenced s v := by
  rw [seatFenced_of_noc (fenceOne_noc s w), seatFenced, seatFenced]
  by_cases hq : crewOf v = crewOf w
  · have hbit : w % 24 ≠ v % 24 := by
      unfold crewOf at hq
      omega
    rw [hq, mapOf_modMap_self, getLsbD_setBit, decide_eq_false hbit, Bool.and_false, Bool.or_false]
  · rw [mapOf_modMap_ne _ _ hq]

theorem recordFence_units (s : State) (w cause : Nat) : (recordFence s w cause).units = s.units :=
  units_eq_of_hide (ps := [.sec, .free]) (recordFence_hide _ _ _ (by decide) (by decide)) (by decide) (by decide) (by decide)

theorem recordFence_noc (s : State) (w cause : Nat) : (recordFence s w cause).noc = s.noc :=
  noc_eq_of_hide (ps := [.sec, .free]) (recordFence_hide _ _ _ (by decide) (by decide)) (by decide)

theorem fenceFailed_units (s : State) (w : Nat) : (fenceFailed s w).units = s.units := by
  unfold fenceFailed
  split
  · exact (recordFence_units _ _ _).trans ((fenceOne_units _ _).trans (units_report _ _))
  · rfl

/-- After the fence of a failed seat, a seat that has failed and is not disabled is fenced. -/
theorem seatFenced_fenceFailed_self (s : State) (w : Nat) :
    seatFenced (fenceFailed s w) w = (seatFenced s w || ((seatOf s w).failed && !(seatOf s w).disabled)) := by
  unfold fenceFailed
  split
  · next h =>
    obtain ⟨hf, hn⟩ := h
    rw [fenceNeedless, Bool.or_eq_false_iff] at hn
    rw [seatFenced_of_noc (recordFence_noc _ _ _), seatFenced_fenceOne_self]
    simp [hf, hn.1]
  · next h =>
    cases hf : (seatOf s w).failed <;> cases hd : (seatOf s w).disabled <;> simp [hf, hd, fenceNeedless] at h ⊢
    exact h

theorem seatFenced_fenceFailed_ne (s : State) {w v : Nat} (h : v ≠ w) : seatFenced (fenceFailed s w) v = seatFenced s v := by
  unfold fenceFailed
  split
  · rw [seatFenced_of_noc (recordFence_noc _ _ _), seatFenced_fenceOne_ne _ h]
    exact seatFenced_of_noc (report_noc _ _) v
  · rfl

theorem mem_keys_of_failed {s : State} {w : Nat} (h : (seatOf s w).failed = true) : w ∈ s.seats.map (·.1) := by
  by_contra hn
  have hnone (t : Tbl Seat) (ht : w ∉ t.map (·.1)) : tfind t w = none := by
    induction t with
    | nil => rfl
    | cons p t ih =>
      obtain ⟨k, v⟩ := p
      simp only [List.map_cons, List.mem_cons, not_or] at ht
      rw [tfind, if_neg (Ne.symm ht.1), ih ht.2]
  rw [seatOf, tget, hnone _ hn] at h
  exact Bool.false_ne_true h

theorem fenceFaileds_units (s : State) (l : List Nat) : (l.foldl fenceFailed s).units = s.units :=
  units_foldl _ _ _ fenceFailed_units

/-- Once every seat has been looked at, a failed seat is disabled or fenced (16 R490). -/
theorem seatFenced_fenceFaileds (s : State) {w : Nat} (hf : (seatOf s w).failed = true) (hd : (seatOf s w).disabled = false) :
    seatFenced ((s.seats.map (·.1)).foldl fenceFailed s) w = true := by
  have h := get_foldl (fun u w => (u.units.fuses w, seatFenced u w)) fenceFailed (fun _ x => (x.1, x.2 || (x.1.2 && !x.1.1)))
    (fun u a => Prod.ext (congrFun (congrArg Units.fuses (fenceFailed_units u a)) a) (seatFenced_fenceFailed_self u a))
    (fun u a b hb => Prod.ext (congrFun (congrArg Units.fuses (fenceFailed_units u a)) b) (seatFenced_fenceFailed_ne u hb))
    (fun _ x => by simp) (s.seats.map (·.1)) s w
  rw [if_pos (mem_keys_of_failed hf)] at h
  have h2 := congrArg Prod.snd h
  simpa [State.units, hf, hd] using h2

/-! ## The maps -/

theorem crewSeats_congr {s t : State} (hu : t.units = s.units) {q : Nat} (hm : (mapOf t q).fenced = (mapOf s q).fenced) :
    crewSeats t q = crewSeats s q := by
  unfold crewSeats
  simp only [disabled_of_units hu, hm]

theorem crewSeats_modMap (s : State) (q p : Nat) (f : CrewMap → CrewMap) (hf : ∀ m, (f m).fenced = m.fenced) :
    crewSeats (modMap s q f) p = crewSeats s p := by
  refine crewSeats_congr (s := s) (t := modMap s q f) (units_congr rfl rfl rfl) ?_
  by_cases hp : p = q
  · rw [hp, mapOf_modMap_self, hf]
  · rw [mapOf_modMap_ne _ _ hp]

theorem mapOf_foldl_phys (l : List Nat) (s : State) (q : Nat) :
    mapOf (l.foldl (fun s q => modMap s q fun m => { m with phys := crewSeats s q, due := false }) s) q =
      if q ∈ l then { mapOf s q with phys := crewSeats s q, due := false } else mapOf s q := by
  have h := get_foldl (fun u q => (mapOf u q, crewSeats u q))
    (fun s q => modMap s q fun m => { m with phys := crewSeats s q, due := false })
    (fun _ x => ({ x.1 with phys := x.2, due := false }, x.2))
    (fun u a => Prod.ext (mapOf_modMap_self u a _) (crewSeats_modMap u a a _ fun _ => rfl))
    (fun u a b hb => Prod.ext (mapOf_modMap_ne u _ hb) (crewSeats_modMap u a b _ fun _ => rfl)) (fun _ _ => rfl) l s q
  rw [Prod.ext_iff] at h
  simpa only [apply_ite Prod.fst] using h.1

theorem mapOf_writeMap (s : State) {q : Nat} (hq : q < 96) : mapOf (writeMap s) q = { mapOf s q with phys := crewSeats s q, due := false } := by
  rw [writeMap, mapOf_foldl_phys, if_pos (List.mem_range.mpr hq)]

theorem writeMap_units (s : State) : (writeMap s).units = s.units :=
  units_eq_of_hide (ps := [.noc]) (writeMap_hide s (by decide)) (by decide) (by decide) (by decide)

theorem phys_writeMap (s : State) {q : Nat} (hq : q < 96) : (mapOf (writeMap s) q).phys = crewSeats (writeMap s) q := by
  rw [crewSeats_congr (writeMap_units s) (by rw [mapOf_writeMap s hq]), mapOf_writeMap s hq]

theorem crewOf_lt {w : Nat} (hw : w < 2304) : crewOf w < 96 := Nat.div_lt_of_lt_mul hw

theorem seatFenced_writeMap (s : State) {w : Nat} (hw : w < 2304) : seatFenced (writeMap s) w = seatFenced s w := by
  rw [seatFenced, seatFenced, mapOf_writeMap s (crewOf_lt hw)]

/-! ## The grade record -/

/-- GLB names the grade `g`, valid or not. -/
def withGrade (s : State) (g : Byte) (v : Bool) : State := { s with glb := { s.glb with grade := g, gradeValid := v } }

theorem length_recSeats {s : State} (h : gradePasses s = true) {q : Nat} (hq : q < 96) :
    (recSeats s q).length = gradeSeats (recGrade s) := by
  rw [gradePasses, Bool.and_eq_true, List.all_eq_true] at h
  refine le_antisymm ?_ (of_decide_eq_true (h.2 q (List.mem_range.mpr hq)))
  rw [recSeats, List.length_take]
  exact min_le_left _ _

/-- The state in which the seats that the record leaves out are disabled and the recorded fences stand. -/
def recordApplied (s : State) : State :=
  applyFences (disableSeats (withGrade s (BitVec.ofNat 8 (recGrade s)) true) (recSeats s))

/-- What failed the self-test is then fenced. -/
def failedFenced (s : State) : State := ((recordApplied s).seats.map (·.1)).foldl fenceFailed (recordApplied s)

theorem applyGrade_good {s : State} (h : gradePasses s = true) : applyGrade s = writeMap (failedFenced s) := by
  rw [applyGrade, if_pos h]
  rfl

theorem applyGrade_bad {s : State} (h : gradePasses s = false) : applyGrade s = disableSeats (withGrade s 0xFF false) fun _ => [] := by
  rw [applyGrade, if_neg (Bool.eq_false_iff.mp h)]
  rfl

theorem applyFences_units (s : State) : (applyFences s).units = s.units :=
  units_eq_of_hide (ps := [.flt, .noc]) (applyFences_hide s (by decide) (by decide)) (by decide) (by decide) (by decide)

theorem recordApplied_units (s : State) :
    (recordApplied s).units = (disableSeats (withGrade s (BitVec.ofNat 8 (recGrade s)) true) (recSeats s)).units :=
  applyFences_units _

theorem applyGrade_units_good {s : State} (h : gradePasses s = true) :
    (applyGrade s).units = (disableSeats (withGrade s (BitVec.ofNat 8 (recGrade s)) true) (recSeats s)).units := by
  rw [applyGrade_good h, writeMap_units, failedFenced, fenceFaileds_units, recordApplied_units]

theorem seatOf_withGrade (s : State) (g : Byte) (v : Bool) (w : Nat) : seatOf (withGrade s g v) w = seatOf s w := rfl

/-- The grade record disables the seats that it does not keep, and enables none. -/
theorem disabled_applyGrade_good {s : State} (h : gradePasses s = true) {w : Nat} (hw : w < 2304) :
    (seatOf (applyGrade s) w).disabled = ((seatOf s w).disabled || !(recSeats s (w / 24)).contains (w % 24)) := by
  rw [disabled_of_units (applyGrade_units_good h), seatOf_disableSeats _ _ hw, seatOf_withGrade]

theorem disabled_applyGrade_bad {s : State} (h : gradePasses s = false) {w : Nat} (hw : w < 2304) :
    (seatOf (applyGrade s) w).disabled = true := by
  rw [applyGrade_bad h, seatOf_disableSeats _ _ hw]
  exact Bool.or_true _

theorem fenced_applyGrade {s : State} (h : gradePasses s = true) {w : Nat} (hw : w < 2304) (hf : (seatOf s w).failed = true)
    (hd : (seatOf (applyGrade s) w).disabled = false) : seatFenced (applyGrade s) w = true := by
  have hf' : (seatOf (recordApplied s) w).failed = true := by
    rw [failed_of_units (recordApplied_units s), seatOf_disableSeats _ _ hw]
    exact hf
  rw [disabled_of_units ((applyGrade_units_good h).trans (recordApplied_units s).symm)] at hd
  rw [applyGrade_good h, seatFenced_writeMap _ hw]
  exact seatFenced_fenceFaileds _ hf' hd

theorem phys_applyGrade {s : State} (h : gradePasses s = true) {q : Nat} (hq : q < 96) :
    (mapOf (applyGrade s) q).phys = crewSeats (applyGrade s) q := by
  rw [applyGrade_good h, phys_writeMap _ hq]

theorem store_applyGrade (s : State) (w : Nat) : (seatOf (applyGrade s) w).store = (seatOf s w).store := by
  cases h : gradePasses s
  · rw [applyGrade_bad h, store_disableSeats, seatOf_withGrade]
  · rw [store_of_units (applyGrade_units_good h), store_disableSeats, seatOf_withGrade]

theorem disableSeats_pools (s : State) (keep : Nat → List Nat) : (disableSeats s keep).pools = s.pools :=
  pools_eq_of_hide (ps := [.seats]) (disableSeats_hide s keep (by decide)) (by decide)

theorem mem_applyGrade (s : State) (n : Nat) : (poolOf (applyGrade s) n).mem = (poolOf s n).mem := by
  cases h : gradePasses s
  · rw [applyGrade_bad h, poolOf, disableSeats_pools]
    rfl
  · rw [mem_of_units (applyGrade_units_good h), poolOf, disableSeats_pools]
    rfl

theorem disableSeats_glb (s : State) (keep : Nat → List Nat) : (disableSeats s keep).glb = s.glb :=
  glb_eq_of_hide (ps := [.seats]) (disableSeats_hide s keep (by decide)) (by decide)

theorem failedFenced_hide (s : State) :
    (failedFenced s).hide [.seats, .str, .ctxs, .cq, .clk, .flt, .sec, .noc, .pools, .free] =
      (withGrade s (BitVec.ofNat 8 (recGrade s)) true).hide [.seats, .str, .ctxs, .cq, .clk, .flt, .sec, .noc, .pools, .free] := by
  refine (hide_foldl _ _ _ fun u w => fenceFailed_hide u w (by decide) (by decide) (by decide) (by decide) (by decide) (by decide)
    (by decide) (by decide) (by decide) (by decide)).trans ?_
  exact (applyFences_hide _ (by decide) (by decide)).trans (disableSeats_hide _ _ (by decide))

theorem applyGrade_glb_good {s : State} (h : gradePasses s = true) :
    (applyGrade s).glb = { s.glb with grade := BitVec.ofNat 8 (recGrade s), gradeValid := true } := by
  rw [applyGrade_good h, glb_eq_of_hide (ps := [.noc]) (writeMap_hide _ (by decide)) (by decide),
    glb_eq_of_hide (failedFenced_hide s) (by decide)]
  rfl

theorem applyGrade_glb_bad {s : State} (h : gradePasses s = false) :
    (applyGrade s).glb = { s.glb with grade := 0xFF, gradeValid := false } := by
  rw [applyGrade_bad h, disableSeats_glb]
  rfl

theorem applyGrade_events (s : State) : (applyGrade s).glb.events = s.glb.events := by
  cases h : gradePasses s
  · rw [applyGrade_glb_bad h]
  · rw [applyGrade_glb_good h]

theorem applyGrade_chain (s : State) : (applyGrade s).chain = s.chain :=
  chain_eq_of_hide (ps := [.seats, .str, .ctxs, .cq, .clk, .flt, .glb, .sec, .noc, .pools, .free])
    (applyGrade_hide s (by decide) (by decide) (by decide) (by decide) (by decide) (by decide) (by decide) (by decide) (by decide)
      (by decide) (by decide)) (by decide)

/-! ## The end of stage 6 -/

/-- The weight stores and the pools are zero. -/
def zeroFilled (s : State) : State :=
  { s with seats := s.seats.map fun p => (p.1, { p.2 with store := [] }), pools := s.pools.map fun p => (p.1, { p.2 with mem := [] }) }

theorem seatOf_zeroFilled (s : State) (w : Nat) : seatOf (zeroFilled s) w = { seatOf s w with store := [] } := by
  have h := tget_map (fun x : Seat => { x with store := [] }) {} {} rfl s.seats w
  exact h

theorem poolOf_zeroFilled (s : State) (n : Nat) : poolOf (zeroFilled s) n = { poolOf s n with mem := [] } := by
  have h := tget_map (fun x : Pool => { x with mem := [] }) {} {} rfl s.pools n
  exact h

theorem gradePasses_zeroFilled (s : State) : gradePasses (zeroFilled s) = gradePasses s := rfl

theorem recSeats_zeroFilled (s : State) (q : Nat) : recSeats (zeroFilled s) q = recSeats s q := rfl

/-- The grade applied, and the rails at what the slowest domain of each half needs. -/
def graded (s : State) : State :=
  [0, 1].foldl (fun t h => setRail t h (needMv t (lowestSoft t h))) (applyGrade (zeroFilled s))

theorem graded_hide (s : State) : (graded s).hide [.pwr] = (applyGrade (zeroFilled s)).hide [.pwr] :=
  hide_foldl _ _ _ fun u h => setRail_hide u h _ (by decide)

/-- Snivan serves, in stage 7. -/
def servedAfterGrade (s : State) : State := serveReady (toStage (graded s) 7)

/-- The end of stage 6: the chain's head takes node 0 and begins to train its ports. -/
def gradeEnd (s : State) : State := if s.chain.head then takeNode (servedAfterGrade s) 0 else servedAfterGrade s

theorem servedAfterGrade_hide (s : State) :
    (servedAfterGrade s).hide [.seats, .str, .ctxs, .cq, .clk, .flt, .glb, .sec, .pools, .pins, .pwr] =
      (applyGrade (zeroFilled s)).hide [.seats, .str, .ctxs, .cq, .clk, .flt, .glb, .sec, .pools, .pins, .pwr] := by
  refine (serveReady_hide (toStage (graded s) 7) (by decide) (by decide) (by decide) (by decide) (by decide) (by decide) (by decide)
    (by decide) (by decide) (by decide)).trans ?_
  refine (hide_glb (graded s) _ (by decide)).trans (hide_foldl _ _ _ fun u h => setRail_hide u h _ (by decide))

theorem servedAfterGrade_units (s : State) : (servedAfterGrade s).units = (applyGrade (zeroFilled s)).units :=
  (serveReady_units _).trans ((units_congr (s := graded s) (t := toStage (graded s) 7) rfl rfl rfl).trans
    (units_eq_of_hide (graded_hide s) (by decide) (by decide) (by decide)))

theorem servedAfterGrade_chain (s : State) : (servedAfterGrade s).chain = s.chain :=
  (chain_eq_of_hide (servedAfterGrade_hide s) (by decide)).trans (applyGrade_chain (zeroFilled s))

theorem servedAfterGrade_glb (s : State) :
    (servedAfterGrade s).glb.fw = .ready ∧ (servedAfterGrade s).glb.stage = 7 ∧
      (servedAfterGrade s).glb.grade = (applyGrade (zeroFilled s)).glb.grade ∧
      (servedAfterGrade s).glb.gradeValid = (applyGrade (zeroFilled s)).glb.gradeValid ∧
      (servedAfterGrade s).glb.events.getLsbD 3 = s.glb.events.getLsbD 3 := by
  obtain ⟨ev, hg, hev⟩ := serveReady_glb (toStage (graded s) 7)
  have hgraded : (graded s).glb = (applyGrade (zeroFilled s)).glb := glb_eq_of_hide (graded_hide s) (by decide)
  rw [servedAfterGrade, hg, hev 3 (by decide), toStage_glb, hgraded]
  exact ⟨rfl, rfl, rfl, rfl, congrArg (·.getLsbD 3) (applyGrade_events (zeroFilled s))⟩

theorem trainPorts_hide (s : State) (f : Port → Port) : ((List.range 12).foldl (fun s p => modPort s p f) s).hide [.fab] = s.hide [.fab] :=
  hide_foldl _ _ _ fun u p => modPort_hide u p f (by decide)

theorem takeNode_glb (s : State) (v : Nat) : (takeNode s v).glb = { s.glb with stage := 8, stageTick := s.clk.ticks } := by
  rw [takeNode, enterTraining, glb_eq_of_hide (trainPorts_hide _ _) (by decide)]

theorem takeNode_chain (s : State) (v : Nat) : (takeNode s v).chain = { s.chain with node := v, valid := true } := by
  rw [takeNode, enterTraining, chain_eq_of_hide (trainPorts_hide _ _) (by decide)]

theorem takeNode_hide_self (s : State) (v : Nat) : (takeNode s v).hide [.glb, .fab, .chain] = s.hide [.glb, .fab, .chain] :=
  takeNode_hide s v (by decide) (by decide) (by decide)

theorem gradeEnd_units (s : State) : (gradeEnd s).units = (applyGrade (zeroFilled s)).units := by
  rw [← servedAfterGrade_units, gradeEnd]
  split
  · exact units_eq_of_hide (takeNode_hide_self _ 0) (by decide) (by decide) (by decide)
  · rfl

theorem gradeEnd_noc (s : State) : (gradeEnd s).noc = (applyGrade (zeroFilled s)).noc := by
  rw [← noc_eq_of_hide (servedAfterGrade_hide s) (by decide), gradeEnd]
  split
  · exact noc_eq_of_hide (takeNode_hide_self _ 0) (by decide)
  · rfl

theorem gradeEnd_glb (s : State) :
    (gradeEnd s).glb.fw = .ready ∧ (gradeEnd s).glb.grade = (applyGrade (zeroFilled s)).glb.grade ∧
      (gradeEnd s).glb.gradeValid = (applyGrade (zeroFilled s)).glb.gradeValid ∧
      (gradeEnd s).glb.events.getLsbD 3 = s.glb.events.getLsbD 3 := by
  obtain ⟨hfw, -, hgrade, hvalid, hev⟩ := servedAfterGrade_glb s
  rw [gradeEnd]
  split
  · rw [takeNode_glb]
    exact ⟨hfw, hgrade, hvalid, hev⟩
  · exact ⟨hfw, hgrade, hvalid, hev⟩

theorem gradeEnd_head {s : State} (h : s.chain.head = true) :
    (gradeEnd s).glb.stage = 8 ∧ (gradeEnd s).chain.node = 0 ∧ (gradeEnd s).chain.valid = true := by
  rw [gradeEnd, if_pos h, takeNode_glb, takeNode_chain]
  exact ⟨rfl, rfl, rfl⟩

theorem gradeEnd_stage {s : State} (h : s.chain.head = false) : (gradeEnd s).glb.stage = 7 := by
  rw [gradeEnd, if_neg (Bool.eq_false_iff.mp h)]
  exact (servedAfterGrade_glb s).2.1

theorem exec_fillAndGrade_eq {s : State} (h : startupAt s 6 = true) : exec .fillAndGrade s = .next (gradeEnd s) := by
  have hend : gradeEnd s = if (servedAfterGrade s).chain.head then takeNode (servedAfterGrade s) 0 else servedAfterGrade s := by
    rw [servedAfterGrade_chain, gradeEnd]
  show execFillAndGrade s = _
  rw [execFillAndGrade, if_pos h, hend]
  rfl

/-- The stores and the pools after stage 6 hold zeros. -/
theorem gradeEnd_zero (s : State) : (∀ w, (seatOf (gradeEnd s) w).store = []) ∧ ∀ n, (poolOf (gradeEnd s) n).mem = [] := by
  refine ⟨fun w => ?_, fun n => ?_⟩
  · rw [store_of_units (gradeEnd_units s), store_applyGrade, seatOf_zeroFilled]
  · rw [mem_of_units (gradeEnd_units s), mem_applyGrade, poolOf_zeroFilled]

theorem gradeEnd_good {s : State} (h : gradePasses s = true) :
    (gradeEnd s).glb.gradeValid = true ∧ (gradeEnd s).glb.grade = BitVec.ofNat 8 (recGrade s) ∧
      (∀ q, q < 96 → (recSeats s q).length = gradeSeats (recGrade s) ∧ (mapOf (gradeEnd s) q).phys = crewSeats (gradeEnd s) q) ∧
      ∀ w, w < 2304 →
        ((seatOf (gradeEnd s) w).disabled = ((seatOf s w).disabled || !(recSeats s (w / 24)).contains (w % 24))) ∧
          ((seatOf s w).failed = true → (seatOf (gradeEnd s) w).disabled = false → seatFenced (gradeEnd s) w = true) := by
  obtain ⟨-, hgrade, hvalid, -⟩ := gradeEnd_glb s
  have hz : gradePasses (zeroFilled s) = true := (gradePasses_zeroFilled s).trans h
  have hu := gradeEnd_units s
  have hn := gradeEnd_noc s
  rw [applyGrade_glb_good hz] at hgrade hvalid
  refine ⟨hvalid, hgrade, fun q hq => ⟨length_recSeats h hq, ?_⟩, fun w hw => ⟨?_, fun hf hd => ?_⟩⟩
  · rw [crewSeats_congr hu (congrArg CrewMap.fenced (mapOf_of_noc hn q)), mapOf_of_noc hn]
    exact phys_applyGrade hz hq
  · rw [disabled_of_units hu, disabled_applyGrade_good hz hw, seatOf_zeroFilled, recSeats_zeroFilled]
  · rw [disabled_of_units hu] at hd
    rw [seatFenced_of_noc hn]
    exact fenced_applyGrade hz hw (by rw [seatOf_zeroFilled]; exact hf) hd

theorem gradeEnd_bad {s : State} (h : gradePasses s = false) :
    (gradeEnd s).glb.gradeValid = false ∧ (gradeEnd s).glb.grade = 0xFF ∧ ∀ w, w < 2304 → (seatOf (gradeEnd s) w).disabled = true := by
  obtain ⟨-, hgrade, hvalid, -⟩ := gradeEnd_glb s
  have hz : gradePasses (zeroFilled s) = false := (gradePasses_zeroFilled s).trans h
  rw [applyGrade_glb_bad hz] at hgrade hvalid
  refine ⟨hvalid, hgrade, fun w hw => ?_⟩
  rw [disabled_of_units (gradeEnd_units s), disabled_applyGrade_bad hz hw]

end Sys2Proof.Machine
end

section
/-!
SUPPORT. Stage 8, Snivan's readiness, and the commands outside their stage; then O47.
-/
namespace Sys2Proof.Machine

/-! ## Stage 8: the fabric's training ends -/

theorem lowerRail_eq (s : State) (h : Nat) :
    ∃ want supply, lowerRail s h = { s with pwr := { s.pwr with want := want, supply := supply } } := by
  unfold lowerRail
  dsimp only
  split
  · exact ⟨_, _, rfl⟩
  · exact ⟨s.pwr.want, s.pwr.supply, rfl⟩

theorem lowerRails_eq (s : State) :
    lowerRails s = { s with pwr := { s.pwr with want := (lowerRails s).pwr.want, supply := (lowerRails s).pwr.supply } } := by
  obtain ⟨want, supply, h⟩ := lowerRail_eq s 0
  obtain ⟨want', supply', h'⟩ := lowerRail_eq (lowerRail s 0) 1
  rw [lowerRails, h', h]

theorem allSettled_iff {s : State} : (List.range 12).all (portSettled s) = true ↔ ∀ p, p < 12 → portSettled s p = true := by
  simp only [List.all_eq_true, List.mem_range]

theorem exec_fabricTrainingEnd_settled {s : State} (h : s.glb.stage = 8) (hp : ∀ p, p < 12 → portSettled s p = true) :
    ∃ t, exec .fabricTrainingEnd s = .next t ∧
      t = { s with glb := { s.glb with stage := 9, ready := true, readyTime := s.clk.master.setWidth 32 },
                   pwr := { s.pwr with want := t.pwr.want, supply := t.pwr.supply } } := by
  refine ⟨lowerRails { s with glb := { s.glb with stage := 9, ready := true, readyTime := s.clk.master.setWidth 32 } }, ?_,
    lowerRails_eq _⟩
  show execFabricTrainingEnd s = _
  rw [execFabricTrainingEnd, if_pos ⟨h, allSettled_iff.mpr hp⟩]

theorem exec_fabricTrainingEnd_unmet {s : State} (h : ¬ (s.glb.stage = 8 ∧ ∀ p, p < 12 → portSettled s p = true)) :
    exec .fabricTrainingEnd s = .next s := by
  show execFabricTrainingEnd s = _
  rw [execFabricTrainingEnd, if_neg fun hc => h ⟨hc.1, allSettled_iff.mp hc.2⟩]

/-! ## Snivan becomes ready -/

theorem exec_snivanReady_starting {s : State} (hfw : s.glb.fw = .starting) (h7 : 7 ≤ s.glb.stage) :
    exec .snivanReady s = .next (becomeReady s) := by
  show execSnivanReady s = _
  rw [execSnivanReady, if_pos ⟨hfw, .inl h7⟩]

theorem exec_snivanReady_unmet {s : State} (hfw : s.glb.fw ≠ .starting) : exec .snivanReady s = .next s := by
  show execSnivanReady s = _
  rw [execSnivanReady, if_neg fun hc => hfw hc.1]

theorem becomeReady_record {s : State} (h : s.glb.trial = true) :
    (becomeReady s).sec.stateRec.trial = false ∧
      (becomeReady s).sec.stateRec.minSvn = max s.sec.stateRec.minSvn s.glb.fwSvn.toNat := by
  rw [becomeReady_sec]
  exact serveReady_record s h

/-- What a later readiness leaves in GLB: event bit 3, no trial, and a halt that waited is taken (00 R13). -/
theorem becomeReady_serves (s : State) :
    (becomeReady s).glb.fw = .ready ∧ (becomeReady s).glb.events.getLsbD 3 = true ∧ (becomeReady s).glb.trial = false ∧
      ∀ c, s.glb.lateHalt = some c → (becomeReady s).glb.halted = true ∧ (becomeReady s).glb.lateHalt = none := by
  obtain ⟨ev, hg⟩ := becomeReady_glb s
  rw [hg]
  refine ⟨rfl, ?_, rfl, fun c hc => ⟨?_, rfl⟩⟩
  · simp [getLsbD_setBit]
  · simp [hc]

/-! ## A command outside its stage -/

theorem exec_outside_stage (s : State) (bad : List Nat) (base : Nat) (lats : Tbl Nat) (d : DomIx) :
    (startupAt s 2 = false → exec (.railsAndClocks bad) s = .next s) ∧
      (startupAt s 3 = false → exec (.crossingCalibration base lats d) s = .next s) ∧
      (startupAt s 4 = false → exec (.dramTraining bad) s = .next s) ∧
      (startupAt s 5 = false → exec (.seatSelfTest bad) s = .next s) ∧ (startupAt s 6 = false → exec .fillAndGrade s = .next s) := by
  refine ⟨fun h => ?_, fun h => ?_, fun h => ?_, fun h => ?_, fun h => ?_⟩
  · show execRailsAndClocks bad s = _
    rw [execRailsAndClocks, if_neg (Bool.eq_false_iff.mp h)]
  · show execCrossingCalibration base lats d s = _
    rw [execCrossingCalibration, if_neg (Bool.eq_false_iff.mp h)]
  · show execDramTraining bad s = _
    rw [execDramTraining, if_neg (Bool.eq_false_iff.mp h)]
  · show execSeatSelfTest bad s = _
    rw [execSeatSelfTest, if_neg (Bool.eq_false_iff.mp h)]
  · show execFillAndGrade s = _
    rw [execFillAndGrade, if_neg (Bool.eq_false_iff.mp h)]

end Sys2Proof.Machine
end

section
open Sys2Proof Sys2Proof.Machine

/-- Settles O47: one lemma for each stage's command and each way it can end, over the state in which the command leaves the part. -/
theorem startupStages : Obligations.StartupStages := by
  unfold Obligations.StartupStages
  intro s
  dsimp only
  refine ⟨fun h bad => ⟨exec_railsAndClocks_good s bad h, exec_railsAndClocks_bad s bad h⟩,
    fun h base lats d => ⟨exec_crossingCalibration_good s base lats d h, exec_crossingCalibration_bad s base lats d h⟩,
    fun h bad => exec_dramTraining s bad h, fun h bad => exec_seatSelfTest s bad h, fun h => ?_, fun h => ⟨?_, ?_⟩,
    fun bad base lats d => ?_, fun hfw h7 => ?_, exec_snivanReady_unmet⟩
  · obtain ⟨hstore, hmem⟩ := gradeEnd_zero s
    obtain ⟨hfw, -, -, hev⟩ := gradeEnd_glb s
    exact ⟨gradeEnd s, exec_fillAndGrade_eq h, hfw, hstore, hmem, gradeEnd_good, gradeEnd_bad, hev.trans, gradeEnd_head, gradeEnd_stage⟩
  · exact exec_fabricTrainingEnd_settled h
  · rintro ⟨p, hp, hn⟩
    exact exec_fabricTrainingEnd_unmet fun hc => Bool.eq_false_iff.mp hn (hc.2 p hp)
  · obtain ⟨h2, h3, h4, h5, h6⟩ := exec_outside_stage s bad base lats d
    exact ⟨h2, h3, h4, h5, h6, fun h8 => exec_fabricTrainingEnd_unmet fun hc => h8 hc.1⟩
  · obtain ⟨hready, hev, htrial, hlate⟩ := becomeReady_serves s
    exact ⟨becomeReady s, exec_snivanReady_starting hfw h7, hready, hev, htrial, becomeReady_record, hlate⟩

end

section
/-!
SUPPORT. Bit fields of packed numbers, rows that a shared gate admits, and components read through a frame.
-/
namespace Sys2Proof.Machine
open Host (Outcome)

/-! ## Fields of a packed number -/

theorem testBit_fld (x lo w i : Nat) : (fld x lo w).testBit i = (decide (i < w) && x.testBit (lo + i)) := by
  rw [fld, Nat.testBit_mod_two_pow, Nat.testBit_shiftRight]

theorem fld_lt (x lo w : Nat) : fld x lo w < 2 ^ w := Nat.mod_lt _ (Nat.two_pow_pos w)

/-- A field inside the lowest `n` bits is read as well from them alone. -/
theorem fld_mod_two_pow {n lo w : Nat} (x : Nat) (h : lo + w ≤ n) : fld (x % 2 ^ n) lo w = fld x lo w := by
  refine Nat.eq_of_testBit_eq fun i => ?_
  rw [testBit_fld, testBit_fld, Nat.testBit_mod_two_pow]
  by_cases hi : i < w
  · simp [hi, show lo + i < n by omega]
  · simp [hi]

/-- A field inside a bit vector of a number is the number's. -/
theorem fld_toNat_ofNat {n lo w : Nat} (x : Nat) (h : lo + w ≤ n) : fld (BitVec.ofNat n x).toNat lo w = fld x lo w := by
  rw [BitVec.toNat_ofNat, fld_mod_two_pow x h]

theorem fld_fld {x lo w lo' w' : Nat} (h : lo' + w' ≤ w) : fld (fld x lo w) lo' w' = fld x (lo + lo') w' := by
  refine Nat.eq_of_testBit_eq fun i => ?_
  simp only [testBit_fld, Nat.add_assoc]
  by_cases hi : i < w'
  · simp [hi, show lo' + i < w by omega]
  · simp [hi]

/-- A number's first field, where no later one meets it. -/
theorem fld_pack_self {lo w v : Nat} {t : List (Nat × Nat × Nat)} (h : fld (pack t) lo w = 0) :
    fld (pack ((lo, w, v) :: t)) lo w = v % 2 ^ w := by
  refine Nat.eq_of_testBit_eq fun i => ?_
  have ht : (fld (pack t) lo w).testBit i = false := by rw [h, Nat.zero_testBit]
  rw [testBit_fld] at ht ⊢
  rw [pack, Nat.testBit_or, Nat.testBit_shiftLeft, Nat.testBit_mod_two_pow, Nat.testBit_mod_two_pow]
  by_cases hi : i < w
  · simp_all
  · simp [hi]

/-- A field beside a number's first one lies in the rest. -/
theorem fld_pack_ne {lo w v lo' w' : Nat} {t : List (Nat × Nat × Nat)} (h : lo + w ≤ lo' ∨ lo' + w' ≤ lo) :
    fld (pack ((lo, w, v) :: t)) lo' w' = fld (pack t) lo' w' := by
  refine Nat.eq_of_testBit_eq fun i => ?_
  rw [testBit_fld, testBit_fld, pack, Nat.testBit_or, Nat.testBit_shiftLeft, Nat.testBit_mod_two_pow]
  by_cases hi : i < w'
  · have : ¬ (lo ≤ lo' + i ∧ lo' + i - lo < w) := by omega
    by_cases hl : lo ≤ lo' + i
    · simp [show ¬ lo' + i - lo < w by omega]
    · simp [hl]
  · simp [hi]

@[simp] theorem fld_pack_nil (lo w : Nat) : fld (pack []) lo w = 0 := by simp [pack, fld]

/-! ## Rows -/

section
variable {s : State} {src op : Nat} {f : Nat → State}

theorem commandRow_of {c : Nat} (h : commandOf s src op = some c) : commandRow s src op f = .next (f c) := by
  rw [commandRow, h]

theorem lateRow_begins {c : Nat} (h : commandOf s src op = some c) : lateRow s src op f = .next (beginBg s src c) := by
  rw [lateRow, h]

theorem lateRow_completes {c : Nat} (h : commandOf s src op = none) (hb : bgOf s src op = some c) :
    lateRow s src op f = .next (f c) := by
  rw [lateRow, h, hb]

theorem fw_of_commandOf {c : Nat} (h : commandOf s src op = some c) : s.glb.fw = .ready := by
  unfold commandOf at h
  split at h
  · next hr => exact hr.1
  · cases h

theorem opcode_of_commandOf {c : Nat} (h : commandOf s src op = some c) : cOpcode c = op := by
  unfold commandOf at h
  split at h
  · split at h
    · split at h
      · next ho => exact Option.some.inj h ▸ ho
      · cases h
    · cases h
  · cases h

end

/-! ## Components through a frame -/

section
variable {ps : List Part} {s t : State} (h : t.hide ps = s.hide ps)
include h

theorem str_eq_of_hide (hp : Part.str ∉ ps) : t.str = s.str := by
  simpa [State.hide, hp] using congrArg State.str h

theorem ctxs_eq_of_hide (hp : Part.ctxs ∉ ps) : t.ctxs = s.ctxs := by
  simpa [State.hide, hp] using congrArg State.ctxs h

theorem cq_eq_of_hide (hp : Part.cq ∉ ps) : t.cq = s.cq := by
  simpa [State.hide, hp] using congrArg State.cq h

theorem flt_eq_of_hide (hp : Part.flt ∉ ps) : t.flt = s.flt := by
  simpa [State.hide, hp] using congrArg State.flt h

theorem fab_eq_of_hide (hp : Part.fab ∉ ps) : t.fab = s.fab := by
  simpa [State.hide, hp] using congrArg State.fab h

theorem hostMem_eq_of_hide (hp : Part.hostMem ∉ ps) : t.hostMem = s.hostMem := by
  simpa [State.hide, hp] using congrArg State.hostMem h

end

theorem heatOf_congr {s t : State} (h : t.str = s.str) (r i : Nat) : heatOf t r i = heatOf s r i := by
  rw [heatOf, heatOf, runOf, runOf, h]

theorem getElem?_modAt_self {α : Type} (f : α → α) (l : List α) (i : Nat) : (modAt f l i)[i]? = l[i]?.map f := by
  induction l generalizing i with
  | nil => simp [modAt]
  | cons x xs ih =>
    cases i with
    | zero => rfl
    | succ i => simpa [modAt] using ih i

theorem getElem?_modAt_ne {α : Type} (f : α → α) (l : List α) {i j : Nat} (h : j ≠ i) : (modAt f l i)[j]? = l[j]? := by
  induction l generalizing i j with
  | nil => simp [modAt]
  | cons x xs ih =>
    cases i with
    | zero => cases j with
      | zero => exact absurd rfl h
      | succ j => rfl
    | succ i => cases j with
      | zero => rfl
      | succ j => simpa [modAt] using ih (by omega)

theorem runOf_modRun_self (s : State) (r : Nat) (f : Run → Run) : runOf (modRun s r f) r = (runOf s r).map f := by
  unfold modRun
  split
  · next x h => rw [h]; exact tfind_tput_self _ _ _
  · next h => rw [h]; rfl

theorem runOf_modRun_ne (s : State) {r q : Nat} (f : Run → Run) (h : q ≠ r) : runOf (modRun s r f) q = runOf s q := by
  unfold modRun
  split
  · exact tfind_tput_ne _ _ h
  · rfl

theorem heatOf_modHeat_self (s : State) (r h : Nat) (f : Heat → Heat) : heatOf (modHeat s r h f) r h = (heatOf s r h).map f := by
  rw [heatOf, modHeat, runOf_modRun_self, heatOf]
  cases runOf s r with
  | none => rfl
  | some x => exact getElem?_modAt_self f x.heats h

end Sys2Proof.Machine
end

section
/-!
SUPPORT. The chip log (15 R458, R459): what the arbiter writes when it accepts a record, and the records that a read returns.
-/
namespace Sys2Proof.Machine
open Host (Outcome)

/-! ## A record is accepted -/

theorem fillHold_flt (s : State) (r : Record) (n : Word) : ∃ hs, (fillHold s r n).flt = { s.flt with holds := hs } := by
  unfold fillHold
  split
  · exact ⟨_, rfl⟩
  · exact ⟨s.flt.holds, rfl⟩

/-- The state once a record has been numbered and its events raised, before the seat, the heat and the hold that it names are told. -/
def logged (s : State) (r : Record) : State :=
  let n := nextSeq s.flt.lastSeq
  let old := logSlot s n.toNat
  let over_ := old.seq != 0 && seqAfter old.seq s.flt.ackSeq
  let s2 := raiseEvent { s with flt := { s.flt with
    lastSeq := n, log := tput s.flt.log (n.toNat % 1024) { r with seq := n },
    overrun := if over_ then satInc s.flt.overrun else s.flt.overrun } } 0
  let s3 := if over_ then raiseEvent s2 1 else s2
  if r.code = 0x201 then raiseEvent s3 4 else s3

theorem acceptRecord_eq (s : State) (r : Record) :
    acceptRecord s r = fillHold (chargeHeat (numberSeat (logged s r) r (nextSeq s.flt.lastSeq)) r (nextSeq s.flt.lastSeq)) r
      (nextSeq s.flt.lastSeq) := rfl

theorem raiseEvent_flt (s : State) (b : Nat) : (raiseEvent s b).flt = s.flt :=
  flt_eq_of_hide (raiseEvent_hide (ps := [.cq, .glb, .pins]) s b (by decide) (by decide) (by decide)) (by decide)

theorem raiseEvent_str (s : State) (b : Nat) : (raiseEvent s b).str = s.str :=
  str_eq_of_hide (raiseEvent_hide (ps := [.cq, .glb, .pins]) s b (by decide) (by decide) (by decide)) (by decide)

/-- An event that has been raised stays so when another is. -/
theorem raiseEvent_events_mono (s : State) (b i : Nat) (h : s.glb.events.getLsbD i = true) :
    (raiseEvent s b).glb.events.getLsbD i = true := by
  rw [raiseEvent_glb]
  simp [getLsbD_setBit, h]

theorem logged_flt (s : State) (r : Record) :
    let n := nextSeq s.flt.lastSeq
    let old := logSlot s n.toNat
    (logged s r).flt = { s.flt with
      lastSeq := n, log := tput s.flt.log (n.toNat % 1024) { r with seq := n },
      overrun := if old.seq != 0 && seqAfter old.seq s.flt.ackSeq then satInc s.flt.overrun else s.flt.overrun } := by
  unfold logged
  dsimp only
  split <;> split <;> simp only [raiseEvent_flt]

theorem logged_str (s : State) (r : Record) : (logged s r).str = s.str := by
  unfold logged
  dsimp only
  split <;> split <;> simp only [raiseEvent_str]

theorem logged_event (s : State) (r : Record) : (logged s r).glb.events.getLsbD 0 = true := by
  have h0 (u : State) : (raiseEvent u 0).glb.events.getLsbD 0 = true := by
    rw [raiseEvent_glb]
    simp [getLsbD_setBit]
  unfold logged
  dsimp only
  split <;> split <;> simp only [raiseEvent_events_mono, h0]

theorem acceptRecord_flt (s : State) (r : Record) : ∃ hs, (acceptRecord s r).flt = { (logged s r).flt with holds := hs } := by
  obtain ⟨hs, h⟩ := fillHold_flt (chargeHeat (numberSeat (logged s r) r (nextSeq s.flt.lastSeq)) r (nextSeq s.flt.lastSeq)) r
    (nextSeq s.flt.lastSeq)
  refine ⟨hs, h.trans ?_⟩
  rw [flt_eq_of_hide (chargeHeat_hide (ps := [.str]) _ r _ (by decide)) (by decide),
    flt_eq_of_hide (numberSeat_hide (ps := [.seats]) _ r _ (by decide)) (by decide)]

theorem acceptRecord_event (s : State) (r : Record) : (acceptRecord s r).glb.events.getLsbD 0 = true := by
  rw [acceptRecord_eq, glb_eq_of_hide (fillHold_hide (ps := [.flt]) _ r _ (by decide)) (by decide),
    glb_eq_of_hide (chargeHeat_hide (ps := [.str]) _ r _ (by decide)) (by decide),
    glb_eq_of_hide (numberSeat_hide (ps := [.seats]) _ r _ (by decide)) (by decide)]
  exact logged_event s r

/-- The dispatched heat that a seat's record is charged to is to be aborted, and the first number to arrive is the cause (15 R468). -/
theorem acceptRecord_heat (s : State) (r : Record) (x : Heat) (hk : r.kind = 0 ∨ r.kind = 2) (hh : r.heat ≠ 0xFFFF)
    (hx : heatOf s r.run.toNat r.heat.toNat = some x) (hp : x.phase = .dispatched) (he : x.epoch = r.epoch) (ha : x.abortReq = none) :
    heatOf (acceptRecord s r) r.run.toNat r.heat.toNat = some { x with abortReq := some (16, nextSeq s.flt.lastSeq) } := by
  rw [acceptRecord_eq, heatOf_congr (str_eq_of_hide (fillHold_hide (ps := [.flt]) _ r _ (by decide)) (by decide)), chargeHeat,
    if_pos ⟨hk, hh⟩, heatOf_modHeat_self,
    heatOf_congr (str_eq_of_hide (numberSeat_hide (ps := [.seats]) _ r _ (by decide)) (by decide)), heatOf_congr (logged_str s r), hx,
    Option.map_some, if_pos ⟨hp, he, ha⟩]

/-! ## The records of a read -/

theorem nextSeq_prevSeq {n : Word} (h : n ≠ 0) : nextSeq (prevSeq n) = n := by
  unfold prevSeq nextSeq
  by_cases hn : n ≤ 1
  · have h1 : n = 1 := by bv_omega
    subst h1
    rfl
  · have hp : n - 1 ≠ 0xFFFFFFFF := by bv_omega
    rw [if_neg hn, if_neg hp, BitVec.sub_add_cancel]

theorem logHas_slot {s : State} {n : Word} (h : logHas s n = true) : n ≠ 0 ∧ (logSlot s n.toNat).seq = n := by
  simpa [logHas] using h

/-- The records that the log holds end with the number that the read back begins at. -/
theorem heldFrom_getLast? (s : State) (k : Nat) (n : Word) (a : Record) (h : (heldFrom s k n).getLast? = some a) : a.seq = n := by
  cases k with
  | zero => simp [heldFrom] at h
  | succ k =>
    unfold heldFrom at h
    split at h
    · next hn =>
      rw [List.getLast?_concat] at h
      exact Option.some.inj h ▸ (logHas_slot hn).2
    · simp at h

theorem heldFrom_held (s : State) (k : Nat) (n : Word) : ∀ a ∈ heldFrom s k n, logHas s a.seq = true := by
  induction k generalizing n with
  | zero => simp [heldFrom]
  | succ k ih =>
    unfold heldFrom
    split
    · next hn =>
      intro a ha
      rcases List.mem_append.mp ha with h | h
      · exact ih _ a h
      · rw [List.mem_singleton.mp h, (logHas_slot hn).2, hn]
    · simp

/-- Each record's number follows the one before it (01 R33). -/
def Consecutive (l : List Record) : Prop := List.IsChain (fun a b => b.seq = nextSeq a.seq) l

theorem heldFrom_consecutive (s : State) (k : Nat) (n : Word) : Consecutive (heldFrom s k n) := by
  induction k generalizing n with
  | zero => exact List.IsChain.nil
  | succ k ih =>
    unfold heldFrom
    split
    · next hn =>
      obtain ⟨h0, hs⟩ := logHas_slot hn
      refine List.isChain_append.mpr ⟨ih _, List.isChain_singleton _, fun a ha b hb => ?_⟩
      cases Option.some.inj hb
      rw [heldFrom_getLast? s k _ a ha, nextSeq_prevSeq h0, hs]
    · exact List.IsChain.nil

/-- A stretch of consecutive records is consecutive. -/
theorem Consecutive.stretch {l m : List Record} (h : Consecutive m) (hl : l <:+: m) : Consecutive l := by
  obtain ⟨a, b, rfl⟩ := hl
  exact List.IsChain.right_of_append (List.IsChain.left_of_append h)

theorem logFrom_infix (s : State) (first : Word) (n : Nat) : logFrom s first n <:+: heldFrom s 1024 s.flt.lastSeq := by
  unfold logFrom
  dsimp only
  split
  · exact List.nil_infix
  · split
    · exact (List.take_prefix _ _).isInfix.trans (List.dropWhile_suffix _).isInfix
    · exact (List.take_prefix _ _).isInfix

theorem logFrom_length (s : State) (first : Word) (n : Nat) : (logFrom s first n).length ≤ n := by
  unfold logFrom
  dsimp only
  split
  · simp
  · split <;> exact List.length_take_le _ _

theorem logFrom_held (s : State) (first : Word) (n : Nat) : ∀ a ∈ logFrom s first n, logHas s a.seq = true :=
  fun a ha => heldFrom_held s _ _ a ((logFrom_infix s first n).subset ha)

theorem logFrom_next (s : State) (first : Word) (n k : Nat) (a b : Record) (ha : (logFrom s first n)[k]? = some a)
    (hb : (logFrom s first n)[k + 1]? = some b) : b.seq = nextSeq a.seq := by
  have hc : Consecutive (logFrom s first n) := (heldFrom_consecutive s 1024 s.flt.lastSeq).stretch (logFrom_infix s first n)
  obtain ⟨hk, rfl⟩ := List.getElem?_eq_some_iff.mp hb
  obtain ⟨_, rfl⟩ := List.getElem?_eq_some_iff.mp ha
  exact List.isChain_iff_getElem.mp hc k hk

/-- A read from a number that the log holds begins with it. -/
theorem logFrom_head (s : State) (first : Word) (n : Nat) (hn : 1 ≤ n) (hs : logHas s first = true)
    (hl : seqAfter first s.flt.lastSeq = false) (hm : ∃ a ∈ heldFrom s 1024 s.flt.lastSeq, a.seq = first) :
    (logFrom s first n).head?.map (·.seq) = some first := by
  obtain ⟨a, ha, hf⟩ := hm
  unfold logFrom
  rw [if_neg (by simp [hl]), if_pos hs, List.head?_take, if_neg (by omega)]
  generalize heldFrom s 1024 s.flt.lastSeq = l at ha
  induction l with
  | nil => simp at ha
  | cons b l ih =>
    by_cases hb : b.seq = first
    · simp [hb]
    · rw [List.dropWhile_cons_of_pos (by simpa using hb)]
      refine ih ((List.mem_cons.mp ha).resolve_left fun h => hb (h ▸ hf))

/-- RESULT of LOG_READ: the number of records and the overrun count. -/
theorem logRead_result (n next ov : Nat) (h : ov < 2 ^ 32) :
    fld (pack [(0, 16, n), (32, 32, next), (64, 32, ov)]) 0 16 = n % 2 ^ 16 ∧
      fld (pack [(0, 16, n), (32, 32, next), (64, 32, ov)]) 64 32 = ov := by
  constructor
  · refine fld_pack_self ?_
    simp [fld_pack_ne]
  · rw [fld_pack_ne (by omega), fld_pack_ne (by omega), fld_pack_self (fld_pack_nil _ _), Nat.mod_eq_of_lt h]

/-- Bytes written at rising addresses are stored there, and nowhere else. -/
theorem storesAt_mwrites (m : Mem) (a : Nat) (bs : List Byte) : StoresAt m (mwrites m a bs) a bs := by
  refine ⟨fun k b hk => ?_, fun b hb => mread_mwrites_out m a b bs hb⟩
  obtain ⟨hlt, rfl⟩ := List.getElem?_eq_some_iff.mp hk
  exact mread_mwrites_in m a bs k hlt

section
variable {s : State} {src : SrcIx} {c : Nat} (h : commandOf s src.val 0x41 = some c)
include h

theorem exec_logRead_bad (hn : cb c 0x14 2 = 0 ∨ 1024 < cb c 0x14 2) (ok : Bool) :
    Answers (exec (.logRead src ok) s) s src c stBadParameter 0 := by
  show commandRow s src.val 0x41 _ = _
  rw [commandRow_of h, if_pos hn]

theorem exec_logRead_unwritable (hn : ¬ (cb c 0x14 2 = 0 ∨ 1024 < cb c 0x14 2)) (hs : src.val ≠ 16) :
    Answers (exec (.logRead src false) s) s src c stHostAccess 0 := by
  show commandRow s src.val 0x41 _ = _
  rw [commandRow_of h, if_neg hn, if_pos ⟨rfl, hs⟩]

/-- A read that reaches its buffer: the records go there, and RESULT counts them (15 R459). -/
theorem exec_logRead_good (hn : ¬ (cb c 0x14 2 = 0 ∨ 1024 < cb c 0x14 2)) (ok : Bool) (hok : ¬ (ok = false ∧ src.val ≠ 16)) :
    let rs := logFrom s (w32 (cb c 0x10 4)) (cb c 0x14 2)
    ∃ res, Answers (exec (.logRead src ok) s)
        (writeBuffer s src.val (cb c 0x18 8) (rs.map fun r => bytesOf (recordNat r) 64).flatten) src c stSuccess res ∧
      fld res 0 16 = rs.length % 2 ^ 16 ∧ fld res 64 32 = s.flt.overrun.toNat := by
  have e : execLogRead src ok s = _ := commandRow_of h
  dsimp only at e
  rw [if_neg hn, if_neg hok] at e
  exact ⟨_, e, logRead_result _ _ _ s.flt.overrun.isLt⟩

end

end Sys2Proof.Machine
end

section
open Sys2Proof Sys2Proof.Machine

/-- Settles O43: the arbiter's acceptance of a record, and a read's records as a stretch of those held. -/
theorem faultLog : Obligations.FaultLog := by
  unfold Obligations.FaultLog
  intro s
  refine ⟨fun i r hr => ?_, fun v => rfl, fun v => rfl, fun src c hc hlo hhi => ?_, fun src c hc hn ok => exec_logRead_bad hc hn ok⟩
  · have he : exec (.recordLogged i) s = .next (acceptRecord { s with flt := { s.flt with path := dropAt s.flt.path i } } r) := by
      show execRecordLogged i s = _
      rw [execRecordLogged, hr]
    obtain ⟨hs, hf⟩ := acceptRecord_flt { s with flt := { s.flt with path := dropAt s.flt.path i } } r
    rw [logged_flt] at hf
    refine ⟨_, he, ?_, ?_, ?_, ?_, fun k hk => ?_, fun hl => ?_, fun hl => ?_, acceptRecord_event _ r,
      fun x hk hh hx hp hep ha => acceptRecord_heat _ r x hk hh hx hp hep ha⟩ <;> rw [hf]
    · exact tget_tput_self _ _ _ _
    · exact tget_tput_ne _ _ _ hk
    · exact if_pos (by simpa [logSlot] using hl)
    · exact if_neg (by simpa [logSlot] using hl)
  · have hn : ¬ (cb c 0x14 2 = 0 ∨ 1024 < cb c 0x14 2) := by omega
    refine ⟨exec_logRead_unwritable hc hn, logFrom_length s _ _, logFrom_held s _ _, logFrom_next s _ _,
      logFrom_head s _ _ hlo, fun hs => ?_, fun hs ok => ?_⟩
    · obtain ⟨res, ha, h0, h64⟩ := exec_logRead_good hc hn true (by simp)
      rw [writeBuffer, if_neg hs] at ha
      exact ⟨_, res, ha, h0, h64, rfl, storesAt_mwrites _ _ _⟩
    · obtain ⟨res, ha, h0, h64⟩ := exec_logRead_good hc hn ok (by simp [hs])
      rw [writeBuffer, if_pos hs] at ha
      exact ⟨_, res, ha, h0, h64, rfl⟩

end

section
/-!
SUPPORT. Completions (13 R412, R413): a slot written to its ring, the entry's step from slot to slot, and the ring's vector.
-/
namespace Sys2Proof.Machine
open Host (Outcome)

/-! ## One slot -/

theorem putFld_bit_lt {x n : Nat} (h : x < 2 ^ (n + 1)) (b : Bool) : putFld x 0 1 (b2n b) < 2 ^ (n + 1) := by
  have hp : 2 ^ (n + 1) = 2 * 2 ^ n := by rw [Nat.pow_succ]; omega
  have hb : b2n b ≤ 1 := by cases b <;> decide
  simp only [putFld, fld, Nat.shiftRight_zero, Nat.shiftLeft_zero, Nat.pow_one]
  omega

/-- A slot reads back as the number written to it. -/
theorem mrd_mwr_slot (m : Mem) (a : Nat) (x : BitVec 256) (b : Bool) :
    mrd (mwr m a 32 (putFld x.toNat 0 1 (b2n b))) a 32 = putFld x.toNat 0 1 (b2n b) := by
  rw [mrd_mwr_self]
  exact Nat.mod_eq_of_lt (putFld_bit_lt (n := 255) x.isLt b)

theorem mrd_mwr_out (m : Mem) (a n v b k : Nat) (h : b + k ≤ a ∨ a + n ≤ b) : mrd (mwr m a n v) b k = mrd m b k :=
  mrd_congr _ _ _ _ _ fun i hi => mread_mwr_out m a n v _ (by omega)

theorem storesAt_mwr (m : Mem) (a n v : Nat) : StoresAt m (mwr m a n v) a (bytesOf v n) := storesAt_mwrites m a _

/-- The next index of a ring of two slots or more is another one. -/
theorem ringNext_ne {z : BitVec 4} (h : z ≠ 0) (i : BitVec 12) : ringNext z i ≠ i := by
  have hz : 0 < z.toNat := by bv_omega
  have hp : 2 ≤ 2 ^ z.toNat := Nat.pow_le_pow_right (n := 2) (by omega) hz
  intro e
  have e' := congrArg BitVec.toNat e
  rw [ringNext, BitVec.toNat_ofNat] at e'
  have hi := i.isLt
  rcases Nat.lt_or_ge (i.toNat + 1) (2 ^ z.toNat) with hlt | hge
  · rw [Nat.mod_eq_of_lt hlt] at e'
    omega
  · have hzl : z.toNat ≤ 12 := by
      by_contra hc
      have : 2 ^ 13 ≤ 2 ^ z.toNat := Nat.pow_le_pow_right (by omega) (by omega)
      omega
    have hp12 : 2 ^ z.toNat ≤ 2 ^ 12 := Nat.pow_le_pow_right (by omega) hzl
    have hm := Nat.mod_lt (i.toNat + 1) (show 0 < 2 ^ z.toNat by omega)
    rw [Nat.mod_eq_of_lt (by omega : (i.toNat + 1) % 2 ^ z.toNat < 2 ^ 12)] at e'
    have hd := Nat.div_add_mod (i.toNat + 1) (2 ^ z.toNat)
    have : i.toNat + 1 = 2 ^ z.toNat := by omega
    rw [this, Nat.mod_self] at e'
    omega

/-- Two slots of a ring lie apart. -/
theorem slotAddr_apart (c : Cqr) {i j : BitVec 12} (h : i ≠ j) : slotAddr c i + 32 ≤ slotAddr c j ∨ slotAddr c j + 32 ≤ slotAddr c i := by
  have : i.toNat ≠ j.toNat := fun e => h (BitVec.eq_of_toNat_eq e)
  unfold slotAddr
  omega

/-- Room for two slots means that the ring has more than one. -/
theorem size_ne_zero_of_room {c : Cqr} (h : 2 ≤ ringRoom c) : c.size ≠ 0 := by
  intro e
  unfold ringRoom at h
  rw [e] at h
  simp at h

/-! ## An entry is posted -/

/-- Ring `c` once its first held entry has been taken at tick `now`, the rest held being `rest`. -/
def Cqr.taken (c : Cqr) (rest : List CEntry) (now : Nat) : Cqr :=
  { c with hold := rest ++ c.wait.take 1, wait := c.wait.drop 1, since := c.since + 1, sinceAt := if c.since = 0 then now else c.sinceAt }

/-- The host's memory and the ring after the entry `e`, numbered `n`, has been written to it. -/
def putEntry (m : Mem) (c : Cqr) (e : CEntry) (n : Word) : Mem × Cqr :=
  let a := putSlot m c (withSeq e.first n)
  match e.second with
  | some x => putSlot a.1 a.2 x
  | none => a

theorem exec_completionPost_room {s : State} {r : RingIx} {e : CEntry} {rest : List CEntry} (hh : (cqrOf s r.val).hold = e :: rest)
    (he : (cqrOf s r.val).enable = true) (hr : e.slots ≤ ringRoom (cqrOf s r.val)) :
    let p := putEntry s.hostMem ((cqrOf s r.val).taken rest s.clk.ticks) e (nextSeq s.cq.seq)
    exec (.completionPost r) s =
      .next (modCqr { s with hostMem := p.1, cq := { s.cq with seq := nextSeq s.cq.seq } } r.val fun _ => p.2) := by
  show execCompletionPost r s = _
  unfold execCompletionPost
  simp only [hh]
  exact if_pos ⟨he, hr⟩

theorem exec_completionPost_full {s : State} {r : RingIx} {e : CEntry} {rest : List CEntry} (hh : (cqrOf s r.val).hold = e :: rest)
    (hr : ringRoom (cqrOf s r.val) < e.slots) : exec (.completionPost r) s = .next s := by
  show execCompletionPost r s = _
  unfold execCompletionPost
  simp only [hh]
  exact if_neg fun h => Nat.not_le.mpr hr h.2

theorem putEntry_one (m : Mem) (c : Cqr) {e : CEntry} (n : Word) (h : e.second = none) :
    putEntry m c e n = putSlot m c (withSeq e.first n) := by
  rw [putEntry, h]

theorem putEntry_two (m : Mem) (c : Cqr) {e : CEntry} {x : BitVec 256} (n : Word) (h : e.second = some x) :
    putEntry m c e n = putSlot (putSlot m c (withSeq e.first n)).1 (putSlot m c (withSeq e.first n)).2 x := by
  rw [putEntry, h]

/-- Two slots hold what was written to each, and no other byte has changed. -/
theorem putEntry_two_mem (m : Mem) (c : Cqr) {e : CEntry} {x : BitVec 256} (n : Word) (h : e.second = some x) (hz : c.size ≠ 0) :
    let turned := if ringNext c.size c.tail = 0 then !c.phase else c.phase
    let m' := (putEntry m c e n).1
    mrd m' (slotAddr c c.tail) 32 = putFld (withSeq e.first n).toNat 0 1 (b2n c.phase) ∧
      mrd m' (slotAddr c (ringNext c.size c.tail)) 32 = putFld x.toNat 0 1 (b2n turned) ∧
      ∀ a, (a < slotAddr c c.tail ∨ slotAddr c c.tail + 32 ≤ a) →
        (a < slotAddr c (ringNext c.size c.tail) ∨ slotAddr c (ringNext c.size c.tail) + 32 ≤ a) → mread m' a = mread m a := by
  have hap := slotAddr_apart c (ringNext_ne hz c.tail).symm
  rw [putEntry_two m c n h]
  refine ⟨?_, mrd_mwr_slot _ _ x _, fun a h1 h2 => ?_⟩
  · exact (mrd_mwr_out _ _ _ _ _ _ hap).trans (mrd_mwr_slot _ _ _ _)
  · exact (mread_mwr_out _ _ _ _ _ h2).trans (mread_mwr_out _ _ _ _ _ h1)

/-! ## The ring's vector -/

theorem exec_msixInterrupt_due {s : State} {r : RingIx} (h0 : 0 < (cqrOf s r.val).since)
    (hd : max 1 (cqrOf s r.val).coalCount.toNat ≤ (cqrOf s r.val).since ∨
      ((cqrOf s r.val).coalUs ≠ 0 ∧ (cqrOf s r.val).sinceAt + 100 * (cqrOf s r.val).coalUs.toNat ≤ s.clk.ticks)) :
    exec (.msixInterrupt r) s =
      .next (raiseVector (modCqr s r.val fun q => { q with since := 0 }) (max 1 (cqrOf s r.val).vector.toNat)) :=
  if_pos ⟨h0, hd⟩

theorem cqrOf_raiseVector (s : State) (v n : Nat) : cqrOf (raiseVector s v) n = cqrOf s n := by
  unfold raiseVector
  split <;> rfl

theorem raiseVector_masked {s : State} {v : Nat} (h : s.cq.masked.getLsbD v = true) :
    raiseVector s v = { s with cq := { s.cq with pba := setBit s.cq.pba v } } := by
  rw [raiseVector, if_pos h]

theorem raiseVector_sent {s : State} {v : Nat} (h : s.cq.masked.getLsbD v = false) :
    raiseVector s v = { s with cq := { s.cq with sent := tmod 0 s.cq.sent v (· + 1) } } := by
  rw [raiseVector, if_neg (Bool.eq_false_iff.mp h)]

end Sys2Proof.Machine
end

section
open Sys2Proof Sys2Proof.Machine

/-- Settles O33: an entry's slots lie apart in its ring, so that each reads back as it was written. -/
theorem completionsPosted : Obligations.CompletionsPosted := by
  unfold Obligations.CompletionsPosted
  intro s r
  dsimp only
  refine ⟨fun e rest hh he hr => ?_, fun e rest hh hr => exec_completionPost_full hh hr, fun h0 hd => ?_, fun hn => ?_⟩
  · refine ⟨_, exec_completionPost_room hh he hr, rfl, rfl, fun k hk => cqrOf_modCqr_ne _ _ hk, fun h1 => ?_, fun x h2 => ?_⟩
    · rw [putEntry_one _ _ _ h1]
      exact ⟨storesAt_mwr _ _ _ _, cqrOf_modCqr_self _ _ _⟩
    · have hz : (cqrOf s r.val).size ≠ 0 := size_ne_zero_of_room (by simpa [CEntry.slots, h2] using hr)
      obtain ⟨hone, htwo, hout⟩ :=
        putEntry_two_mem s.hostMem ((cqrOf s r.val).taken rest s.clk.ticks) (nextSeq s.cq.seq) h2 hz
      refine ⟨hone, htwo, hout, ?_⟩
      rw [putEntry_two _ _ _ h2]
      exact cqrOf_modCqr_self _ _ _
  · refine ⟨_, exec_msixInterrupt_due h0 hd, ?_, fun hm => ?_, fun hm => ?_⟩
    · rw [cqrOf_raiseVector, cqrOf_modCqr_self]
    · rw [raiseVector_masked (s := modCqr s r.val _) hm]
      exact ⟨rfl, rfl⟩
    · rw [raiseVector_sent (s := modCqr s r.val _) hm]
      exact ⟨rfl, tget_tput_self _ _ _ _⟩
  · exact if_neg fun ⟨h0, hd⟩ => hn.elim (fun hs => by omega) fun h => h hd

end

section
/-!
SUPPORT. Clock domains and rails (12 R377-R380): what a step stop, its end and a rail's request leave as it was.
-/
namespace Sys2Proof.Machine
open Host (Outcome)

/-! ## Domains alone, rails alone -/

/-- From `s` to `t` only clock domains have changed. -/
def DomsOnly (s t : State) : Prop := t = { s with clk := { s.clk with dom := t.clk.dom } }

theorem DomsOnly.refl (s : State) : DomsOnly s s := rfl

theorem DomsOnly.trans {s t u : State} (h : DomsOnly s t) (k : DomsOnly t u) : DomsOnly s u := by
  unfold DomsOnly at h k ⊢
  rw [k, h]

theorem domsOnly_modDom (s : State) (d : Nat) (f : Dom → Dom) : DomsOnly s (modDom s d f) := rfl

theorem DomsOnly.foldl {α : Type} {f : State → α → State} (h : ∀ s a, DomsOnly s (f s a)) (l : List α) (s : State) :
    DomsOnly s (l.foldl f s) := by
  induction l generalizing s with
  | nil => exact .refl s
  | cons a l ih => exact (h s a).trans (ih _)

/-- From `s` to `t` only what the rails are asked for and supply has changed. -/
def RailsOnly (s t : State) : Prop := t = { s with pwr := { s.pwr with want := t.pwr.want, supply := t.pwr.supply } }

theorem railsOnly_setRail (s : State) (h v : Nat) : RailsOnly s (setRail s h v) := rfl

theorem railsOnly_lowerRail (s : State) (h : Nat) : RailsOnly s (lowerRail s h) := by
  unfold lowerRail
  dsimp only
  split
  · exact railsOnly_setRail s h _
  · rfl

theorem RailsOnly.trans {s t u : State} (h : RailsOnly s t) (k : RailsOnly t u) : RailsOnly s u := by
  unfold RailsOnly at h k ⊢
  rw [k, h]

theorem railsOnly_lowerRails (s : State) : RailsOnly s (lowerRails s) := (railsOnly_lowerRail s 0).trans (railsOnly_lowerRail _ 1)

theorem RailsOnly.clk {s t : State} (h : RailsOnly s t) : t.clk = s.clk := by rw [h]

theorem RailsOnly.seats {s t : State} (h : RailsOnly s t) : t.seats = s.seats := by rw [h]

theorem domOf_congr {s t : State} (h : t.clk = s.clk) (d : Nat) : domOf t d = domOf s d := by rw [domOf, domOf, h]

theorem domTime_congr {s t : State} (h : t.clk = s.clk) (d : Nat) : domTime t d = domTime s d := by
  rw [domTime, domTime, domOf_congr h, h]

/-! ## A step stop begins -/

/-- Domain `d` of `t` has stopped toward step `i` with its time standing still, and no other domain has changed. -/
structure StopsToward (s t : State) (d i : Nat) : Prop where
  stop : (domOf t d).stop = .step
  target : (domOf t d).target = i
  step : (domOf t d).step = (domOf s d).step
  time : domTime t d = domTime s d
  frozen : (domOf t d).frozen = some (domTime s d)
  others : OtherDoms s t d
  pwr : t.pwr = s.pwr

theorem beginStop_clk (s : State) (d i : Nat) :
    (beginStop s d i).clk = (modDom s d fun m =>
      { m with stop := .step, target := i, frozen := some (domTime s d), stopTick := s.clk.ticks, changeTick := s.clk.ticks + 1 }).clk := by
  unfold beginStop
  dsimp only
  split
  · rw [clk_eq_of_hide (crossingMoves_hide (ps := [.noc, .free]) _ _ (by decide) (by decide)) (by decide)]
  · rfl

theorem beginStop_stops (s : State) {d : Nat} (i : Nat) (hd : d ≤ 96) : StopsToward s (beginStop s d i) d i := by
  have hself := (domOf_congr (beginStop_clk s d i) d).trans (domOf_modDom_self s d _)
  refine ⟨?_, ?_, ?_, ?_, ?_, fun e he => (domOf_congr (beginStop_clk s d i) e).trans (domOf_modDom_ne s _ he),
    pwr_eq_of_hide (beginStop_hide (ps := [.clk, .noc, .free]) s d i (by decide) (by decide) (by decide)) (by decide)⟩
  all_goals try rw [hself]
  rw [domTime, if_neg (by omega), hself]

/-- A domain that may stop for the step change `i`. -/
structure MayStop (s : State) (d i : Nat) : Prop where
  inRange : d ≤ 96
  locked : (domOf s d).locked = true
  running : (domOf s d).stop = .none
  due : stopStep s d = i
  other : i ≠ (domOf s d).step
  quiet : d < 96 → crewRefreshing s d = false

theorem exec_stepChange_stops {s : State} {d : DomIx} {i : Nat} (h : MayStop s d.val i)
    (hr : d.val = 96 ∨ (domOf s d.val).step < i ∨ needMv s i ≤ railMv s (d.val / 48)) :
    exec (.stepChange d) s = .next (beginStop s d.val i) := by
  obtain ⟨hd, hl, hs, rfl, hne, hq⟩ := h
  show execStepChange d s = _
  rw [execStepChange, if_neg, if_neg, if_neg]
  · rintro ⟨h96, hlt, hmv⟩
    omega
  · rintro ⟨h96, hc⟩
    simp [hq h96] at hc
  · simp [hl, hs, hne, hd]

theorem exec_stepChange_rail {s : State} {d : DomIx} {i : Nat} (h : MayStop s d.val i) (hd : d.val < 96)
    (hlt : i < (domOf s d.val).step) (hmv : railMv s (d.val / 48) < needMv s i) :
    exec (.stepChange d) s = .next (setRail s (d.val / 48) (needMv s (lowestSoft s (d.val / 48)))) := by
  obtain ⟨-, hl, hs, rfl, hne, hq⟩ := h
  show execStepChange d s = _
  rw [execStepChange, if_neg, if_neg, if_pos ⟨hd, hlt, hmv⟩]
  · simp [hq hd]
  · simp [hl, hs, hne]
    omega

theorem stopStep_spaced {s : State} {d : Nat} (h : changeSpaced s d = true) : stopStep s d = dueStep s d := by
  rw [stopStep, if_pos h]

theorem stopStep_hard {s : State} {d : Nat} (hd : d < 96) (h : changeSpaced s d = false) :
    stopStep s d = max (hardIndex s d) (domOf s d).step := by
  rw [stopStep, if_neg (Bool.eq_false_iff.mp h), if_pos hd]

/-! ## A step stop ends -/

theorem exec_stepChangeEnd_early {s : State} {d : DomIx} (h : s.clk.ticks < (domOf s d.val).stopTick + 120) :
    exec (.stepChangeEnd d) s = .next s := by
  show execStepChangeEnd d s = _
  rw [execStepChangeEnd, if_pos (Or.inr h)]

/-- The domain as it runs on at its new step, its copy of the time base going on from `t` at tick `now`. -/
def Dom.resumed (m : Dom) (n : Nat) (t : BitVec 64) (now : Nat) : Dom :=
  { m with stop := .none, step := n, steps := satInc m.steps, frozen := none, offset := t - BitVec.ofNat 64 now }

theorem exec_stepChangeEnd_due {s : State} {d : DomIx} (hs : (domOf s d.val).stop = .step)
    (h : (domOf s d.val).stopTick + 120 ≤ s.clk.ticks) :
    let n := if s.glb.fw = .ready then (domOf s d.val).target else max (domOf s d.val).target (domOf s d.val).step
    ∃ t, exec (.stepChangeEnd d) s = .next t ∧ t.seats = s.seats ∧
      t.clk = (modDom s d.val fun m => m.resumed n (domTime s d.val) s.clk.ticks).clk := by
  have he : exec (.stepChangeEnd d) s = execStepChangeEnd d s := rfl
  rw [execStepChangeEnd, if_neg (by simp [hs]; omega)] at he
  refine ⟨_, he, ?_, ?_⟩
  · split
    · exact (railsOnly_lowerRail _ _).seats
    · rfl
  · split
    · exact (railsOnly_lowerRail _ _).clk
    · rfl

/-- A copy that goes on from the time at which it stood reads that time. -/
theorem domTime_resumed {s t : State} {d n : Nat} {v : BitVec 64} (hv : d = 99 → v = s.clk.master)
    (h : t.clk = (modDom s d fun m => m.resumed n v s.clk.ticks).clk) : domTime t d = v := by
  rw [domTime_congr h, domTime, domOf_modDom_self]
  split
  · next h99 => exact (hv h99).symm
  · exact BitVec.sub_add_cancel _ _

/-! ## SET_STEP -/

/-- The domains once each crew of `l` has the ceiling `n`. -/
theorem domOf_setCeilings (s : State) (l : List Nat) (n d : Nat) :
    domOf (l.foldl (fun s q => modDom s q fun m => { m with ceiling := n }) s) d =
      if d ∈ l then { domOf s d with ceiling := n } else domOf s d :=
  get_foldl domOf _ (fun _ m => { m with ceiling := n }) (fun s a => domOf_modDom_self s a _) (fun s _ _ h => domOf_modDom_ne s _ h)
    (fun _ _ => rfl) l s d

section
variable {s : State} {src : SrcIx} {c : Nat} (h : commandOf s src.val 0x39 = some c)
include h

theorem exec_setStep_badUnit (hu : unitBad s (cUnit c) 1 3 false = true) :
    Answers (exec (.setStep src) s) s src c stBadUnit (1 + 2 ^ 32 * cUnit c) := by
  show commandRow s src.val 0x39 _ = _
  rw [commandRow_of h, if_pos hu, badUnitResult]

theorem exec_setStep_badStep (hu : unitBad s (cUnit c) 1 3 false = false) (hn : 6 < cb c 0x10 1) :
    Answers (exec (.setStep src) s) s src c stBadParameter 0 := by
  show commandRow s src.val 0x39 _ = _
  rw [commandRow_of h, if_neg (Bool.eq_false_iff.mp hu), if_pos hn]

theorem exec_setStep_good (hu : unitBad s (cUnit c) 1 3 false = false) (hn : cb c 0x10 1 ≤ 6) :
    Answers (exec (.setStep src) s)
      (lowerRails ((unitCrews (cUnit c)).foldl (fun s q => modDom s q fun m => { m with ceiling := cb c 0x10 1 }) s)) src c stSuccess 0 := by
  show commandRow s src.val 0x39 _ = _
  rw [commandRow_of h, if_neg (Bool.eq_false_iff.mp hu), if_neg (Nat.not_lt.mpr hn)]

end

/-! ## The power cap -/

/-- The state with a measurement of `watts` taken into account (12 R392). -/
def capMeasured (s : State) (watts mvW mvE : Nat) : State :=
  let xs := ((watts + s.pwr.otherW.toNat) :: s.pwr.samples).take 10
  let low := if xs.sum * 100 < 95 * capWatts s * xs.length then s.pwr.lowRun + 1 else 0
  let up := decide (capWatts s * xs.length < xs.sum) && decide (s.clk.cap < 6)
  { s with
    pwr := { s.pwr with samples := xs, vdd := [mvW % 65536, mvE % 65536], packageW := BitVec.ofNat 16 (xs.sum / xs.length), lowRun := low,
                        capEvents := if up then satInc s.pwr.capEvents else s.pwr.capEvents },
    clk := { s.clk with cap := if up then s.clk.cap + 1 else if 10 ≤ low then s.clk.cap - 1 else s.clk.cap } }

theorem exec_powerCapMeasure_ready {s : State} (mvW maW mvE maE : Nat) (hr : s.glb.ready = true) (hf : s.glb.fw = .ready) :
    exec (.powerCapMeasure mvW maW mvE maE) s = .next (lowerRails (capMeasured s ((mvW * maW + mvE * maE) / 1000000) mvW mvE)) := by
  show execPowerCapMeasure mvW maW mvE maE s = _
  rw [execPowerCapMeasure, if_neg (by simp [hr, hf])]
  simp only [← List.sum_eq_foldl_nat]
  rfl

theorem exec_powerCapMeasure_unready {s : State} (mvW maW mvE maE : Nat) (h : s.glb.ready = false ∨ s.glb.fw ≠ .ready) :
    exec (.powerCapMeasure mvW maW mvE maE) s = .next s := by
  show execPowerCapMeasure mvW maW mvE maE s = _
  rw [execPowerCapMeasure, if_pos h]

/-- How a measurement moves the cap's step, its run of low averages and its count: up above the cap, down after ten below 95 % of it. -/
theorem capMeasured_cap (s : State) (watts mvW mvE : Nat) :
    let xs := ((watts + s.pwr.otherW.toNat) :: s.pwr.samples).take 10
    let cap := capWatts s
    let t := capMeasured s watts mvW mvE
    (cap * xs.length < xs.sum → s.clk.cap < 6 → t.clk.cap = s.clk.cap + 1 ∧ t.pwr.capEvents = satInc s.pwr.capEvents) ∧
      (cap * xs.length < xs.sum → t.pwr.lowRun = 0) ∧
      (¬ (cap * xs.length < xs.sum ∧ s.clk.cap < 6) → t.pwr.capEvents = s.pwr.capEvents) ∧
      (xs.sum * 100 < 95 * cap * xs.length → t.pwr.lowRun = s.pwr.lowRun + 1 ∧
        t.clk.cap = if 10 ≤ s.pwr.lowRun + 1 then s.clk.cap - 1 else s.clk.cap) ∧
      (95 * cap * xs.length ≤ xs.sum * 100 → xs.sum ≤ cap * xs.length → t.pwr.lowRun = 0 ∧ t.clk.cap = s.clk.cap) := by
  intro xs cap t
  have hm : 95 * cap * xs.length = 95 * (cap * xs.length) := Nat.mul_assoc _ _ _
  have hlow : t.pwr.lowRun = if xs.sum * 100 < 95 * cap * xs.length then s.pwr.lowRun + 1 else 0 := rfl
  have hev : t.pwr.capEvents =
    if (decide (cap * xs.length < xs.sum) && decide (s.clk.cap < 6)) = true then satInc s.pwr.capEvents else s.pwr.capEvents := rfl
  have hcap : t.clk.cap = if (decide (cap * xs.length < xs.sum) && decide (s.clk.cap < 6)) = true then s.clk.cap + 1
    else if 10 ≤ t.pwr.lowRun then s.clk.cap - 1 else s.clk.cap := rfl
  refine ⟨fun h1 h2 => ?_, fun h1 => ?_, fun h1 => ?_, fun h1 => ?_, fun h1 h2 => ?_⟩
  · rw [hcap, hev]
    simp [h1, h2]
  · rw [hlow, if_neg (by omega)]
  · rw [hev, if_neg (by simpa using h1)]
  · rw [hcap, hlow, if_pos h1, if_neg (by simp; omega)]
    exact ⟨rfl, rfl⟩
  · rw [hcap, hlow, if_neg (by omega), if_neg (by simp; omega)]
    exact ⟨rfl, rfl⟩

end Sys2Proof.Machine
end

section
open Sys2Proof Sys2Proof.Machine

/-- Settles O37: a step stop and its end, the rails and ceilings, and the arithmetic of the cap. -/
theorem stepsAndPowerCap : Obligations.StepsAndPowerCap := by
  unfold Obligations.StepsAndPowerCap
  refine ⟨fun s => ⟨fun d => ?_, fun d => ?_, fun d hs => ?_, fun h hw hv => ?_, fun src c hc => ?_⟩, fun s mvW maW mvE maE => ?_⟩
  · intro m i hd hl hs hne hq hsp
    have hm : MayStop s d.val i := ⟨hd, hl, hs, stopStep_spaced hsp, hne, hq⟩
    refine ⟨fun hr => ?_, fun h96 hlt hmv => ⟨_, exec_stepChange_rail hm h96 hlt hmv, railsOnly_setRail _ _ _⟩⟩
    obtain ⟨hst, htg, hstep, htime, hfr, ho, hp⟩ := beginStop_stops s i hd
    exact ⟨_, exec_stepChange_stops hm hr, hst, htg, hstep, htime, hfr, ho, hp⟩
  · intro m hl hs hq hsp
    have hd : d.val < 96 := d.isLt
    have hstep := stopStep_hard hd hsp
    refine ⟨fun (hlt : (domOf s d.val).step < _) => ?_, fun hle => ?_⟩
    · have hm : MayStop s d.val (hardIndex s d.val) := ⟨by omega, hl, hs, by omega, by omega, fun _ => hq⟩
      obtain ⟨hst, htg, -, htime, -, ho, -⟩ := beginStop_stops s (hardIndex s d.val) hm.inRange
      exact ⟨_, exec_stepChange_stops (d := ⟨d.val, by omega⟩) hm (Or.inr (Or.inl hlt)), hst, htg, htime, ho⟩
    · show execStepChange _ s = _
      rw [execStepChange, if_pos]
      exact Or.inr (Or.inr (Or.inr (by rw [hstep]; exact Nat.max_eq_right hle)))
  · refine ⟨exec_stepChangeEnd_early, fun h => ?_⟩
    obtain ⟨t, he, hse, hc⟩ := exec_stepChangeEnd_due hs h
    have hself := (domOf_congr hc d.val).trans (domOf_modDom_self s d.val _)
    refine ⟨t, he, ?_, ?_, ?_, domTime_resumed (fun h99 => by rw [domTime, if_pos h99]) hc, ?_,
      fun e hne => (domOf_congr hc e).trans (domOf_modDom_ne s _ hne), hse⟩ <;> rw [hself] <;> rfl
  · refine ⟨_, rfl, rfl, ?_, fun k hk => getElem?_modAt_ne _ _ hk⟩
    have hl : h.val < 2 := h.isLt
    refine (getElem?_modAt_self _ _ _).trans ?_
    rw [List.getElem?_eq_getElem (by omega), List.getElem?_eq_getElem (by omega), Option.map_some, List.getD_eq_getElem]
  · refine ⟨exec_setStep_badUnit hc, exec_setStep_badStep hc, fun hu hn => ⟨_, exec_setStep_good hc hu hn, fun d => ?_, ?_⟩⟩
    · rw [domOf_congr (railsOnly_lowerRails _).clk]
      exact domOf_setCeilings s _ _ d
    · have hd := DomsOnly.foldl (fun s q => domsOnly_modDom s q fun m => { m with ceiling := cb c 0x10 1 }) (unitCrews (cUnit c)) s
      have hr := railsOnly_lowerRails ((unitCrews (cUnit c)).foldl (fun s q => modDom s q fun m => { m with ceiling := cb c 0x10 1 }) s)
      rw [hr.clk]
      unfold RailsOnly at hr
      unfold DomsOnly at hd
      rw [hr, hd]
  · refine ⟨fun hr hf => ?_, exec_powerCapMeasure_unready mvW maW mvE maE⟩
    have hrails := railsOnly_lowerRails (capMeasured s ((mvW * maW + mvE * maE) / 1000000) mvW mvE)
    refine ⟨_, exec_powerCapMeasure_ready mvW maW mvE maE hr hf, ?_⟩
    rw [hrails]
    exact ⟨rfl, rfl, rfl, rfl, rfl, capMeasured_cap s _ mvW mvE⟩

end

section
/-!
SUPPORT. Power requests (12 R389, R390): what answering them leaves as it was, the wakes that a higher state needs, and crews that enter Paddle.
-/
namespace Sys2Proof.Machine
open Host (Outcome)

/-! ## Requests are answered -/

theorem sqOf_sendReply (s : State) (src cid status result : Nat) (r2 : Option Nat) (n : Nat) :
    sqOf (sendReply s src cid status result r2) n = sqOf s n := by
  unfold sendReply
  dsimp only
  split <;> rfl

/-- A late reply takes no command in hand. -/
theorem sqOf_answerLate_cur (s : State) (src cid status result n : Nat) :
    (sqOf (answerLate s src cid status result) n).cur = (sqOf s n).cur := by
  rw [answerLate, sqOf_sendReply]
  by_cases h : n = src
  · rw [h, sqOf_modSq_self]
  · rw [sqOf_modSq_ne _ _ h]

/-- The late replies to the requests `l`, all with STATUS `st`. -/
def replyAll (l : List PwrReq) (st : Nat) (s : State) : State := l.foldl (fun s r => answerLate s r.src r.cid st 0) s

theorem replyAll_hide (l : List PwrReq) (st : Nat) (s : State) : (replyAll l st s).hide [.cq] = s.hide [.cq] :=
  hide_foldl l _ s fun u r => answerLate_hide u r.src r.cid st 0 (by decide)

theorem replyAll_cur (l : List PwrReq) (st : Nat) (s : State) (n : Nat) : (sqOf (replyAll l st s) n).cur = (sqOf s n).cur := by
  unfold replyAll
  induction l generalizing s with
  | nil => rfl
  | cons r l ih => rw [List.foldl_cons, ih, sqOf_answerLate_cur]

theorem settleReqs_eq (s : State) : settleReqs s = if s.glb.fw ≠ .ready then s else
    replyAll (s.pwr.reqs.filter (reqMet s)) stSuccess { s with pwr := { s.pwr with reqs := s.pwr.reqs.filter fun r => !reqMet s r } } := rfl

/-- Answering the requests that are met changes the rings and the list of requests alone. -/
theorem settleReqs_pwr (s : State) : ∃ rs, rs ⊆ s.pwr.reqs ∧ (settleReqs s).pwr = { s.pwr with reqs := rs } := by
  rw [settleReqs_eq]
  split
  · exact ⟨s.pwr.reqs, List.Subset.refl _, rfl⟩
  · exact ⟨_, List.filter_subset_self _, pwr_eq_of_hide (replyAll_hide _ _ _) (by decide)⟩

theorem settleReqs_keeps (s : State) : (settleReqs s).hide [.cq, .pwr] = s.hide [.cq, .pwr] :=
  settleReqs_hide s (by decide) (by decide)

theorem settleReqs_clk (s : State) : (settleReqs s).clk = s.clk := clk_eq_of_hide (settleReqs_keeps s) (by decide)
theorem settleReqs_seats (s : State) : (settleReqs s).seats = s.seats := seats_eq_of_hide (settleReqs_keeps s) (by decide)
theorem settleReqs_pools (s : State) : (settleReqs s).pools = s.pools := pools_eq_of_hide (settleReqs_keeps s) (by decide)
theorem settleReqs_ctxs (s : State) : (settleReqs s).ctxs = s.ctxs := ctxs_eq_of_hide (settleReqs_keeps s) (by decide)
theorem settleReqs_fab (s : State) : (settleReqs s).fab = s.fab := fab_eq_of_hide (settleReqs_keeps s) (by decide)
theorem settleReqs_noc (s : State) : (settleReqs s).noc = s.noc := noc_eq_of_hide (settleReqs_keeps s) (by decide)

theorem settleReqs_half (s : State) : (settleReqs s).pwr.half = s.pwr.half := by
  obtain ⟨rs, -, h⟩ := settleReqs_pwr s
  rw [h]

theorem settleReqs_waking (s : State) : (settleReqs s).pwr.waking = s.pwr.waking := by
  obtain ⟨rs, -, h⟩ := settleReqs_pwr s
  rw [h]

theorem settleReqs_chipBoated (s : State) : (settleReqs s).pwr.chipBoated = s.pwr.chipBoated := by
  obtain ⟨rs, -, h⟩ := settleReqs_pwr s
  rw [h]

theorem domOf_settleReqs (s : State) (d : Nat) : domOf (settleReqs s) d = domOf s d := domOf_congr (settleReqs_clk s) d

theorem settleReqs_cur (s : State) (n : Nat) : (sqOf (settleReqs s) n).cur = (sqOf s n).cur := by
  rw [settleReqs_eq]
  split
  · rfl
  · exact replyAll_cur _ _ _ _

theorem settleReqs_unmet (s : State) (h : ∀ o ∈ s.pwr.reqs, reqMet s o = false) : settleReqs s = s := by
  rw [settleReqs_eq]
  split
  · rfl
  · rw [List.filter_eq_nil_iff.mpr fun o ho => Bool.eq_false_iff.mp (h o ho),
      List.filter_eq_self.mpr fun o ho => by rw [h o ho]; rfl]
    rfl

/-! ## Wakes for a request -/

/-- From `s` to `t` wakes have begun, and nothing else has changed. -/
structure WakesOnly (s t : State) : Prop where
  clk : ∃ D, t = { s with clk := { s.clk with dom := D }, pwr := { s.pwr with waking := t.pwr.waking } }
  paddle : ∀ q, (domOf t q).paddle = (domOf s q).paddle
  crew : ∀ q, (domOf s q).waking = true → (domOf t q).waking = true
  half : ∀ k, tget false s.pwr.waking k = true → tget false t.pwr.waking k = true

theorem WakesOnly.refl (s : State) : WakesOnly s s := ⟨⟨_, rfl⟩, fun _ => rfl, fun _ h => h, fun _ h => h⟩

theorem WakesOnly.trans {s t u : State} (h : WakesOnly s t) (k : WakesOnly t u) : WakesOnly s u := by
  obtain ⟨⟨D, hD⟩, hp, hc, hh⟩ := h
  obtain ⟨⟨E, hE⟩, kp, kc, kh⟩ := k
  refine ⟨⟨E, ?_⟩, fun q => (kp q).trans (hp q), fun q h => kc q (hc q h), fun q h => kh q (hh q h)⟩
  rw [hE, hD]

theorem WakesOnly.seats {s t : State} (h : WakesOnly s t) : t.seats = s.seats := by
  obtain ⟨D, hD⟩ := h.clk
  rw [hD]

theorem WakesOnly.cq {s t : State} (h : WakesOnly s t) : t.cq = s.cq := by
  obtain ⟨D, hD⟩ := h.clk
  rw [hD]

theorem WakesOnly.half_eq {s t : State} (h : WakesOnly s t) : t.pwr.half = s.pwr.half := by
  obtain ⟨D, hD⟩ := h.clk
  rw [hD]

theorem WakesOnly.reqs {s t : State} (h : WakesOnly s t) : t.pwr.reqs = s.pwr.reqs := by
  obtain ⟨D, hD⟩ := h.clk
  rw [hD]

theorem WakesOnly.crewState {s t : State} (h : WakesOnly s t) (q : Nat) : crewState t q = crewState s q := by
  unfold Machine.crewState halfBoated halfEasy
  rw [h.half_eq, h.paddle q]

/-- The wake that crew `q` needs, of itself or of its half, is under way. -/
def Woken (s t : State) (q : Nat) : Prop :=
  (crewState s q = 1 → (domOf t q).waking = true) ∧ (2 ≤ crewState s q → tget false t.pwr.waking (q / 48) = true)

theorem wakeFor_wakes (s : State) (q n : Nat) : WakesOnly s (wakeFor s q n) ∧ (n < crewState s q → Woken s (wakeFor s q n) q) := by
  unfold wakeFor
  split
  · next h => exact ⟨.refl s, fun hn => absurd hn (Nat.not_lt.mpr h)⟩
  split
  · next h2 =>
    refine ⟨⟨⟨s.clk.dom, rfl⟩, fun _ => rfl, fun _ h => h, fun k h => ?_⟩, fun _ => ⟨fun h1 => by omega, fun _ => tget_tput_self _ _ _ _⟩⟩
    by_cases hk : k = q / 48
    · rw [hk]
      exact tget_tput_self _ _ _ _
    · exact (tget_tput_ne _ _ _ hk).trans h
  · next h2 =>
    refine ⟨⟨⟨_, rfl⟩, fun p => ?_, fun p h => ?_, fun _ h => h⟩, fun _ => ⟨fun _ => ?_, fun h => absurd h h2⟩⟩
    · by_cases hp : p = q
      · rw [hp, domOf_modDom_self]
      · rw [domOf_modDom_ne _ _ hp]
    · by_cases hp : p = q
      · rw [hp, domOf_modDom_self]
      · rw [domOf_modDom_ne _ _ hp, h]
    · rw [domOf_modDom_self]

/-- The wakes for the crews `l` to reach state `n`. -/
theorem wakeFor_foldl (l : List Nat) (n : Nat) (s : State) :
    let t := l.foldl (fun s q => wakeFor s q n) s
    WakesOnly s t ∧ ∀ q ∈ l, n < crewState s q → Woken s t q := by
  induction l generalizing s with
  | nil => exact ⟨.refl s, fun q hq => absurd hq (List.not_mem_nil)⟩
  | cons a l ih =>
    obtain ⟨ha, hwa⟩ := wakeFor_wakes s a n
    obtain ⟨hl, hwl⟩ := ih (wakeFor s a n)
    refine ⟨ha.trans hl, fun q hq hn => ?_⟩
    rcases List.mem_cons.mp hq with rfl | hq
    · obtain ⟨h1, h2⟩ := hwa hn
      exact ⟨fun h => hl.crew _ (h1 h), fun h => hl.half _ (h2 h)⟩
    · have := hwl q hq (by rwa [ha.crewState])
      rwa [Woken, ha.crewState] at this

theorem wakeFor_foldl_none (l : List Nat) (n : Nat) (s : State) (h : ∀ q ∈ l, crewState s q ≤ n) :
    l.foldl (fun s q => wakeFor s q n) s = s := by
  induction l with
  | nil => rfl
  | cons a l ih =>
    rw [List.foldl_cons, show wakeFor s a n = s by rw [wakeFor, if_pos (h a (by simp))]]
    exact ih fun q hq => h q (by simp [hq])

/-! ## POWER_STATE -/

/-- The request that the command `c` of `src` makes. -/
def powerReq (s : State) (src c : Nat) : PwrReq :=
  { unit := w32 (cUnit c), state := cb c 0x10 1, src := src, cid := cCid c, tick := s.clk.ticks }

/-- The lower requests that request `r` takes away. -/
def superseded (s : State) (r : PwrReq) : List PwrReq := s.pwr.reqs.filter fun o => decide (r.state < o.state) && reqsMeet o r

/-- The state with request `r` of `src` kept, before its wakes and its answer. -/
def requested (s : State) (src : Nat) (r : PwrReq) : State :=
  replyAll (superseded s r) stBusy { goBackground s src with
    pwr := { s.pwr with reqs := (s.pwr.reqs.filter fun o => !(decide (r.state < o.state) && reqsMeet o r)) ++ [r] } }

section
variable {s : State} {src : SrcIx} {c : Nat} (h : commandOf s src.val 0x38 = some c)
include h

theorem exec_powerState_badUnit (hu : unitBad s (cUnit c) (if cb c 0x10 1 ≤ 1 then 1 else 2) 3 false = true) :
    Answers (exec (.powerState src) s) s src c stBadUnit (1 + 2 ^ 32 * cUnit c) := by
  show commandRow s src.val 0x38 _ = _
  rw [commandRow_of h, if_pos hu, badUnitResult]

theorem exec_powerState_graph (hu : unitBad s (cUnit c) (if cb c 0x10 1 ≤ 1 then 1 else 2) 3 false = false) (hn : cb c 0x10 1 = 3)
    (hg : ∃ g ∈ s.str.graphs, g.2.half ∈ unitHalves (cUnit c)) : Answers (exec (.powerState src) s) s src c stBusy 0 := by
  show commandRow s src.val 0x38 _ = _
  rw [commandRow_of h, if_neg (Bool.eq_false_iff.mp hu), if_neg (by omega), if_pos]
  simpa [hn] using hg

theorem exec_powerState_kept (hu : unitBad s (cUnit c) (if cb c 0x10 1 ≤ 1 then 1 else 2) 3 false = false) (hn : cb c 0x10 1 ≤ 3)
    (hg : cb c 0x10 1 = 3 → ∀ g ∈ s.str.graphs, g.2.half ∉ unitHalves (cUnit c)) :
    exec (.powerState src) s = .next (settleReqs
      ((unitCrews (cUnit c)).foldl (fun s q => wakeFor s q (cb c 0x10 1)) (requested s src.val (powerReq s src.val c)))) := by
  show commandRow s src.val 0x38 _ = _
  rw [commandRow_of h, if_neg (Bool.eq_false_iff.mp hu), if_neg (by omega), if_neg]
  · rfl
  · rintro ⟨h3, hany⟩
    obtain ⟨g, hm, hc⟩ := List.any_eq_true.mp hany
    exact hg h3 g hm (by simpa using hc)

end

theorem requested_keeps (s : State) (src : Nat) (r : PwrReq) : (requested s src r).hide [.cq, .pwr] = s.hide [.cq, .pwr] :=
  (hide_foldl (ps := [.cq, .pwr]) _ _ _ fun u o => answerLate_hide u _ _ _ _ (by decide)).trans
    ((hide_pwr (ps := [.cq, .pwr]) _ _ (by decide)).trans (goBackground_hide s src (by decide)))

theorem requested_pwr (s : State) (src : Nat) (r : PwrReq) : (requested s src r).pwr =
    { s.pwr with reqs := (s.pwr.reqs.filter fun o => !(decide (r.state < o.state) && reqsMeet o r)) ++ [r] } :=
  pwr_eq_of_hide (replyAll_hide _ _ _) (by decide)

theorem requested_cur (s : State) (src : Nat) (r : PwrReq) : (sqOf (requested s src r) src).cur = none := by
  rw [requested, replyAll_cur]
  show (sqOf (goBackground s src) src).cur = none
  rw [goBackground, sqOf_modSq_self]

theorem crewState_requested (s : State) (src : Nat) (r : PwrReq) (q : Nat) : crewState (requested s src r) q = crewState s q := by
  unfold crewState halfBoated halfEasy
  rw [requested_pwr, domOf_congr (clk_eq_of_hide (requested_keeps s src r) (by decide))]

/-- What POWER_STATE leaves where the request is kept: the lower requests it meets are gone, the wakes it needs under way. -/
theorem powerState_kept (s : State) (src : Nat) (r : PwrReq) (l : List Nat) :
    let t := settleReqs (l.foldl (fun s q => wakeFor s q r.state) (requested s src r))
    (sqOf t src).cur = none ∧ t.seats = s.seats ∧ t.pwr.half = s.pwr.half ∧
      (∀ o ∈ s.pwr.reqs, r.state < o.state → reqsMeet o r = true → o ∉ t.pwr.reqs) ∧
      ∀ q ∈ l, r.state < crewState s q → Woken s t q := by
  intro t
  obtain ⟨hw, hq⟩ := wakeFor_foldl l r.state (requested s src r)
  obtain ⟨rs, hrs, hp⟩ := settleReqs_pwr (l.foldl (fun s q => wakeFor s q r.state) (requested s src r))
  refine ⟨?_, ?_, ?_, fun o _ hlt hm hin => ?_, fun q hl hlt => ?_⟩
  · rw [settleReqs_cur, sqOf, hw.cq]
    exact requested_cur s src r
  · rw [settleReqs_seats, hw.seats]
    exact seats_eq_of_hide (requested_keeps s src r) (by decide)
  · rw [settleReqs_half, hw.half_eq, requested_pwr]
  · have ht : t.pwr.reqs = rs := congrArg Pwr.reqs hp
    have hin' := hrs (ht ▸ hin)
    rw [hw.reqs, requested_pwr] at hin'
    rcases List.mem_append.mp hin' with h | h
    · simp [hlt, hm] at h
    · rw [List.mem_singleton.mp h] at hlt
      exact Nat.lt_irrefl _ hlt
  · obtain ⟨h1, h2⟩ := hq q hl (by rwa [crewState_requested])
    rw [crewState_requested] at h1 h2
    refine ⟨fun h => ?_, fun h => ?_⟩
    · rw [domOf_settleReqs]
      exact h1 h
    · rw [settleReqs_waking]
      exact h2 h

theorem reqMet_congr {s t : State} (hc : t.clk = s.clk) (hh : t.pwr.half = s.pwr.half) (hw : t.pwr.waking = s.pwr.waking)
    (hb : t.pwr.chipBoated = s.pwr.chipBoated) (hn : t.chain = s.chain) (o : PwrReq) : reqMet t o = reqMet s o := by
  unfold reqMet reqMembers memberDone crewAwake crewInRow crewState halfBoated halfEasy domOf
  rw [hc, hh, hw, hb, hn]

/-- A request that takes nothing away, wakes nothing and is not met is kept, and no ring of completions changes. -/
theorem powerState_waits (s : State) (src : Nat) (r : PwrReq) (l : List Nat)
    (ho : ∀ o ∈ s.pwr.reqs, ¬ (r.state < o.state ∧ reqsMeet o r = true)) (hl : ∀ q ∈ l, crewState s q ≤ r.state)
    (hm : ∀ o ∈ s.pwr.reqs ++ [r], reqMet s o = false) :
    let t := settleReqs (l.foldl (fun s q => wakeFor s q r.state) (requested s src r))
    t.pwr = { s.pwr with reqs := s.pwr.reqs ++ [r] } ∧ t.cq.cq = s.cq.cq := by
  have hold : superseded s r = [] := List.filter_eq_nil_iff.mpr fun o h => by simpa using ho o h
  have hkeep : (s.pwr.reqs.filter fun o => !(decide (r.state < o.state) && reqsMeet o r)) = s.pwr.reqs :=
    List.filter_eq_self.mpr fun o h => by simpa [imp_iff_not_or] using ho o h
  have hp := requested_pwr s src r
  rw [hkeep] at hp
  have hk := requested_keeps s src r
  intro t
  have ht : t = requested s src r := by
    show settleReqs _ = _
    rw [wakeFor_foldl_none l r.state _ fun q hq => by rw [crewState_requested]; exact hl q hq]
    refine settleReqs_unmet _ fun o h => ?_
    rw [hp] at h
    rw [reqMet_congr (clk_eq_of_hide hk (by decide)) (by rw [hp]) (by rw [hp]) (by rw [hp]) (chain_eq_of_hide hk (by decide)), hm o h]
  rw [ht]
  refine ⟨hp, ?_⟩
  rw [requested, hold]
  rfl

/-! ## Time-outs and idle crews -/

theorem exec_powerRequestTimeout_early {s : State} {i : Nat} {r : PwrReq} (h : s.pwr.reqs[i]? = some r)
    (ht : s.clk.ticks < r.tick + 10000000) : exec (.powerRequestTimeout i) s = .next s := by
  show execPowerRequestTimeout i s = _
  simp only [execPowerRequestTimeout, h]
  rw [if_neg fun hc => absurd hc.2 (Nat.not_le.mpr ht)]

theorem exec_powerRequestTimeout_none {s : State} {i : Nat} {r : PwrReq} (h : s.pwr.reqs[i]? = some r) (hf : s.glb.fw = .ready)
    (ht : r.tick + 10000000 ≤ s.clk.ticks) (hm : ∀ m ∈ reqMembers s r, memberDone s r m.1 = false) :
    exec (.powerRequestTimeout i) s =
      .next (answerLate { s with pwr := { s.pwr with reqs := dropAt s.pwr.reqs i } } r.src r.cid stBusy 0) := by
  have hl : (reqMembers s r).filter (fun m => !memberDone s r m.1) = reqMembers s r :=
    List.filter_eq_self.mpr fun m h => by rw [hm m h]; rfl
  show execPowerRequestTimeout i s = _
  simp only [execPowerRequestTimeout, h]
  rw [if_pos ⟨hf, ht⟩, hl, if_pos (Or.inr rfl)]

theorem exec_autoPaddle_idle {s : State} {q : CrewIx} (hf : s.glb.fw = .ready) (ha : crewAwake s q.val = true)
    (hp : paddleMay s q.val = true) (h : s.pwr.autoPaddle = true)
    (ht : (domOf s q.val).idleAt + 100 * s.pwr.idleUs.toNat ≤ s.clk.ticks) :
    exec (.autoPaddle q) s = .next (settleReqs (enterPaddle s q.val)) :=
  if_pos ⟨h, hf, ha, hp, ht⟩

theorem exec_autoPaddle_busy {s : State} {q : CrewIx}
    (h : s.pwr.autoPaddle = false ∨ s.clk.ticks < (domOf s q.val).idleAt + 100 * s.pwr.idleUs.toNat) :
    exec (.autoPaddle q) s = .next s := by
  refine if_neg ?_
  rintro ⟨h1, -, -, -, h2⟩
  rcases h with h | h
  · simp [h] at h1
  · omega

/-! ## Members enter Paddle -/

theorem paddleMay_domsOnly {s u : State} (h : DomsOnly s u) (q : Nat) : paddleMay u q = paddleMay s q := by
  rw [h]
  rfl

/-- A crew that is awake is not in Paddle, nor waking from it. -/
theorem crewAwake_modDom_paddle (s : State) (q : Nat) : crewAwake (enterPaddle s q) q = false := by
  unfold crewAwake crewInRow enterPaddle
  rw [domOf_modDom_self]
  rfl

theorem crewAwake_enterPaddle_ne (s : State) {p q : Nat} (h : p ≠ q) : crewAwake (enterPaddle s q) p = crewAwake s p := by
  unfold crewAwake crewInRow enterPaddle
  rw [domOf_modDom_ne _ _ h]
  rfl

theorem enterMember_paddle {r : PwrReq} (hr : r.state = 1) (u : State) (a : Nat) :
    enterMember r u a = if (crewAwake u a && paddleMay u a) = true then enterPaddle u a else u := by
  rw [enterMember, if_pos hr]

/-- The crews of `l` that are awake and may, enter Paddle. -/
theorem enterMembers_paddle {r : PwrReq} (hr : r.state = 1) (s : State) (l : List Nat) (u : State) (hu : DomsOnly s u) :
    let t := l.foldl (enterMember r) u
    DomsOnly s t ∧ ∀ d, domOf t d = if d ∈ l ∧ crewAwake u d = true ∧ paddleMay s d = true then
      { domOf u d with paddle := true, waking := false } else domOf u d := by
  induction l generalizing u with
  | nil => exact ⟨hu, fun d => by simp⟩
  | cons a l ih =>
    have hstep := enterMember_paddle hr u a
    rw [paddleMay_domsOnly hu] at hstep
    by_cases hc : crewAwake u a = true ∧ paddleMay s a = true
    · rw [if_pos (by simp [hc.1, hc.2])] at hstep
      obtain ⟨hd, hl⟩ := ih (enterPaddle u a) (hu.trans (domsOnly_modDom u a _))
      rw [List.foldl_cons, hstep]
      refine ⟨hd, fun d => (hl d).trans ?_⟩
      by_cases hda : d = a
      · subst hda
        rw [crewAwake_modDom_paddle, if_neg (by simp), if_pos ⟨by simp, hc⟩]
        exact domOf_modDom_self u d _
      · rw [crewAwake_enterPaddle_ne u hda, show domOf (enterPaddle u a) d = domOf u d from domOf_modDom_ne u _ hda]
        simp [hda]
    · rw [if_neg (by simpa using hc)] at hstep
      obtain ⟨hd, hl⟩ := ih u hu
      rw [List.foldl_cons, hstep]
      refine ⟨hd, fun d => (hl d).trans ?_⟩
      by_cases hda : d = a
      · subst hda
        simp [hc]
      · simp [hda]

end Sys2Proof.Machine
end

section
/-!
SUPPORT. Halves and the chip in Easy and Boated (12 R388, R391): tables changed for one half, what an entry loses, and what a wake brings back.
-/
namespace Sys2Proof.Machine
open Host (Outcome)

/-! ## Tables -/

section
variable {α : Type}

theorem tfind_append (a b : Tbl α) (i : Nat) : tfind (a ++ b) i = (tfind a i).or (tfind b i) := by
  induction a with
  | nil => rfl
  | cons p a ih =>
    obtain ⟨k, v⟩ := p
    by_cases h : k = i <;> simp [tfind, h, ih]

theorem tfind_filter_key (f : Nat → Bool) (t : Tbl α) (i : Nat) : tfind (t.filter fun p => f p.1) i = if f i then tfind t i else none := by
  induction t with
  | nil => simp
  | cons p t ih =>
    obtain ⟨k, v⟩ := p
    by_cases hk : k = i
    · subst hk
      by_cases hf : f k <;> simp [tfind, hf, ih]
    · by_cases hf : f k <;> simp [tfind, hf, hk, ih]

/-- What a table that lists `g` under `n` keys from `b` on reads as. -/
theorem tfind_range_map (b n : Nat) (g : Nat → α) (i : Nat) :
    tfind ((List.range n).map fun k => (b + k, g (b + k))) i = if b ≤ i ∧ i < b + n then some (g i) else none := by
  induction n with
  | zero =>
    rw [if_neg (by omega)]
    rfl
  | succ n ih =>
    rw [List.range_succ, List.map_append, tfind_append, ih]
    by_cases hi : i = b + n
    · subst hi
      simp [tfind]
    · have hn : ¬ b + n = i := fun h => hi h.symm
      by_cases hr : b ≤ i ∧ i < b + n
      · rw [if_pos hr, if_pos (by omega)]
        rfl
      · rw [if_neg hr, if_neg (by omega)]
        simp [tfind, hn]

/-- A table whose entries are changed by their keys, where the change leaves what an unlisted key reads as. -/
theorem tget_map_key (g : Nat → α → α) (d : α) (h : ∀ k, g k d = d) (t : Tbl α) (i : Nat) :
    tget d (t.map fun p => (p.1, g p.1 p.2)) i = g i (tget d t i) := by
  unfold tget
  induction t with
  | nil => exact (h i).symm
  | cons p t ih =>
    obtain ⟨k, v⟩ := p
    by_cases hk : k = i
    · simp [tfind, hk]
    · simpa [tfind, hk] using ih

end

/-- The seats of a half are changed by `f`, the others are not. -/
theorem seatOf_halfSeats {s t : State} {h w : Nat} (f : Seat → Seat) (hs : t.seats = halfSeats s h f) :
    seatOf t w = if halfOf w = h then f (seatOf s w) else seatOf s w := by
  have hw : 1152 * (w / 1152) ≤ w ∧ w < 1152 * (w / 1152) + 1152 := by omega
  rw [seatOf, hs, halfSeats, tget, tfind_append, tfind_append, tfind_filter_key fun k => decide (k < 1152 * h),
    tfind_filter_key fun k => decide (1152 * (h + 1) ≤ k), tfind_range_map (1152 * h) 1152 fun k => f (seatOf s k), halfOf]
  by_cases hh : w / 1152 = h
  · subst hh
    rw [if_pos hw, if_pos rfl]
    simp [show ¬ w < 1152 * (w / 1152) by omega]
  · rw [if_neg hh, if_neg (by omega : ¬ (1152 * h ≤ w ∧ w < 1152 * h + 1152)), seatOf, tget]
    rcases Nat.lt_or_ge w (1152 * h) with hlt | hge
    · simp [hlt, show ¬ 1152 * (h + 1) ≤ w by omega]
    · simp [show ¬ w < 1152 * h by omega, show 1152 * (h + 1) ≤ w by omega]

/-! ## A half stops and its state is set -/

theorem halfOf_setHalf (s : State) (h n : Nat) : tget 0 (setHalf s h n).pwr.half h = n := tget_tset_self _ _ _ _

theorem stopDomain_stop (s : State) (d : Nat) : (domOf (stopDomain s d) d).stop = .generator := by
  unfold stopDomain
  dsimp only
  rw [domOf_modDom_self]

theorem domOf_stopDomain_ne (s : State) {d e : Nat} (h : e ≠ d) : domOf (stopDomain s d) e = domOf s e := domOf_modDom_ne s _ h

/-- Every generator of the half has stopped. -/
theorem stopHalf_stop (s : State) {h d : Nat} (hd : d / 48 = h) : (domOf (stopHalf s h) d).stop = .generator := by
  have hk : d = 48 * h + d % 48 := by omega
  have := get_foldl (fun s c => (domOf s (48 * h + c)).stop)
    (fun s c => modDom (stopDomain s (48 * h + c)) (48 * h + c) fun m => { m with paddle := false, waking := false, stretched := false })
    (fun _ _ => .generator) (fun s a => ?_) (fun s a b hb => ?_) (fun _ _ => rfl) (List.range 48) s (d % 48)
  · rw [if_pos (List.mem_range.mpr (Nat.mod_lt _ (by omega))), ← hk] at this
    exact this
  · rw [domOf_modDom_self]
    exact stopDomain_stop s _
  · rw [domOf_modDom_ne _ _ (by omega), domOf_stopDomain_ne _ (by omega)]

/-! ## Easy -/

theorem enterEasy_keeps (s : State) (h : Nat) : (enterEasy s h).hide [.clk, .pwr] = s.hide [.clk, .pwr] :=
  enterEasy_hide s h (by decide) (by decide)

theorem enterEasy_stop (s : State) {h d : Nat} (hd : d / 48 = h) : (domOf (enterEasy s h) d).stop = .generator := by
  rw [domOf_congr (clk_eq_of_hide (setHalf_hide (ps := [.pwr]) (stopHalf s h) h 2 (by decide)) (by decide) : (enterEasy s h).clk = _)]
  exact stopHalf_stop s hd

/-! ## Boated -/

theorem losePower_ctx (s : State) (h c : Nat) : ctxOf (losePower s h) c = bothGens (ctxOf s c) fun g => g.powerLost h := by
  refine tget_map (fun x => bothGens x fun g => g.powerLost h) {} {} ?_ s.ctxs.ctx c
  simp [bothGens, Gen.powerLost]

/-- A generation that has segments and a block in a half that loses its power is incomplete (11 R354). -/
theorem powerLost_incomplete {g : Gen} {h : Nat} (hs : g.state ≠ .empty) (hn : 0 < g.segs) (hi : g.inHalf h = true) :
    (g.powerLost h).complete = false := by
  have hf : (g.powerLost h).failed = (g.failed.filter fun p => decide (p.1 < g.segs)) ++
      ((List.range g.segs).filter fun i => !(g.failed.any fun p => p.1 == i)).map fun i => (i, segPowerLost) := by
    unfold Gen.powerLost
    dsimp only
    rw [if_pos ⟨hs, hi⟩]
  have hne : (g.powerLost h).failed ≠ [] := by
    rw [hf]
    by_cases h0 : g.failed.any (fun p => p.1 == 0) = true
    · obtain ⟨p, hp, hp0⟩ := List.any_eq_true.mp h0
      have hp0 : p.1 = 0 := by simpa using hp0
      refine List.append_ne_nil_of_left_ne_nil (List.ne_nil_of_mem (a := p) ?_) _
      rw [List.mem_filter]
      exact ⟨hp, by simp [hp0, hn]⟩
    · refine List.append_ne_nil_of_right_ne_nil _ (List.ne_nil_of_mem (a := (0, segPowerLost)) ?_)
      rw [List.mem_map]
      exact ⟨0, List.mem_filter.mpr ⟨List.mem_range.mpr hn, by simp [h0]⟩, rfl⟩
  unfold Gen.complete
  simp [List.isEmpty_eq_false_iff.mpr hne]

/-- The state from which a half's memories are lost: its generators have stopped and its generations know. -/
theorem boatedFrom_keeps (s : State) (h : Nat) :
    (losePower (setHalf (stopHalf s h) h 3) h).hide [.ctxs, .clk, .pwr] = s.hide [.ctxs, .clk, .pwr] := by
  simp (disch := decide) only [losePower_hide, setHalf_hide, stopHalf_hide]

theorem enterBoated_seat (s : State) (h w : Nat) :
    seatOf (enterBoated s h) w = if halfOf w = h then (seatOf s w).unpowered else seatOf s w := by
  have hs : (enterBoated s h).seats = s.seats.map fun p => (p.1, if halfOf p.1 = h then p.2.unpowered else p.2) := by
    have he : (enterBoated s h).seats =
      (losePower (setHalf (stopHalf s h) h 3) h).seats.map fun p => if halfOf p.1 = h then (p.1, p.2.unpowered) else p := rfl
    rw [he, seats_eq_of_hide (boatedFrom_keeps s h) (by decide)]
    refine List.map_congr_left fun p _ => ?_
    split <;> rfl
  rw [seatOf, hs]
  exact tget_map_key (fun k x => if halfOf k = h then x.unpowered else x) {} (fun k => by split <;> rfl) s.seats w

theorem enterBoated_pool (s : State) (h : Nat) : poolOf (enterBoated s h) h =
    { dead := (poolOf (losePower (setHalf (stopHalf s h) h 3) h) h).dead, on := 0, ready := 0 } := tget_tput_self _ _ _ _

theorem enterBoated_otherPools (s : State) (h : Nat) : OtherPools s (enterBoated s h) h := fun k hk =>
  (tget_tput_ne _ _ _ hk).trans (by rw [pools_eq_of_hide (boatedFrom_keeps s h) (by decide)]; rfl)

theorem enterBoated_ctx (s : State) (h c : Nat) : ctxOf (enterBoated s h) c = bothGens (ctxOf s c) fun g => g.powerLost h := by
  have hc : (setHalf (stopHalf s h) h 3).ctxs = s.ctxs :=
    ctxs_eq_of_hide (ps := [.clk, .pwr]) (by simp (disch := decide) only [setHalf_hide, stopHalf_hide]) (by decide)
  have he : (enterBoated s h).ctxs = (losePower (setHalf (stopHalf s h) h 3) h).ctxs := rfl
  have hl := losePower_ctx (setHalf (stopHalf s h) h 3) h c
  rw [ctxOf, ← he, ctxOf, hc] at hl
  exact hl

theorem enterBoated_boated (s : State) (h : Nat) : halfBoated (enterBoated s h) h = true := by
  have : (enterBoated s h).pwr = (setHalf (stopHalf s h) h 3).pwr := rfl
  rw [halfBoated, this, halfOf_setHalf]
  rfl

/-! ## Members enter Easy and Boated -/

section
variable {s : State} {i : Nat} {r : PwrReq} (hr : s.pwr.reqs[i]? = some r) (hf : s.glb.fw = .ready)
include hr hf

theorem exec_powerStateEntry : exec (.powerStateEntry i) s =
    .next (settleReqs (enterChip r (((reqMembers s r).map (·.1)).foldl (enterMember r) s))) := by
  show execPowerStateEntry i s = _
  simp only [execPowerStateEntry, hr]
  exact if_pos hf

/-- A request of Row or Paddle has the unit's crews as its members. -/
theorem exec_powerStateEntry_paddle (h1 : r.state = 1) : exec (.powerStateEntry i) s =
    .next (settleReqs ((unitCrews r.unit.toNat).foldl (enterMember r) s)) := by
  rw [exec_powerStateEntry hr hf, enterChip, if_neg (by omega), reqMembers, if_pos (by omega), List.map_map]
  simp only [Function.comp_def, List.map_id']

/-- A request of a half has the half as its member. -/
theorem exec_powerStateEntry_half (h2 : 2 ≤ r.state) (hu : uLevel r.unit.toNat = 2) : exec (.powerStateEntry i) s =
    .next (settleReqs (enterMember r s (uHalf r.unit.toNat))) := by
  rw [exec_powerStateEntry hr hf, enterChip, if_neg (by omega), reqMembers, if_neg (by omega), unitHalves, if_pos hu]
  rfl

end

section
variable {r : PwrReq} {s : State} {m : Nat} (hh : tget 0 s.pwr.half m < r.state) (hw : tget false s.pwr.waking m = false)
include hh hw

theorem enterMember_easy (hr : r.state = 2) : enterMember r s m = if easyMay s m then enterEasy s m else s := by
  rw [enterMember, if_neg (by omega), if_neg (by simp [hw]; omega), if_pos hr]

theorem enterMember_boated (hr : r.state = 3) : enterMember r s m = if boatedMay s m then enterBoated s m else s := by
  rw [enterMember, if_neg (by omega), if_neg (by simp [hw]; omega), if_neg (by omega), if_pos hr]

end

/-! ## Ports -/

/-- Every port of `t` is in the state of training in which it is in `s`. -/
def SamePortStates (s t : State) : Prop := ∀ p, (portOf t p).state = (portOf s p).state

theorem SamePortStates.refl (s : State) : SamePortStates s s := fun _ => rfl

theorem SamePortStates.trans {s t u : State} (h : SamePortStates s t) (k : SamePortStates t u) : SamePortStates s u :=
  fun p => (k p).trans (h p)

theorem SamePortStates.foldl {α : Type} {f : State → α → State} (h : ∀ s a, SamePortStates s (f s a)) (l : List α) (s : State) :
    SamePortStates s (l.foldl f s) := by
  induction l generalizing s with
  | nil => exact .refl s
  | cons a l ih => exact (h s a).trans (ih _)

theorem SamePortStates.of_ports {s t : State} (h : t.fab.ports = s.fab.ports) : SamePortStates s t := fun p => by
  rw [portOf, portOf, h]

theorem SamePortStates.of_hide {ps : List Part} {s t : State} (h : t.hide ps = s.hide ps) (hp : Part.fab ∉ ps) : SamePortStates s t :=
  .of_ports (by rw [fab_eq_of_hide h hp])

theorem samePortStates_modPort (s : State) (p : Nat) (f : Port → Port) (h : ∀ x, (f x).state = x.state) :
    SamePortStates s (modPort s p f) := fun q => by
  by_cases hq : q = p
  · rw [hq, portOf_modPort_self, h]
  · rw [portOf_modPort_ne s f hq]

theorem chargeFor_state (x : Port) (t : TxPkt) : (chargeFor x t).state = x.state := rfl

theorem samePortStates_leaveFirst (s : State) (h : Nat) : SamePortStates s (leaveFirst s h) := by
  unfold leaveFirst
  split
  · split
    · exact .of_ports rfl
    · exact .refl s
  · exact .refl s

theorem samePortStates_numbered (s : State) (d h : Nat) : SamePortStates s (numbered s d h) := by
  unfold numbered
  split
  · exact .refl s
  · exact .of_ports rfl

theorem samePortStates_sendOne (s : State) (p i : Nat) : SamePortStates s (sendOne s p i) := by
  unfold sendOne
  dsimp only
  split
  · exact .refl s
  · next k _ =>
    have hq (u : State) : SamePortStates u (modPort u p fun x => { x with tx := dropAt x.tx i, lastRsp := fIsRsp k.hdr.toNat }) :=
      samePortStates_modPort u p _ fun _ => rfl
    split
    · exact (hq s).trans (.of_ports rfl)
    · refine SamePortStates.trans ?_ (samePortStates_modPort _ p _ fun _ => rfl)
      exact ((hq s).trans (samePortStates_numbered _ _ _)).trans (samePortStates_leaveFirst _ _)

theorem samePortStates_resendOne {s t : State} {p : Nat} (h : resendOne s p = some t) : SamePortStates s t := by
  unfold resendOne at h
  dsimp only at h
  split at h
  · split at h
    · cases h
      exact samePortStates_modPort s p _ fun _ => rfl
    · cases h
  · cases h

theorem samePortStates_pumpN (p n : Nat) (s : State) : SamePortStates s (pumpN p n s) := by
  induction n generalizing s with
  | zero => exact .refl s
  | succ n ih =>
    unfold pumpN
    split
    · exact .refl s
    split
    · split
      · next t ht => exact (samePortStates_resendOne ht).trans (ih t)
      · exact .refl s
    · split
      · exact (samePortStates_sendOne s p _).trans (ih _)
      · exact .refl s

theorem samePortStates_txQueue (s : State) (p : Nat) (k : Pkt) : SamePortStates s (txQueue s p k) :=
  (samePortStates_modPort s p (fun x => { x with tx := x.tx ++ [k] }) fun _ => rfl).trans (samePortStates_pumpN p _ _)

theorem samePortStates_routeWith {refuse : State → Pkt → State} (h : ∀ s k, SamePortStates s (refuse s k)) (s : State) (k : Pkt) :
    SamePortStates s (routeWith refuse s k) := by
  unfold routeWith
  dsimp only
  split
  · exact samePortStates_txQueue s _ k
  · split
    · exact .of_ports rfl
    · exact h s k

theorem samePortStates_countFabNack (s : State) (c : Nat) : SamePortStates s (countFabNack s c) := by
  unfold countFabNack
  split
  · exact .of_ports rfl
  · exact .of_hide (countNack_hide (ps := [.noc]) s c (by decide)) (by decide)

theorem samePortStates_giveEngine (s : State) (f : Ftag) (ty st word : Nat) (data : List Granule) :
    SamePortStates s (giveEngine s f ty st word data) := by
  unfold giveEngine
  dsimp only
  refine SamePortStates.trans ?_ (.of_hide (sendBack_hide (ps := [.noc]) _ _ _ _ _ _ _ (by decide)) (by decide))
  split
  · exact samePortStates_countFabNack s st
  · exact .refl s

theorem samePortStates_settleFtag (s : State) (t : Nat) (f : Ftag) : SamePortStates s (settleFtag s t f) := by
  unfold settleFtag
  split <;> exact .of_ports rfl

theorem samePortStates_gatherFtag (s : State) (t : Nat) (f : Ftag) : SamePortStates s (gatherFtag s t f) := by
  unfold gatherFtag
  dsimp only
  repeat' split
  · exact .of_ports rfl
  all_goals exact (samePortStates_settleFtag s t f).trans (samePortStates_giveEngine _ _ _ _ _ _)

theorem samePortStates_ftagAnswer (s : State) (t : Nat) (which : Pkt → Bool) (a : Reply) : SamePortStates s (ftagAnswer s t which a) := by
  unfold ftagAnswer
  dsimp only
  repeat' split
  iterate 2 exact .refl s
  iterate 3 exact (samePortStates_settleFtag s t _).trans (samePortStates_giveEngine _ _ _ _ _ _)
  all_goals exact samePortStates_gatherFtag s t _

theorem samePortStates_answerFabric (s : State) (h taken ty st word : Nat) (data : List Granule) :
    SamePortStates s (answerFabric s h taken ty st word data) := by
  unfold answerFabric
  dsimp only
  refine SamePortStates.trans ?_ (samePortStates_routeWith (fun s _ => .refl s) _ _)
  split
  · exact samePortStates_countFabNack s st
  · exact .refl s

theorem samePortStates_refusePort (s : State) (k : Pkt) : SamePortStates s (refusePort s k) := by
  unfold refusePort
  dsimp only
  split
  · exact .refl s
  split
  · exact (samePortStates_leaveFirst s _).trans (samePortStates_ftagAnswer _ _ _ _)
  · exact samePortStates_answerFabric s _ _ _ _ _ _

theorem samePortStates_routePkt (s : State) (k : Pkt) : SamePortStates s (routePkt s k) :=
  samePortStates_routeWith samePortStates_refusePort s k

/-- A port that leaves ACTIVE enters its new state, and no other port's state changes. -/
theorem portDown_state (s : State) (p : Nat) (st : PortSt) (fast : Bool) :
    (portOf (portDown s p st fast) p).state = st ∧ ∀ q, q ≠ p → (portOf (portDown s p st fast) q).state = (portOf s q).state := by
  let s1 := modPort s p fun x => { freshPort x st with fast := fast }
  have h : SamePortStates s1 (portDown s p st fast) := by
    unfold portDown
    dsimp only
    refine SamePortStates.trans ?_ (SamePortStates.foldl samePortStates_routePkt _ _)
    split
    · refine SamePortStates.trans (t := modPort _ p fun x => { x with failovers := satInc x.failovers }) ?_ (.of_ports rfl)
      exact SamePortStates.trans (.of_ports rfl) (samePortStates_modPort _ p _ fun _ => rfl)
    · exact .of_ports rfl
  refine ⟨(h p).trans ?_, fun q hq => (h q).trans ?_⟩
  · exact congrArg Port.state (portOf_modPort_self s p _)
  · exact congrArg Port.state (portOf_modPort_ne s _ hq)

theorem portOff_state (s : State) (p : Nat) :
    (portOf (portOff s p) p).state = .off ∧ ∀ q, q ≠ p → (portOf (portOff s p) q).state = (portOf s q).state := by
  unfold portOff
  split
  · exact portDown_state s p .off false
  · exact ⟨congrArg Port.state (portOf_modPort_self s p _), fun q hq => congrArg Port.state (portOf_modPort_ne s _ hq)⟩

/-! ## The chip in Boated -/

/-- The state with the ports `l` OFF. -/
def portsOff (l : List Nat) (s : State) : State := l.foldl (fun s p => if (portOf s p).state = .off then s else portOff s p) s

theorem portsOff_state (l : List Nat) (s : State) (p : Nat) :
    (portOf (portsOff l s) p).state = if p ∈ l then .off else (portOf s p).state := by
  refine get_foldl (fun s p => (portOf s p).state) (fun s p => if (portOf s p).state = .off then s else portOff s p) (fun _ _ => .off)
    (fun s a => ?_) (fun s a b hb => ?_) (fun _ _ => rfl) l s p
  · split
    · assumption
    · exact (portOff_state s a).1
  · split
    · rfl
    · exact (portOff_state s a).2 b hb

theorem enterChipBoated_fab (s : State) : (enterChipBoated s).fab = (portsOff (List.range 12) s).fab := by
  unfold enterChipBoated portsOff
  exact fab_eq_of_hide (ps := [.clk, .pwr]) (by simp (disch := decide) only [↓hide_pwr, stopDomain_hide]) (by decide)

theorem enterChipBoated_clk (s : State) :
    (enterChipBoated s).clk = (stopDomain (stopDomain (portsOff (List.range 12) s) 96) 97).clk := by
  unfold enterChipBoated portsOff
  dsimp only

theorem enterChipBoated_port (s : State) {p : Nat} (hp : p < 12) : (portOf (enterChipBoated s) p).state = .off := by
  have := portsOff_state (List.range 12) s p
  rw [if_pos (List.mem_range.mpr hp), portOf, ← enterChipBoated_fab] at this
  exact this

theorem enterChipBoated_stop (s : State) {d : Nat} (hd : d = 96 ∨ d = 97) : (domOf (enterChipBoated s) d).stop = .generator := by
  rw [domOf_congr (enterChipBoated_clk s)]
  rcases hd with rfl | rfl
  · rw [domOf_stopDomain_ne _ (by decide), stopDomain_stop]
  · rw [stopDomain_stop]

/-- Both halves in Boated have nothing more to enter. -/
theorem enterMembers_boated {r : PwrReq} {s : State} (hr : r.state = 3) (h0 : halfBoated s 0 = true) (h1 : halfBoated s 1 = true) :
    [0, 1].foldl (enterMember r) s = s := by
  have h (m : Nat) (hm : halfBoated s m = true) : enterMember r s m = s := by
    have : tget 0 s.pwr.half m = 3 := by simpa [halfBoated] using hm
    rw [enterMember, if_neg (by omega), if_pos (Or.inl (by omega))]
  rw [List.foldl_cons, h 0 h0, List.foldl_cons, h 1 h1, List.foldl_nil]

theorem exec_powerStateEntry_chip {s : State} {i : Nat} {r : PwrReq} (hr : s.pwr.reqs[i]? = some r) (hf : s.glb.fw = .ready)
    (h3 : r.state = 3) (hu : uLevel r.unit.toNat = 3) (h0 : halfBoated s 0 = true) (h1 : halfBoated s 1 = true)
    (hc : s.pwr.chipBoated = false) (hp : ∀ p, p < 12 → (portOf s p).unacked = []) :
    exec (.powerStateEntry i) s = .next (settleReqs (enterChipBoated s)) := by
  have hm : (reqMembers s r).map (·.1) = [0, 1] := by
    rw [reqMembers, if_neg (by omega), unitHalves, if_neg (by omega), List.map_map]
    rfl
  have ha : ((List.range 12).all fun p => (portOf s p).unacked.isEmpty) = true :=
    List.all_eq_true.mpr fun p hpl => by rw [hp p (List.mem_range.mp hpl)]; rfl
  rw [exec_powerStateEntry hr hf, hm, enterMembers_boated h3 h0 h1, enterChip, if_pos ⟨h3, hu, hc, by rw [h0, h1]; rfl, ha⟩]

end Sys2Proof.Machine
end

section
/-!
SUPPORT. Wakes that complete (12 R390, R391, 05 R175): a half that leaves Easy, with the accesses held for its pool, and one that leaves Boated.
-/
namespace Sys2Proof.Machine
open Host (Outcome)

/-! ## An access to a pool that runs -/

/-- From `s` to `t` the pool of half `h` may have changed, but not what is held for it, and no other pool, nor any power state. -/
structure ReachesPool (s t : State) (h : Nat) : Prop where
  pwr : t.pwr = s.pwr
  held : (poolOf t h).bar2Held = (poolOf s h).bar2Held
  others : OtherPools s t h

theorem ReachesPool.refl (s : State) (h : Nat) : ReachesPool s s h := ⟨rfl, rfl, fun _ _ => rfl⟩

theorem ReachesPool.trans {s t u : State} {h : Nat} (a : ReachesPool s t h) (b : ReachesPool t u h) : ReachesPool s u h :=
  ⟨b.pwr.trans a.pwr, b.held.trans a.held, fun k hk => (b.others k hk).trans (a.others k hk)⟩

theorem reachesPool_of_eq {s t : State} (h : Nat) (hp : t.pwr = s.pwr) (hq : t.pools = s.pools) : ReachesPool s t h :=
  ⟨hp, by rw [poolOf, hq]; rfl, fun k _ => by rw [poolOf, hq]; rfl⟩

theorem reachesPool_modPool (s : State) (h : Nat) (f : Pool → Pool) (hf : ∀ p, (f p).bar2Held = p.bar2Held) : ReachesPool s (modPool s h f) h :=
  ⟨rfl, by rw [poolOf_modPool_self, hf], fun _ hk => poolOf_modPool_ne s f hk⟩

theorem reachesPool_latchDeps (s : State) (h : Nat) : ReachesPool s (latchDeps s) h := reachesPool_of_eq h rfl rfl

theorem reachesPool_bar2Answer (s : State) (h v : Nat) : ReachesPool s (bar2Answer s v) h := reachesPool_of_eq h rfl rfl

theorem bar2Pool_reaches (s : State) (h o len : Nat) (wr : Option Mem) (he : halfEasy s h = false) :
    ReachesPool s (bar2Pool s h o len wr) h := by
  have hb : ReachesPool s (badAccess (if wr.isNone then bar2Refuse s else s)) h := by
    split <;> exact reachesPool_of_eq h rfl rfl
  unfold bar2Pool
  dsimp only
  rw [if_neg (by simp [he] : ¬ halfEasy s h = true)]
  split
  · exact hb
  split
  · split
    · exact reachesPool_of_eq h rfl rfl
    · exact reachesPool_modPool s h _ fun _ => rfl
  · split
    · split <;> exact reachesPool_bar2Answer s h _
    · split
      · exact (reachesPool_modPool s h (fun p => { p with lnd := p.lnd.setWord _ _ }) fun _ => rfl).trans (reachesPool_latchDeps _ h)
      · exact reachesPool_modPool s h _ fun _ => rfl

/-- A held write to a segment that serves stores its bytes (13 R408). -/
theorem bar2Pool_stores {s : State} {h o len : Nat} (d : Mem) (he : halfEasy s h = false) (hb : halfBoated s h = false)
    (hw : o + len ≤ 0x50000000) (hl : 0 < len) (hg : o / 64 = (o + len - 1) / 64) (hs : segOpen (poolOf s h) o = true) :
    StoresAt (poolOf s h).mem (poolOf (bar2Pool s h o len (some d)) h).mem o (mbytes d 0 len) := by
  have heq : bar2Pool s h o len (some d) = poolWrite s h o (mbytes d 0 len) := by
    have hwin : ¬ (poolWindow ≤ o ∧ o + len ≤ poolEnd) := by unfold poolWindow; omega
    unfold bar2Pool
    simp [he, hb, hl, ← hg, hs, show o + len ≤ poolWindow from hw]
    intro h1 h2
    exact absurd ⟨h1, h2⟩ hwin
  rw [heq, poolWrite, poolOf_modPool_self]
  exact storesAt_mwrites _ _ _

/-! ## A half leaves Easy -/

/-- The state in which the accesses held for the pool of half `h` take place. -/
def easyLeft (s : State) (h : Nat) : State :=
  modPool { setHalf (startHalf s h) h 0 with
    seats := halfSeats (setHalf (startHalf s h) h 0) h fun x => { x with wst := x.wst.afresh s.clk.ticks } } h fun p => { p with bar2Held := [] }

theorem leaveEasy_eq (s : State) (h : Nat) :
    leaveEasy s h = (poolOf s h).bar2Held.foldl (fun s a => bar2Pool s h a.1 a.2.1 a.2.2) (easyLeft s h) := rfl

theorem started_keeps (s : State) (h : Nat) : (setHalf (startHalf s h) h 0).hide [.clk, .pwr] = s.hide [.clk, .pwr] := by
  simp (disch := decide) only [setHalf_hide, startHalf_hide]

theorem easyLeft_half (s : State) (h : Nat) : tget 0 (easyLeft s h).pwr.half h = 0 := halfOf_setHalf (startHalf s h) h 0

theorem easyLeft_pool (s : State) (h : Nat) : poolOf (easyLeft s h) h = { poolOf s h with bar2Held := [] } := by
  have hp := pools_eq_of_hide (started_keeps s h) (by decide)
  rw [easyLeft, poolOf_modPool_self]
  simp only [poolOf, hp]

theorem easyLeft_otherPools (s : State) (h : Nat) : OtherPools s (easyLeft s h) h := fun k hk => by
  have hp := pools_eq_of_hide (started_keeps s h) (by decide)
  rw [easyLeft, poolOf_modPool_ne _ _ hk]
  simp only [poolOf, hp]

theorem easyLeft_seat (s : State) (h w : Nat) : seatOf (easyLeft s h) w =
    if halfOf w = h then { seatOf s w with wst := (seatOf s w).wst.afresh s.clk.ticks } else seatOf s w := by
  have hs : ∀ v, seatOf (setHalf (startHalf s h) h 0) v = seatOf s v := fun v => by
    rw [seatOf, seats_eq_of_hide (started_keeps s h) (by decide)]
    rfl
  have := seatOf_halfSeats (s := setHalf (startHalf s h) h 0) (t := easyLeft s h) (h := h) (w := w)
    (fun x => { x with wst := x.wst.afresh s.clk.ticks }) rfl
  rwa [hs] at this

theorem halfEasy_of_zero {s : State} {h : Nat} (hz : tget 0 s.pwr.half h = 0) : halfEasy s h = false ∧ halfBoated s h = false := by
  rw [halfEasy, halfBoated, hz]
  exact ⟨rfl, rfl⟩

/-- The accesses held change the half's pool, and hold nothing again. -/
theorem heldAccesses_reach (l : List (Nat × Nat × Option Mem)) (s : State) (h : Nat) (hz : tget 0 s.pwr.half h = 0) :
    ReachesPool s (l.foldl (fun s a => bar2Pool s h a.1 a.2.1 a.2.2) s) h := by
  induction l generalizing s with
  | nil => exact .refl s h
  | cons a l ih =>
    have ha := bar2Pool_reaches s h a.1 a.2.1 a.2.2 (halfEasy_of_zero hz).1
    exact ha.trans (ih _ (by rw [ha.pwr, hz]))

theorem leaveEasy_reaches (s : State) (h : Nat) : ReachesPool (easyLeft s h) (leaveEasy s h) h := by
  rw [leaveEasy_eq]
  exact heldAccesses_reach _ _ h (easyLeft_half s h)

theorem leaveEasy_seats (s : State) (h : Nat) : (leaveEasy s h).seats = (easyLeft s h).seats := by
  rw [leaveEasy_eq]
  exact seats_eq_of_hide (ps := [.str, .pwr, .glb, .noc, .pools]) (hide_foldl _ _ _ fun u a =>
    bar2Pool_hide u h _ _ _ (by decide) (by decide) (by decide) (by decide) (by decide)) (by decide)

/-! ## A half leaves Boated -/

/-- The half's memories are zero and known to be lost; its zero fills are in hand. -/
def boatedLeft (s : State) (h : Nat) : State :=
  let s1 := losePower (setHalf (startHalf s h) h 0) h
  let z := if s1.ctxs.zeroing.contains (fillHalf h) then s1.ctxs.zeroing else s1.ctxs.zeroing ++ [fillHalf h]
  { s1 with ctxs := { s1.ctxs with zeroing := z }, seats := fillSeats s1 h }

theorem leaveBoated_keeps (s : State) (h : Nat) :
    (leaveBoated s h).seats = (boatedLeft s h).seats ∧ (leaveBoated s h).ctxs = (boatedLeft s h).ctxs ∧
      (leaveBoated s h).pwr.half = (boatedLeft s h).pwr.half := by
  have he : leaveBoated s h = if (boatedLeft s h).pwr.chipBoated then
      (List.range 12).foldl (fun s p => modPort s p fun x =>
        { x with state := if x.state = .off ∧ x.en = true ∧ mayTrain s = true then .detect else x.state })
        (startDomain (startDomain { boatedLeft s h with pwr := { (boatedLeft s h).pwr with chipBoated := false } } 96) 97)
    else boatedLeft s h := rfl
  rw [he]
  split
  · have hk (u : State) (l : List Nat) : (l.foldl (fun s p => modPort s p fun x =>
        { x with state := if x.state = .off ∧ x.en = true ∧ mayTrain s = true then .detect else x.state })
        (startDomain (startDomain u 96) 97)).hide [.clk, .fab] = u.hide [.clk, .fab] := by
      refine (hide_foldl _ _ _ fun v p => modPort_hide v p _ (by decide)).trans ?_
      simp (disch := decide) only [startDomain_hide]
    have h1 := hk { boatedLeft s h with pwr := { (boatedLeft s h).pwr with chipBoated := false } } (List.range 12)
    have hs := seats_eq_of_hide h1 (by decide)
    have hc := ctxs_eq_of_hide h1 (by decide)
    have hp := pwr_eq_of_hide h1 (by decide)
    exact ⟨hs, hc, by rw [hp]⟩
  · exact ⟨rfl, rfl, rfl⟩

theorem boatedLeft_half (s : State) (h : Nat) : tget 0 (boatedLeft s h).pwr.half h = 0 := halfOf_setHalf (startHalf s h) h 0

theorem boatedLeft_zeroing (s : State) (h : Nat) : fillHalf h ∈ (boatedLeft s h).ctxs.zeroing := by
  unfold boatedLeft
  dsimp only
  split
  · next hc => exact List.contains_iff_mem.mp hc
  · simp

theorem boatedLeft_seat (s : State) (h w : Nat) : ∃ t, seatOf (boatedLeft s h) w =
    if halfOf w = h then { seatOf s w with wst := { (seatOf s w).wst.afresh t with work := (seatOf s w).wst.work ++ storeFill } }
    else seatOf s w := by
  have hk : (losePower (setHalf (startHalf s h) h 0) h).hide [.ctxs, .clk, .pwr] = s.hide [.ctxs, .clk, .pwr] := by
    simp (disch := decide) only [losePower_hide, setHalf_hide, startHalf_hide]
  have hs : ∀ v, seatOf (losePower (setHalf (startHalf s h) h 0) h) v = seatOf s v := fun v => by
    rw [seatOf, seats_eq_of_hide hk (by decide)]
    rfl
  have := seatOf_halfSeats (s := losePower (setHalf (startHalf s h) h 0) h) (t := boatedLeft s h) (h := h) (w := w)
    (fun x => { x with wst := { x.wst.afresh (losePower (setHalf (startHalf s h) h 0) h).clk.ticks with
      work := x.wst.work ++ storeFill } }) rfl
  rw [hs] at this
  exact ⟨_, this⟩

theorem mem_storeFill {b : Nat} (h : b < 96) : SideWork.fill (1024 * b) 1024 ∈ storeFill :=
  List.mem_map.mpr ⟨b, List.mem_range.mpr h, rfl⟩

/-! ## The commands -/

section
variable {s : State} {u : Word}

theorem exec_wakeRequest_crew (hl : uLevel u.toNat = 1) (hc : uCrew u.toNat < 48) (hp : (domOf s (uQ u.toNat)).paddle = true)
    (hw : crewWanted s (uQ u.toNat) = true) :
    exec (.wakeRequest u) s = .next (modDom s (uQ u.toNat) fun m => { m with waking := true }) := by
  show execWakeRequest u s = _
  rw [execWakeRequest, if_pos ⟨hl, hc⟩, if_pos (by rw [hp, hw]; rfl)]

theorem exec_wakeRequest_half (hl : uLevel u.toNat = 2) (he : halfEasy s (uHalf u.toNat) = true) (hw : halfWanted s (uHalf u.toNat) = true) :
    exec (.wakeRequest u) s = .next { s with pwr := { s.pwr with waking := tput s.pwr.waking (uHalf u.toNat) true } } := by
  show execWakeRequest u s = _
  rw [execWakeRequest, if_neg (by omega), if_pos hl, if_pos (by rw [he, hw]; rfl), wakeHalf, if_pos he]

theorem exec_wakeComplete_crew (hl : uLevel u.toNat = 1) (hc : uCrew u.toNat < 48) (hp : (domOf s (uQ u.toNat)).paddle = true)
    (hw : (domOf s (uQ u.toNat)).waking = true) : exec (.wakeComplete u) s =
      .next (settleReqs (modDom s (uQ u.toNat) fun m => { m with paddle := false, waking := false, idleAt := s.clk.ticks })) := by
  show execWakeComplete u s = _
  rw [execWakeComplete, if_pos ⟨hl, hc⟩, if_pos (by rw [hp, hw]; rfl)]

theorem exec_wakeComplete_easy (hl : uLevel u.toNat = 2) (he : halfEasy s (uHalf u.toNat) = true)
    (hw : tget false s.pwr.waking (uHalf u.toNat) = true) :
    exec (.wakeComplete u) s = .next (settleReqs (leaveEasy s (uHalf u.toNat))) := by
  have hb : halfBoated s (uHalf u.toNat) = false := by
    have : tget 0 s.pwr.half (uHalf u.toNat) = 2 := by simpa [halfEasy] using he
    rw [halfBoated, this]
    rfl
  show execWakeComplete u s = _
  rw [execWakeComplete, if_neg (by omega), if_pos ⟨hl, hw⟩, if_neg (Bool.eq_false_iff.mp hb), if_pos he]

theorem exec_wakeComplete_boated (hl : uLevel u.toNat = 2) (hb : halfBoated s (uHalf u.toNat) = true)
    (hw : tget false s.pwr.waking (uHalf u.toNat) = true) :
    exec (.wakeComplete u) s = .next (settleReqs (leaveBoated s (uHalf u.toNat))) := by
  show execWakeComplete u s = _
  rw [execWakeComplete, if_neg (by omega), if_pos ⟨hl, hw⟩, if_pos hb]

end

/-- What a wake of a half from Easy leaves (12 R390, 05 R175). -/
theorem wakeComplete_easy (s : State) (h : Nat) :
    let t := settleReqs (leaveEasy s h)
    tget 0 t.pwr.half h = 0 ∧
      (∀ w, seatOf t w = if halfOf w = h then { seatOf s w with wst := (seatOf s w).wst.afresh s.clk.ticks } else seatOf s w) ∧
      (poolOf t h).bar2Held = [] ∧ OtherPools s t h ∧ ((poolOf s h).bar2Held = [] → (poolOf t h).mem = (poolOf s h).mem) ∧
      ∀ o len d, (poolOf s h).bar2Held = [(o, len, some d)] → o + len ≤ 0x50000000 → 0 < len → o / 64 = (o + len - 1) / 64 →
        segOpen (poolOf s h) o = true → StoresAt (poolOf s h).mem (poolOf t h).mem o (mbytes d 0 len) := by
  intro t
  have hr := leaveEasy_reaches s h
  have hz := easyLeft_half s h
  have hpool (k : Nat) : poolOf t k = poolOf (leaveEasy s h) k := by
    rw [poolOf, poolOf, settleReqs_pools]
  refine ⟨?_, fun w => ?_, ?_, fun k hk => ?_, fun hn => ?_, fun o len d h1 hw hl hg hs => ?_⟩
  · rw [settleReqs_half, hr.pwr, hz]
  · rw [seatOf, settleReqs_seats, leaveEasy_seats]
    exact easyLeft_seat s h w
  · rw [hpool, hr.held, easyLeft_pool]
  · rw [hpool, hr.others k hk, easyLeft_otherPools s h k hk]
  · rw [hpool, leaveEasy_eq, hn, List.foldl_nil, easyLeft_pool]
  · obtain ⟨hne, hnb⟩ := halfEasy_of_zero hz
    have := bar2Pool_stores (s := easyLeft s h) d hne hnb hw hl hg (by rw [easyLeft_pool]; exact hs)
    rw [hpool, leaveEasy_eq, h1]
    rw [easyLeft_pool] at this
    exact this

/-- What a wake of a half from Boated leaves (12 R391). -/
theorem wakeComplete_boated (s : State) (h : Nat) :
    let t := settleReqs (leaveBoated s h)
    tget 0 t.pwr.half h = 0 ∧ fillHalf h ∈ t.ctxs.zeroing ∧
      (∀ w, halfOf w = h → (∀ b, b < 96 → SideWork.fill (1024 * b) 1024 ∈ (seatOf t w).wst.work) ∧ (seatOf t w).store = (seatOf s w).store) ∧
      ∀ w, halfOf w ≠ h → seatOf t w = seatOf s w := by
  intro t
  obtain ⟨hse, hct, hhf⟩ := leaveBoated_keeps s h
  have hseat (w : Nat) : seatOf t w = seatOf (boatedLeft s h) w := by
    rw [seatOf, settleReqs_seats, hse]
    rfl
  refine ⟨?_, ?_, fun w hw => ?_, fun w hw => ?_⟩
  · rw [settleReqs_half, hhf, boatedLeft_half]
  · rw [settleReqs_ctxs, hct]
    exact boatedLeft_zeroing s h
  · obtain ⟨k, hk⟩ := boatedLeft_seat s h w
    rw [hseat, hk, if_pos hw]
    exact ⟨fun b hb => List.mem_append_right _ (mem_storeFill hb), rfl⟩
  · obtain ⟨k, hk⟩ := boatedLeft_seat s h w
    rw [hseat, hk, if_neg hw]

end Sys2Proof.Machine
end

section
open Sys2Proof Sys2Proof.Machine

/-- Settles O40: requests and their wakes, the entry of each kind of member, and the wakes of crews and halves. -/
theorem powerStates : Obligations.PowerStates := by
  unfold Obligations.PowerStates
  refine ⟨fun s => ⟨fun src c => ?_, fun i r hr hf => ⟨fun h1 => ?_, fun h2 hu hh hw => ?_, fun h3 hu hh hw => ?_,
    fun h3 hu h0 h1 hc hp => ?_⟩⟩, fun s => ⟨fun i r hr hf => ?_, fun q hf ha hp => ?_, fun u hl hc => ?_, fun u hl => ?_⟩⟩
  · intro n u r hc
    refine ⟨exec_powerState_badUnit hc, exec_powerState_graph hc, fun hu hn hg => ?_⟩
    obtain ⟨hcur, hse, hhf, hold, hwk⟩ := powerState_kept s src.val (powerReq s src.val c) (unitCrews u)
    exact ⟨_, exec_powerState_kept hc hu hn hg, hcur, hse, hhf, hold, hwk,
      fun ho hq hm => powerState_waits s src.val (powerReq s src.val c) (unitCrews u) ho hq hm⟩
  · obtain ⟨hd, hdom⟩ := enterMembers_paddle h1 s (unitCrews r.unit.toNat) s (.refl s)
    refine ⟨_, exec_powerStateEntry_paddle hr hf h1, ?_, ?_, fun d => (domOf_settleReqs _ d).trans (hdom d)⟩
    · rw [settleReqs_seats, hd]
    · rw [settleReqs_pools, hd]
  · have he := exec_powerStateEntry_half hr hf (by omega) hu
    rw [enterMember_easy (by omega) hw h2] at he
    refine ⟨fun hm => ?_, fun hm => ?_⟩
    · rw [if_pos hm] at he
      have hk := enterEasy_keeps s (uHalf r.unit.toNat)
      refine ⟨_, he, ?_, ?_, ?_, fun d hd _ => ?_⟩
      · rw [halfEasy, settleReqs_half, enterEasy, halfOf_setHalf]
        rfl
      · rw [settleReqs_seats, seats_eq_of_hide hk (by decide)]
      · rw [settleReqs_pools, pools_eq_of_hide hk (by decide)]
      · rw [domOf_settleReqs]
        exact enterEasy_stop s hd
    · rw [if_neg (Bool.eq_false_iff.mp hm)] at he
      exact ⟨_, he, settleReqs_half s, settleReqs_clk s⟩
  · have he := exec_powerStateEntry_half hr hf (by omega) hu
    rw [enterMember_boated (by omega) hw h3] at he
    refine ⟨fun hm => ?_, fun hm => ?_⟩
    · rw [if_pos hm] at he
      have hpool (k : Nat) : poolOf (settleReqs (enterBoated s (uHalf r.unit.toNat))) k = poolOf (enterBoated s (uHalf r.unit.toNat)) k := by
        rw [poolOf, settleReqs_pools]
        rfl
      refine ⟨_, he, ?_, fun w hw => ?_, fun w hw => ?_, ?_, ?_, fun k hk => ?_, fun c hs hn hi => ?_⟩
      · rw [halfBoated, settleReqs_half]
        exact enterBoated_boated s _
      · rw [seatOf, settleReqs_seats]
        exact (enterBoated_seat s _ w).trans (if_pos hw)
      · rw [seatOf, settleReqs_seats]
        exact (enterBoated_seat s _ w).trans (if_neg hw)
      · rw [hpool, enterBoated_pool]
      · rw [hpool, enterBoated_pool]
      · rw [hpool, enterBoated_otherPools s _ k hk]
      · rw [ctxOf, settleReqs_ctxs]
        exact (congrArg (fun x => x.g0.complete) (enterBoated_ctx s _ c)).trans (powerLost_incomplete hs hn hi)
    · rw [if_neg (Bool.eq_false_iff.mp hm)] at he
      exact ⟨_, he, settleReqs_half s, settleReqs_seats s⟩
  · refine ⟨_, exec_powerStateEntry_chip hr hf h3 hu h0 h1 hc hp, ?_, fun p hp => ?_, fun d hd => ?_⟩
    · rw [settleReqs_chipBoated]
      rfl
    · rw [portOf, settleReqs_fab]
      exact enterChipBoated_port s hp
    · rw [domOf_settleReqs]
      exact enterChipBoated_stop s hd
  · exact ⟨exec_powerRequestTimeout_early hr, exec_powerRequestTimeout_none hr hf⟩
  · refine ⟨fun h ht => ⟨_, exec_autoPaddle_idle hf ha hp h ht, ?_, fun e he => ?_, settleReqs_seats _⟩, exec_autoPaddle_busy⟩
    · rw [domOf_settleReqs]
      exact domOf_modDom_self s q.val _
    · rw [domOf_settleReqs]
      exact domOf_modDom_ne s _ he
  · refine ⟨fun hp hw => ⟨_, exec_wakeRequest_crew hl hc hp hw, domOf_modDom_self s _ _, fun e he => domOf_modDom_ne s _ he, rfl⟩,
      fun hp hw => ⟨_, exec_wakeComplete_crew hl hc hp hw, ?_, fun e he => ?_, settleReqs_seats _, settleReqs_noc _⟩⟩
    · rw [domOf_settleReqs]
      exact domOf_modDom_self s _ _
    · rw [domOf_settleReqs]
      exact domOf_modDom_ne s _ he
  · refine ⟨fun he hw => ⟨_, exec_wakeRequest_half hl he hw, tget_tput_self _ _ _ _, rfl⟩, fun he hw => ?_, fun hb hw => ?_⟩
    · obtain ⟨hz, hs, hheld, ho, hm, hst⟩ := wakeComplete_easy s (uHalf u.toNat)
      exact ⟨_, exec_wakeComplete_easy hl he hw, hz, fun w _ hh => (hs w).trans (if_pos hh), fun w _ hh => (hs w).trans (if_neg hh),
        hheld, ho, hm, hst⟩
    · obtain ⟨hz, hfill, hin, hout⟩ := wakeComplete_boated s (uHalf u.toNat)
      exact ⟨_, exec_wakeComplete_boated hl hb hw, hz, hfill, fun w _ hh => hin w hh, fun w _ hh => hout w hh⟩

end

section
/-!
SUPPORT. What ends heats (07 R220, R231, R232, 15 R466): the fault path and the completion rings only grow, an aborted or abandoned heat has ended,
and after a chip halt no heat of a live run goes on.
-/
namespace Sys2Proof.Machine
open Host (Outcome)

/-! ## What only grows -/

/-- From `s` to `t` records have joined the fault path, holds of contexts have changed, and entries have joined the completion rings;
nothing else of FLT has changed, and no feed ring. -/
structure Grows (s t : State) : Prop where
  flt : ∃ l hs, t.flt = { s.flt with path := s.flt.path ++ l, holds := hs }
  feed : t.cq.feed = s.cq.feed
  rings : ∀ n, ∃ l, (cqrOf t n).hold ++ (cqrOf t n).wait = (cqrOf s n).hold ++ (cqrOf s n).wait ++ l

theorem grows_of_eq {s t : State} (hf : t.flt = s.flt) (hc : t.cq = s.cq) : Grows s t :=
  ⟨⟨[], s.flt.holds, by rw [hf, List.append_nil]⟩, by rw [hc], fun n => ⟨[], by rw [cqrOf, hc, List.append_nil]; rfl⟩⟩

theorem Grows.refl (s : State) : Grows s s := grows_of_eq rfl rfl

theorem Grows.trans {s t u : State} (h : Grows s t) (k : Grows t u) : Grows s u := by
  obtain ⟨l, hs, hf⟩ := h.flt
  obtain ⟨m, ks, kf⟩ := k.flt
  refine ⟨⟨l ++ m, ks, by rw [kf, hf, List.append_assoc]⟩, k.feed.trans h.feed, fun n => ?_⟩
  obtain ⟨a, ha⟩ := h.rings n
  obtain ⟨b, hb⟩ := k.rings n
  exact ⟨a ++ b, by rw [hb, ha, List.append_assoc]⟩

theorem Grows.foldl {α : Type} {f : State → α → State} (h : ∀ s a, Grows s (f s a)) (l : List α) (s : State) : Grows s (l.foldl f s) := by
  induction l generalizing s with
  | nil => exact .refl s
  | cons a l ih => exact (h s a).trans (ih _)

theorem grows_of_hide {ps : List Part} {s t : State} (h : t.hide ps = s.hide ps) (hf : Part.flt ∉ ps) (hc : Part.cq ∉ ps) : Grows s t :=
  grows_of_eq (flt_eq_of_hide h hf) (cq_eq_of_hide h hc)

theorem grows_report (s : State) (r : Record) : Grows s (report s r) :=
  ⟨⟨[r], s.flt.holds, rfl⟩, rfl, fun _ => ⟨[], (List.append_nil _).symm⟩⟩

theorem join_entries (c : Cqr) (e : CEntry) : (c.join e).hold ++ (c.join e).wait = c.hold ++ c.wait ++ [e] := by
  unfold Cqr.join
  split
  · exact (List.append_assoc _ _ _).symm
  · next h =>
    have hw : c.wait = [] := by
      by_contra hn
      exact h (Or.inr hn)
    simp [hw]

/-- An entry joins the end of its ring. -/
theorem postEntry_entries (s : State) (n : Nat) (e : CEntry) :
    (cqrOf (postEntry s n e) n).hold ++ (cqrOf (postEntry s n e) n).wait = (cqrOf s n).hold ++ (cqrOf s n).wait ++ [e] := by
  rw [postEntry, cqrOf_modCqr_self]
  exact join_entries (cqrOf s n) e

theorem grows_postEntry (s : State) (n : Nat) (e : CEntry) : Grows s (postEntry s n e) := by
  refine ⟨⟨[], s.flt.holds, by rw [List.append_nil]; rfl⟩, rfl, fun m => ?_⟩
  by_cases hm : m = n
  · exact ⟨[e], by rw [hm, postEntry_entries]⟩
  · exact ⟨[], by rw [postEntry, cqrOf_modCqr_ne _ _ hm, List.append_nil]⟩

theorem grows_sendReply (s : State) (src cid status result : Nat) (r2 : Option Nat) : Grows s (sendReply s src cid status result r2) := by
  unfold sendReply
  dsimp only
  split
  · exact ⟨⟨[], s.flt.holds, by rw [List.append_nil]⟩, rfl, fun _ => ⟨[], (List.append_nil _).symm⟩⟩
  · exact grows_postEntry s _ _

theorem grows_answerLate (s : State) (src cid status result : Nat) : Grows s (answerLate s src cid status result) :=
  Grows.trans (t := modSq s src fun q => { q with waiting := q.waiting - 1 })
    ⟨⟨[], s.flt.holds, by rw [List.append_nil]; rfl⟩, rfl, fun _ => ⟨[], (List.append_nil _).symm⟩⟩ (grows_sendReply _ _ _ _ _ _)

theorem grows_raiseVector (s : State) (v : Nat) : Grows s (raiseVector s v) := by
  unfold raiseVector
  split <;> exact ⟨⟨[], s.flt.holds, by rw [List.append_nil]⟩, rfl, fun _ => ⟨[], (List.append_nil _).symm⟩⟩

theorem grows_raiseEvent (s : State) (b : Nat) : Grows s (raiseEvent s b) := by
  unfold raiseEvent
  split
  · exact .refl s
  · dsimp only
    split
    · exact grows_of_eq rfl rfl
    · refine Grows.trans (grows_of_eq ?_ ?_) (grows_raiseVector _ 0) <;> rfl

/-! ## A run is settled -/

/-- The state once a run's last heat has ended: it is live no more, and the generations that it bound may go. -/
def runGone (s : State) (r : Nat) (run : Run) : State :=
  run.gens.foldl (fun s p => releaseRetired s p.1) { s with str := { s.str with runs := tdel s.str.runs r } }

theorem runGone_hide (s : State) (r : Nat) (run : Run) :
    (runGone s r run).hide [.seats, .ctxs] = State.hide [.seats, .ctxs] { s with str := { s.str with runs := tdel s.str.runs r } } :=
  hide_foldl _ _ _ fun u p => releaseRetired_hide u p.1 (by decide) (by decide)

theorem settleRun_none {s : State} {r : Nat} (h : runOf s r = none) : settleRun s r = s := by
  rw [settleRun, h]

theorem settleRun_live {s : State} {r : Nat} {run : Run} (h : runOf s r = some run) (ha : (run.heats.all fun h => h.phase.ended) = false) :
    settleRun s r = s := by
  simp only [settleRun, h]
  rw [if_neg (Bool.eq_false_iff.mp ha)]

theorem settleRun_over {s : State} {r : Nat} {run : Run} (h : runOf s r = some run) (ha : (run.heats.all fun h => h.phase.ended) = true) :
    settleRun s r = match run.cancel with
      | some (src, cid) => answerLate (runGone s r run) src cid stSuccess (run.nAbort + 2 ^ 16 * run.nAbandon)
      | none => runGone s r run := by
  simp only [settleRun, h]
  rw [if_pos ha]
  rfl

theorem settleRun_over_str {s : State} {r : Nat} {run : Run} (h : runOf s r = some run)
    (ha : (run.heats.all fun h => h.phase.ended) = true) : (settleRun s r).str = { s.str with runs := tdel s.str.runs r } := by
  have hg := str_eq_of_hide (runGone_hide s r run) (by decide)
  rw [settleRun_over h ha]
  split
  · rw [str_eq_of_hide (answerLate_hide (ps := [.cq]) _ _ _ _ _ (by decide)) (by decide), hg]
  · exact hg

theorem runOf_settleRun_self (s : State) (r : Nat) :
    runOf (settleRun s r) r = (runOf s r).bind fun run => if (run.heats.all fun h => h.phase.ended) = true then none else some run := by
  cases h : runOf s r with
  | none => rw [settleRun_none h, h]; rfl
  | some run =>
    by_cases ha : (run.heats.all fun h => h.phase.ended) = true
    · rw [runOf, settleRun_over_str h ha, Option.bind_some, if_pos ha]
      exact tfind_tdel_self _ _
    · rw [settleRun_live h (Bool.eq_false_iff.mpr ha), h, Option.bind_some, if_neg ha]

theorem runOf_settleRun_ne (s : State) {r q : Nat} (hq : q ≠ r) : runOf (settleRun s r) q = runOf s q := by
  cases h : runOf s r with
  | none => rw [settleRun_none h]
  | some run =>
    by_cases ha : (run.heats.all fun h => h.phase.ended) = true
    · rw [runOf, settleRun_over_str h ha]
      exact tfind_tdel_ne _ hq
    · rw [settleRun_live h (Bool.eq_false_iff.mpr ha)]

theorem grows_settleRun (s : State) (r : Nat) : Grows s (settleRun s r) := by
  cases h : runOf s r with
  | none => rw [settleRun_none h]; exact .refl s
  | some run =>
    by_cases ha : (run.heats.all fun h => h.phase.ended) = true
    · have h0 : Grows s { s with str := { s.str with runs := tdel s.str.runs r } } := grows_of_eq rfl rfl
      have hg : Grows s (runGone s r run) := h0.trans (grows_of_hide (runGone_hide s r run) (by decide) (by decide))
      rw [settleRun_over h ha]
      split
      · exact hg.trans (grows_answerLate _ _ _ _ _)
      · exact hg
    · rw [settleRun_live h (Bool.eq_false_iff.mpr ha)]
      exact .refl s

theorem runOf_congr {s t : State} (h : t.str = s.str) (r : Nat) : runOf t r = runOf s r := by
  rw [runOf, runOf, h]

theorem grows_postHeat (s : State) (r h cause : Nat) (seq : Word) : Grows s (postHeat s r h cause seq) := by
  unfold postHeat
  split
  · exact grows_postEntry s _ _
  · exact .refl s

theorem postHeat_runOf (s : State) (r h cause : Nat) (seq : Word) (q : Nat) : runOf (postHeat s r h cause seq) q = runOf s q :=
  runOf_congr (str_eq_of_hide (postHeat_hide (ps := [.cq]) s r h cause seq (by decide)) (by decide)) q

/-! ## A heat is aborted or abandoned -/

/-- The heat `x` with phase `ph`, its guard totals those of `g`, and no abort asked for. -/
def Heat.abortedWith (g : BitVec 4 × List Word) (x : Heat) : Heat :=
  { x with phase := .aborted, gmask := g.1, gflag := false, totals := g.2, digest := none, abortReq := none }

/-- The heat `x` has ended on its seats, its epoch has retired, and its phase says so. -/
def abortEnded (s : State) (r h : Nat) (x : Heat) : State :=
  modHeat (retire (if x.freed then s else endOnSeats s r h x.seats) x.cls x.epoch) r h
    (Heat.abortedWith (if x.freed then (x.gmask, x.totals) else gather s x.seats))

/-- The state in which the entry of the aborted heat `x` is posted. -/
def abortLogged (s : State) (r h cause : Nat) (seq : Word) (x : Heat) : State :=
  let s3 := abortEnded s r h x
  let s4 := { s3 with str := { s3.str with aborts := satInc s3.str.aborts } }
  let s5 := if marking cause && (cause != 16 || seqAfter seq s4.flt.handled) then
      { s4 with flt := { s4.flt with holds := s4.flt.holds ++
          [{ ctx := (hdOf s r h).ctx, run := r, heat := h, seq := if cause = 16 then some seq else none }] } }
    else s4
  report s5 (starterRec s5 r h cause 0)

theorem abortHeat_eq {s : State} {r h : Nat} (cause : Nat) (seq : Word) {x : Heat} (hx : heatOf s r h = some x)
    (hp : x.phase = .dispatched) : abortHeat s r h cause seq =
      settleRun (postHeat (abortLogged s r h cause seq x) r h cause (if cause = 16 then seq else 0)) r := by
  simp only [abortHeat, hx]
  rw [if_neg (by simp [hp])]
  rfl

theorem abortHeat_idle {s : State} {r h : Nat} (cause : Nat) (seq : Word) (hx : ∀ x, heatOf s r h = some x → x.phase ≠ .dispatched) :
    abortHeat s r h cause seq = s := by
  unfold abortHeat
  split
  · rfl
  · next x h => rw [if_pos (hx x h)]

theorem retire_runs (s : State) (k : Nat) (epoch : BitVec 16) : (retire s k epoch).str.runs = s.str.runs := rfl

theorem endOnSeats_runs (s : State) (r h : Nat) (l : List Nat) : (endOnSeats s r h l).str.runs = s.str.runs := by
  rw [str_eq_of_hide (endOnSeats_hide (ps := [.seats, .clk]) s r h l (by decide) (by decide)) (by decide)]

theorem abortLogged_runs (s : State) (r h cause : Nat) (seq : Word) (x : Heat) :
    (abortLogged s r h cause seq x).str.runs = (abortEnded s r h x).str.runs := by
  unfold abortLogged
  dsimp only
  split <;> rfl

/-- The runs of the state in which an aborted heat's entry is posted differ in that heat alone. -/
theorem runOf_abortLogged (s : State) (r h cause : Nat) (seq : Word) (x : Heat) : ∃ g,
    runOf (abortLogged s r h cause seq x) r = (runOf s r).map (fun y => { y with heats := modAt (Heat.abortedWith g) y.heats h }) ∧
      ∀ q, q ≠ r → runOf (abortLogged s r h cause seq x) q = runOf s q := by
  have hu (q : Nat) : runOf (retire (if x.freed then s else endOnSeats s r h x.seats) x.cls x.epoch) q = runOf s q := by
    rw [runOf, retire_runs]
    split
    · rfl
    · rw [endOnSeats_runs]
      rfl
  have ht (q : Nat) : runOf (abortLogged s r h cause seq x) q = runOf (abortEnded s r h x) q := by
    rw [runOf, abortLogged_runs]
    rfl
  refine ⟨_, (ht r).trans ((runOf_modRun_self _ r _).trans (by rw [hu])), fun q hq => (ht q).trans ((runOf_modRun_ne _ _ hq).trans (hu q))⟩

theorem grows_abortLogged (s : State) (r h cause : Nat) (seq : Word) (x : Heat) : Grows s (abortLogged s r h cause seq x) := by
  unfold abortLogged
  dsimp only
  have h3 : Grows s (abortEnded s r h x) := by
    refine grows_of_hide (ps := [.seats, .clk, .str, .pools]) ?_ (by decide) (by decide)
    rw [abortEnded, modHeat_hide _ _ _ _ (by decide), retire_hide _ _ _ (by decide) (by decide)]
    split
    · rfl
    · exact endOnSeats_hide s r h x.seats (by decide) (by decide)
  refine (h3.trans ?_).trans (grows_report _ _)
  split
  · exact ⟨⟨[], _, by rw [List.append_nil]⟩, rfl, fun _ => ⟨[], (List.append_nil _).symm⟩⟩
  · exact grows_of_eq rfl rfl

theorem grows_abortHeat (s : State) (r h cause : Nat) (seq : Word) : Grows s (abortHeat s r h cause seq) := by
  by_cases hd : ∃ x, heatOf s r h = some x ∧ x.phase = .dispatched
  · obtain ⟨x, hx, hp⟩ := hd
    rw [abortHeat_eq cause seq hx hp]
    exact ((grows_abortLogged s r h cause seq x).trans (grows_postHeat _ _ _ _ _)).trans (grows_settleRun _ _)
  · rw [abortHeat_idle cause seq fun x hx hp => hd ⟨x, hx, hp⟩]
    exact .refl s

/-- The state in which the entry of an abandoned heat is posted. -/
def abandonLogged (s : State) (r h cause pred : Nat) (x : Heat) : State :=
  let s2 := modHeat (releasePages s r h x.pre) r h fun x => { x with phase := .abandoned }
  let s3 := { s2 with str := { s2.str with abandons := satInc s2.str.abandons } }
  report s3 (starterRec s3 r h cause pred)

theorem abandonHeat_eq {s : State} {r h : Nat} (cause pred : Nat) {x : Heat} (hx : heatOf s r h = some x)
    (hp : x.phase = .pending ∨ x.phase = .ready) :
    abandonHeat s r h cause pred = settleRun (postHeat (abandonLogged s r h cause pred x) r h cause 0) r := by
  simp only [abandonHeat, hx]
  rw [if_neg (by tauto)]
  rfl

theorem abandonHeat_idle {s : State} {r h : Nat} (cause pred : Nat)
    (hx : ∀ x, heatOf s r h = some x → ¬ (x.phase = .pending ∨ x.phase = .ready)) : abandonHeat s r h cause pred = s := by
  unfold abandonHeat
  split
  · rfl
  · next x h => rw [if_pos (not_or.mp (hx x h))]

theorem releasePages_keeps (s : State) (r h : Nat) (l : List Nat) : (releasePages s r h l).hide [.seats] = s.hide [.seats] :=
  releasePages_hide s r h l (by decide)

theorem runOf_abandonLogged (s : State) (r h cause pred : Nat) (x : Heat) :
    runOf (abandonLogged s r h cause pred x) r =
        (runOf s r).map (fun y => { y with heats := modAt (fun x => { x with phase := .abandoned }) y.heats h }) ∧
      ∀ q, q ≠ r → runOf (abandonLogged s r h cause pred x) q = runOf s q := by
  have hu (q : Nat) := runOf_congr (str_eq_of_hide (releasePages_keeps s r h x.pre) (by decide)) q
  exact ⟨(runOf_modRun_self _ r _).trans (by rw [hu]), fun q hq => (runOf_modRun_ne _ _ hq).trans (hu q)⟩

theorem grows_abandonHeat (s : State) (r h cause pred : Nat) : Grows s (abandonHeat s r h cause pred) := by
  by_cases hd : ∃ x, heatOf s r h = some x ∧ (x.phase = .pending ∨ x.phase = .ready)
  · obtain ⟨x, hx, hp⟩ := hd
    rw [abandonHeat_eq cause pred hx hp]
    refine (Grows.trans ?_ (grows_postHeat _ _ _ _ _)).trans (grows_settleRun _ _)
    refine Grows.trans ?_ (grows_report _ _)
    refine Grows.trans (t := modHeat (releasePages s r h x.pre) r h fun x => { x with phase := .abandoned }) ?_ (grows_of_eq rfl rfl)
    refine grows_of_hide (ps := [.seats, .str]) ?_ (by decide) (by decide)
    rw [modHeat_hide _ _ _ _ (by decide), releasePages_hide _ _ _ _ (by decide)]
  · rw [abandonHeat_idle cause pred fun x hx hp => hd ⟨x, hx, hp⟩]
    exact .refl s

/-! ## The phases of a run's heats -/

/-- In `t` each heat of run `r` is one of `s`, with the phase that `F` makes of its own; no other run has changed. -/
structure Rephased (s t : State) (r : Nat) (F : Nat → Phase → Phase) : Prop where
  heat : ∀ i y, heatOf t r i = some y → ∃ x, heatOf s r i = some x ∧ y.phase = F i x.phase
  others : ∀ q, q ≠ r → runOf t q = runOf s q

theorem Rephased.refl (s : State) (r : Nat) : Rephased s s r fun _ p => p := ⟨fun _ y h => ⟨y, h, rfl⟩, fun _ _ => rfl⟩

theorem Rephased.trans {s t u : State} {r : Nat} {F G : Nat → Phase → Phase} (h : Rephased s t r F) (k : Rephased t u r G) :
    Rephased s u r fun i p => G i (F i p) := by
  refine ⟨fun i y hy => ?_, fun q hq => (k.others q hq).trans (h.others q hq)⟩
  obtain ⟨z, hz, hp⟩ := k.heat i y hy
  obtain ⟨x, hx, hq⟩ := h.heat i z hz
  exact ⟨x, hx, by rw [hp, hq]⟩

theorem Rephased.of_le {s t : State} {r : Nat} {F G : Nat → Phase → Phase} (h : Rephased s t r F)
    (he : ∀ i x, heatOf s r i = some x → F i x.phase = G i x.phase) : Rephased s t r G :=
  ⟨fun i y hy => by
    obtain ⟨x, hx, hp⟩ := h.heat i y hy
    exact ⟨x, hx, hp.trans (he i x hx)⟩, h.others⟩

/-- A run whose heat `h` has been changed by `f`, then settled. -/
theorem rephased_settled {s t : State} {r h : Nat} {f : Heat → Heat} {ph : Phase}
    (hr : runOf t r = (runOf s r).map fun y => { y with heats := modAt f y.heats h }) (ho : ∀ q, q ≠ r → runOf t q = runOf s q)
    (hf : ∀ x, (f x).phase = ph) : Rephased s (settleRun t r) r fun i p => if i = h then ph else p := by
  refine ⟨fun i y hy => ?_, fun q hq => (runOf_settleRun_ne t hq).trans (ho q hq)⟩
  rw [heatOf, runOf_settleRun_self, hr] at hy
  cases hs : runOf s r with
  | none => simp [hs] at hy
  | some run =>
    rw [hs, Option.map_some, Option.bind_some] at hy
    split at hy
    · cases hy
    rw [Option.bind_some] at hy
    have hx : heatOf s r i = run.heats[i]? := by rw [heatOf, hs, Option.bind_some]
    by_cases hi : i = h
    · subst hi
      rw [getElem?_modAt_self] at hy
      obtain ⟨x, hx', rfl⟩ := Option.map_eq_some_iff.mp hy
      exact ⟨x, hx.trans hx', by rw [if_pos rfl, hf]⟩
    · rw [getElem?_modAt_ne _ _ hi] at hy
      exact ⟨y, hx.trans hy, by rw [if_neg hi]⟩

/-- The phase that an abort of heat `h` leaves. -/
def abortPhase (h i : Nat) (p : Phase) : Phase := if i = h ∧ p = .dispatched then .aborted else p

/-- The phase that an abandonment of heat `h` leaves. -/
def abandonPhase (h i : Nat) (p : Phase) : Phase := if i = h ∧ (p = .pending ∨ p = .ready) then .abandoned else p

theorem rephased_abortHeat (s : State) (r h cause : Nat) (seq : Word) : Rephased s (abortHeat s r h cause seq) r (abortPhase h) := by
  by_cases hd : ∃ x, heatOf s r h = some x ∧ x.phase = .dispatched
  · obtain ⟨x, hx, hp⟩ := hd
    obtain ⟨g, hr, ho⟩ := runOf_abortLogged s r h cause seq x
    rw [abortHeat_eq cause seq hx hp]
    have := rephased_settled (t := postHeat (abortLogged s r h cause seq x) r h cause (if cause = 16 then seq else 0)) (ph := .aborted)
      ((postHeat_runOf _ _ _ _ _ r).trans hr) (fun q hq => (postHeat_runOf _ _ _ _ _ q).trans (ho q hq)) (fun _ => rfl)
    refine this.of_le fun i y hy => ?_
    by_cases hi : i = h
    · subst hi
      cases hx.symm.trans hy
      simp [abortPhase, hp]
    · simp [abortPhase, hi]
  · rw [abortHeat_idle cause seq fun x hx hp => hd ⟨x, hx, hp⟩]
    refine (Rephased.refl s r).of_le fun i x hx => (if_neg ?_).symm
    rintro ⟨rfl, hp⟩
    exact hd ⟨x, hx, hp⟩

theorem rephased_abandonHeat (s : State) (r h cause pred : Nat) : Rephased s (abandonHeat s r h cause pred) r (abandonPhase h) := by
  by_cases hd : ∃ x, heatOf s r h = some x ∧ (x.phase = .pending ∨ x.phase = .ready)
  · obtain ⟨x, hx, hp⟩ := hd
    obtain ⟨hr, ho⟩ := runOf_abandonLogged s r h cause pred x
    rw [abandonHeat_eq cause pred hx hp]
    have := rephased_settled (t := postHeat (abandonLogged s r h cause pred x) r h cause 0) (ph := .abandoned)
      ((postHeat_runOf _ _ _ _ _ r).trans hr) (fun q hq => (postHeat_runOf _ _ _ _ _ q).trans (ho q hq)) (fun _ => rfl)
    refine this.of_le fun i y hy => ?_
    by_cases hi : i = h
    · subst hi
      cases hx.symm.trans hy
      simp [abandonPhase, hp]
    · simp [abandonPhase, hi]
  · rw [abandonHeat_idle cause pred fun x hx hp => hd ⟨x, hx, hp⟩]
    refine (Rephased.refl s r).of_le fun i x hx => (if_neg ?_).symm
    rintro ⟨rfl, hp⟩
    exact hd ⟨x, hx, hp⟩

/-- A fold of changes of one run's heats, each at its own heat. -/
theorem rephased_foldl {r : Nat} {step : State → Nat → State} {F : Nat → Nat → Phase → Phase} (hs : ∀ s h, Rephased s (step s h) r (F h))
    (hself : ∀ h p, F h h (F h h p) = F h h p) (hne : ∀ h i p, i ≠ h → F h i p = p) (l : List Nat) (s : State) :
    Rephased s (l.foldl step s) r fun i p => if i ∈ l then F i i p else p := by
  induction l generalizing s with
  | nil => exact (Rephased.refl s r).of_le fun i x _ => by simp
  | cons a l ih =>
    refine ((hs s a).trans (ih (step s a))).of_le fun i x _ => ?_
    by_cases hi : i = a
    · subst hi
      by_cases hl : i ∈ l <;> simp [hl, hself]
    · simp [hi, hne a i _ hi]

/-- Every heat of a cancelled run that is still live has ended (07 R231, R232). -/
theorem cancelRun_ends (s : State) (r cause : Nat) :
    (∀ i y, heatOf (cancelRun s r cause) r i = some y → y.phase.ended = true) ∧ ∀ q, q ≠ r → runOf (cancelRun s r cause) q = runOf s q := by
  unfold cancelRun
  split
  · next hr => exact ⟨fun i y hy => by simp [heatOf, hr] at hy, fun _ _ => rfl⟩
  · next run hr =>
    have h1 := rephased_foldl (fun u h => rephased_abortHeat u r h cause 0)
      (fun h p => by cases p <;> simp [abortPhase]) (fun h i p hi => by simp [abortPhase, hi]) (List.range run.heats.length) s
    have h2 := h1.trans (rephased_foldl (fun u h => rephased_abandonHeat u r h 6 0)
      (fun h p => by cases p <;> simp [abandonPhase]) (fun h i p hi => by simp [abandonPhase, hi]) (List.range run.heats.length) _)
    refine ⟨fun i y hy => ?_, h2.others⟩
    obtain ⟨x, hx, hp⟩ := h2.heat i y hy
    rw [heatOf, hr, Option.bind_some] at hx
    have hi : i < run.heats.length := (List.getElem?_eq_some_iff.mp hx).1
    rw [if_pos (List.mem_range.mpr hi), if_pos (List.mem_range.mpr hi)] at hp
    rw [hp]
    cases x.phase <;> simp [abortPhase, abandonPhase, Phase.ended]

theorem cancelRuns_foldl_ends (l : List Nat) (cause : Nat) (s : State) :
    let t := l.foldl (fun s r => cancelRun s r cause) s
    (∀ r ∈ l, ∀ i y, heatOf t r i = some y → y.phase.ended = true) ∧ ∀ r, r ∉ l → runOf t r = runOf s r := by
  induction l generalizing s with
  | nil => exact ⟨fun r hr => absurd hr List.not_mem_nil, fun _ _ => rfl⟩
  | cons a l ih =>
    obtain ⟨ha, hao⟩ := cancelRun_ends s a cause
    obtain ⟨hl, hlo⟩ := ih (cancelRun s a cause)
    refine ⟨fun r hr i y hy => ?_, fun r hr => ?_⟩
    · by_cases hm : r ∈ l
      · exact hl r hm i y hy
      · have hra : r = a := (List.mem_cons.mp hr).resolve_right hm
        subst hra
        exact ha i y (by rw [heatOf, ← hlo r hm]; exact hy)
    · obtain ⟨hra, hm⟩ := not_or.mp (fun h => hr (List.mem_cons.mpr h))
      exact (hlo r hm).trans (hao r hra)

/-- No heat of a live run goes on once every run has been cancelled. -/
theorem cancelRuns_ends (s : State) (cause r : Nat) (run : Run) (h : runOf (cancelRuns s cause) r = some run) :
    ∀ x ∈ run.heats, x.phase.ended = true := by
  obtain ⟨hin, hout⟩ := cancelRuns_foldl_ends (s.str.runs.map (·.1)) cause s
  intro x hx
  obtain ⟨i, hi, rfl⟩ := List.mem_iff_getElem.mp hx
  by_cases hm : r ∈ s.str.runs.map (·.1)
  · exact hin r hm i run.heats[i] (by
      show heatOf (cancelRuns s cause) r i = _
      rw [heatOf, h, Option.bind_some, List.getElem?_eq_getElem hi])
  · have := (hout r hm).symm.trans h
    exact absurd (List.mem_map.mpr ⟨(r, run), tfind_mem _ _ _ this, rfl⟩) hm

theorem grows_cancelRuns (s : State) (cause : Nat) : Grows s (cancelRuns s cause) :=
  Grows.foldl (fun u r => by
    unfold cancelRun
    split
    · exact .refl u
    · exact (Grows.foldl (fun v h => grows_abortHeat v r h cause 0) _ u).trans (Grows.foldl (fun v h => grows_abandonHeat v r h 6 0) _ _)) _ s

/-! ## Loads and feeds stop -/

theorem grows_stopLoads (s : State) : Grows s (stopLoads s) := by
  have hg (u : State) (j : LoadJob) (g : Nat) : Grows u (segmentFails u j g segStopped) :=
    (grows_of_hide (modGenNum_hide (ps := [.ctxs]) u j.ctx j.gen _ (by decide)) (by decide) (by decide)).trans (grows_report _ _)
  unfold stopLoads
  exact (Grows.foldl (fun u j => Grows.foldl (fun v g => hg v j g) _ u) _ s).trans (grows_of_eq rfl rfl)

theorem stopLoads_todo (s : State) : ∀ j ∈ (stopLoads s).ctxs.loads, j.todo = [] := by
  intro j hj
  obtain ⟨k, -, rfl⟩ := List.mem_map.mp hj
  rfl

/-- A feed ring that stops: what it has in progress fails, and with nothing in progress it is stopped at once (13 R426). -/
def Feed.stop (q : Feed) : Feed :=
  { q with prog := q.prog.map fun j => if j.status = stSuccess then { j with status := stStopped } else j,
           failedAt := match q.prog with
             | [] => q.failedAt
             | j :: _ => some (q.failedAt.getD j.at_),
           stopped := q.stopped || q.prog.isEmpty }

theorem Feed.stop_prog (q : Feed) : ∀ j ∈ q.stop.prog, j.status ≠ 0 := by
  intro j hj
  obtain ⟨k, -, rfl⟩ := List.mem_map.mp hj
  split
  · show stStopped ≠ 0
    decide
  · assumption

theorem Feed.stop_stop (q : Feed) : q.stop.stop = q.stop := by
  have hp : q.stop.stop.prog = q.stop.prog :=
    (List.map_congr_left fun j hj => if_neg (q.stop_prog j hj)).trans (List.map_id' _)
  unfold Feed.stop at hp ⊢
  cases h : q.prog with
  | nil => simp
  | cons j l => simpa [h] using hp

theorem feedOf_stopFeeds (s : State) {f : Nat} (hf : f < 8) : feedOf (stopFeeds s) f = (feedOf s f).stop := by
  refine (get_foldl feedOf (fun s n => modFeed s n Feed.stop) (fun _ => Feed.stop) (fun s a => feedOf_modFeed_self s a _)
    (fun s _ _ h => feedOf_modFeed_ne s _ h) (fun _ => Feed.stop_stop) (List.range 8) s f).trans ?_
  rw [if_pos (List.mem_range.mpr hf)]

/-! ## A chip halt -/

theorem stopFeeds_keeps (s : State) : (stopFeeds s).hide [.cq] = s.hide [.cq] := stopFeeds_hide s (by decide)

/-- The state from which a halt stops all work. -/
def haltLogged (s : State) (kind code : Nat) (det : BitVec 128) : State :=
  let s1 := report s (chipRec s kind code det)
  raiseEvent { s1 with glb := { s1.glb with halted := true }, flt := { s1.flt with haltCode := BitVec.ofNat 16 code } } 2

theorem chipHalt_running {s : State} (kind code : Nat) (det : BitVec 128) (h : s.glb.halted = false) :
    chipHalt s kind code det = stopFeeds (stopLoads (cancelRuns (haltLogged s kind code det) 21)) := by
  unfold chipHalt
  exact if_neg (Bool.eq_false_iff.mp h)

theorem chipHalt_halted {s : State} (kind code : Nat) (det : BitVec 128) (h : s.glb.halted = true) :
    chipHalt s kind code det = report s (chipRec s kind code det) := by
  unfold chipHalt
  exact if_pos h

theorem haltLogged_flt (s : State) (kind code : Nat) (det : BitVec 128) : (haltLogged s kind code det).flt =
    { s.flt with path := s.flt.path ++ [chipRec s kind code det], haltCode := BitVec.ofNat 16 code } := raiseEvent_flt _ 2

theorem stopped_grows (s : State) : Grows s (stopLoads (cancelRuns s 21)) := (grows_cancelRuns s 21).trans (grows_stopLoads _)

/-- A halt logs its record first, and changes of FLT the path, the holds and the halt code alone. -/
theorem chipHalt_flt (s : State) (kind code : Nat) (det : BitVec 128) : ∃ l hs, (chipHalt s kind code det).flt =
    { s.flt with path := s.flt.path ++ chipRec s kind code det :: l, holds := hs,
                 haltCode := if s.glb.halted = true then s.flt.haltCode else BitVec.ofNat 16 code } := by
  cases h : s.glb.halted with
  | true =>
    rw [chipHalt_halted kind code det h]
    exact ⟨[], s.flt.holds, rfl⟩
  | false =>
    obtain ⟨l, hs, hf⟩ := (stopped_grows (haltLogged s kind code det)).flt
    rw [chipHalt_running kind code det h, flt_eq_of_hide (stopFeeds_keeps _) (by decide), hf, haltLogged_flt]
    exact ⟨l, hs, by simp⟩

/-- A halt halts: `Halts`, which the statements about weigh-enough speak of (15 R466, R468). -/
theorem chipHalt_halts (s : State) (kind code : Nat) (det : BitVec 128) : Halts s (chipHalt s kind code det) (BitVec.ofNat 16 code) := by
  obtain ⟨l, hs, hf⟩ := chipHalt_flt s kind code det
  obtain ⟨ev, hg, -⟩ := chipHalt_glb s kind code det
  refine ⟨⟨_, l, by rw [hf], rfl⟩, by rw [hg], fun h => ?_, fun h => ⟨by simp [hf, h], ?_, ?_, fun f hlt => ?_⟩⟩
  · rw [chipHalt_halted kind code det h]
    exact ⟨rfl, rfl, rfl, rfl⟩
  all_goals rw [chipHalt_running kind code det h]
  · intro r run hr
    refine cancelRuns_ends (haltLogged s kind code det) 21 r run ?_
    rw [← hr]
    exact (runOf_congr (str_eq_of_hide ((stopFeeds_hide (ps := [.ctxs, .cq, .flt]) _ (by decide)).trans
      (stopLoads_hide _ (by decide) (by decide))) (by decide)) r).symm
  · rw [ctxs_eq_of_hide (stopFeeds_keeps _) (by decide)]
    exact stopLoads_todo _
  · have hfeed : feedOf (stopLoads (cancelRuns (haltLogged s kind code det) 21)) f = feedOf s f := by
      have hl : (haltLogged s kind code det).cq.feed = s.cq.feed := (grows_raiseEvent _ 2).feed
      rw [feedOf, (stopped_grows _).feed, hl]
      rfl
    rw [feedOf_stopFeeds _ hlt, hfeed]
    exact ⟨Feed.stop_prog _, fun hn => by simp [Feed.stop, hn]⟩

end Sys2Proof.Machine
end

section
/-!
SUPPORT. Handling and fences (15 R461-R464, R470-R472, 14 R432, R441): contexts marked by a record, a Snivan that starts again after a halt, and the
seats that a fence marks.
-/
namespace Sys2Proof.Machine
open Host (Outcome)

/-! ## Snivan starts again -/

/-- From `u` to `t` Snivan has been started again by the ROM: it does not serve yet, and the halt, the alert and what was asked of Snivan stand. -/
structure Restarted (u t : State) : Prop where
  fw : t.glb.fw ≠ .ready
  halted : t.glb.halted = u.glb.halted
  skip : t.glb.skip = u.glb.skip
  activate : t.glb.activate = u.glb.activate
  flt : ∃ l hold, t.flt = { u.flt with path := u.flt.path ++ l, alertHold := hold }
  alert : u.pins.alert = true → t.pins.alert = true

theorem startFrom_glb (s : State) (m : Mem) (cause : Byte) (slot : Fin 2) (trial : Bool) :
    let t := startFrom s m cause slot trial
    t.glb.fw = .starting ∧ t.glb.halted = s.glb.halted ∧ t.glb.skip = s.glb.skip ∧ t.glb.activate = s.glb.activate ∧
      t.glb.bootCause = cause := by
  unfold startFrom checkDevice
  dsimp only
  split <;> exact ⟨rfl, rfl, rfl, rfl, rfl⟩

theorem toStage2_glb (s : State) : ∃ n, (toStage2 s).glb = { s.glb with stage := n } := by
  unfold toStage2
  split
  · exact ⟨2, rfl⟩
  · exact ⟨s.glb.stage, rfl⟩

/-- The ROM's choice of a slot: Snivan starts from it, or waits in recovery (14 R430, R431). -/
theorem chooseSlot_glb (s : State) (cause : Byte) :
    let t := chooseSlot s cause
    t.glb.fw ≠ .ready ∧ t.glb.halted = s.glb.halted ∧ t.glb.skip = s.glb.skip ∧ t.glb.activate = s.glb.activate ∧
      (t.glb.bootCause = cause ∨ t.glb.bootCause = 4) := by
  unfold chooseSlot
  dsimp only
  split
  · next n _ =>
    obtain ⟨hfw, hh, hs, ha, hc⟩ := startFrom_glb s (slotOf s.sec.flash n) cause n (s.sec.stateRec.trial && n == s.sec.stateRec.active)
    obtain ⟨k, hk⟩ := toStage2_glb (startFrom s (slotOf s.sec.flash n) cause n (s.sec.stateRec.trial && n == s.sec.stateRec.active))
    split
    · rw [hk]
      exact ⟨by simp [hfw], hh, hs, ha, Or.inl hc⟩
    · rw [report_glb, hk]
      exact ⟨by simp [hfw], hh, hs, ha, Or.inl hc⟩
  · exact ⟨by simp, rfl, rfl, rfl, Or.inr rfl⟩

theorem startFrom_keeps (s : State) (m : Mem) (cause : Byte) (slot : Fin 2) (trial : Bool) :
    (toStage2 (startFrom s m cause slot trial)).hide [.glb] = s.hide [.glb] := by
  rw [toStage2_hide _ (by decide), startFrom_hide _ _ _ _ _ (by decide)]

theorem chooseSlot_path (s : State) (cause : Byte) : ∃ l, (chooseSlot s cause).flt = { s.flt with path := s.flt.path ++ l } := by
  unfold chooseSlot
  dsimp only
  split
  · next n _ =>
    have hf := flt_eq_of_hide (startFrom_keeps s (slotOf s.sec.flash n) cause n (s.sec.stateRec.trial && n == s.sec.stateRec.active)) (by decide)
    split
    · exact ⟨[], by rw [hf, List.append_nil]⟩
    · exact ⟨[_], by rw [report, hf]⟩
  · exact ⟨[], by rw [List.append_nil]⟩

theorem readRec_path (s : State) : ∃ l, (readRec s).flt = { s.flt with path := s.flt.path ++ l } := by
  unfold readRec
  split
  · exact ⟨[], by rw [List.append_nil]⟩
  · exact ⟨[_], rfl⟩

theorem romBoot_restarts (s : State) (cause : Byte) (puf : Bool) (h : s.flt.alert ≠ 0) : Restarted s (romBoot s cause puf) := by
  unfold romBoot
  cases puf with
  | true =>
    rw [if_pos rfl]
    have hk : (readRec (readIdentity s)).hide [.flt, .sec] = s.hide [.flt, .sec] := by
      rw [readRec_hide _ (by decide) (by decide), readIdentity_hide _ (by decide)]
    have hg := glb_eq_of_hide hk (by decide)
    obtain ⟨hfw, hh, hs, ha, -⟩ := chooseSlot_glb (readRec (readIdentity s)) cause
    rw [hg] at hh hs ha
    refine ⟨hfw, hh, hs, ha, ?_, fun hp => ?_⟩
    · obtain ⟨l, hl⟩ := chooseSlot_path (readRec (readIdentity s)) cause
      obtain ⟨m, hm⟩ := readRec_path (readIdentity s)
      exact ⟨m ++ l, s.flt.alertHold, by rw [hl, hm, ← List.append_assoc]; rfl⟩
    · rw [pins_eq_of_hide (chooseSlot_hide (ps := [.flt, .glb]) _ cause (by decide) (by decide)) (by decide),
        pins_eq_of_hide hk (by decide), hp]
  | false =>
    rw [if_neg Bool.false_ne_true]
    exact ⟨Fw.noConfusion, rfl, rfl, rfl, ⟨[], true, by simp only [raiseAlert, if_neg h, List.append_nil, Bool.or_true]⟩, fun _ => rfl⟩

theorem romBoot_cause (s : State) (cause : Byte) :
    (romBoot s cause true).glb.bootCause = cause ∨ (romBoot s cause true).glb.bootCause = 4 := by
  rw [romBoot, if_pos rfl]
  obtain ⟨-, -, -, -, h⟩ := chooseSlot_glb (readRec (readIdentity s)) cause
  exact h

/-- What a halt has done stands in a state that has only gone on from it. -/
theorem Halts.of_later {s u t : State} {code : BitVec 16} (h : Halts s u code) (hp : ∃ l, t.flt.path = u.flt.path ++ l)
    (hc : t.flt.haltCode = u.flt.haltCode) (hg : t.glb.halted = u.glb.halted) (hstr : t.str = u.str) (hctx : t.ctxs = u.ctxs)
    (hse : t.seats = u.seats) (hcq : t.cq = u.cq) : Halts s t code := by
  obtain ⟨⟨r, l, hpath, hr⟩, hhal, hin, hnew⟩ := h
  obtain ⟨m, hm⟩ := hp
  refine ⟨⟨r, l ++ m, by rw [hm, hpath, List.append_assoc]; rfl, hr⟩, by rw [hg, hhal], fun hs => ?_, fun hs => ?_⟩
  · rw [hc, hstr, hctx, hse]
    exact hin hs
  · obtain ⟨hcode, hruns, hloads, hfeeds⟩ := hnew hs
    refine ⟨by rw [hc, hcode], fun q run hq => hruns q run ?_, by rw [hctx]; exact hloads, fun f hf => ?_⟩
    · rw [← hq]
      exact (runOf_congr hstr q).symm
    · rw [feedOf, hcq]
      exact hfeeds f hf

/-- The chip halted with ALERT_N, and what Snivan is to know, `g`, set before it starts again. -/
def haltedFor (s : State) (code : Nat) (det : BitVec 128) (c : Byte) (g : Glb → Glb) : State :=
  let s1 := raiseAlert (chipHalt s 5 code det) c false
  { s1 with glb := g s1.glb }

/-- A halt with ALERT_N after which Snivan starts again (15 R464, 14 R432). -/
theorem restart_halts (s : State) (code : Nat) (det : BitVec 128) {c : Byte} (g : Glb → Glb) (puf : Bool) (hc : c ≠ 0)
    (hg : ∀ x, (g x).halted = x.halted) :
    let t := restartSnivan (haltedFor s code det c g) 2 puf
    Halts s t (BitVec.ofNat 16 code) ∧ Alerts s t c ∧ t.glb.skip = (g (chipHalt s 5 code det).glb).skip ∧
      t.glb.activate = (g (chipHalt s 5 code det).glb).activate ∧ t.glb.fw ≠ .ready ∧ t.flt.handled = s.flt.handled ∧
      ∃ l, t.flt.path = s.flt.path ++ chipRec s 5 code det :: l := by
  intro t
  obtain ⟨l, hs, hf⟩ := chipHalt_flt s 5 code det
  have hal : (haltedFor s code det c g).flt.alert = if s.flt.alert = 0 then c else s.flt.alert := by
    show (if (chipHalt s 5 code det).flt.alert = 0 then c else (chipHalt s 5 code det).flt.alert) = _
    rw [hf]
  have hne : (haltedFor s code det c g).flt.alert ≠ 0 := by
    rw [hal]
    split
    · exact hc
    · assumption
  obtain ⟨hfw, hh, hsk, hac, ⟨m, hold, hflt⟩, hpin⟩ := romBoot_restarts
    { haltedFor s code det c g with glb := { (haltedFor s code det c g).glb with fw := .starting } } 2 puf hne
  have hpath : t.flt.path = s.flt.path ++ chipRec s 5 code det :: (l ++ m) := by
    show (romBoot _ 2 puf).flt.path = _
    rw [hflt]
    show (chipHalt s 5 code det).flt.path ++ m = _
    rw [hf]
    simp
  have hk : t.hide [.flt, .glb, .sec, .pins] = (chipHalt s 5 code det).hide [.flt, .glb, .sec, .pins] := by
    show (restartSnivan _ 2 puf).hide _ = _
    rw [restartSnivan_hide _ _ _ (by decide) (by decide) (by decide) (by decide)]
    simp (disch := decide) only [haltedFor, ↓hide_glb, raiseAlert_hide]
  refine ⟨(chipHalt_halts s 5 code det).of_later ⟨m, ?_⟩ ?_ (hh.trans (hg _)) (str_eq_of_hide hk (by decide))
    (ctxs_eq_of_hide hk (by decide)) (seats_eq_of_hide hk (by decide)) (cq_eq_of_hide hk (by decide)), ⟨hpin rfl, ?_⟩, hsk, hac, hfw, ?_,
    l ++ m, hpath⟩
  · rw [hpath, hf]
    simp
  · show (romBoot _ 2 puf).flt.haltCode = _
    rw [hflt]
    rfl
  · show (romBoot _ 2 puf).flt.alert = _
    rw [hflt]
    exact hal
  · show (romBoot _ 2 puf).flt.handled = _
    rw [hflt]
    show (chipHalt s 5 code det).flt.handled = _
    rw [hf]

/-! ## Marks of contexts -/

theorem getLsbD_clrBit {w : Nat} (x : BitVec w) (i j : Nat) : (clrBit x i).getLsbD j = (x.getLsbD j && !decide (i = j)) := by
  rw [clrBit, BitVec.getLsbD_and, BitVec.getLsbD_not, BitVec.getLsbD_ofNat, Nat.one_shiftLeft, Nat.testBit_two_pow]
  by_cases hj : j < w
  · simp [hj]
  · simp [BitVec.getLsbD_of_ge x j (by omega)]

/-- The contexts of the holds `l` are marked. -/
def markAll (l : List CtxHold) (s : State) : State := l.foldl (fun s c => markContext s c.ctx) s

theorem markAll_flt (l : List CtxHold) (s : State) : ∃ F, (markAll l s).flt = { s.flt with faulted := F } ∧
    ∀ c, c < 16 → (F.getLsbD c = true ↔ s.flt.faulted.getLsbD c = true ∨ ∃ h ∈ l, h.ctx = c) := by
  unfold markAll
  induction l generalizing s with
  | nil => exact ⟨s.flt.faulted, rfl, fun c _ => by simp⟩
  | cons a l ih =>
    obtain ⟨F, hF, hb⟩ := ih (markContext s a.ctx)
    refine ⟨F, hF, fun c hc => (hb c hc).trans ?_⟩
    show (setBit s.flt.faulted a.ctx).getLsbD c = true ∨ _ ↔ _
    rw [getLsbD_setBit]
    simp [hc, or_assoc]

theorem releaseHolds_keeps (s : State) (n : Word) : (releaseHolds s n).hide [.flt] = s.hide [.flt] :=
  (hide_foldl _ _ _ fun u c => hide_flt u _ (by decide)).trans (hide_flt s _ (by decide))

/-- The holds that waited for record `n` are released and mark their contexts (15 R462). -/
theorem releaseHolds_flt (s : State) (n : Word) : ∃ F hs, (releaseHolds s n).flt = { s.flt with faulted := F, holds := hs } ∧
    ∀ c, c < 16 → (F.getLsbD c = true ↔ s.flt.faulted.getLsbD c = true ∨ ∃ h ∈ s.flt.holds, h.seq = some n ∧ h.ctx = c) := by
  obtain ⟨F, hF, hb⟩ := markAll_flt (s.flt.holds.filter fun c => c.seq == some n)
    { s with flt := { s.flt with holds := s.flt.holds.filter fun c => c.seq != some n } }
  refine ⟨F, _, hF, fun c hc => (hb c hc).trans ?_⟩
  simp [and_assoc]

/-! ## Fences -/

/-- The state with seat `w` marked as fenced in its crew's map. -/
def fenceMarked (s : State) (w : Nat) : State := modMap s (crewOf w) fun m => { m with fenced := setBit m.fenced (w % 24), due := true }

/-- The same with the heat on the seat aborted. -/
def fenceAborted (s : State) (w : Nat) : State :=
  match seatHeat s w with
  | some p => abortHeat (fenceMarked s w) p.1 p.2 19 0
  | none => fenceMarked s w

theorem fenceOne_eq (s : State) (w : Nat) : fenceOne s w = report (fenceAborted s w) (fenceRec (fenceAborted s w) w) := rfl

theorem fenceAborted_keeps (s : State) (w : Nat) : (fenceAborted s w).hide [.seats, .str, .ctxs, .cq, .clk, .flt, .pools] =
    (fenceMarked s w).hide [.seats, .str, .ctxs, .cq, .clk, .flt, .pools] := by
  unfold fenceAborted
  split
  · exact abortHeat_hide _ _ _ _ _ (by decide) (by decide) (by decide) (by decide) (by decide) (by decide) (by decide)
  · rfl

theorem fenceOne_sec (s : State) (w : Nat) : (fenceOne s w).sec = s.sec := by
  rw [fenceOne_eq, report_sec, sec_eq_of_hide (fenceAborted_keeps s w) (by decide)]
  rfl

theorem grows_fenceOne (s : State) (w : Nat) : Grows s (fenceOne s w) := by
  rw [fenceOne_eq]
  refine Grows.trans (t := fenceMarked s w) (grows_of_eq rfl rfl) (Grows.trans ?_ (grows_report _ _))
  unfold fenceAborted
  split
  · exact grows_abortHeat _ _ _ _ _
  · exact .refl _

theorem recordFence_keeps (s : State) (w cause : Nat) : (recordFence s w cause).hide [.sec, .free] = s.hide [.sec, .free] :=
  recordFence_hide s w cause (by decide) (by decide)

/-- The fence log takes one more entry while it has room. -/
theorem recordFence_length (s : State) (w cause : Nat) : (recordFence s w cause).sec.flash.fences.length =
    if 256 ≤ s.sec.flash.fences.length then s.sec.flash.fences.length else s.sec.flash.fences.length + 1 := by
  unfold recordFence
  dsimp only
  split
  · rfl
  · exact List.length_append

/-- One seat fenced, and recorded in flash where `keep` asks. -/
def fenceStep (keep : Bool) (s : State) (w : Nat) : State := if keep then recordFence (fenceOne s w) w 1 else fenceOne s w

theorem fenceStep_noc (keep : Bool) (s : State) (w : Nat) : (fenceStep keep s w).noc = (fenceMarked s w).noc := by
  unfold fenceStep
  split
  · exact (recordFence_noc _ w 1).trans (fenceOne_noc s w)
  · exact fenceOne_noc s w

theorem grows_fenceStep (keep : Bool) (s : State) (w : Nat) : Grows s (fenceStep keep s w) := by
  unfold fenceStep
  split
  · exact (grows_fenceOne s w).trans (grows_of_hide (recordFence_keeps _ w 1) (by decide) (by decide))
  · exact grows_fenceOne s w

theorem mapOf_fenceMarked (s : State) (w q : Nat) : mapOf (fenceMarked s w) q =
    if q = crewOf w then { mapOf s q with fenced := setBit (mapOf s q).fenced (w % 24), due := true } else mapOf s q := by
  unfold fenceMarked
  split
  · next h => rw [h, mapOf_modMap_self]
  · next h => rw [mapOf_modMap_ne _ _ h]

/-- What FENCE_SEAT leaves of the maps and the fence log, once the seats `ws` are fenced. -/
structure Fenced (s t : State) (ws : List Nat) : Prop where
  fenced : ∀ v, seatFenced t v = (seatFenced s v || decide (v ∈ ws))
  due : ∀ q, (mapOf s q).due = true ∨ (∃ w ∈ ws, crewOf w = q) → (mapOf t q).due = true
  phys : ∀ q, (mapOf t q).phys = (mapOf s q).phys

theorem fenced_step (keep : Bool) (s : State) (w : Nat) : Fenced s (fenceStep keep s w) [w] := by
  have hn := fenceStep_noc keep s w
  refine ⟨fun v => ?_, fun q hq => ?_, fun q => ?_⟩
  · have hs : seatFenced (fenceStep keep s w) v = seatFenced (fenceOne s w) v := seatFenced_of_noc (hn.trans (fenceOne_noc s w).symm) v
    rw [hs]
    by_cases hv : v = w
    · rw [hv, seatFenced_fenceOne_self]
      simp
    · rw [seatFenced_fenceOne_ne s hv]
      simp [hv]
  · rw [mapOf_of_noc hn, mapOf_fenceMarked]
    split
    · rfl
    · next hne =>
      refine hq.resolve_right ?_
      rintro ⟨w', hw', hc⟩
      exact hne (by rw [← hc, List.mem_singleton.mp hw'])
  · rw [mapOf_of_noc hn, mapOf_fenceMarked]
    split <;> rfl

theorem fenced_foldl (keep : Bool) (ws : List Nat) (s : State) : Fenced s (ws.foldl (fenceStep keep) s) ws := by
  induction ws generalizing s with
  | nil => exact ⟨fun v => by simp, fun q hq => hq.resolve_right (by simp), fun _ => rfl⟩
  | cons a l ih =>
    obtain ⟨hf, hd, hp⟩ := fenced_step keep s a
    obtain ⟨lf, ld, lp⟩ := ih (fenceStep keep s a)
    refine ⟨fun v => ?_, fun q hq => ld q ?_, fun q => (lp q).trans (hp q)⟩
    · rw [List.foldl_cons, lf, hf]
      simp [Bool.or_assoc]
    · rcases hq with h | ⟨w, hw, hc⟩
      · exact Or.inl (hd q (Or.inl h))
      · rcases List.mem_cons.mp hw with rfl | hl
        · exact Or.inl (hd q (Or.inr ⟨w, by simp, hc⟩))
        · exact Or.inr ⟨w, hl, hc⟩

theorem fences_unkept (ws : List Nat) (s : State) : (ws.foldl (fenceStep false) s).sec.flash = s.sec.flash := by
  induction ws generalizing s with
  | nil => rfl
  | cons a l ih => rw [List.foldl_cons, ih, fenceStep, if_neg Bool.false_ne_true, fenceOne_sec]

theorem fences_kept (ws : List Nat) (s : State) : (ws.foldl (fenceStep true) s).sec.flash.fences.length =
    min (max 256 s.sec.flash.fences.length) (s.sec.flash.fences.length + ws.length) := by
  induction ws generalizing s with
  | nil =>
    rw [List.foldl_nil, List.length_nil]
    omega
  | cons a l ih =>
    rw [List.foldl_cons, ih, fenceStep, if_pos rfl, recordFence_length, fenceOne_sec, List.length_cons]
    split <;> omega

/-! ## The heat on a fenced seat -/

/-- The entry of an aborted heat, without what its data words hold. -/
theorem heatEntry_fields (r h : Nat) (x : Heat) (cause : Nat) (seq : Word) (time : BitVec 64) (hp : x.phase = .aborted) :
    let e := heatEntry r h x cause seq time
    fld e.first.toNat 8 8 = 2 ∧ fld e.first.toNat 16 16 = r % 2 ^ 16 ∧ fld e.first.toNat 64 12 = h % 2 ^ 12 ∧
      fld e.first.toNat 80 8 = 2 ∧ fld e.first.toNat 88 8 = cause % 256 ∧ fld e.first.toNat 160 32 = seq.toNat ∧ e.second ≠ none := by
  refine ⟨?_, ?_, ?_, ?_, ?_, ?_, Option.some_ne_none _⟩ <;>
    rw [heatEntry, fld_toNat_ofNat _ (by decide)] <;> simp (disch := decide) only [fld_pack_ne] <;>
    rw [fld_pack_self (by simp (disch := decide) only [fld_pack_ne, fld_pack_nil])]
  case refine_4 => rw [hp]; rfl
  case refine_6 => exact Nat.mod_eq_of_lt seq.isLt
  all_goals rfl

theorem runOf_fenceMarked (s : State) (w r : Nat) : runOf (fenceMarked s w) r = runOf s r := rfl

theorem cqrOf_congr {s t : State} (h : t.cq = s.cq) (n : Nat) : cqrOf t n = cqrOf s n := by rw [cqrOf, cqrOf, h]

end Sys2Proof.Machine
end

section
/-!
SUPPORT. Handling and fences, carried on: what becomes of the heat on a fenced seat (07 R220, 13 R422), and the records that Snivan handles
(15 R461-R463).
-/
namespace Sys2Proof.Machine
open Host (Outcome)

/-! ## The heat that an abort ends -/

theorem heatOf_eq (s : State) (r h : Nat) : heatOf s r h = (runOf s r).bind fun run => run.heats[h]? := by
  unfold heatOf
  cases runOf s r <;> rfl

theorem HeatEnds.of_str {s t u : State} {r h : Nat} {ph : Phase} (k : HeatEnds s t r h ph) (hu : u.str = t.str) : HeatEnds s u r h ph := by
  obtain ⟨hp, hl⟩ := k
  exact ⟨fun y hy => hp y (by rw [← hy, heatOf_eq, heatOf_eq, runOf_congr hu]), fun run hr => by rw [runOf_congr hu]; exact hl run hr⟩

theorem HeatEntryOut.of_grows {s t u : State} {n r h outcome cause : Nat} {seq : Word} (k : HeatEntryOut s t n r h outcome cause seq)
    (hu : Grows t u) : HeatEntryOut s u n r h outcome cause seq := by
  obtain ⟨e, l, he, hf⟩ := k
  obtain ⟨m, hm⟩ := hu.rings n
  exact ⟨e, l ++ m, by rw [hm, he]; simp, hf⟩

/-- A run whose heat `h` is replaced by one that has ended is over exactly where the others have ended. -/
theorem all_ended_modAt {l : List Heat} {h : Nat} {x : Heat} {f : Heat → Heat} (hx : l[h]? = some x) (hf : (f x).phase.ended = true) :
    ((modAt f l h).all fun h => h.phase.ended) = true ↔ ∀ i y, l[i]? = some y → i ≠ h → y.phase.ended = true := by
  rw [List.all_eq_true]
  constructor
  · intro ha i y hy hi
    exact ha y (List.mem_of_getElem? ((getElem?_modAt_ne f l hi).trans hy))
  · intro ho y hy
    obtain ⟨i, hi⟩ := List.getElem?_of_mem hy
    by_cases hih : i = h
    · rw [hih, getElem?_modAt_self, hx] at hi
      obtain rfl := Option.some.inj hi
      exact hf
    · rw [getElem?_modAt_ne f l hih] at hi
      exact ho i y hi hih

/-- The run `run` with heat `h` aborted. -/
def Run.abortAt (run : Run) (g : BitVec 4 × List Word) (h : Nat) : Run := { run with heats := modAt (Heat.abortedWith g) run.heats h }

theorem runOf_abortHeat {s : State} {r h : Nat} (cause : Nat) (seq : Word) {x : Heat} {run : Run} (hr : runOf s r = some run)
    (hx : run.heats[h]? = some x) (hp : x.phase = .dispatched) : ∃ g, runOf (abortHeat s r h cause seq) r =
      if ((run.abortAt g h).heats.all fun h => h.phase.ended) = true then none else some (run.abortAt g h) := by
  have hh : heatOf s r h = some x := by rw [heatOf_eq, hr]; exact hx
  obtain ⟨g, hg, -⟩ := runOf_abortLogged s r h cause seq x
  refine ⟨g, ?_⟩
  rw [abortHeat_eq cause seq hh hp, runOf_settleRun_self, postHeat_runOf, hg, hr]
  rfl

/-- An aborted heat has ended, and its run with it where it was the last. -/
theorem abortHeat_ends {s : State} {r h : Nat} (cause : Nat) (seq : Word) {x : Heat} (hx : heatOf s r h = some x) (hp : x.phase = .dispatched) :
    HeatEnds s (abortHeat s r h cause seq) r h .aborted := by
  rw [heatOf_eq] at hx
  obtain ⟨run, hr, hx⟩ := Option.bind_eq_some_iff.mp hx
  obtain ⟨g, hg⟩ := runOf_abortHeat cause seq hr hx hp
  refine ⟨fun y hy => ?_, fun run' hr' => ?_⟩
  · rw [heatOf_eq, hg] at hy
    split at hy
    · cases hy
    · rw [Option.bind_some, Run.abortAt, getElem?_modAt_self, hx] at hy
      rw [← Option.some.inj hy]
      rfl
  · obtain rfl := Option.some.inj (hr.symm.trans hr')
    rw [hg, ← all_ended_modAt (f := Heat.abortedWith g) hx rfl]
    exact ite_eq_left_iff.trans (by simp [Run.abortAt])

theorem abortLogged_keeps (s : State) (r h cause : Nat) (seq : Word) (x : Heat) :
    (abortLogged s r h cause seq x).hide [.seats, .clk, .str, .pools, .flt] = s.hide [.seats, .clk, .str, .pools, .flt] := by
  have h3 : (abortEnded s r h x).hide [.seats, .clk, .str, .pools, .flt] = s.hide [.seats, .clk, .str, .pools, .flt] := by
    rw [abortEnded, modHeat_hide _ _ _ _ (by decide), retire_hide _ _ _ (by decide) (by decide)]
    split
    · rfl
    · exact endOnSeats_hide s r h x.seats (by decide) (by decide)
  rw [abortLogged, report_hide _ _ (by decide)]
  split
  · exact h3
  · exact h3

theorem postHeat_entries {s : State} {r h : Nat} (cause : Nat) (seq : Word) {x : Heat} {run : Run} (hr : runOf s r = some run)
    (hx : heatOf s r h = some x) : postHeat s r h cause seq = postEntry s run.ring (heatEntry r h x cause seq (domTime s 98)) := by
  rw [postHeat, hr, hx]

/-- The entry of an aborted heat is the next of its run's ring. -/
theorem abortHeat_entry {s : State} {r h : Nat} (cause : Nat) (seq : Word) {x : Heat} {run : Run} (hr : runOf s r = some run)
    (hx : heatOf s r h = some x) (hp : x.phase = .dispatched) :
    HeatEntryOut s (abortHeat s r h cause seq) run.ring r h 2 cause (if cause = 16 then seq else 0) := by
  obtain ⟨g, hg, -⟩ := runOf_abortLogged s r h cause seq x
  have hr' : runOf (abortLogged s r h cause seq x) r = some (run.abortAt g h) := by
    rw [hg, hr]
    rfl
  have hx' : heatOf (abortLogged s r h cause seq x) r h = some (x.abortedWith g) := by
    rw [heatOf_eq, hr] at hx
    rw [heatOf_eq, hr', Option.bind_some, Run.abortAt, getElem?_modAt_self, show run.heats[h]? = some x from hx]
    rfl
  rw [abortHeat_eq cause seq hx hp]
  refine HeatEntryOut.of_grows ?_ (grows_settleRun _ r)
  rw [postHeat_entries cause _ hr' hx']
  exact ⟨_, [], by rw [show (run.abortAt g h).ring = run.ring from rfl, postEntry_entries,
    cqrOf_congr (cq_eq_of_hide (abortLogged_keeps s r h cause seq x) (by decide))], heatEntry_fields r h _ cause _ _ rfl⟩

/-- The heat on a fenced seat is aborted, with cause SEAT_FENCED (15 R470). -/
theorem fenceOne_aborts {s : State} {w r h : Nat} {x : Heat} (hw : seatHeat s w = some (r, h)) (hx : heatOf s r h = some x)
    (hp : x.phase = .dispatched) (keep : Bool) : HeatEnds s (fenceStep keep s w) r h .aborted ∧
      ∀ run, runOf s r = some run → HeatEntryOut s (fenceStep keep s w) run.ring r h 2 19 0 := by
  have ha : fenceAborted s w = abortHeat (fenceMarked s w) r h 19 0 := by rw [fenceAborted, hw]
  have hstr : (fenceStep keep s w).str = (fenceAborted s w).str := by
    unfold fenceStep
    split
    · rw [str_eq_of_hide (recordFence_keeps _ w 1) (by decide), fenceOne_eq, report_str]
    · rw [fenceOne_eq, report_str]
  have hgr : Grows (fenceAborted s w) (fenceStep keep s w) := by
    have h1 : Grows (fenceAborted s w) (fenceOne s w) := fenceOne_eq s w ▸ grows_report _ _
    unfold fenceStep
    split
    · exact h1.trans (grows_of_hide (recordFence_keeps _ w 1) (by decide) (by decide))
    · exact h1
  rw [ha] at hstr hgr
  exact ⟨HeatEnds.of_str (abortHeat_ends (s := fenceMarked s w) 19 0 hx hp) hstr,
    fun run hr => HeatEntryOut.of_grows (abortHeat_entry (s := fenceMarked s w) 19 0 hr hx hp) hgr⟩

/-! ## The records that Snivan handles -/

/-- A record of a seat's hardware fault, which fences the seat (15 R471). -/
def fencesSeat (r : Record) : Bool := decide (0x80 ≤ r.code ∧ r.code ≤ 0x82 ∧ r.phys ≠ 0xFF ∧ r.kind ≠ 4)

/-- Handling `r` fences its seat, which is neither disabled nor fenced. -/
def fencesNow (s : State) (r : Record) : Bool := fencesSeat r && !fenceNeedless s (recSeat r)

/-- The state with the context of a record that marks it marked. -/
def recordMarked (s : State) (r : Record) : State := if marksContext r then markContext s r.ctx.toNat else s

theorem recordMarked_keeps (s : State) (r : Record) : (recordMarked s r).hide [.flt] = s.hide [.flt] := by
  unfold recordMarked
  split <;> rfl

theorem recordMarked_needless (s : State) (r : Record) (w : Nat) : fenceNeedless (recordMarked s r) w = fenceNeedless s w := by
  unfold recordMarked
  split <;> rfl

theorem actOn_of_fences {s : State} {r : Record} (h : fencesNow s r = true) :
    actOn s r = recordFence (fenceOne (flagFenced (recordMarked s r) r) (recSeat r)) (recSeat r) 3 := by
  obtain ⟨hr, hn⟩ := (Bool.and_eq_true_iff (x := fencesSeat r)).mp h
  rw [Bool.not_eq_true', ← recordMarked_needless s r] at hn
  show (if _ then (if fenceNeedless (recordMarked s r) (recSeat r) = true then _ else _) else _) = _
  rw [if_pos (of_decide_eq_true hr), if_neg (Bool.eq_false_iff.mp hn)]
  rfl

theorem actOn_keeps {s : State} {r : Record} (h : fencesNow s r = false) : (actOn s r).hide [.clk] = (recordMarked s r).hide [.clk] := by
  show State.hide _ (if _ then (if fenceNeedless (recordMarked s r) (recSeat r) = true then _ else _) else if _ then _ else _) = _
  split
  · next hr =>
    have hn : fenceNeedless (recordMarked s r) (recSeat r) = true := by
      rw [recordMarked_needless]
      have hr' : fencesSeat r = true := decide_eq_true hr
      simpa [fencesNow, hr'] using h
    rw [if_pos hn]
    rfl
  · split
    · exact modDom_hide _ _ _ (by decide)
    · rfl

/-- What handling a record leaves of FLT. -/
theorem actOn_flt (s : State) (r : Record) : ∃ l hs, (actOn s r).flt = { s.flt with
    path := s.flt.path ++ l, holds := hs, faulted := if marksContext r then setBit s.flt.faulted r.ctx.toNat else s.flt.faulted
    log := if fencesNow s r then tput s.flt.log (r.seq.toNat % 1024) { r with flags := r.flags ||| 4 } else s.flt.log } := by
  have hm : (recordMarked s r).flt =
      { s.flt with faulted := if marksContext r then setBit s.flt.faulted r.ctx.toNat else s.flt.faulted } := by
    unfold recordMarked
    split <;> rfl
  cases h : fencesNow s r with
  | true =>
    obtain ⟨l, hs, hf⟩ := (grows_fenceOne (flagFenced (recordMarked s r) r) (recSeat r)).flt
    rw [actOn_of_fences h, flt_eq_of_hide (recordFence_keeps _ _ 3) (by decide), hf, flagFenced, hm]
    exact ⟨l, hs, rfl⟩
  | false =>
    rw [flt_eq_of_hide (actOn_keeps h) (by decide), hm]
    exact ⟨[], s.flt.holds, by simp⟩

/-- The seat of a hardware fault is fenced once its record has been handled. -/
theorem seatFenced_actOn {s : State} {r : Record} (h : fencesSeat r = true) (hd : (seatOf s (recSeat r)).disabled = false) :
    seatFenced (actOn s r) (recSeat r) = true := by
  cases hn : fencesNow s r with
  | true => rw [actOn_of_fences hn, seatFenced_of_noc (recordFence_noc _ _ 3), seatFenced_fenceOne_self]
  | false =>
    rw [seatFenced_of_noc ((noc_eq_of_hide (actOn_keeps hn) (by decide)).trans (noc_eq_of_hide (recordMarked_keeps s r) (by decide)))]
    simpa [fencesNow, h, fenceNeedless, hd] using hn

/-- `t` is `s` with record `n`, at slot `r`, handled: holds that waited for it are released, its context is marked where `m`, and its copy in the log
says that its seat is fenced where `f`. -/
def HandledAs (s t : State) (n : Word) (r : Record) (m f : Bool) : Prop :=
  ∃ l hs F, t.flt = { s.flt with
      handled := n, path := s.flt.path ++ l, holds := hs, faulted := F
      log := if f then tput s.flt.log (n.toNat % 1024) { r with flags := r.flags ||| 4 } else s.flt.log } ∧
    ∀ c, c < 16 → (F.getLsbD c = true ↔
      s.flt.faulted.getLsbD c = true ∨ (∃ h ∈ s.flt.holds, h.seq = some n ∧ h.ctx = c) ∨ m = true ∧ r.ctx.toNat = c)

/-- The holds that waited for the next record are released. -/
def released (s : State) : State := releaseHolds { s with flt := { s.flt with handled := nextSeq s.flt.handled } } (nextSeq s.flt.handled)

theorem released_flt (s : State) : ∃ F hs, (released s).flt = { s.flt with handled := nextSeq s.flt.handled, faulted := F, holds := hs } ∧
    ∀ c, c < 16 → (F.getLsbD c = true ↔ s.flt.faulted.getLsbD c = true ∨ ∃ h ∈ s.flt.holds, h.seq = some (nextSeq s.flt.handled) ∧ h.ctx = c) :=
  releaseHolds_flt _ _

theorem released_keeps (s : State) : (released s).hide [.flt] = s.hide [.flt] := (releaseHolds_keeps _ _).trans (hide_flt s _ (by decide))

section
variable {s : State} (h : s.flt.handled ≠ s.flt.lastSeq) (hf : s.glb.fw = .ready)
include h

theorem nextHandled_of : nextHandled s = some (nextSeq s.flt.handled) := if_neg h

include hf

theorem recordHandling_none (hl : logHas s (nextSeq s.flt.handled) = false) : exec .recordHandling s = .next (released s) := by
  show execRecordHandling s = _
  simp only [execRecordHandling, nextHandled_of h]
  rw [if_neg (by simp [hf]), if_pos hl]
  rfl

theorem recordHandling_skip (hl : logHas s (nextSeq s.flt.handled) = true) (hs : s.glb.skip = some (nextSeq s.flt.handled)) :
    let r := logSlot s (nextSeq s.flt.handled).toNat
    let s2 := { released s with glb := { (released s).glb with skip := none } }
    exec .recordHandling s = .next (if r.ctx = 0xFF then s2 else markContext s2 r.ctx.toNat) := by
  show execRecordHandling s = _
  simp only [execRecordHandling, nextHandled_of h]
  rw [if_neg (by simp [hf]), if_neg (by simp [hl]), if_pos hs]
  rfl

theorem recordHandling_acts (hl : logHas s (nextSeq s.flt.handled) = true) (hs : s.glb.skip ≠ some (nextSeq s.flt.handled)) :
    exec .recordHandling s = .next (actOn (released s) (logSlot s (nextSeq s.flt.handled).toNat)) := by
  show execRecordHandling s = _
  simp only [execRecordHandling, nextHandled_of h]
  rw [if_neg (by simp [hf]), if_neg (by simp [hl]), if_neg hs]
  rfl

end

theorem seq_of_logHas {s : State} {n : Word} (h : logHas s n = true) : (logSlot s n.toNat).seq = n := by
  rw [logHas, Bool.and_eq_true] at h
  exact eq_of_beq h.2

theorem handledAs_released (s : State) (r : Record) : HandledAs s (released s) (nextSeq s.flt.handled) r false false := by
  obtain ⟨F, hs, hf, hb⟩ := released_flt s
  exact ⟨[], hs, F, by simp [hf], fun c hc => by simp [hb c hc]⟩

theorem handledAs_skipped (s : State) (r : Record) (g : Glb) :
    HandledAs s (markContext { released s with glb := g } r.ctx.toNat) (nextSeq s.flt.handled) r true false := by
  obtain ⟨F, hs, hf, hb⟩ := released_flt s
  refine ⟨[], hs, setBit F r.ctx.toNat, by simp [markContext, hf], fun c hc => ?_⟩
  rw [getLsbD_setBit, Bool.or_eq_true, hb c hc]
  simp [hc, or_assoc]

theorem handledAs_acted {s : State} (hl : logHas s (nextSeq s.flt.handled) = true) :
    let r := logSlot s (nextSeq s.flt.handled).toNat
    HandledAs s (actOn (released s) r) (nextSeq s.flt.handled) r (marksContext r) (fencesNow (released s) r) := by
  intro r
  obtain ⟨F, hs, hf, hb⟩ := released_flt s
  obtain ⟨l, hs', ha⟩ := actOn_flt (released s) r
  rw [hf, show r.seq.toNat = (nextSeq s.flt.handled).toNat from congrArg _ (seq_of_logHas hl)] at ha
  refine ⟨l, hs', _, ha, fun c hc => ?_⟩
  cases hm : marksContext r with
  | true =>
    show (setBit F r.ctx.toNat).getLsbD c = true ↔ _
    rw [getLsbD_setBit, Bool.or_eq_true, hb c hc]
    simp [hc, or_assoc]
  | false =>
    show F.getLsbD c = true ↔ _
    simp [hb c hc]

/-! ## FENCE_SEAT -/

/-- The seats that FENCE_SEAT with unit `u` fences. -/
def toFence (s : State) (u : Nat) : List Nat := (unitSeats s u).filter fun w => !fenceNeedless s w

section
variable {s : State} {src : SrcIx} {c : Nat} (h : RunsLate s src 0x32 c)
include h

theorem fenceSeat_badUnit (hu : unitBad s (cUnit c) 0 3 true = true) :
    AnswersLate (exec (.fenceSeat src) s) s src c stBadUnit (1 + 2 ^ 32 * cUnit c) := by
  show execFenceSeat src s = _
  rw [execFenceSeat, lateRow_completes h.1 h.2]
  simp only [if_pos hu, badUnitResult]

theorem fenceSeat_badParameter (hu : unitBad s (cUnit c) 0 3 true = false) (hp : 1 < cb c 0x10 1) :
    AnswersLate (exec (.fenceSeat src) s) s src c stBadParameter 0 := by
  show execFenceSeat src s = _
  rw [execFenceSeat, lateRow_completes h.1 h.2]
  simp only [if_neg (Bool.eq_false_iff.mp hu), if_pos hp]

theorem fenceSeat_fences (hu : unitBad s (cUnit c) 0 3 true = false) (hp : cb c 0x10 1 ≤ 1) :
    AnswersLate (exec (.fenceSeat src) s) ((toFence s (cUnit c)).foldl (fenceStep (bit (cb c 0x10 1) 0)) s) src c
      (if bit (cb c 0x10 1) 0 = true ∧ 256 - s.sec.flash.fences.length < (toFence s (cUnit c)).length then 0x58 else stSuccess)
      (2 ^ 64 * (toFence s (cUnit c)).length) := by
  show execFenceSeat src s = _
  rw [execFenceSeat, lateRow_completes h.1 h.2]
  simp only [if_neg (Bool.eq_false_iff.mp hu), if_neg (show ¬ 1 < cb c 0x10 1 by omega)]
  rfl

end

end Sys2Proof.Machine
end

section
open Sys2Proof Sys2Proof.Machine

namespace Sys2Proof.Machine

/-! ## Records handled and seats fenced -/

/-- What `Obligations.HandlingAndFences` says of a handled record, where the log holds it or not. -/
theorem HandledAs.flt_facts {s t : State} {n : Word} {m f : Bool} (h : HandledAs s t n (logSlot s n.toNat) m f) :
    t.flt.handled = n ∧ t.flt.lastSeq = s.flt.lastSeq ∧ t.flt.ackSeq = s.flt.ackSeq ∧
      (∀ k, k ≠ n.toNat % 1024 → tget {} t.flt.log k = tget {} s.flt.log k) ∧
      logSlot t n.toNat = { logSlot s n.toNat with flags := if f then (logSlot s n.toNat).flags ||| 4 else (logSlot s n.toNat).flags } := by
  obtain ⟨l, hs, F, hf, -⟩ := h
  rw [logSlot, hf]
  refine ⟨rfl, rfl, rfl, fun k hk => ?_, ?_⟩
  · cases f with
    | true => exact tget_tput_ne _ _ _ hk
    | false => rfl
  · cases f with
    | true => exact tget_tput_self _ _ _ _
    | false => rfl

theorem HandledAs.faulted_iff {s t : State} {n : Word} {r : Record} {m f : Bool} (h : HandledAs s t n r m f) {c : Nat} (hc : c < 16) :
    t.flt.faulted.getLsbD c = true ↔
      s.flt.faulted.getLsbD c = true ∨ (∃ h ∈ s.flt.holds, h.seq = some n ∧ h.ctx = c) ∨ m = true ∧ r.ctx.toNat = c := by
  obtain ⟨l, hs, F, hf, hb⟩ := h
  rw [hf]
  exact hb c hc

theorem HandledAs.faulted_eq {s t : State} {n : Word} {r : Record} {m f : Bool} (h : HandledAs s t n r m f) {c : Nat} (hc : c < 16)
    (hh : ∀ h ∈ s.flt.holds, h.seq = some n → h.ctx ≠ c) (hr : r.ctx.toNat ≠ c) :
    t.flt.faulted.getLsbD c = s.flt.faulted.getLsbD c := by
  rw [Bool.eq_iff_iff, h.faulted_iff hc]
  constructor
  · rintro (h | ⟨x, hx, hn, hc'⟩ | ⟨-, hc'⟩)
    · exact h
    · exact absurd hc' (hh x hx hn)
    · exact absurd hc' hr
  · exact Or.inl

/-- The next record is handled, in one of the three ways of 15 R461, R462 and R464. -/
theorem recordHandling_handles {s : State} (h : s.flt.handled ≠ s.flt.lastSeq) (hf : s.glb.fw = .ready) :
    let n := nextSeq s.flt.handled
    let r := logSlot s n.toNat
    ∃ t m f, exec .recordHandling s = .next t ∧ HandledAs s t n r m f ∧
      (logHas s n = true → s.glb.skip ≠ some n → marksContext r = true → m = true) ∧
      (logHas s n = true → s.glb.skip = some n → r.ctx.toNat < 16 → m = true ∧ t.glb.skip = none) ∧
      (logHas s n = true → s.glb.skip ≠ some n → fencesSeat r = true → (seatOf s (recSeat r)).disabled = false →
        seatFenced t (recSeat r) = true ∧ (seatFenced s (recSeat r) = false → f = true)) := by
  intro n r
  cases hl : logHas s n with
  | false => exact ⟨_, _, _, recordHandling_none h hf hl, handledAs_released s r, by simp, by simp, by simp⟩
  | true =>
    by_cases hs : s.glb.skip = some n
    · refine ⟨_, r.ctx != 0xFF, false, recordHandling_skip h hf hl hs, ?_, by simp [hs], fun _ _ hc => ⟨?_, ?_⟩, by simp [hs]⟩
      · by_cases hc : r.ctx = 0xFF
        · rw [if_pos hc, hc]
          exact handledAs_released s r
        · rw [if_neg hc, bne_iff_ne.mpr hc]
          exact handledAs_skipped s r _
      · exact bne_iff_ne.mpr fun h0 => absurd hc (by rw [h0]; decide)
      · split <;> rfl
    · refine ⟨_, _, _, recordHandling_acts h hf hl hs, handledAs_acted hl, fun _ _ hm => hm, by simp [hs], fun _ _ hr hd => ?_⟩
      have hn : ∀ w, fenceNeedless (released s) w = ((seatOf s w).disabled || seatFenced s w) := fun w => by
        rw [fenceNeedless, seatFenced_of_noc (noc_eq_of_hide (released_keeps s) (by decide)), seatOf,
          seats_eq_of_hide (released_keeps s) (by decide)]
        rfl
      refine ⟨seatFenced_actOn hr ?_, fun hw => ?_⟩
      · rw [← hd, seatOf, seats_eq_of_hide (released_keeps s) (by decide)]
        rfl
      · rw [fencesNow, hr, hn, hd, hw]
        rfl

/-! ## A handler that fails, and the watchdog -/

theorem snivanHandler_restarts {s : State} (puf : Bool) (h : s.flt.handled ≠ s.flt.lastSeq) (hf : s.glb.fw = .ready) :
    exec (.snivanHandler puf) s = .next (restartSnivan (haltedFor s snivanHandlerCode (detail 0 0 0 (nextSeq s.flt.handled).toNat 0) 3
      fun g => { g with skip := some (nextSeq s.flt.handled) }) 2 puf) := by
  show execSnivanHandler puf s = _
  simp only [execSnivanHandler, nextHandled_of h]
  rw [if_neg (by simp [hf])]
  rfl

theorem mgmtWatchdog_restarts {s : State} (puf : Bool) (h : watchdogMay s = true) :
    exec (.mgmtWatchdog puf) s = .next (restartSnivan (haltedFor s mgmtWatchdogCode 0 2
      fun g => { g with wdTrial := s.glb.wdTrial || s.glb.trial, activate := false }) 2 puf) := by
  show execMgmtWatchdog puf s = _
  rw [execMgmtWatchdog, if_pos h]
  rfl

theorem mgmtWatchdog_early {s : State} (puf : Bool) (h : s.clk.ticks < s.glb.fwTick + 25000000) :
    exec (.mgmtWatchdog puf) s = .next s := by
  show execMgmtWatchdog puf s = _
  refine if_neg ?_
  rw [watchdogMay, decide_eq_false (by omega), Bool.and_false]
  exact Bool.false_ne_true

/-! ## FAULT_CLEAR of a context -/

section
variable {s : State} {src : SrcIx} {c : Nat} (h : commandOf s src.val 0x31 = some c) (hw : cb c 0x10 1 = 0)
include h hw

theorem faultClear_badParameter (hk : 15 < cb c 0x11 1) : Answers (exec (.faultClearContext src) s) s src c stBadParameter 0 := by
  refine (commandRow_of h).trans ?_
  simp only [hw, ne_eq, not_true_eq_false, if_false, if_pos hk]

theorem faultClear_noContext (hk : cb c 0x11 1 ≤ 15) (hs : (ctxOf s (cb c 0x11 1)).state = .free) :
    Answers (exec (.faultClearContext src) s) s src c stNoContext 0 := by
  refine (commandRow_of h).trans ?_
  simp only [hw, ne_eq, not_true_eq_false, if_false, if_neg (show ¬ 15 < cb c 0x11 1 by omega), if_pos hs]

theorem faultClear_clears (hk : cb c 0x11 1 ≤ 15) (hs : (ctxOf s (cb c 0x11 1)).state ≠ .free) :
    Answers (exec (.faultClearContext src) s) { s with flt := { s.flt with faulted := clrBit s.flt.faulted (cb c 0x11 1) } } src c stSuccess 0 := by
  refine (commandRow_of h).trans ?_
  simp only [hw, ne_eq, not_true_eq_false, if_false, if_neg (show ¬ 15 < cb c 0x11 1 by omega), if_neg hs]

end

/-! ## FENCE_SEAT in the background -/

theorem fenceSeat_begins {s : State} {src : SrcIx} {c : Nat} (h : commandOf s src.val 0x32 = some c) :
    BeginsLate s src c (exec (.fenceSeat src) s) :=
  ⟨_, lateRow_begins h, rfl, rfl, rfl, sqOf_modSq_self s src.val fun q => { q with cur := none, waiting := q.waiting + 1 }⟩

theorem toFence_single {s : State} {u w r h : Nat} {x : Heat} (hw : toFence s u = [w]) (hs : seatHeat s w = some (r, h))
    (hx : heatOf s r h = some x) (hp : x.phase = .dispatched) (keep : Bool) :
    HeatEnds s ((toFence s u).foldl (fenceStep keep) s) r h .aborted ∧
      ∀ run, runOf s r = some run → HeatEntryOut s ((toFence s u).foldl (fenceStep keep) s) run.ring r h 2 19 0 := by
  rw [hw]
  exact fenceOne_aborts hs hx hp keep

/-- What a fence of the seats `ws` leaves of the maps, read seat by seat. -/
theorem Fenced.maps {s t : State} {ws : List Nat} (h : Fenced s t ws) :
    (∀ w ∈ ws, seatFenced t w = true ∧ (mapOf t (crewOf w)).due = true) ∧ (∀ w, w ∉ ws → seatFenced t w = seatFenced s w) ∧
      ∀ q, (mapOf t q).phys = (mapOf s q).phys := by
  refine ⟨fun w hw => ⟨?_, h.due _ (Or.inr ⟨w, hw, rfl⟩)⟩, fun w hw => ?_, h.phys⟩
  · rw [h.fenced, decide_eq_true hw, Bool.or_true]
  · rw [h.fenced, decide_eq_false hw, Bool.or_false]

end Sys2Proof.Machine

/-- Settles O44: a handled record changes FLT as `HandledAs` says, by the three ways of `recordHandling_handles`; a halt with ALERT_N restarts Snivan;
FENCE_SEAT is a fold of single fences, of which `Fenced` is what stays. -/
theorem handlingAndFences : Obligations.HandlingAndFences := by
  unfold Obligations.HandlingAndFences
  refine ⟨fun s => ⟨?_, fun hne hfw => ?_, fun src c hc h0 => ⟨faultClear_badParameter hc h0, faultClear_noContext hc h0, fun hk hs => ?_⟩,
    fun puf hne hfw => ?_, fun puf hfw ht => ?_, fun puf => mgmtWatchdog_early puf⟩, fun s src c => ?_⟩
  · rintro (h | h)
    · show execRecordHandling s = _
      rw [execRecordHandling, nextHandled, if_pos h]
    · show execRecordHandling s = _
      rw [execRecordHandling, nextHandled]
      split_ifs <;> rfl
  · obtain ⟨t, m, f, ht, hh, hm, hs, hse⟩ := recordHandling_handles hne hfw
    obtain ⟨h1, h2, h3, h4, h5⟩ := hh.flt_facts
    refine ⟨t, ht, h1, h2, h3, h4, ⟨_, h5, ?_⟩, fun x hx hn hc => (hh.faulted_iff hc).mpr (Or.inr (Or.inl ⟨x, hx, hn, rfl⟩)),
      fun hl hk hc hr => (hh.faulted_iff hr).mpr (Or.inr (Or.inr ⟨hm hl hk hc, rfl⟩)), fun hl hk hr => ?_,
      fun hl hk ha hb hp hki hd => ?_, fun c hc hx => (hh.faulted_iff hc).mpr (Or.inl hx), fun c hc => hh.faulted_eq hc⟩
    · cases f with
      | true => exact Or.inr rfl
      | false => exact Or.inl rfl
    · obtain ⟨hm', hsk⟩ := hs hl hk hr
      exact ⟨(hh.faulted_iff hr).mpr (Or.inr (Or.inr ⟨hm', rfl⟩)), hsk⟩
    · obtain ⟨hfe, hf⟩ := hse hl hk (decide_eq_true ⟨ha, hb, hp, hki⟩) hd
      exact ⟨hfe, fun hw => by rw [h5, hf hw]; rfl⟩
  · exact ⟨_, faultClear_clears hc h0 hk hs, rfl, fun k _ => by simp only [getLsbD_clrBit, bne, beq_eq_decide, eq_comm]⟩
  · obtain ⟨hh, ha, hs, -, hf, hha, l, hl⟩ := restart_halts s snivanHandlerCode (detail 0 0 0 (nextSeq s.flt.handled).toNat 0) (c := 3)
      (fun g => { g with skip := some (nextSeq s.flt.handled) }) puf (by decide) fun _ => rfl
    exact ⟨_, _, l, snivanHandler_restarts puf hne hfw, hh, ha, hs, hf, hha, hl, rfl⟩
  · obtain ⟨hh, ha, -, hac, hf, -, -⟩ := restart_halts s mgmtWatchdogCode 0 (c := 2)
      (fun g => { g with wdTrial := s.glb.wdTrial || s.glb.trial, activate := false }) puf (by decide) fun _ => rfl
    refine ⟨_, mgmtWatchdog_restarts puf ?_, hh, hf, ha.1, hac, fun hp => ?_⟩
    · rw [watchdogMay, decide_eq_true ht, Bool.and_true]
      rcases hfw with h | h <;> rw [h] <;> rfl
    · rw [hp]
      exact romBoot_cause _ 2
  · refine ⟨fenceSeat_begins, fun h => ⟨fenceSeat_badUnit h, fenceSeat_badParameter h, fun hu hp => ⟨_, _, fenceSeat_fences h hu hp, ?_⟩⟩⟩
    obtain ⟨hw, hn, hph⟩ := (fenced_foldl (bit (cb c 0x10 1) 0) (toFence s (cUnit c)) s).maps
    refine ⟨hw, hn, hph, fun w r x y hws hs hx hd => toFence_single hws hs hx hd _, fun h0 => ?_, fun h1 => ?_⟩
    · rw [h0, show bit 0 0 = false from rfl]
      exact ⟨fences_unkept _ _, if_neg (by simp)⟩
    · rw [h1, show bit 1 0 = true from rfl]
      exact ⟨fences_kept _ _, by simp [toFence]⟩
end

section
/-!
SUPPORT. Answers (09 R274, R276, R279, R285): the header of an answer, field by field, the one packet that a destination sends, and a gathering in
which a member answers.
-/
namespace Sys2Proof.Machine
open Host (Outcome)

/-! ## The header of an answer -/

theorem pack_lt {n : Nat} {t : List (Nat × Nat × Nat)} (h : ∀ f ∈ t, f.1 + f.2.1 ≤ n) : pack t < 2 ^ n := by
  induction t with
  | nil => exact Nat.two_pow_pos n
  | cons a t ih =>
    obtain ⟨lo, w, v⟩ := a
    have ha : lo + w ≤ n := h _ List.mem_cons_self
    have hv : (v % 2 ^ w) <<< lo < 2 ^ (w + lo) := Nat.shiftLeft_lt (Nat.mod_lt _ (Nat.two_pow_pos w))
    exact Nat.or_lt_two_pow (hv.trans_le (Nat.pow_le_pow_right (by omega) (by omega))) (ih fun f hf => h f (List.mem_cons_of_mem _ hf))

theorem fabricAddr_lt (node half crew seat space off : Nat) : fabricAddr node half crew seat space off < 2 ^ 64 :=
  pack_lt (by simp)

theorem requesterAddr_lt (h : Nat) (rdata : Bool) : requesterAddr h rdata < 2 ^ 64 := by
  unfold requesterAddr
  dsimp only
  split <;> exact fabricAddr_lt _ _ _ _ _ _

/-- An answer other than RDATA, field by field (09 R274, R276). -/
theorem answerHdr_fields (h : Nat) (src : Word) {ty st : Nat} (word : Nat) (hty : ty = 6 ∨ ty = 7) (hst : st < 16) (data : List Granule) :
    AnswerTo ⟨answerHdr h src ty st word, data⟩ h ty st src ∧ pWord (answerHdr h src ty st word).toNat = word % 2 ^ 32 ∧
      pDest (answerHdr h src ty st word).toNat = requesterAddr h false := by
  have h5 : ty ≠ tyRdata := by rcases hty with rfl | rfl <;> decide
  have hb : (ty == tyRdata) = false := beq_eq_false_iff_ne.mpr h5
  unfold AnswerTo pType pStatus pTag pEpoch pEng pSrc pWord pDest
  simp only [answerHdr, if_neg h5, hb, Nat.add_zero]
  refine ⟨⟨?_, ?_, ?_, ?_, ?_, ?_⟩, ?_, ?_⟩ <;> rw [fld_toNat_ofNat _ (by decide)]
  · rw [fld_pack_self (by simp (disch := decide) only [fld_pack_ne, fld_pack_nil])]
    rcases hty with rfl | rfl <;> rfl
  all_goals
    simp (disch := decide) only [fld_pack_ne]
    rw [fld_pack_self (by simp (disch := decide) only [fld_pack_ne, fld_pack_nil])]
  · exact Nat.mod_eq_of_lt hst
  · exact Nat.mod_eq_of_lt (fld_lt _ _ _)
  · rw [Nat.mod_eq_of_lt (BitVec.isLt _), BitVec.ofNat_toNat, BitVec.setWidth_eq]
    rfl
  · exact Nat.mod_eq_of_lt (fld_lt _ _ _)
  · exact Nat.mod_eq_of_lt src.isLt
  · exact Nat.mod_eq_of_lt (requesterAddr_lt _ _)

/-! ## The answer to a packet of no multicast -/

theorem answerOut_sendBack (s : State) (d : Deliv) (hdr : BitVec 512) (data : List Granule) :
    AnswerOut s (sendBack s (backPlace d).1 (backPlace d).2 d.sender d.entry hdr data) d ⟨hdr, data⟩ :=
  ⟨rfl, fun v hv => by rw [hv]; rfl⟩

/-- One packet without data goes back to the sender of `d`, with TYPE `ty` and STATUS `st`, from `src` (09 R276). -/
theorem answered_back (s : State) (d : Deliv) (src : Word) {ty st : Nat} (hty : ty = 6 ∨ ty = 7) (hst : st < 16) {t : State}
    (ht : t = sendBack s (backPlace d).1 (backPlace d).2 d.sender d.entry (answerHdr d.pkt.hdr.toNat src ty st 0) []) :
    ∃ q : Pkt, AnswerOut s t d q ∧ q.data = [] ∧ AnswerTo q d.pkt.hdr.toNat ty st src ∧ pWord q.hdr.toNat = 0 ∧
      pDest q.hdr.toNat = requesterAddr d.pkt.hdr.toNat false := by
  obtain ⟨ha, hw, hd⟩ := answerHdr_fields d.pkt.hdr.toNat src 0 hty hst []
  exact ⟨⟨_, []⟩, ht ▸ answerOut_sendBack s d _ _, rfl, ha, hw, hd⟩

section
variable (s : State) {d : Deliv} (h : d.group = none)
include h

theorem answerPkt_done : answerPkt s d .done = sendBack s (backPlace d).1 (backPlace d).2 d.sender d.entry
    (answerHdr d.pkt.hdr.toNat (targetUnit s d.target) 6 0 0) [] := by
  simp only [answerPkt, answerFrom, h]

theorem answerPkt_stale : answerPkt s d .stale = sendBack s (backPlace d).1 (backPlace d).2 d.sender d.entry
    (answerHdr d.pkt.hdr.toNat (targetUnit s d.target) 6 1 0) [] := by
  simp only [answerPkt, answerFrom, h]

theorem answerPkt_refuse {c : Nat} (hc : 1 ≤ c ∧ c ≤ 7) : answerPkt s d (.refuse c) =
    sendBack { s with noc := { s.noc with nacks := tmod 0 s.noc.nacks c satInc } } (backPlace d).1 (backPlace d).2 d.sender d.entry
      (answerHdr d.pkt.hdr.toNat (targetUnit s d.target) 7 c 0) [] := by
  simp only [answerPkt, answerFrom, h, countNack, if_pos hc]

end

/-! ## A member's answer -/

/-- A gathering after a member's answer: what it counts, and the first refusal's code and unit. -/
theorem memberAnswer_eq (g : Machine.Group) (unit : Word) (a : Reply) :
    let first : Nat × Word := match a with
      | .refuse c => if g.refused = 0 then (c, unit) else (g.code, g.unit)
      | .done | .stale => (g.code, g.unit)
    memberAnswer g unit a = { g with
      left := g.left - 1
      refused := g.refused + (match a with | .refuse _ => 1 | .done | .stale => 0)
      stale := g.stale + (if a = .stale then 1 else 0)
      code := first.1
      unit := first.2 } := by
  cases a with
  | done => rfl
  | stale => rfl
  | refuse c =>
    by_cases h : g.refused = 0
    · simp [memberAnswer, h]
    · simp [memberAnswer, h]

/-- A member's answer in a gathering (09 R285). -/
theorem answerPkt_member (s : State) {d : Deliv} {n : Nat} {g : Machine.Group} (a : Reply) (hd : d.group = some n)
    (hg : tfind s.noc.groups n = some g) : answerPkt s d a =
      groupAnswer { s with noc := { s.noc with groups := tput s.noc.groups n (memberAnswer g (targetUnit s d.target) a) } } n
        (memberAnswer g (targetUnit s d.target) a) := by
  simp only [answerPkt, answerFrom, hd, answerMember, tget, hg, Option.getD_some]

theorem groupAnswer_waits (s : State) (n : Nat) {g : Machine.Group} (h : g.left ≠ 0) : groupAnswer s n g = s := if_pos h

/-- The header of the one answer of a multicast (09 R285). -/
def groupHdr (s : State) (g : Machine.Group) : BitVec 512 :=
  let own := targetUnit s (.seat g.root)
  if 0 < g.refused then answerHdr g.hdr.toNat g.unit tyNack g.code g.refused
  else if 0 < g.stale then answerHdr g.hdr.toNat own tyAck 1 g.stale
  else answerHdr g.hdr.toNat own tyAck 0 0

/-- The one answer of a multicast goes out from its router of replication, and the gathering is over (09 R285). -/
theorem groupAnswer_answers (s : State) (n : Nat) {g : Machine.Group} (h : g.left = 0) :
    let t := groupAnswer s n g
    t = { s with noc := t.noc } ∧ t.noc.groups = tdel s.noc.groups n ∧
      t.noc.buf = (push s g.root portAnswers vcRsp (flitsOf { goal := .seat g.sender } ⟨groupHdr s g, []⟩)).noc.buf := by
  unfold groupAnswer
  rw [if_neg (not_not.mpr h)]
  unfold groupHdr
  dsimp only
  split
  · unfold countNack
    split <;> exact ⟨rfl, rfl, rfl⟩
  · split <;> exact ⟨rfl, rfl, rfl⟩

theorem groupHdr_refused (s : State) {g : Machine.Group} (h : 0 < g.refused) (hc : g.code < 16) :
    AnswerTo ⟨groupHdr s g, []⟩ g.hdr.toNat 7 g.code g.unit ∧ pWord (groupHdr s g).toNat = g.refused % 2 ^ 32 := by
  obtain ⟨ha, hw, -⟩ := answerHdr_fields g.hdr.toNat g.unit g.refused (Or.inr (rfl : tyNack = 7)) hc []
  simp only [groupHdr, if_pos h]
  exact ⟨ha, hw⟩

theorem groupHdr_stale (s : State) {g : Machine.Group} (h : g.refused = 0) (hs : 0 < g.stale) :
    AnswerTo ⟨groupHdr s g, []⟩ g.hdr.toNat 6 1 (targetUnit s (.seat g.root)) ∧ pWord (groupHdr s g).toNat = g.stale % 2 ^ 32 := by
  obtain ⟨ha, hw, -⟩ := answerHdr_fields g.hdr.toNat (targetUnit s (.seat g.root)) g.stale (Or.inl (rfl : tyAck = 6)) (st := 1) (by decide) []
  simp only [groupHdr, h, lt_irrefl, if_false, if_pos hs]
  exact ⟨ha, hw⟩

theorem groupHdr_done (s : State) {g : Machine.Group} (h : g.refused = 0) (hs : g.stale = 0) :
    AnswerTo ⟨groupHdr s g, []⟩ g.hdr.toNat 6 0 (targetUnit s (.seat g.root)) := by
  obtain ⟨ha, -, -⟩ := answerHdr_fields g.hdr.toNat (targetUnit s (.seat g.root)) 0 (Or.inl (rfl : tyAck = 6)) (st := 0) (by decide) []
  simp only [groupHdr, h, hs, lt_irrefl, if_false]
  exact ha

end Sys2Proof.Machine
end

section
/-!
SUPPORT. A header at the front of a buffer (09 R272, R278, R282, R284, R285, R299, R300): where a multicast enters, where its copies go, and what it
meets at its seat and at a row switch.
-/
namespace Sys2Proof.Machine
open Host (Outcome)

/-! ## Buffers as ROUTER_FORWARD finds them -/

theorem source_of_lt {p : Nat} (s : State) (n v : Nat) (hp : p < 9) : source s n p v = bufOf s n p v := by
  unfold source
  exact if_neg (by omega)

theorem putSource_of_lt {p : Nat} (s : State) (n v : Nat) (b : Buf) (hp : p < 9) : putSource s n p v b = putBuf s n p v b := by
  unfold putSource
  exact if_neg (by omega)

theorem source_of_ge {n : Nat} (s : State) (p v : Nat) (hn : 2304 ≤ n) : source s n p v = bufOf s n p v := by
  unfold source
  exact if_neg fun h => Nat.not_lt.mpr hn h.1

theorem putSource_of_ge {n : Nat} (s : State) (p v : Nat) (b : Buf) (hn : 2304 ≤ n) : putSource s n p v b = putBuf s n p v b := by
  unfold putSource
  exact if_neg fun h => Nat.not_lt.mpr hn h.1

/-- A packet that has been counted as held stands where it stood, in every state whose network holds the same buffers. -/
theorem flits_of_noted {s u : State} {n p v : Nat}
    (h : u.noc.buf = (putBuf s n p v { source s n p v with noted := true }).noc.buf) : (bufOf u n p v).flits = (source s n p v).flits := by
  have hb := bufOf_putBuf_self s n p v { source s n p v with noted := true }
  rw [bufOf, h]
  exact (congrArg Buf.flits hb :)

section
variable {n p : Nat} (hn : n < 2304) (hp : p = 9 ∨ p = 10)
include hn hp

theorem source_outbox (s : State) : source s n p 1 =
    { bufOf s n p 1 with flits := ((seatOf s n).eng (if p = 9 then 0 else 1)).outbox } := by
  unfold source
  exact if_pos ⟨hn, hp, rfl⟩

theorem putSource_outbox (s : State) (b : Buf) : putSource s n p 1 b =
    modEng (putBuf s n p 1 { b with flits := [] }) n (if p = 9 then 0 else 1) fun g => { g with outbox := b.flits } := by
  unfold putSource
  exact if_pos ⟨hn, hp, rfl⟩

/-- What is put into an engine's outbound buffer stands there. -/
theorem flits_source_putSource (s : State) (b : Buf) : (source (putSource s n p 1 b) n p 1).flits = b.flits := by
  rw [source_outbox hn hp, putSource_outbox hn hp]
  simp [modEng]

end

theorem putSource_noc (s : State) (n p v : Nat) (b : Buf) :
    (putSource s n p v b).noc = { s.noc with buf := (putSource s n p v b).noc.buf } := by
  unfold putSource
  split <;> rfl

/-! ## A header that has come to the front -/

section
variable {s : State} {n : NodeIx} {p o : NodePort} {v : VcIx} {f : Flit} {t : Trip} (h : AtFront s n.val p.val v.val f t) (ecc : Nat)
include h

/-- A packet that enters the mesh is resolved (09 R282). -/
theorem routerForward_enters (he : t.entered = false) (ho : outboxOpen s n.val p.val = true) :
    exec (.routerForward n p v o ecc) s = .next (enterMesh s n.val p.val f) := by
  obtain ⟨hh, hf, hl, h1, h9⟩ := h
  obtain ⟨rest, hr⟩ := List.head?_eq_some_iff.mp hh
  show execRouterForward n p v o ecc s = _
  simp only [execRouterForward, hr, hf]
  rw [if_neg (by simp [hl]), if_neg (show ¬ (pType f.data.toNat = 0 ∨ 9 < pType f.data.toNat) by omega), if_pos he, if_pos ho]

variable (he : t.entered = true) (hd : o.val ∈ dueOuts n.val p.val (source s n.val p.val v.val))
include he hd

/-- What a header meets before the output to the router's own seat (09 R284, R285, R299, R300). -/
theorem routerForward_own (hn : n.val < 2304) (hp : p.val < 5) (ho : o.val = 0) {u : State} (hu : atOwnSeat s n.val p.val v.val t f = some u) :
    exec (.routerForward n p v o ecc) s = .next u := by
  obtain ⟨hh, hf, hl, h1, h9⟩ := h
  obtain ⟨rest, hr⟩ := List.head?_eq_some_iff.mp hh
  show execRouterForward n p v o ecc s = _
  simp only [execRouterForward, hr, hf]
  rw [if_neg (by simp [hl]), if_neg (show ¬ (pType f.data.toNat = 0 ∨ 9 < pType f.data.toNat) by omega), if_neg (by simp [he]), if_neg (by simp [hd]),
    if_pos ⟨hn, hp, ho⟩, hu]

/-- What a header meets at a row switch (09 R299, R494). -/
theorem routerForward_seam (hn : 2304 ≤ n.val) (hm : n.val < 2328) {u : State} (hu : atSeam s n.val p.val v.val o.val t f.data = some u) :
    exec (.routerForward n p v o ecc) s = .next u := by
  obtain ⟨hh, hf, hl, h1, h9⟩ := h
  obtain ⟨rest, hr⟩ := List.head?_eq_some_iff.mp hh
  show execRouterForward n p v o ecc s = _
  simp only [execRouterForward, hr, hf]
  rw [if_neg (by simp [hl]), if_neg (show ¬ (pType f.data.toNat = 0 ∨ 9 < pType f.data.toNat) by omega), if_neg (by simp [he]), if_neg (by simp [hd]),
    if_neg fun h => Nat.not_lt.mpr hn h.1, if_pos ⟨hn, hm⟩, hu]

end

/-! ## A multicast enters the mesh -/

/-- The members of a multicast that the crew does not have (09 R282). -/
def unlisted (s : State) (n h : Nat) : List (Nat × Nat) := (members s n h).filter fun m => (physAt s n m.1 m.2).isNone

/-- The way of a multicast from seat `n`, gathered as group `k` (09 R284). -/
def mcastTrip (n k h : Nat) : Trip :=
  { legs := waypoints h, sender := some n, group := some k, entry := n
    goal := if pMcast h = 1 then .crew (fld (pDest h) 49 1 * 48 + fld (pDest h) 43 6) else .half (fld (pDest h) 49 1) }

/-- A multicast with a member left is gathered and goes its way (09 R285). -/
theorem enterMulticast_gathers (s : State) (n : Nat) (hdr : BitVec 512) (hb : (unlisted s n hdr.toNat).length < (members s n hdr.toNat).length) :
    ∃ g : Machine.Group, enterMulticast s n hdr =
        ({ s with noc := { s.noc with nextGroup := s.noc.nextGroup + 1, groups := tput s.noc.groups s.noc.nextGroup g } },
          some (mcastTrip n s.noc.nextGroup hdr.toNat)) ∧
      g.left = (members s n hdr.toNat).length - (unlisted s n hdr.toNat).length ∧ g.refused = (unlisted s n hdr.toNat).length ∧
      g.code = (if unlisted s n hdr.toNat = [] then 0 else 1) ∧ g.hdr = hdr ∧ g.sender = n ∧ g.root = replicator n hdr.toNat := by
  unfold enterMulticast
  dsimp only
  change (unlisted s n hdr.toNat).length < _ at hb
  rw [show ((members s n hdr.toNat).filter fun m => (physAt s n m.1 m.2).isNone) = unlisted s n hdr.toNat from rfl, if_neg (by omega)]
  exact ⟨_, rfl, rfl, rfl, by simp [List.isEmpty_iff], rfl, rfl, if_neg (by omega)⟩

theorem enterSeat_mcast {s : State} {n : Nat} {hdr : BitVec 512} (hk : fld (pDest hdr.toNat) 62 2 < 2)
(hc : fld (pDest hdr.toNat) 50 12 = s.chain.node) (hs : fld (pDest hdr.toNat) 34 4 ≠ 8) (hm : pMcast hdr.toNat ≠ 0) :
    enterSeat s n hdr = enterMulticast s n hdr := by
  unfold enterSeat
  dsimp only
  rw [if_neg (by omega), if_neg (not_not.mpr hc), if_neg hs, if_pos hm]

/-- A multicast at the router at which it enters: its gathering begins, and its header stands there with its way. -/
theorem enterMesh_mcast {s : State} {n p : Nat} {f : Flit} (hn : n < 2304) (hp : p = 9 ∨ p = 10)
    (he : enterSeat s n f.data = enterMulticast s n f.data) (hb : (unlisted s n f.data.toNat).length < (members s n f.data.toNat).length) :
    let u := enterMesh s n p f
    ∃ g : Machine.Group, tfind u.noc.groups s.noc.nextGroup = some g ∧ u.noc.nextGroup = s.noc.nextGroup + 1 ∧
      g.left = (members s n f.data.toNat).length - (unlisted s n f.data.toNat).length ∧ g.refused = (unlisted s n f.data.toNat).length ∧
      g.code = (if unlisted s n f.data.toNat = [] then 0 else 1) ∧ g.hdr = f.data ∧ g.sender = n ∧ g.root = replicator n f.data.toNat ∧
      u.noc.arrive = s.noc.arrive ∧
      (source u n p 1).flits.head? = some { f with head := some (mcastTrip n s.noc.nextGroup f.data.toNat) } := by
  obtain ⟨g, hg, hl, hr, hc, hh, hs, ho⟩ := enterMulticast_gathers s n f.data hb
  unfold enterMesh
  rw [he, hg]
  dsimp only
  rw [putSource_noc]
  exact ⟨g, tfind_tput_self _ _ _, rfl, hl, hr, hc, hh, hs, ho, rfl, by rw [flits_source_putSource hn hp]; rfl⟩

/-! ## Replication -/

/-- A router lies within the edges of its crew and of its half (01 R16, 09 R284). -/
theorem coordOf_within {n : Nat} {g : Goal} (hg : g = .crew (crewOf n) ∨ g = .half (halfOf n)) :
    (treeEdges g).1 ≤ (coordOf n).1 ∧ (coordOf n).1 ≤ (treeEdges g).2.1 ∧ (treeEdges g).2.2.1 ≤ (coordOf n).2 ∧
      (coordOf n).2 ≤ (treeEdges g).2.2.2 := by
  rcases hg with rfl | rfl <;> simp only [treeEdges, coordOf, crewOf, halfOf] <;> omega

theorem mem_ite_single {c : Prop} [Decidable c] {k a : Nat} : k ∈ (if c then [a] else []) ↔ k = a ∧ c := by
  split <;> simp [*]

/-- Where a multicast's copies go from a router, by the input on which it came (09 R284). -/
theorem mem_treeOuts {c : Nat × Nat} {p : Nat} (hp : p < 5) (t : Trip) (k : Nat) :
    k ∈ treeOuts c p t ↔ k = 0 ∨
      (k = 1 ∧ (treeEdges t.goal).2.2.1 < c.2 ∧ ¬ (t.spread = true ∧ p = 0) ∧ ¬ (t.spread = true ∧ p = 1)) ∨
      (k = 2 ∧ c.2 < (treeEdges t.goal).2.2.2 ∧ ¬ (t.spread = true ∧ p = 0) ∧ ¬ (t.spread = true ∧ p = 2)) ∨
      (k = 3 ∧ (treeEdges t.goal).1 < c.1 ∧ (t.spread = false ∨ p = 4)) ∨
      (k = 4 ∧ c.1 < (treeEdges t.goal).2.1 ∧ (t.spread = false ∨ p = 3)) := by
  unfold treeOuts
  simp only [if_pos hp, List.mem_append, List.mem_singleton, mem_ite_single, or_assoc]
  refine or_congr_right (or_congr (and_congr_right' (and_congr_right' ?_)) (or_congr (and_congr_right' (and_congr_right' ?_)) (or_congr ?_ ?_)))
  · cases t.spread <;> simp
    omega
  · cases t.spread <;> simp
    omega
  · cases t.spread <;> simp
  · cases t.spread <;> simp

theorem routerOuts_tree {n p : Nat} {t : Trip} (hp : p < 5) (ha : t.ahead (coordOf n) = [])
    (hg : t.goal = .crew (crewOf n) ∨ t.goal = .half (halfOf n)) : routerOuts n p t = treeOuts (coordOf n) p t := by
  unfold routerOuts
  dsimp only
  rw [if_neg (by omega), if_neg (by omega), ha]
  rcases hg with hg | hg <;> rw [hg]

/-! ## The router's own seat -/

section
variable {s : State} {n p v : Nat} {t : Trip} {f : Flit}

theorem atOwnSeat_notMember (hg : t.group ≠ none) (hm : isMember s n f.data.toNat = false) :
    atOwnSeat s n p v t f = some (dropLocal s n p v t f) := by
  unfold atOwnSeat
  exact if_pos (by simp [Option.isSome_iff_ne_none.mpr hg, hm])

theorem atOwnSeat_fencedMember {g : Nat} (hg : t.group = some g) (hm : isMember s n f.data.toNat = true) (hf : seatFenced s n = true) :
    atOwnSeat s n p v t f = some (skipMember (dropLocal s n p v t f) t (targetUnit s (.seat n))) := by
  unfold atOwnSeat
  dsimp only
  rw [if_neg (by simp [hm]), if_pos (by simp [hf, hg])]

theorem atOwnSeat_fenced (hg : t.group = none) (hf : seatFenced s n = true) (hv : v = 1) : atOwnSeat s n p v t f =
    some (answerFrom (putSource s n p v (source s n p v).discard) n 11 (targetUnit s (.seat n)) f.data t (.refuse 2)) := by
  unfold atOwnSeat
  dsimp only
  rw [if_neg (by simp [hg]), if_neg (by simp [hg]), if_pos (by simp [hf, hv])]

/-- The crew's wake, which a held packet raises (09 R299, R302). -/
def heldAtSeat (s : State) (n p v : Nat) : State :=
  let s1 := putSource s n p v { source s n p v with noted := true }
  let s2 := { s1 with noc := { s1.noc with seamHeld := satInc s1.noc.seamHeld } }
  if (domOf s2 (crewOf n)).waking then s2
  else modDom { s2 with noc := { s2.noc with wakes := satInc s2.noc.wakes } } (crewOf n) fun m => { m with waking := true }

theorem atOwnSeat_paddle (hg : t.group = none) (hf : seatFenced s n = false ∨ v ≠ 1) (hd : (domOf s (crewOf n)).paddle = true) :
    atOwnSeat s n p v t f = if (source s n p v).noted then some s else some (heldAtSeat s n p v) := by
  have hv : (seatFenced s n && v == vcReq) = false := by
    rcases hf with h | h <;> simp [h]
  unfold atOwnSeat
  dsimp only
  rw [if_neg (by simp [hg]), if_neg (by simp [hg]), if_neg (Bool.eq_false_iff.mp hv), if_pos hd]
  unfold heldAtSeat
  dsimp only
  split
  · rfl
  · split <;> rfl

/-- A crew in Paddle holds the packet, counts it and wakes (09 R299, R302). -/
theorem heldAtSeat_holds (s : State) (n v : Nat) {p : Nat} (hp : p < 5) :
    let u := heldAtSeat s n p v
    u.noc.seamHeld = satInc s.noc.seamHeld ∧ (domOf u (crewOf n)).waking = true ∧
      u.noc.wakes = (if (domOf s (crewOf n)).waking then s.noc.wakes else satInc s.noc.wakes) ∧ u.noc.arrive = s.noc.arrive ∧
      (source u n p v).flits = (source s n p v).flits := by
  have hd : ∀ (b : Buf) (h : Word), domOf { putBuf s n p v b with noc := { (putBuf s n p v b).noc with seamHeld := h } } (crewOf n) =
    domOf s (crewOf n) := fun _ _ => rfl
  unfold heldAtSeat
  dsimp only
  rw [putSource_of_lt s n v _ (by omega), hd]
  split
  · next hw =>
    refine ⟨rfl, hw, rfl, rfl, ?_⟩
    rw [source_of_lt _ _ _ (by omega)]
    exact flits_of_noted (s := s) rfl
  · refine ⟨rfl, by rw [domOf_modDom_self], rfl, rfl, ?_⟩
    rw [source_of_lt _ _ _ (by omega)]
    exact flits_of_noted (s := s) rfl

end

/-! ## The row switch -/

section
variable {s : State} {n p v o : Nat} {t : Trip} {hdr : BitVec 512} (ho : o < 8)
include ho

/-- What a header that is no request to a fenced seat meets toward a half in Easy or Boated (09 R299). -/
theorem atSeam_unfenced (hh : halfEasy s (o % 2) = true ∨ halfBoated s (o % 2) = true)
    (hw : v ≠ 1 ∨ ∀ w, t.goal = .seat w → seatFenced s w = false) : atSeam s n p v o t hdr =
      if halfEasy s (o % 2) then
        if (source s n p v).noted then none else some (noteHeld (putSource s n p v { source s n p v with noted := true }) (o % 2))
      else if v ≠ 1 then some (putSource s n p v (source s n p v).discard)
      else if t.group.isSome then some (refuseMembers (putSource s n p v (source s n p v).discard) t hdr.toNat)
      else some (answerFrom (putSource s n p v (source s n p v).discard) n (4 + (t.sender.map halfOf).getD 0) (targetUnit s (.pool (o % 2))) hdr t
        (.refuse 3)) := by
  unfold atSeam queueHalf
  dsimp only
  rw [if_neg (by rcases hh with h | h <;> simp [h] <;> omega)]
  refine if_neg ?_
  split
  · next w hg =>
    rcases hw with h | h
    · simp [h]
    · simp [h w hg]
  · exact Bool.false_ne_true

section
variable (hb : halfBoated s (o % 2) = true) (he : halfEasy s (o % 2) = false)
include hb he

/-- Toward a half in Boated a request is refused (09 R299, R494). -/
theorem atSeam_boated (hv : v = 1) (hg : t.group = none) (hw : ∀ w, t.goal = .seat w → seatFenced s w = false) : atSeam s n p v o t hdr =
    some (answerFrom (putSource s n p v (source s n p v).discard) n (4 + (t.sender.map halfOf).getD 0) (targetUnit s (.pool (o % 2))) hdr t
      (.refuse 3)) := by
  rw [atSeam_unfenced ho (Or.inr hb) (Or.inr hw), if_neg (Bool.eq_false_iff.mp he), if_neg (not_not.mpr hv), if_neg (by simp [hg])]

/-- Toward a half in Boated an answer is lost (09 R299). -/
theorem atSeam_lost (hv : v ≠ 1) : atSeam s n p v o t hdr = some (putSource s n p v (source s n p v).discard) := by
  rw [atSeam_unfenced ho (Or.inr hb) (Or.inl hv), if_neg (Bool.eq_false_iff.mp he), if_pos hv]

end

/-- Toward a half in Easy a packet is held and counts (09 R299, R302). -/
theorem atSeam_easy (he : halfEasy s (o % 2) = true) (hn : (source s n p v).noted = false)
    (hw : ∀ w, t.goal = .seat w → seatFenced s w = false) :
    atSeam s n p v o t hdr = some (noteHeld (putSource s n p v { source s n p v with noted := true }) (o % 2)) := by
  rw [atSeam_unfenced ho (Or.inl he) (Or.inr hw), if_pos he, if_neg (Bool.eq_false_iff.mp hn)]

end

theorem wakeHalf_easy {s : State} {h : Nat} (he : halfEasy s h = true) :
    wakeHalf s h = { s with pwr := { s.pwr with waking := tput s.pwr.waking h true } } := if_pos he

/-- An access held toward a half in Easy counts, and the half wakes (09 R299, R302). -/
theorem noteHeld_holds {s : State} {h : Nat} (he : halfEasy s h = true) :
    let u := noteHeld s h
    u.noc.seamHeld = satInc s.noc.seamHeld ∧ tget false u.pwr.waking h = true ∧ u.noc.arrive = s.noc.arrive ∧ u.noc.buf = s.noc.buf := by
  unfold noteHeld
  dsimp only
  rw [if_pos he]
  unfold heldWake
  split
  · next hw => exact ⟨rfl, hw, rfl, rfl⟩
  · rw [wakeHalf_easy (s := { s with noc := { s.noc with seamHeld := satInc s.noc.seamHeld } }) he]
    exact ⟨rfl, tget_tput_self _ _ _ _, rfl, rfl⟩

end Sys2Proof.Machine
end

section
open Sys2Proof Sys2Proof.Machine

namespace Sys2Proof.Machine

/-! ## Answers and multicasts, as the statement says them -/

theorem memberAnswer_keeps (g : Machine.Group) (unit : Word) (a : Reply) : (memberAnswer g unit a).left = g.left - 1 ∧
    (memberAnswer g unit a).root = g.root ∧ (memberAnswer g unit a).sender = g.sender ∧ (memberAnswer g unit a).hdr = g.hdr := by
  cases a <;> exact ⟨rfl, rfl, rfl, rfl⟩

/-- What a member's answer makes of a gathering that waits for others, or of one that it completes (09 R285). -/
theorem answerPkt_gathers (s : State) {d : Deliv} {n : Nat} {g : Machine.Group} (a : Reply) (hd : d.group = some n)
    (hg : tfind s.noc.groups n = some g) :
    let g1 := memberAnswer g (targetUnit s d.target) a
    (1 < g.left → answerPkt s d a = { s with noc := { s.noc with groups := tput s.noc.groups n g1 } }) ∧
    (g.left = 1 → let t := answerPkt s d a
      t = { s with noc := t.noc } ∧ tfind t.noc.groups n = none ∧ (∀ k, k ≠ n → tfind t.noc.groups k = tfind s.noc.groups k) ∧
      ∃ q : Pkt, t.noc.buf = (push s g.root portAnswers vcRsp (flitsOf { goal := .seat g.sender } q)).noc.buf ∧ q.data = [] ∧
        (0 < g1.refused → g1.code < 16 → AnswerTo q g.hdr.toNat 7 g1.code g1.unit ∧ pWord q.hdr.toNat = g1.refused % 2 ^ 32) ∧
        (g1.refused = 0 → 0 < g1.stale → AnswerTo q g.hdr.toNat 6 1 (targetUnit s (.seat g.root)) ∧ pWord q.hdr.toNat = g1.stale % 2 ^ 32) ∧
        (g1.refused = 0 → g1.stale = 0 → AnswerTo q g.hdr.toNat 6 0 (targetUnit s (.seat g.root)))) := by
  intro g1
  obtain ⟨hleft, hroot, hsend, hhdr⟩ : g1.left = g.left - 1 ∧ g1.root = g.root ∧ g1.sender = g.sender ∧ g1.hdr = g.hdr :=
    memberAnswer_keeps g _ a
  rw [answerPkt_member s a hd hg]
  refine ⟨fun hl => groupAnswer_waits _ n (g := g1) (by omega), fun hl => ?_⟩
  obtain ⟨ht, hgr, hbuf⟩ := groupAnswer_answers { s with noc := { s.noc with groups := tput s.noc.groups n g1 } } n (g := g1) (by omega)
  rw [hroot, hsend] at hbuf
  refine ⟨ht, ?_, fun k hk => ?_, ⟨_, []⟩, hbuf, rfl, ?_⟩
  · rw [hgr, tfind_tdel_self]
  · rw [hgr, tfind_tdel_ne _ hk, tfind_tput_ne _ _ hk]
  · rw [← hhdr, ← hroot]
    exact ⟨groupHdr_refused _, groupHdr_stale _, groupHdr_done _⟩

end Sys2Proof.Machine

/-- Settles O14: the answers by the fields of `answerHdr`, a multicast by its gathering (`answerPkt_gathers`, `enterMesh_mcast`, `mem_treeOuts`), and a
header where its way ends by what `atOwnSeat` and `atSeam` make of it. -/
theorem answersAndMulticast : Obligations.AnswersAndMulticast := by
  unfold Obligations.AnswersAndMulticast
  refine ⟨fun s d a => ⟨fun hd => ⟨?_, ?_, ?_⟩, fun n g hd hg => ?_⟩, fun s n p o ecc f t => ?_, fun s n p o v ecc f t => ?_⟩
  · rintro rfl
    exact answered_back s d _ (Or.inl rfl) (by decide) (answerPkt_done s hd)
  · rintro rfl
    exact answered_back s d _ (Or.inl rfl) (by decide) (answerPkt_stale s hd)
  · rintro c rfl h1 h7
    exact answered_back _ d _ (Or.inr rfl) (by omega) (answerPkt_refuse s hd ⟨h1, h7⟩)
  · have h := answerPkt_gathers s a hd hg
    rw [memberAnswer_eq] at h
    exact h
  · intro h a b run ms bad hn hf
    refine ⟨fun hp he ho hk hc hs hm hb => ?_, fun he hp ho hd hg hm => ?_, fun hp ha hg => ?_⟩
    · obtain ⟨g, hfind, hnext, hl, hr, hcode, hh, hsd, hroot, harr, hflit⟩ :=
        enterMesh_mcast (s := s) (p := p.val) (f := f) hn hp (enterSeat_mcast hk hc hs hm) hb
      exact ⟨_, g, routerForward_enters (v := 1) hf ecc he ho, hfind, hnext, hl, hr, hcode, hh, hsd, hroot, harr, hflit⟩
    · exact routerForward_own (v := 1) hf ecc he hd hn hp ho (atOwnSeat_notMember hg hm)
    · obtain ⟨h1, h2, h3, h4⟩ := coordOf_within hg
      exact ⟨h1, h2, h3, h4, fun k => by rw [routerOuts_tree hp ha hg, mem_treeOuts hp]⟩
  · intro b gone run hf he hd
    refine ⟨fun hn hp ho => ⟨fun hg hw hv => ?_, fun g hg hm hw => ?_, fun hg hw hpd => ?_⟩,
      fun hn hm ho => ⟨fun hb hz hv hg hw => ?_, fun hb hz hv => ?_, fun hz hnt hw => ?_⟩⟩
    · exact routerForward_own hf ecc he hd hn hp ho (atOwnSeat_fenced hg hw hv)
    · exact routerForward_own hf ecc he hd hn hp ho (atOwnSeat_fencedMember hg hm hw)
    · have hu := atOwnSeat_paddle (f := f) hg hw hpd (p := p.val)
      refine ⟨fun hb => ?_, fun hb => ⟨_, ?_, heldAtSeat_holds s n.val v.val hp⟩⟩
      · exact routerForward_own hf ecc he hd hn hp ho (hu.trans (if_pos hb))
      · exact routerForward_own hf ecc he hd hn hp ho (hu.trans (if_neg (Bool.eq_false_iff.mp hb)))
    · exact routerForward_seam hf ecc he hd hn hm (atSeam_boated ho hb hz hv hg hw)
    · exact routerForward_seam hf ecc he hd hn hm (atSeam_lost ho hb hz hv)
    · have hz' : halfEasy (putSource s n.val p.val v.val { source s n.val p.val v.val with noted := true }) (o.val % 2) = true := by
        rw [putSource_of_ge _ _ _ _ hn]
        exact hz
      obtain ⟨h1, h2, h3, h4⟩ := noteHeld_holds hz'
      refine ⟨_, routerForward_seam hf ecc he hd hn hm (atSeam_easy ho hz hnt hw), ?_, h2, ?_, ?_⟩
      · rw [h1, putSource_noc]
      · rw [h3, putSource_noc]
      · rw [source_of_ge _ _ _ hn]
        exact flits_of_noted (h4.trans (by rw [putSource_of_ge _ _ _ _ hn]))
end

section
/-!
SUPPORT. The sums of a pass (02 R52-R56, 03 R84, R101): what one block sum, one row and one pass write, and what they leave.
-/
namespace Sys2Proof.Machine
open Host (Outcome)

/-! ## Folds of steps that each write their own keys -/

section
variable {σ β : Type} (get : σ → Nat → β) (step : σ → Nat → σ) (own : Nat → Nat → Prop)

/-- A fold of steps of which each writes only keys of its own leaves every other key. -/
theorem foldl_keeps_unowned (hs : ∀ s i k, ¬ own i k → get (step s i) k = get s k) (l : List Nat) (s : σ) {k : Nat}
    (hk : ∀ i ∈ l, ¬ own i k) : get (l.foldl step s) k = get s k := by
  induction l generalizing s with
  | nil => rfl
  | cons a l ih =>
    rw [List.foldl_cons, ih _ fun i hi => hk i (List.mem_cons_of_mem _ hi), hs s a k (hk a List.mem_cons_self)]

/-- In such a fold over distinct steps each step finds its keys as they were at first, and what it writes to them stays. -/
theorem foldl_owned (hs : ∀ s i k, ¬ own i k → get (step s i) k = get s k) (hd : ∀ i j k, own i k → own j k → i = j) {l : List Nat}
    (hl : l.Nodup) (s : σ) {i : Nat} (hi : i ∈ l) :
    ∃ u, (∀ k, own i k → get u k = get s k) ∧ ∀ k, own i k → get (l.foldl step s) k = get (step u i) k := by
  induction l generalizing s with
  | nil => exact absurd hi List.not_mem_nil
  | cons a l ih =>
    obtain ⟨ha, hl⟩ := List.nodup_cons.mp hl
    rw [List.foldl_cons]
    rcases List.mem_cons.mp hi with rfl | hi
    · exact ⟨s, fun _ _ => rfl, fun k hk => foldl_keeps_unowned get step own hs l _ fun j hj hjk => ha (hd i j k hk hjk ▸ hj)⟩
    · have hai : a ≠ i := fun h => ha (h ▸ hi)
      obtain ⟨u, hu, hf⟩ := ih hl (step s a) hi
      exact ⟨u, fun k hk => (hu k hk).trans (hs s a k fun hk' => hai (hd a i k hk' hk)), hf⟩

end

/-! ## Accumulators -/

/-- An accumulator with the term of block `blk` of output column `c` added (02 R54, R56), for tiles without 2-bit weights. -/
def accTerm (a b : Tile) (ps : Pass) (i32 : Bool) (r c : Nat) (acc : Word) (blk : Nat) : Word :=
  let sum := blockSum a b ps.nib r c blk false
  if i32 then (accAddInt acc ps.neg sum ps.shift).1
  else accAdd acc (blockTerm ps.neg sum (mread a.scales (2 * r + blk)).toNat (mread b.scales (64 * blk + c)).toNat
    (fmtOff (tagFmt a.tag) + fmtOff (tagFmt b.tag) + ps.shift))

section
variable (a b : Tile) (ps : Pass) (i32 : Bool) (bank row : Nat)

theorem accStep_self (st : Tbl Word × Nat) {m : Nat} (hm : m < 64) :
    tget 0 (accStep a b ps i32 false bank row st m).1 (accKey bank row m) =
      accTerm a b ps i32 row m (accTerm a b ps i32 row m (tget 0 st.1 (accKey bank row m)) 0) 1 := by
  cases i32 <;> simp [accStep, accTerm, List.range_succ, Nat.div_eq_of_lt hm, Nat.mod_eq_of_lt hm]

theorem accStep_ne (st : Tbl Word × Nat) (m : Nat) {k : Nat} (hk : k ≠ accKey (bank + m / 64) row (m % 64)) :
    tget 0 (accStep a b ps i32 false bank row st m).1 k = tget 0 st.1 k := by
  cases i32 <;> simp [accStep, List.range_succ, hk]

/-- A row adds both terms of each column, to the accumulators of that row and bank alone. -/
theorem rowStep_self (acc : Tbl Word) {c : Nat} (hc : c < 64) :
    tget 0 (rowStep a b ps i32 false bank row acc).1 (accKey bank row c) =
      accTerm a b ps i32 row c (accTerm a b ps i32 row c (tget 0 acc (accKey bank row c)) 0) 1 := by
  obtain ⟨u, hu, hf⟩ := foldl_owned (fun (st : Tbl Word × Nat) k => tget 0 st.1 k) (accStep a b ps i32 false bank row)
    (fun m k => k = accKey (bank + m / 64) row (m % 64)) (fun st m k hk => accStep_ne a b ps i32 bank row st m hk)
    (fun i j k hi hj => by simp only [accKey] at hi hj; omega) List.nodup_range (acc, 0) (List.mem_range.mpr hc)
  have hk : accKey bank row c = accKey (bank + c / 64) row (c % 64) := by rw [Nat.div_eq_of_lt hc, Nat.mod_eq_of_lt hc, Nat.add_zero]
  refine (hf _ hk).trans ?_
  rw [accStep_self a b ps i32 bank row u hc, hu _ hk]

theorem rowStep_ne (acc : Tbl Word) {k : Nat} (hk : k < accKey bank row 0 ∨ accKey bank (row + 1) 0 ≤ k) :
    tget 0 (rowStep a b ps i32 false bank row acc).1 k = tget 0 acc k := by
  refine foldl_keeps_unowned (fun (st : Tbl Word × Nat) k => tget 0 st.1 k) (accStep a b ps i32 false bank row)
    (fun m k => k = accKey (bank + m / 64) row (m % 64)) (fun st m k hk => accStep_ne a b ps i32 bank row st m hk) _ _ fun m hm he => ?_
  have := List.mem_range.mp hm
  simp only [accKey] at he hk
  simp only [Bool.false_eq_true, if_false] at this
  omega

end

theorem tget_clearRows (acc : Tbl Word) (bank row0 rows k : Nat) : tget 0 (clearRows acc bank row0 rows) k =
    if accKey bank row0 0 ≤ k ∧ k < accKey bank (row0 + rows) 0 then 0 else tget 0 acc k := by
  rw [tget, clearRows, tfind_filter_key fun k => decide (k < accKey bank row0 0) || decide (accKey bank (row0 + rows) 0 ≤ k)]
  by_cases h : accKey bank row0 0 ≤ k ∧ k < accKey bank (row0 + rows) 0
  · rw [if_pos h, if_neg (by simp; omega)]
    rfl
  · rw [if_neg h, if_pos (by simp; omega)]
    rfl

/-! ## One row of a pass -/

/-- CLR applies to pass `p`: no earlier pass of the PRODUCT has written its bank (03 R101). -/
def passFresh (d p : Nat) (ps : Pass) : Bool := prClr d && ((passTable (prTable d)).take p).all fun q => q.bank != ps.bank

section
variable {m : Mxa} (ht : (tagFmt (m.passNib.getD {}).tag == fmtI2 || tagFmt (m.passNib.getD {}).tag == fmtT2) = false)
  (d p : Nat) (ps : Pass) (r t : Nat) (st : PassRun)
include ht

theorem passRow_acc : (passRow m d p ps r t st).1 = (rowStep (m.passSlot.getD {}) (m.passNib.getD {}) ps (prI32 d) false (prB d + ps.bank)
    (prRow0 d + r) (if passFresh d p ps then clearRows st.1 (prB d + ps.bank) (prRow0 d + r) 1 else st.1)).1 := by
  simp only [passRow, ht, passFresh]
  rfl

theorem passRow_self {c : Nat} (hc : c < 64) :
    let key := accKey (prB d + ps.bank) (prRow0 d + r) c
    let term := accTerm (m.passSlot.getD {}) (m.passNib.getD {}) ps (prI32 d) (prRow0 d + r) c
    tget 0 (passRow m d p ps r t st).1 key = term (term (if passFresh d p ps then 0 else tget 0 st.1 key) 0) 1 := by
  intro key term
  rw [passRow_acc ht, rowStep_self _ _ _ _ _ _ _ hc]
  split
  · rw [tget_clearRows, if_pos (by simp only [accKey]; omega)]
  · rfl

theorem passRow_ne {k : Nat} (hk : k < accKey (prB d + ps.bank) (prRow0 d + r) 0 ∨ accKey (prB d + ps.bank) (prRow0 d + r + 1) 0 ≤ k) :
    tget 0 (passRow m d p ps r t st).1 k = tget 0 st.1 k := by
  rw [passRow_acc ht, rowStep_ne _ _ _ _ _ _ _ hk]
  split
  · rw [tget_clearRows, if_neg (by omega)]
  · rfl

end

/-! ## The rows of a pass -/

/-- The rows of a pass whose core cycles the seat reaches. -/
def passRows (x : Seat) (j : Job) (p : Nat) (ps : Pass) (past : List (Nat × Nat × Nat × List Word)) : PassRun :=
  (List.range (prRows j.raw.toNat)).foldl (fun (st : PassRun) r =>
    let t := mxAt x j (passOff j p + 9 + r)
    if runsAt x t then passRow x.mxa j.raw.toNat p ps r t st else st) (x.mxa.acc, past, [])

section
variable {x : Seat} (ht : (tagFmt (x.mxa.passNib.getD {}).tag == fmtI2 || tagFmt (x.mxa.passNib.getD {}).tag == fmtT2) = false)
  (j : Job) (p : Nat) (ps : Pass) (past : List (Nat × Nat × Nat × List Word))

/-- A key of row `r` of the pass: one of the accumulators of that row in the pass's bank. -/
def rowKey (d : Nat) (ps : Pass) (r k : Nat) : Prop :=
  accKey (prB d + ps.bank) (prRow0 d + r) 0 ≤ k ∧ k < accKey (prB d + ps.bank) (prRow0 d + r + 1) 0

include ht

theorem passRowAt_ne (st : PassRun) (r k : Nat) (hk : ¬ rowKey j.raw.toNat ps r k) :
    tget 0 (if runsAt x (mxAt x j (passOff j p + 9 + r)) then
      passRow x.mxa j.raw.toNat p ps r (mxAt x j (passOff j p + 9 + r)) st else st).1 k = tget 0 st.1 k := by
  split
  · exact passRow_ne ht _ _ _ _ _ _ (by rw [rowKey] at hk; omega)
  · rfl

theorem passRows_self {r c : Nat} (hr : r < prRows j.raw.toNat) (hc : c < 64) :
    let d := j.raw.toNat
    let key := accKey (prB d + ps.bank) (prRow0 d + r) c
    let term := accTerm (x.mxa.passSlot.getD {}) (x.mxa.passNib.getD {}) ps (prI32 d) (prRow0 d + r) c
    tget 0 (passRows x j p ps past).1 key = if runsAt x (mxAt x j (passOff j p + 9 + r)) then
      term (term (if passFresh d p ps then 0 else tget 0 x.mxa.acc key) 0) 1 else tget 0 x.mxa.acc key := by
  intro d key term
  obtain ⟨u, hu, hf⟩ := foldl_owned (fun (st : PassRun) k => tget 0 st.1 k) _ (rowKey d ps) (passRowAt_ne ht j p ps)
    (fun r r' k h h' => by simp only [rowKey, accKey] at h h'; omega) List.nodup_range (x.mxa.acc, past, []) (List.mem_range.mpr hr)
  have hk : rowKey d ps r key := by simp only [rowKey, key, accKey]; omega
  refine (hf key hk).trans ?_
  split
  · rw [passRow_self ht _ _ _ _ _ _ hc]
    dsimp only at hu
    rw [hu key hk]
  · exact hu key hk

theorem passRows_ne {k : Nat} (hk : k < accKey (prB j.raw.toNat + ps.bank) (prRow0 j.raw.toNat) 0 ∨
      accKey (prB j.raw.toNat + ps.bank) (prRow0 j.raw.toNat + prRows j.raw.toNat) 0 ≤ k) :
    tget 0 (passRows x j p ps past).1 k = tget 0 x.mxa.acc k := by
  refine foldl_keeps_unowned (fun (st : PassRun) k => tget 0 st.1 k) _ (rowKey j.raw.toNat ps) (passRowAt_ne ht j p ps) _ _ fun r hr h => ?_
  have := List.mem_range.mp hr
  simp only [rowKey, accKey] at h hk
  omega

end

/-! ## The seat after a pass -/

theorem seatOf_modCox_self (s : State) (w : Nat) (f : Cox → Cox) : seatOf (modCox s w f) w = { seatOf s w with cox := f (seatOf s w).cox } :=
  seatOf_modSeat_self s w _

/-- A guard counter that rises changes its seat's guard counters and no other part of the seat. -/
theorem guardRaise_seat (s : State) (w k n : Nat) (o : Bool) (j : Job) (t : Nat) : ∃ g q, seatOf (guardRaise s w k n o j t) w =
    { seatOf s w with cox := { (seatOf s w).cox with guard := g, tripped := q } } := by
  unfold guardRaise
  dsimp only
  split
  · exact ⟨_, _, by rw [seatOf, report_seats, ← seatOf, seatOf_modCox_self, seatOf_modCox_self]⟩
  · exact ⟨_, _, seatOf_modCox_self s w _⟩

theorem guardRaises_seat {α : Type} (l : List α) (s : State) (w k : Nat) (n : α → Nat) (o : Bool) (j : Job) (t : α → Nat) :
    ∃ g q, seatOf (l.foldl (fun s e => guardRaise s w k (n e) o j (t e)) s) w =
      { seatOf s w with cox := { (seatOf s w).cox with guard := g, tripped := q } } := by
  induction l generalizing s with
  | nil => exact ⟨_, _, rfl⟩
  | cons a l ih =>
    obtain ⟨g, q, h⟩ := guardRaise_seat s w k (n a) o j (t a)
    obtain ⟨g', q', h'⟩ := ih (guardRaise s w k (n a) o j (t a))
    exact ⟨g', q', by rw [List.foldl_cons, h', h]⟩

/-- The seat once the rows of a pass have been updated: the pass is over, with the last one the job completes, and a seat that has halted
stops. -/
def passOver (x : Seat) (j : Job) (p over_ : Nat) (run : PassRun) : Seat :=
  let last := p + 1 == (passTable (prTable j.raw.toNat)).length
  let m := { x.mxa with acc := run.1, past := run.2.1, passDue := false, passSlot := none, passNib := none,
                        pass := if last then 0 else p + 1 }
  if runsAt x over_ = false then mxStop { x with mxa := m } 2
  else if last then mxDone { x with mxa := m } 2 j over_ else { x with mxa := m }

theorem passOver_fields (x : Seat) (j : Job) (p over_ : Nat) (run : PassRun) :
    let y := passOver x j p over_ run
    y.mxa.passDue = false ∧ y.mxa.acc = run.1 ∧ y.core = x.core ∧ y.store = x.store ∧ y.vec = x.vec := by
  unfold passOver
  dsimp only
  split
  · exact ⟨rfl, rfl, rfl, rfl, rfl⟩
  · split <;> exact ⟨rfl, rfl, rfl, rfl, rfl⟩

theorem passOver_last {x : Seat} {j : Job} {p over_ : Nat} (run : PassRun) (hr : runsAt x over_ = true)
    (hp : p + 1 = (passTable (prTable j.raw.toNat)).length) :
    (passOver x j p over_ run).cox.fin = x.cox.fin ++ [{ j with doneAt := over_ }] ∧ tfind (passOver x j p over_ run).mxa.cur 2 = none := by
  unfold passOver
  dsimp only
  rw [if_neg (by simp [hr]), if_pos (beq_iff_eq.mpr hp)]
  exact ⟨rfl, tfind_tdel_self _ _⟩

theorem passOver_halted {x : Seat} {j : Job} {p over_ : Nat} (run : PassRun) (hr : runsAt x over_ = false) :
    (passOver x j p over_ run).cox.fin = x.cox.fin ∧ tfind (passOver x j p over_ run).mxa.cur 2 = none := by
  unfold passOver
  dsimp only
  rw [if_pos hr]
  exact ⟨rfl, tfind_tdel_self _ _⟩

/-- A pass that is due leaves its seat as `passOver` says, but for guard counters. -/
theorem exec_product_seat {s : State} {w : SeatIx} {j : Job} {ps : Pass} (hcur : tfind (seatOf s w.val).mxa.cur 2 = some j)
    (hdue : (seatOf s w.val).mxa.passDue = true) (hps : (passTable (prTable j.raw.toNat))[(seatOf s w.val).mxa.pass]? = some ps)
    (hclk : clocked s w.val = true)
    (hstill : stillBefore (seatOf s w.val)
      (mxAt (seatOf s w.val) j (passOff j (seatOf s w.val).mxa.pass + 8 + prRows j.raw.toNat)) = true) :
    let x := seatOf s w.val
    ∃ t past g q, exec (.product w) s = .next t ∧
      let y := passOver x j x.mxa.pass (mxAt x j (passOff j x.mxa.pass + 8 + prRows j.raw.toNat)) (passRows x j x.mxa.pass ps past)
      seatOf t w.val = { y with cox := { y.cox with guard := g, tripped := q } } := by
  intro x
  let past := x.mxa.past.filter fun e => decide (drainFrom x ≤ e.1)
  let run := passRows x j x.mxa.pass ps past
  let y := passOver x j x.mxa.pass (mxAt x j (passOff j x.mxa.pass + 8 + prRows j.raw.toNat)) run
  obtain ⟨g, q, h⟩ := guardRaises_seat run.2.2 (putSeat s w.val y) w.val 3 (·.1) true j (·.2)
  rw [seatOf_putSeat_self] at h
  refine ⟨_, past, g, q, ?_, h⟩
  show execProduct w s = _
  simp only [execProduct, hcur, hdue, hps]
  rw [if_neg (by simp [hclk, hstill])]
  rfl

end Sys2Proof.Machine
end

section
open Sys2Proof Sys2Proof.Machine

/-- Settles O7: the rows of a pass write disjoint accumulators, and so do the columns of a row, so that each takes its own two terms. -/
theorem productPass : Obligations.ProductPass := by
  intro s w j ps x d p a b rowTime over_ bank hcur _ hdue hps hI2 hT2 _ hclk hstill fresh term
  obtain ⟨t, past, g, q, hex, hseat⟩ := exec_product_seat hcur hdue hps hclk hstill
  have ht : (tagFmt (x.mxa.passNib.getD {}).tag == fmtI2 || tagFmt (x.mxa.passNib.getD {}).tag == fmtT2) = false := by
    simp only [Bool.or_eq_false_iff, beq_eq_false_iff_ne]
    exact ⟨hI2, hT2⟩
  obtain ⟨hpd, hacc, hcore, hstore, hvec⟩ := passOver_fields x j p over_ (passRows x j p ps past)
  have hacc' : (seatOf t w.val).mxa.acc = (passRows x j p ps past).1 := by rw [hseat]; exact hacc
  refine ⟨t, hex, by rw [hseat]; exact hpd, fun r c hlo hhi hc => ?_, fun k hk => ?_, fun hr hl => ?_, fun hr => ?_,
    by rw [hseat]; exact hcore, by rw [hseat]; exact hstore, by rw [hseat]; exact hvec⟩
  · obtain ⟨i, rfl⟩ := Nat.exists_eq_add_of_le hlo
    rw [hacc', Nat.add_sub_cancel_left]
    exact passRows_self ht j p ps past (Nat.lt_of_add_lt_add_left hhi) hc
  · rw [hacc']
    exact passRows_ne ht j p ps past hk
  · rw [hseat]
    exact passOver_last _ hr hl
  · rw [hseat]
    exact passOver_halted _ hr

end

section
/-!
SUPPORT. What a change of one run's heats leaves (07 R220), and the seats after a heat (07 R232, R244): a run seen heat by heat through changes and
its settlement, and each seat through the end of a heat and the release of its pages.
-/
namespace Sys2Proof.Machine
open Host (Outcome)

/-! ## The heats of a run, one by one -/

theorem modAt_eq_mapIdx {α : Type} (f : α → α) (l : List α) (h : Nat) : modAt f l h = l.mapIdx fun i x => if i = h then f x else x := by
  refine List.ext_getElem? fun i => ?_
  rw [List.getElem?_mapIdx]
  by_cases hi : i = h
  · rw [hi, getElem?_modAt_self]
    simp
  · rw [getElem?_modAt_ne f l hi]
    simp [hi]

/-- From `s` to `t` each heat of run `r` has become what `F` makes of it; no other run has changed. -/
structure HeatsBecome (s t : State) (r : Nat) (F : Nat → Heat → Heat) : Prop where
  run : runOf t r = (runOf s r).map fun y => { y with heats := y.heats.mapIdx F }
  others : ∀ q, q ≠ r → runOf t q = runOf s q

/-- The change of heat `h` alone. -/
def atHeat (h : Nat) (f : Heat → Heat) (i : Nat) (x : Heat) : Heat := if i = h then f x else x

/-- What becomes of a run depends on its heats as they are. -/
theorem HeatsBecome.congr {s t : State} {r : Nat} {F G : Nat → Heat → Heat} (h : HeatsBecome s t r F)
    (hG : ∀ i x, heatOf s r i = some x → F i x = G i x) : HeatsBecome s t r G := by
  refine ⟨h.run.trans ?_, h.others⟩
  cases hr : runOf s r with
  | none => rfl
  | some run =>
    rw [Option.map_some, Option.map_some]
    congr 2
    refine List.ext_getElem? fun i => ?_
    rw [List.getElem?_mapIdx, List.getElem?_mapIdx]
    cases hx : run.heats[i]? with
    | none => rfl
    | some x => exact congrArg some (hG i x (by rw [heatOf_eq, hr]; exact hx))

/-- A run does not change where its heats, as they are, do not. -/
theorem heatsBecome_of_fixed {s t : State} {r : Nat} {F : Nat → Heat → Heat} (h : ∀ q, runOf t q = runOf s q)
    (hF : ∀ i x, heatOf s r i = some x → F i x = x) : HeatsBecome s t r F := by
  refine HeatsBecome.congr (F := fun _ x => x) ⟨?_, fun q _ => h q⟩ fun i x hx => (hF i x hx).symm
  have hl (l : List Heat) : l.mapIdx (fun _ x => x) = l := List.ext_getElem? fun i => by rw [List.getElem?_mapIdx, Option.map_id']
  rw [h]
  simp only [hl, Option.map_id']

theorem HeatsBecome.trans {s t u : State} {r : Nat} {F G : Nat → Heat → Heat} (h : HeatsBecome s t r F) (k : HeatsBecome t u r G) :
    HeatsBecome s u r fun i x => G i (F i x) := by
  refine ⟨?_, fun q hq => (k.others q hq).trans (h.others q hq)⟩
  rw [k.run, h.run]
  cases runOf s r with
  | none => rfl
  | some run => simp [List.mapIdx_mapIdx, Function.comp_def]

theorem HeatsBecome.of_runs {s t u : State} {r : Nat} {F : Nat → Heat → Heat} (h : HeatsBecome s t r F) (hu : ∀ q, runOf u q = runOf t q) :
    HeatsBecome s u r F :=
  ⟨(hu r).trans h.run, fun q hq => (hu q).trans (h.others q hq)⟩

theorem heatsBecome_modHeat (s : State) (r h : Nat) (f : Heat → Heat) : HeatsBecome s (modHeat s r h f) r (atHeat h f) :=
  ⟨(runOf_modRun_self s r _).trans (by simp only [modAt_eq_mapIdx]; rfl), fun _ hq => runOf_modRun_ne s _ hq⟩

theorem HeatsBecome.heatOf {s t : State} {r : Nat} {F : Nat → Heat → Heat} (h : HeatsBecome s t r F) (i : Nat) :
    heatOf t r i = (heatOf s r i).map (F i) := by
  rw [heatOf_eq, heatOf_eq, h.run]
  cases runOf s r with
  | none => rfl
  | some run => exact List.getElem?_mapIdx

/-! ## A run whose heats have changed is settled -/

/-- A live run has a heat that has not ended. -/
theorem settled_live {u : State} {r : Nat} {run : Run} (h : runOf (settleRun u r) r = some run) : ∃ z ∈ run.heats, z.phase.ended = false := by
  rw [runOf_settleRun_self] at h
  obtain ⟨run', -, h⟩ := Option.bind_eq_some_iff.mp h
  split at h
  · cases h
  · next ha =>
    cases h
    simpa using ha

section
variable {s t : State} {r : Nat} {F : Nat → Heat → Heat} (k : HeatsBecome s t r F)
include k

theorem runOf_settled (run : Run) (hr : runOf s r = some run) : runOf (settleRun t r) r =
    if ((run.heats.mapIdx F).all fun h => h.phase.ended) = true then none else some { run with heats := run.heats.mapIdx F } := by
  rw [runOf_settleRun_self, k.run, hr]
  rfl

/-- A heat of the run that is still live is one of before, changed. -/
theorem heatOf_settled {i : Nat} {y : Heat} (hy : heatOf (settleRun t r) r i = some y) : ∃ x, heatOf s r i = some x ∧ y = F i x := by
  rw [heatOf_eq] at hy
  obtain ⟨run', hr', hy⟩ := Option.bind_eq_some_iff.mp hy
  rw [runOf_settleRun_self] at hr'
  obtain ⟨run'', ht, hr'⟩ := Option.bind_eq_some_iff.mp hr'
  split at hr'
  · cases hr'
  · cases hr'
    have hh : heatOf t r i = some y := by rw [heatOf_eq, ht]; exact hy
    rw [k.heatOf] at hh
    obtain ⟨x, hx, rfl⟩ := Option.map_eq_some_iff.mp hh
    exact ⟨x, hx, rfl⟩

theorem otherHeats_settled {l : List Nat} (hF : ∀ i x, i ∉ l → heatOf s r i = some x → F i x = x) : OtherHeats s (settleRun t r) r l := by
  refine ⟨fun q hq => (runOf_settleRun_ne t hq).trans (k.others q hq), fun i y hi hy => ?_⟩
  obtain ⟨x, hx, rfl⟩ := heatOf_settled k hy
  rw [hF i x hi hx]
  exact hx

/-- Where heat `h` alone has changed, into one that has ended, the run ends with it exactly where all others have ended. -/
theorem heatEnds_settled {h : Nat} {ph : Phase} (hp : ∀ x, heatOf s r h = some x → (F h x).phase = ph) (he : ph.ended = true)
    (hh : heatOf s r h ≠ none) (hF : ∀ i x, i ≠ h → heatOf s r i = some x → F i x = x) : HeatEnds s (settleRun t r) r h ph := by
  refine ⟨fun y hy => ?_, fun run hr => ?_⟩
  · obtain ⟨x, hx, rfl⟩ := heatOf_settled k hy
    exact hp x hx
  have hi (i : Nat) : run.heats[i]? = Machine.heatOf s r i := by rw [heatOf_eq, hr]; rfl
  rw [runOf_settled k run hr, ite_eq_left_iff]
  simp only [reduceCtorEq, imp_false, not_not, List.all_eq_true]
  constructor
  · intro ha i y hy hne
    have := ha y (List.mem_of_getElem? (i := i) (by rw [List.getElem?_mapIdx, hy, Option.map_some, hF i y hne ((hi i).symm.trans hy)]))
    exact this
  · intro ho y hy
    obtain ⟨i, hy⟩ := List.getElem?_of_mem hy
    rw [List.getElem?_mapIdx] at hy
    obtain ⟨x, hx, rfl⟩ := Option.map_eq_some_iff.mp hy
    by_cases hne : i = h
    · subst hne
      rw [hp x ((hi i).symm.trans hx)]
      exact he
    · rw [hF i x hne ((hi i).symm.trans hx)]
      exact ho i x hx hne

end

/-! ## The rest of the starter -/

/-- Of the starter's state nothing but its live runs has changed. -/
def RunsOnly (s t : State) : Prop := ∃ l, t.str = { s.str with runs := l }

theorem runsOnly_of_str {s t : State} (h : t.str = s.str) : RunsOnly s t := ⟨s.str.runs, by rw [h]⟩

theorem RunsOnly.trans {s t u : State} (h : RunsOnly s t) (k : RunsOnly t u) : RunsOnly s u := by
  obtain ⟨l, h⟩ := h
  obtain ⟨m, k⟩ := k
  exact ⟨m, by rw [k, h]⟩

theorem runsOnly_modHeat (s : State) (r h : Nat) (f : Heat → Heat) : RunsOnly s (modHeat s r h f) := by
  unfold modHeat modRun
  split
  · exact ⟨_, rfl⟩
  · exact runsOnly_of_str rfl

theorem runsOnly_postHeat (s : State) (r h cause : Nat) (seq : Word) : RunsOnly s (postHeat s r h cause seq) :=
  runsOnly_of_str (str_eq_of_hide (postHeat_hide (ps := [.cq]) s r h cause seq (by decide)) (by decide))

theorem runsOnly_settleRun (s : State) (r : Nat) : RunsOnly s (settleRun s r) := by
  cases h : runOf s r with
  | none => exact runsOnly_of_str (by rw [settleRun_none h])
  | some run =>
    by_cases ha : (run.heats.all fun h => h.phase.ended) = true
    · exact ⟨_, settleRun_over_str h ha⟩
    · exact runsOnly_of_str (by rw [settleRun_live h (Bool.eq_false_iff.mpr ha)])

theorem RunsOnly.classOf {s t : State} (h : RunsOnly s t) (k : Nat) : classOf t k = classOf s k := by
  obtain ⟨l, h⟩ := h
  rw [Machine.classOf, h]
  rfl

theorem RunsOnly.aborts {s t : State} (h : RunsOnly s t) : t.str.aborts = s.str.aborts := by
  obtain ⟨l, h⟩ := h
  rw [h]

theorem RunsOnly.abandons {s t : State} (h : RunsOnly s t) : t.str.abandons = s.str.abandons := by
  obtain ⟨l, h⟩ := h
  rw [h]

theorem classOf_modClass_ne (s : State) {k j : Nat} (f : ClassSt → ClassSt) (h : j ≠ k) : classOf (modClass s k f) j = classOf s j :=
  tget_tput_ne _ _ _ h

theorem retired_retire (s : State) (k : Nat) (epoch : BitVec 16) : Retired s (retire s k epoch) k :=
  ⟨classOf_modClass_self s k fun c => { c with state := 2 }, fun _ hj => classOf_modClass_ne s (fun c => { c with state := 2 }) hj⟩

theorem Retired.of_runsOnly {s t u v : State} {k : Nat} (h : Retired s t k) (hs : RunsOnly v s) (hu : RunsOnly t u) : Retired v u k :=
  ⟨by rw [hu.classOf, h.1, hs.classOf], fun j hj => by rw [hu.classOf, h.2 j hj, hs.classOf]⟩

theorem endOnSeats_str (s : State) (r h : Nat) (l : List Nat) : (endOnSeats s r h l).str = s.str :=
  str_eq_of_hide (endOnSeats_hide (ps := [.seats, .clk]) s r h l (by decide) (by decide)) (by decide)

theorem releasePages_str (s : State) (r h : Nat) (l : List Nat) : (releasePages s r h l).str = s.str :=
  str_eq_of_hide (releasePages_keeps s r h l) (by decide)

/-! ## Entries -/

theorem postHeat_flt (s : State) (r h cause : Nat) (seq : Word) : (postHeat s r h cause seq).flt = s.flt :=
  flt_eq_of_hide (postHeat_hide (ps := [.cq]) s r h cause seq (by decide)) (by decide)

theorem settleRun_flt (s : State) (r : Nat) : (settleRun s r).flt = s.flt :=
  flt_eq_of_hide (settleRun_hide (ps := [.seats, .str, .ctxs, .cq]) s r (by decide) (by decide) (by decide) (by decide)) (by decide)

/-- What a heat's entry says, but for the values in its second slot. -/
theorem heatEntry_reads (r h : Nat) (x : Heat) (cause : Nat) (seq : Word) (time : BitVec 64) :
    let e := heatEntry r h x cause seq time
    fld e.first.toNat 8 8 = 2 ∧ fld e.first.toNat 16 16 = r % 2 ^ 16 ∧ fld e.first.toNat 64 12 = h % 2 ^ 12 ∧
      fld e.first.toNat 80 8 = outcomeCode x.phase ∧ fld e.first.toNat 88 8 = cause % 256 ∧ fld e.first.toNat 160 32 = seq.toNat ∧
      e.second ≠ none := by
  have hx : outcomeCode x.phase < 2 ^ 8 := by cases x.phase <;> decide
  refine ⟨?_, ?_, ?_, ?_, ?_, ?_, Option.some_ne_none _⟩ <;>
    rw [heatEntry, fld_toNat_ofNat _ (by decide)] <;> simp (disch := decide) only [fld_pack_ne] <;>
    rw [fld_pack_self (by simp (disch := decide) only [fld_pack_ne, fld_pack_nil])]
  case refine_4 => exact Nat.mod_eq_of_lt hx
  case refine_6 => exact Nat.mod_eq_of_lt seq.isLt
  all_goals rfl

/-- The entry of a heat is the next of its run's ring. -/
theorem postHeat_out {s t : State} {r h : Nat} (cause : Nat) (seq : Word) {x : Heat} {run : Run} (hr : runOf t r = some run)
    (hx : heatOf t r h = some x) (hc : t.cq = s.cq) :
    HeatEntryOut s (postHeat t r h cause seq) run.ring r h (outcomeCode x.phase) cause seq := by
  rw [postHeat_entries cause seq hr hx]
  exact ⟨_, [], by rw [postEntry_entries, cqrOf_congr hc], heatEntry_reads r h x cause seq _⟩

/-! ## Seats -/

theorem seatOf_modHeat (s : State) (r h : Nat) (f : Heat → Heat) (w : Nat) : seatOf (modHeat s r h f) w = seatOf s w := by
  rw [seatOf, modHeat_seats]
  rfl

theorem satAdd_zero (x : Word) : satAdd x 0 = x := by
  rw [satAdd, if_pos (by have := x.isLt; omega)]
  simp

theorem begunPacket_idem (l : List Flit) : begunPacket (begunPacket l) = begunPacket l := by
  induction l with
  | nil => rfl
  | cons f t ih =>
    by_cases hf : f.head.isSome = true
    · simp [begunPacket, hf]
    · simp [begunPacket, hf, ih]

theorem Eng.stop_stop (e : Eng) : e.stop.stop = e.stop := by
  simp [Eng.stop, begunPacket_idem]

/-- With nothing in its outbound buffer an engine still awaits all its answers. -/
theorem Eng.stop_out (e : Eng) : e.stop.out <+: e.out ∧ (e.outbox = [] → e.stop.out = e.out) :=
  ⟨List.take_prefix _ _, fun h => by simp [Eng.stop, h]⟩

theorem releasePage_idem (x : Seat) (r h : Nat) : releasePage (releasePage x r h) r h = releasePage x r h := by
  simp only [releasePage, Seat.mk.injEq, Cox.mk.injEq, true_and, and_true]
  constructor <;> split <;> simp_all

theorem endOnSeat_idem (r h : Nat) (x : Seat) : endOnSeat r h (endOnSeat r h x) = endOnSeat r h x := by
  by_cases hh : x.cox.state = .halted
  · simp [endOnSeat, releasePage, Lnd.discard, hh, satAdd_zero]
  · simp [endOnSeat, releasePage, Lnd.discard, Seat.rest, hh, satAdd_zero, Eng.stop_stop]

/-- A heat ends on each of its seats once, and on no other. -/
theorem seatOf_endOnSeats (s : State) (r h : Nat) (l : List Nat) (w : Nat) :
    seatOf (endOnSeats s r h l) w = if w ∈ l then endOnSeat r h (seatOf s w) else seatOf s w :=
  get_foldl seatOf (fun s w => touchCrew (modSeat s w (endOnSeat r h)) (crewOf w)) (fun _ => endOnSeat r h)
    (fun s a => seatOf_modSeat_self s a _) (fun s _ _ hb => seatOf_modSeat_ne s _ hb)
    (fun _ => endOnSeat_idem r h) l s w

theorem seatOf_releasePages (s : State) (r h : Nat) (l : List Nat) (w : Nat) :
    seatOf (releasePages s r h l) w = if w ∈ l then releasePage (seatOf s w) r h else seatOf s w :=
  get_foldl seatOf _ (fun _ x => releasePage x r h) (fun s a => seatOf_modSeat_self s a _) (fun s _ _ hb => seatOf_modSeat_ne s _ hb)
    (fun _ x => releasePage_idem x r h) l s w

theorem releasePage_uses (x : Seat) (r h : Nat) : (releasePage x r h).cox.use0 ≠ some (r, h) ∧ (releasePage x r h).cox.use1 ≠ some (r, h) := by
  constructor <;> simp only [releasePage] <;> split <;> simp_all

theorem seatFreed_endOnSeat (r h : Nat) (x : Seat) : SeatFreed x (endOnSeat r h x) r h := by
  obtain ⟨h0, h1⟩ := releasePage_uses x r h
  by_cases hh : x.cox.state = .halted
  · have he : endOnSeat r h x = { releasePage { x with lnd := x.lnd.discard } r h with
        cox := { (releasePage { x with lnd := x.lnd.discard } r h).cox with dispatched := none, started := false } } := if_pos hh
    rw [he]
    exact ⟨rfl, rfl, rfl, id, fun hn => absurd hh hn, h0, h1, rfl, rfl, rfl, fun e => ⟨List.prefix_rfl, fun _ => rfl⟩⟩
  · have he : endOnSeat r h x = (releasePage { x with lnd := x.lnd.discard } r h).rest := if_neg hh
    rw [he]
    refine ⟨rfl, rfl, rfl, fun hn => absurd hn hh, fun _ => ⟨rfl, rfl, rfl, rfl, rfl⟩, h0, h1, rfl, rfl, rfl, fun e => ?_⟩
    unfold Seat.eng
    split
    · exact x.dma.stop_out
    · exact x.net.stop_out

/-- From `x` to `y` pages may have been released and the store controller may have been given work; the rest of the seat is as it was. -/
def PagesGo (x y : Seat) : Prop :=
  ∃ a b k, y = { x with cox := { x.cox with use0 := a, use1 := b }, wst := k } ∧ (a = x.cox.use0 ∨ a = none) ∧ (b = x.cox.use1 ∨ b = none)

theorem PagesGo.trans {x y z : Seat} (h : PagesGo x y) (k : PagesGo y z) : PagesGo x z := by
  obtain ⟨a, b, c, rfl, ha, hb⟩ := h
  obtain ⟨a', b', c', rfl, ha', hb'⟩ := k
  exact ⟨a', b', c', rfl, ha'.elim (fun e => e ▸ ha) .inr, hb'.elim (fun e => e ▸ hb) .inr⟩

theorem pagesGo_wst (x : Seat) (k : Wst) : PagesGo x { x with wst := k } := ⟨_, _, k, rfl, .inl rfl, .inl rfl⟩

theorem pagesGo_releasePage (x : Seat) (r h : Nat) : PagesGo x (releasePage x r h) := by
  refine ⟨_, _, x.wst, rfl, ?_, ?_⟩ <;> split <;> simp

theorem SeatFreed.of_pagesGo {x y z : Seat} {r h : Nat} (k : SeatFreed x y r h) (hz : PagesGo y z) : SeatFreed x z r h := by
  obtain ⟨a, b, c, rfl, ha, hb⟩ := hz
  obtain ⟨hd, hs, hl, hh, hn, h0, h1, hc, hst, hde, he⟩ := k
  exact ⟨hd, hs, hl, hh, hn, ha.elim (fun e => e ▸ h0) fun e => by simp [e], hb.elim (fun e => e ▸ h1) fun e => by simp [e], hc, hst, hde, he⟩

/-! ## The settlement of a run gives store controllers work, and changes no seat else -/

/-- From `s` to `t` no part of a seat but its store controller has changed. -/
def WstOnly (s t : State) : Prop := ∀ w, ∃ k, seatOf t w = { seatOf s w with wst := k }

theorem wstOnly_of_seats {s t : State} (h : t.seats = s.seats) : WstOnly s t := fun w => ⟨(seatOf s w).wst, by rw [seatOf, h]; rfl⟩

theorem WstOnly.trans {s t u : State} (h : WstOnly s t) (k : WstOnly t u) : WstOnly s u := fun w => by
  obtain ⟨a, ha⟩ := h w
  obtain ⟨b, hb⟩ := k w
  exact ⟨b, by rw [hb, ha]⟩

theorem WstOnly.foldl {α : Type} {f : State → α → State} (h : ∀ s a, WstOnly s (f s a)) (l : List α) (s : State) : WstOnly s (l.foldl f s) := by
  induction l generalizing s with
  | nil => exact wstOnly_of_seats rfl
  | cons a l ih => exact (h s a).trans (ih _)

theorem wstOnly_modWst (s : State) (v : Nat) (f : Wst → Wst) : WstOnly s (modWst s v f) := fun w => by
  by_cases hw : w = v
  · exact ⟨f (seatOf s w).wst, by rw [hw, modWst, seatOf_modSeat_self]⟩
  · exact ⟨(seatOf s w).wst, by rw [modWst, seatOf_modSeat_ne s _ hw]⟩

theorem wstOnly_releaseGen (s : State) (c : Nat) (second : Bool) : WstOnly s (releaseGen s c second) := by
  refine WstOnly.trans (t := modCtx s c fun x => if second then { x with g1 := {} } else { x with g0 := {} }) (wstOnly_of_seats rfl) ?_
  exact (WstOnly.foldl (fun u b => wstOnly_modWst u _ _) _ _).trans (wstOnly_of_seats rfl)

theorem wstOnly_releaseRetired (s : State) (c : Nat) : WstOnly s (releaseRetired s c) := by
  have hg (p : Prop) [Decidable p] (u : State) (b : Bool) : WstOnly u (if p then releaseGen u c b else u) := by
    split
    · exact wstOnly_releaseGen u c b
    · exact wstOnly_of_seats rfl
  exact (hg _ s false).trans (hg _ _ true)

theorem wstOnly_settleRun (s : State) (r : Nat) : WstOnly s (settleRun s r) := by
  cases h : runOf s r with
  | none => rw [settleRun_none h]; exact wstOnly_of_seats rfl
  | some run =>
    by_cases ha : (run.heats.all fun h => h.phase.ended) = true
    · have h0 : WstOnly s { s with str := { s.str with runs := tdel s.str.runs r } } := wstOnly_of_seats rfl
      have hg : WstOnly s (runGone s r run) := h0.trans (WstOnly.foldl (fun u (p : Nat × Nat) => wstOnly_releaseRetired u p.1) run.gens _)
      rw [settleRun_over h ha]
      split
      · exact hg.trans (wstOnly_of_seats (seats_eq_of_hide (answerLate_hide (ps := [.cq]) _ _ _ _ _ (by decide)) (by decide)))
      · exact hg
    · rw [settleRun_live h (Bool.eq_false_iff.mpr ha)]
      exact wstOnly_of_seats rfl

theorem wstOnly_postHeat (s : State) (r h cause : Nat) (seq : Word) : WstOnly s (postHeat s r h cause seq) :=
  wstOnly_of_seats (seats_eq_of_hide (postHeat_hide (ps := [.cq]) s r h cause seq (by decide)) (by decide))

theorem WstOnly.pagesGo {s t : State} (h : WstOnly s t) (w : Nat) : PagesGo (seatOf s w) (seatOf t w) := by
  obtain ⟨k, hk⟩ := h w
  rw [hk]
  exact pagesGo_wst _ k

end Sys2Proof.Machine
end

section
/-!
SUPPORT. How heats end (07 R230-R232, R237, 02 R70, 13 R422): an abort, an abandonment and a completion as the statements say them.
-/
namespace Sys2Proof.Machine
open Host (Outcome)

/-! ## An abort -/

theorem retire_seats (s : State) (k : Nat) (epoch : BitVec 16) : (retire s k epoch).seats = s.seats := rfl

theorem retire_aborts (s : State) (k : Nat) (epoch : BitVec 16) : (retire s k epoch).str.aborts = s.str.aborts := rfl

theorem starterRecord_of_path {s t u : State} {r h cause pred : Nat} (ht : t.flt.path = s.flt.path ++ [starterRec u r h cause pred]) :
    StarterRecord s t r h cause := ⟨_, ht, rfl, rfl, rfl, rfl⟩

/-- The hold of its context that an abort asks for, until the causing record has been handled (15 R462). -/
def abortHold (s : State) (r h cause : Nat) (seq : Word) : List CtxHold :=
  if marking cause && (cause != 16 || seqAfter seq s.flt.handled) then
    [{ ctx := (hdOf s r h).ctx, run := r, heat := h, seq := if cause = 16 then some seq else none }] else []

section
variable (s : State) (r h cause : Nat) (seq : Word) (x : Heat)

theorem abortEnded_flt : (abortEnded s r h x).flt = s.flt := by
  refine flt_eq_of_hide (ps := [.seats, .clk, .str, .pools]) ?_ (by decide)
  rw [abortEnded, modHeat_hide _ _ _ _ (by decide), retire_hide _ _ _ (by decide) (by decide)]
  split
  · rfl
  · exact endOnSeats_hide s r h x.seats (by decide) (by decide)

theorem abortLogged_flt : ∃ u, (abortLogged s r h cause seq x).flt =
    { s.flt with path := s.flt.path ++ [starterRec u r h cause 0], holds := s.flt.holds ++ abortHold s r h cause seq } := by
  unfold abortLogged abortHold
  dsimp only
  rw [abortEnded_flt]
  split
  · exact ⟨_, by rw [← abortEnded_flt s r h x]; rfl⟩
  · exact ⟨_, by rw [List.append_nil, ← abortEnded_flt s r h x]; rfl⟩

theorem abortLogged_str :
    (abortLogged s r h cause seq x).str = { (abortEnded s r h x).str with aborts := satInc (abortEnded s r h x).str.aborts } := by
  unfold abortLogged
  dsimp only
  split <;> rfl

theorem seatOf_abortLogged (w : Nat) :
    seatOf (abortLogged s r h cause seq x) w = if x.freed = false ∧ w ∈ x.seats then endOnSeat r h (seatOf s w) else seatOf s w := by
  have hs : (abortLogged s r h cause seq x).seats = (abortEnded s r h x).seats := by
    unfold abortLogged
    dsimp only
    split <;> rfl
  rw [seatOf, hs, abortEnded, modHeat_seats, retire_seats, ← seatOf]
  cases x.freed with
  | true => simp
  | false => simp [seatOf_endOnSeats]

theorem retired_abortEnded : Retired s (abortEnded s r h x) x.cls ∧ (abortEnded s r h x).str.aborts = s.str.aborts := by
  have h0 : RunsOnly s (if x.freed then s else endOnSeats s r h x.seats) := by
    split
    · exact runsOnly_of_str rfl
    · exact runsOnly_of_str (endOnSeats_str s r h x.seats)
  have h1 := runsOnly_modHeat (retire (if x.freed then s else endOnSeats s r h x.seats) x.cls x.epoch) r h
    (Heat.abortedWith (if x.freed then (x.gmask, x.totals) else gather s x.seats))
  exact ⟨(retired_retire _ _ _).of_runsOnly h0 h1, h1.aborts.trans ((retire_aborts _ _ _).trans h0.aborts)⟩

end

/-- The record, the holds and the seats of an aborted heat. -/
theorem abortHeat_after {s : State} {r h : Nat} (cause : Nat) (seq : Word) {x : Heat} (hx : heatOf s r h = some x)
    (hp : x.phase = .dispatched) :
    let t := abortHeat s r h cause seq
    (∃ u, t.flt = { s.flt with path := s.flt.path ++ [starterRec u r h cause 0], holds := s.flt.holds ++ abortHold s r h cause seq }) ∧
      RunsOnly (abortLogged s r h cause seq x) t ∧ WstOnly (abortLogged s r h cause seq x) t := by
  dsimp only
  rw [abortHeat_eq cause seq hx hp]
  refine ⟨?_, (runsOnly_postHeat _ r h cause _).trans (runsOnly_settleRun _ r), (wstOnly_postHeat _ r h cause _).trans (wstOnly_settleRun _ r)⟩
  rw [settleRun_flt, postHeat_flt]
  exact abortLogged_flt s r h cause seq x

/-- From `s` to the aborted state one heat of the run has changed. -/
theorem otherHeats_abortHeat {s : State} {r h : Nat} (cause : Nat) (seq : Word) {x : Heat} (hx : heatOf s r h = some x)
    (hp : x.phase = .dispatched) : OtherHeats s (abortHeat s r h cause seq) r [h] := by
  obtain ⟨g, hr, ho⟩ := runOf_abortLogged s r h cause seq x
  have k : HeatsBecome s (abortLogged s r h cause seq x) r (atHeat h (Heat.abortedWith g)) :=
    ⟨hr.trans (by simp only [modAt_eq_mapIdx]; rfl), ho⟩
  rw [abortHeat_eq cause seq hx hp]
  exact otherHeats_settled (k.of_runs (postHeat_runOf _ r h cause _)) fun i y hi _ => if_neg fun he => hi (List.mem_singleton.mpr he)

/-- A dispatched heat's abort does what 07 R232 says. -/
theorem abortHeat_aborts {s : State} {r h : Nat} (cause : Nat) (seq : Word) {x : Heat} (hx : heatOf s r h = some x)
    (hp : x.phase = .dispatched) : Aborts s (abortHeat s r h cause seq) r h x cause (if cause = 16 then seq else 0) := by
  obtain ⟨⟨u, hf⟩, hruns, hwst⟩ := abortHeat_after cause seq hx hp
  obtain ⟨hret, hab⟩ := retired_abortEnded s r h x
  have hlog : Retired s (abortLogged s r h cause seq x) x.cls := by
    simpa only [Retired, classOf, abortLogged_str] using hret
  refine ⟨abortHeat_ends cause seq hx hp, otherHeats_abortHeat cause seq hx hp, hlog.of_runsOnly (runsOnly_of_str rfl) hruns,
    starterRecord_of_path (congrArg Flt.path hf), ?_, fun hfr w hw => ?_, fun w hw => ?_, fun run hr => abortHeat_entry cause seq hr hx hp⟩
  · rw [hruns.aborts, abortLogged_str, hab]
  · have hs := seatOf_abortLogged s r h cause seq x w
    rw [if_pos ⟨hfr, hw⟩] at hs
    exact (hs ▸ seatFreed_endOnSeat r h (seatOf s w)).of_pagesGo (hwst.pagesGo w)
  · obtain ⟨k, hk⟩ := hwst w
    rw [hk, seatOf_abortLogged, if_neg fun hn => hw hn.2]

/-- The abort of a fault whose record has not been handled holds the context until it is (15 R462). -/
theorem abortHeat_holds {s : State} {r h : Nat} {seq : Word} {x : Heat} (hx : heatOf s r h = some x) (hp : x.phase = .dispatched)
    (ha : seqAfter seq s.flt.handled = true) :
    (abortHeat s r h 16 seq).flt.holds = s.flt.holds ++ [{ ctx := (hdOf s r h).ctx, run := r, heat := h, seq := some seq }] := by
  obtain ⟨⟨u, hf⟩, -, -⟩ := abortHeat_after 16 seq hx hp
  rw [hf]
  simp [abortHold, marking, ha]

theorem exec_heatAbort_asked {s : State} {r h : Nat} {x : Heat} {cause : Nat} {seq : Word} (hx : heatOf s r h = some x)
    (ha : x.abortReq = some (cause, seq)) : exec (.heatAbort r h) s = .next (abortHeat s r h cause seq) := by
  show execHeatAbort r h s = _
  rw [execHeatAbort, hx, Option.bind_some, ha]

/-- The cause of a watchdog's abort: a seat that waits at a CATCH or holds a finish is late (07 R237). -/
theorem exec_heatWatchdog_due {s : State} {r h : Nat} {x : Heat} (hx : heatOf s r h = some x) (hp : x.phase = .dispatched)
    (hf : x.freed = false) (hn : (hdOf s r h).watchdog ≠ 0) (ht : x.startTick + (hdOf s r h).watchdog ≤ s.clk.ticks) :
    exec (.heatWatchdog r h) s = .next (abortHeat s r h (if x.seats.any fun w => lateSeat (seatOf s w) then 18 else 17) 0) := by
  show execHeatWatchdog r h s = _
  rw [execHeatWatchdog, hx]
  exact if_pos ⟨hp, hf, hn, ht⟩

theorem exec_heatWatchdog_early {s : State} {r h : Nat} {x : Heat} (hx : heatOf s r h = some x)
    (ht : s.clk.ticks < x.startTick + (hdOf s r h).watchdog) : exec (.heatWatchdog r h) s = .next s := by
  show execHeatWatchdog r h s = _
  rw [execHeatWatchdog, hx]
  exact if_neg fun hn => absurd hn.2.2.2 (Nat.not_le.mpr ht)

/-! ## A successor that is skipped -/

/-- Where `c` holds, heat `k` is skipped if it has not been dispatched (02 R70). -/
def skipIf (c : Bool) (k i : Nat) (x : Heat) : Heat :=
  if c = true ∧ i = k ∧ (x.phase = .pending ∨ x.phase = .ready) then { x with phase := .skipped } else x

/-- A heat that may be skipped is; its entry may be posted then. -/
theorem skipHeat_waiting {s : State} {r k : Nat} {x : Heat} {run : Run} (hx : heatOf s r k = some x) (hr : runOf s r = some run)
    (hp : x.phase = .pending ∨ x.phase = .ready) :
    let u := modHeat (releasePages s r k x.pre) r k fun x => { x with phase := .skipped }
    skipHeat s r k = if run.every then postHeat u r k 0 0 else u := by
  rw [skipHeat, hx, hr]
  exact if_pos hp

theorem skipHeat_idle {s : State} {r k : Nat} (h : ∀ x, heatOf s r k = some x → ¬ (x.phase = .pending ∨ x.phase = .ready)) :
    skipHeat s r k = s := by
  unfold skipHeat
  split
  · next x run hx hr => exact if_neg (h x hx)
  · rfl

/-- What a skip does: it is done where the heat waits, and is nothing elsewhere. -/
theorem skipHeat_induction {P : State → Prop} {s : State} {r k : Nat} (hidle : P s)
    (hskip : ∀ x : Heat, heatOf s r k = some x → (x.phase = .pending ∨ x.phase = .ready) →
      P (modHeat (releasePages s r k x.pre) r k fun x => { x with phase := .skipped }))
    (hpost : ∀ u, P u → P (postHeat u r k 0 0)) : P (skipHeat s r k) := by
  by_cases hw : ∃ x, heatOf s r k = some x ∧ (x.phase = .pending ∨ x.phase = .ready)
  · obtain ⟨x, hx, hp⟩ := hw
    obtain ⟨run, hr, -⟩ := Option.bind_eq_some_iff.mp ((heatOf_eq s r k).symm.trans hx)
    rw [skipHeat_waiting hx hr hp]
    split
    · exact hpost _ (hskip x hx hp)
    · exact hskip x hx hp
  · rw [skipHeat_idle fun x hx hp => hw ⟨x, hx, hp⟩]
    exact hidle

theorem heatsBecome_skipHeat (s : State) (r k : Nat) : HeatsBecome s (skipHeat s r k) r (skipIf true k) := by
  by_cases hw : ∃ x, heatOf s r k = some x ∧ (x.phase = .pending ∨ x.phase = .ready)
  · obtain ⟨x, hx, hp⟩ := hw
    obtain ⟨run, hr, -⟩ := Option.bind_eq_some_iff.mp ((heatOf_eq s r k).symm.trans hx)
    have hu (q : Nat) : runOf (releasePages s r k x.pre) q = runOf s q :=
      runOf_congr (releasePages_str s r k x.pre) q
    have h0 : HeatsBecome s (releasePages s r k x.pre) r fun _ x => x := heatsBecome_of_fixed hu fun _ _ _ => rfl
    have h1 := h0.trans (heatsBecome_modHeat _ r k fun x => { x with phase := .skipped })
    have h2 : HeatsBecome s (skipHeat s r k) r (atHeat k fun x => { x with phase := .skipped }) := by
      rw [skipHeat_waiting hx hr hp]
      split
      · exact h1.of_runs (postHeat_runOf _ r k 0 0)
      · exact h1
    refine h2.congr fun i y hy => ?_
    by_cases hi : i = k
    · subst hi
      cases hx.symm.trans hy
      simp [atHeat, skipIf, hp]
    · simp [atHeat, skipIf, hi]
  · rw [skipHeat_idle fun x hx hp => hw ⟨x, hx, hp⟩]
    refine heatsBecome_of_fixed (fun _ => rfl) fun i x hx => if_neg ?_
    rintro ⟨-, rfl, hp⟩
    exact hw ⟨x, hx, hp⟩

theorem runsOnly_skipHeat (s : State) (r k : Nat) : RunsOnly s (skipHeat s r k) :=
  skipHeat_induction (runsOnly_of_str rfl)
    (fun x _ _ => (runsOnly_of_str (releasePages_str s r k x.pre)).trans (runsOnly_modHeat _ r k _))
    fun u hu => hu.trans (runsOnly_postHeat u r k 0 0)

theorem grows_skipHeat (s : State) (r k : Nat) : Grows s (skipHeat s r k) := by
  refine skipHeat_induction (.refl s) (fun x _ _ => ?_) fun u hu => hu.trans (grows_postHeat u r k 0 0)
  refine grows_of_hide (ps := [.seats, .str]) ?_ (by decide) (by decide)
  rw [modHeat_hide _ _ _ _ (by decide), releasePages_hide _ _ _ _ (by decide)]

theorem pagesGo_skipHeat (s : State) (r k w : Nat) : PagesGo (seatOf s w) (seatOf (skipHeat s r k) w) := by
  refine skipHeat_induction (P := fun u => PagesGo (seatOf s w) (seatOf u w)) (pagesGo_wst _ _) (fun x _ _ => ?_)
    fun u hu => hu.trans ((wstOnly_postHeat u r k 0 0).pagesGo w)
  rw [seatOf_modHeat, seatOf_releasePages]
  split
  · exact pagesGo_releasePage _ r k
  · exact pagesGo_wst _ _

/-! ## A completion -/

/-- The heat `x` with its seats freed, its guard totals formed and its digest. -/
def Heat.freedWith (g : BitVec 4 × List Word) (dg : Option (BitVec 64)) (x : Heat) : Heat :=
  { x with freed := true, gmask := g.1, gflag := g.1 != 0, totals := g.2, digest := dg }

/-- The digest that heat `h` of run `r` forms, where its descriptor asks for one (07 R250). -/
def heatDigest (s : State) (r h : Nat) : Option (BitVec 64) :=
  if (hdOf s r h).hasDigest then some (digestOf s (hdOf s r h)) else none

/-- The entry of the completing heat `x` is due (07 R230). -/
def completionPosts (s : State) (r h : Nat) (run : Run) (x : Heat) : Bool :=
  run.every || (gather s x.seats).1 != 0 || (hdOf s r h).hasDigest

/-- The heat `x` has completed: its seats are freed and its epoch has retired. -/
def completionEnded (s : State) (r h : Nat) (x : Heat) : State :=
  modHeat (retire (freeHeat s r h x) x.cls x.epoch) r h fun x => { x with phase := .completed }

/-- Its entry is posted where it is due. -/
def completionPosted (s : State) (r h : Nat) (run : Run) (x : Heat) : State :=
  if completionPosts s r h run x then postHeat (completionEnded s r h x) r h 0 0 else completionEnded s r h x

/-- The guard successor of the completing heat `x` is to be skipped (02 R70). -/
def skipsSucc (s : State) (r h : Nat) (x : Heat) : Bool := (hdOf s r h).hasSucc && !((gather s x.seats).1 != 0)

/-- The successor is skipped where it is to be. -/
def completionSkipped (s : State) (r h : Nat) (run : Run) (x : Heat) : State :=
  if skipsSucc s r h x then skipHeat (completionPosted s r h run x) r (hdOf s r h).succ else completionPosted s r h run x

/-- The run is settled. -/
def completionSettled (s : State) (r h : Nat) (run : Run) (x : Heat) : State := settleRun (completionSkipped s r h run x) r

section
variable (s : State) (r h : Nat) (run : Run) (x : Heat)

theorem heatsBecome_freeHeat : HeatsBecome s (freeHeat s r h x) r (atHeat h (Heat.freedWith (gather s x.seats) (heatDigest s r h))) :=
  have h0 : HeatsBecome s (endOnSeats s r h x.seats) r fun _ x => x :=
    heatsBecome_of_fixed (runOf_congr (endOnSeats_str s r h x.seats)) fun _ _ _ => rfl
  h0.trans (heatsBecome_modHeat _ r h _)

/-- A heat that has completed. -/
def Heat.completedWith (g : BitVec 4 × List Word) (dg : Option (BitVec 64)) (x : Heat) : Heat :=
  { x.freedWith g dg with phase := .completed }

theorem heatsBecome_completionEnded :
    HeatsBecome s (completionEnded s r h x) r (atHeat h (Heat.completedWith (gather s x.seats) (heatDigest s r h))) := by
  have k := ((heatsBecome_freeHeat s r h x).of_runs (u := retire (freeHeat s r h x) x.cls x.epoch)
    fun q => by rw [runOf, retire_runs]; rfl).trans (heatsBecome_modHeat _ r h fun x => { x with phase := .completed })
  refine k.congr fun i z _ => ?_
  unfold atHeat
  split <;> rfl

theorem heatsBecome_completionSkipped : HeatsBecome s (completionSkipped s r h run x) r fun i y =>
    skipIf (skipsSucc s r h x) (hdOf s r h).succ i (atHeat h (Heat.completedWith (gather s x.seats) (heatDigest s r h)) i y) := by
  have k : HeatsBecome s (completionPosted s r h run x) r _ := (heatsBecome_completionEnded s r h x).of_runs fun q => by
    unfold completionPosted
    split
    · exact postHeat_runOf _ r h 0 0 q
    · rfl
  unfold completionSkipped
  split
  · next hc =>
    rw [hc]
    exact k.trans (heatsBecome_skipHeat _ r _)
  · next hc =>
    exact k.trans (heatsBecome_of_fixed (fun _ => rfl) fun i y _ => if_neg fun hn => hc hn.1)

theorem seatOf_freeHeat (w : Nat) : seatOf (freeHeat s r h x) w = if w ∈ x.seats then endOnSeat r h (seatOf s w) else seatOf s w := by
  rw [freeHeat, seatOf_modHeat, seatOf_endOnSeats]

theorem runsOnly_freeHeat : RunsOnly s (freeHeat s r h x) :=
  (runsOnly_of_str (endOnSeats_str s r h x.seats)).trans (runsOnly_modHeat _ r h _)

theorem freeHeat_cq : (freeHeat s r h x).cq = s.cq :=
  cq_eq_of_hide (freeHeat_hide (ps := [.seats, .str, .clk]) s r h x (by decide) (by decide) (by decide)) (by decide)

theorem completionEnded_cq : (completionEnded s r h x).cq = s.cq := by
  rw [completionEnded, modHeat_cq, cq_eq_of_hide (retire_hide (ps := [.str, .pools]) _ _ _ (by decide) (by decide)) (by decide), freeHeat_cq]

theorem runsOnly_completed : RunsOnly (retire (freeHeat s r h x) x.cls x.epoch) (completionSettled s r h run x) := by
  have h1 : RunsOnly (retire (freeHeat s r h x) x.cls x.epoch) (completionEnded s r h x) := runsOnly_modHeat _ r h _
  have h2 : RunsOnly (completionEnded s r h x) (completionPosted s r h run x) := by
    unfold completionPosted
    split
    · exact runsOnly_postHeat _ r h 0 0
    · exact runsOnly_of_str rfl
  have h3 : RunsOnly (completionPosted s r h run x) (completionSkipped s r h run x) := by
    unfold completionSkipped
    split
    · exact runsOnly_skipHeat _ r _
    · exact runsOnly_of_str rfl
  exact ((h1.trans h2).trans h3).trans (runsOnly_settleRun _ r)

theorem seatFreed_completed {w : Nat} (hw : w ∈ x.seats) :
    SeatFreed (seatOf s w) (seatOf (completionSettled s r h run x) w) r h := by
  have h1 : WstOnly (freeHeat s r h x) (completionPosted s r h run x) := by
    have h0 : WstOnly (freeHeat s r h x) (completionEnded s r h x) := wstOnly_of_seats ((modHeat_seats _ _ _ _).trans (retire_seats _ _ _))
    unfold completionPosted
    split
    · exact h0.trans (wstOnly_postHeat _ r h 0 0)
    · exact h0
  have h2 : PagesGo (seatOf (completionPosted s r h run x) w) (seatOf (completionSkipped s r h run x) w) := by
    unfold completionSkipped
    split
    · exact pagesGo_skipHeat _ r _ w
    · exact pagesGo_wst _ _
  have h0 : SeatFreed (seatOf s w) (seatOf (freeHeat s r h x) w) r h := by
    rw [seatOf_freeHeat, if_pos hw]
    exact seatFreed_endOnSeat r h (seatOf s w)
  exact h0.of_pagesGo (((h1.pagesGo w).trans h2).trans ((wstOnly_settleRun _ r).pagesGo w))

end

/-- The entry of a completed heat, where it is due. -/
theorem completed_entry {s : State} {r h : Nat} {run : Run} {x : Heat} (hr : runOf s r = some run) (hx : heatOf s r h = some x)
    (hp : completionPosts s r h run x = true) : HeatEntryOut s (completionSettled s r h run x) run.ring r h 0 0 0 := by
  have k := heatsBecome_completionEnded s r h x
  have hx' := (k.heatOf h).trans (congrArg _ hx)
  rw [Option.map_some, atHeat, if_pos rfl] at hx'
  have hout := postHeat_out (s := s) 0 0 (k.run.trans (congrArg _ hr)) hx' (completionEnded_cq s r h x)
  have hg : Grows (completionPosted s r h run x) (completionSkipped s r h run x) := by
    unfold completionSkipped
    split
    · exact grows_skipHeat _ r _
    · exact .refl _
  rw [completionPosted, if_pos hp] at hg
  exact hout.of_grows (hg.trans (grows_settleRun _ r))

/-- HEAT_COMPLETE of a heat whose seats have all finished and whose requests are answered. -/
theorem exec_heatComplete_done {s : State} {r h : Nat} {run : Run} {x : Heat} (hr : runOf s r = some run) (hx : heatOf s r h = some x)
    (hp : x.phase = .dispatched) (ha : x.abortReq = none) (hf : x.freed = false)
    (hseats : ∀ w ∈ x.seats, w ∈ x.finished ∧ (seatOf s w).cox.state = .pastEnd) (hans : allAnswered s x.seats x.epoch = true) :
    exec (.heatComplete r h) s = .next (if (completionPosts s r h run x && holdFull s run.ring) = true then freeHeat s r h x
      else completionSettled s r h run x) := by
  have hdone : (x.seats.all fun w => x.finished.contains w && (seatOf s w).cox.state == .pastEnd) = true := by
    simpa using hseats
  have hy : heatOf (freeHeat s r h x) r h = some (x.freedWith (gather s x.seats) (heatDigest s r h)) := by
    rw [(heatsBecome_freeHeat s r h x).heatOf, hx, Option.map_some, atHeat, if_pos rfl]
  show execHeatComplete r h s = _
  simp only [execHeatComplete, hr, hx]
  rw [if_pos ⟨hp, ha, by rw [hdone, hans, Bool.true_and, Bool.or_true]⟩, hf, if_neg Bool.false_ne_true, hy, Option.getD_some]
  exact (apply_ite Outcome.next _ _ _).symm

/-- The heats that a completion leaves as they were. -/
theorem completed_fixes {s : State} {r h : Nat} {x : Heat} {i : Nat} (y : Heat) (hi : i ≠ h)
    (hs : i ≠ (hdOf s r h).succ ∨ skipsSucc s r h x = false) :
    skipIf (skipsSucc s r h x) (hdOf s r h).succ i (atHeat h (Heat.completedWith (gather s x.seats) (heatDigest s r h)) i y) = y := by
  rw [atHeat, if_neg hi, skipIf, if_neg]
  rintro ⟨hc, he, -⟩
  exact hs.elim (fun h => h he) fun h => by simp [h] at hc

/-- The completing heat itself is not skipped, whatever its successor. -/
theorem completed_self {s : State} {r h : Nat} {x : Heat} (y : Heat) :
    skipIf (skipsSucc s r h x) (hdOf s r h).succ h (atHeat h (Heat.completedWith (gather s x.seats) (heatDigest s r h)) h y) =
      y.completedWith (gather s x.seats) (heatDigest s r h) := by
  rw [atHeat, if_pos rfl, skipIf, if_neg]
  rintro ⟨-, -, hp⟩
  rcases hp with hp | hp <;> cases hp

theorem succ_completed {s : State} {r h : Nat} {run : Run} {x : Heat} (hs : skipsSucc s r h x = true) {z : Heat}
    (hz : heatOf s r (hdOf s r h).succ = some z) (hne : (hdOf s r h).succ ≠ h)
    (hp : z.phase = .pending) {y : Heat} (hy : heatOf (completionSettled s r h run x) r (hdOf s r h).succ = some y) : y.phase = .skipped := by
  obtain ⟨x', hx', rfl⟩ := heatOf_settled (heatsBecome_completionSkipped s r h run x) hy
  cases hz.symm.trans hx'
  rw [atHeat, if_neg hne, skipIf, if_pos ⟨hs, rfl, .inl hp⟩]

section
variable {s : State} {r h : Nat} {run : Run} {x : Heat} (hx : heatOf s r h = some x)
include hx

theorem heatOf_completed {y : Heat} (hy : heatOf (completionSettled s r h run x) r h = some y) :
    y = x.completedWith (gather s x.seats) (heatDigest s r h) := by
  obtain ⟨x', hx', rfl⟩ := heatOf_settled (heatsBecome_completionSkipped s r h run x) hy
  cases hx.symm.trans hx'
  exact completed_self x

theorem heatEnds_completed (hs : skipsSucc s r h x = false) : HeatEnds s (completionSettled s r h run x) r h .completed := by
  refine heatEnds_settled (heatsBecome_completionSkipped s r h run x) (fun y _ => ?_) rfl (by rw [hx]; exact Option.some_ne_none _)
    fun i y hi _ => completed_fixes y hi (.inr hs)
  rw [completed_self]
  rfl

end

theorem skipsSucc_iff (s : State) (r h : Nat) (x : Heat) :
    skipsSucc s r h x = true ↔ (hdOf s r h).hasSucc = true ∧ (gather s x.seats).1 = 0 := by
  simp [skipsSucc]

theorem completionPosts_iff (s : State) (r h : Nat) (run : Run) (x : Heat) :
    completionPosts s r h run x = true ↔ run.every = true ∨ (gather s x.seats).1 ≠ 0 ∨ (hdOf s r h).hasDigest = true := by
  simp [completionPosts, or_assoc]

theorem heatDigest_eq_none (s : State) (r h : Nat) : heatDigest s r h = none ↔ (hdOf s r h).hasDigest = false := by
  unfold heatDigest
  cases (hdOf s r h).hasDigest <;> simp

/-! ## A class is free, and a halted seat sends its LAST record -/

theorem exec_classFree_drained {s : State} {k : Fin 64} (hk : (classOf s k.val).state = 2) (hl : ∀ e ∈ s.str.lag, e.2.1 ≠ k.val)
    (ho : ∀ p ∈ s.seats, ∀ o ∈ p.2.dma.out ++ p.2.net.out, o.epoch ≠ (classOf s k.val).epoch) :
    exec (.classFree k) s = .next (modClass s k.val fun c => { c with state := 0 }) := by
  refine if_pos ⟨hk, ?_⟩
  simp only [classDrained, Bool.and_eq_true, List.all_eq_true, bne_iff_ne]
  exact ⟨hl, ho⟩

theorem exec_classFree_draining {s : State} {k : Fin 64} (h : (∃ e ∈ s.str.lag, e.2.1 = k.val) ∨
    ∃ p ∈ s.seats, ∃ o ∈ p.2.dma.out ++ p.2.net.out, o.epoch = (classOf s k.val).epoch) : exec (.classFree k) s = .next s := by
  refine if_neg fun hn => ?_
  have hd := hn.2
  simp only [classDrained, Bool.and_eq_true, List.all_eq_true, bne_iff_ne] at hd
  rcases h with ⟨e, he, hek⟩ | ⟨p, hp, o, ho, hoe⟩
  · exact hd.1 e he hek
  · exact hd.2 p hp o ho hoe

/-- A halted seat whose class has drained, with its LAST record on the fault path where faults followed the first. -/
def lastLogged (s : State) (w : Nat) : State :=
  if (seatOf s w).first.count ≠ 0 then report s { (seatOf s w).last with kind := 1 } else s

theorem exec_seatLastLogged_drained {s : State} {w : SeatIx} (hh : (seatOf s w.val).cox.state = .halted)
    (hk : (classOf s ((seatOf s w.val).cox.epoch.toNat % 64)).epoch ≠ (seatOf s w.val).cox.epoch ∨
      (classOf s ((seatOf s w.val).cox.epoch.toNat % 64)).state = 0) :
    exec (.seatLastLogged w) s = .next (modSeat (lastLogged s w.val) w.val Seat.rest) :=
  if_pos ⟨hh, fun hn => hk.elim (fun h => h hn.1) fun h => hn.2 h⟩

theorem exec_seatLastLogged_draining {s : State} {w : SeatIx}
    (he : (classOf s ((seatOf s w.val).cox.epoch.toNat % 64)).epoch = (seatOf s w.val).cox.epoch)
    (hs : (classOf s ((seatOf s w.val).cox.epoch.toNat % 64)).state ≠ 0) : exec (.seatLastLogged w) s = .next s :=
  if_neg fun hn => hn.2 ⟨he, hs⟩

theorem seatOf_lastLogged (s : State) (w v : Nat) : seatOf (lastLogged s w) v = seatOf s v := by
  unfold lastLogged
  split <;> rfl

end Sys2Proof.Machine
end

section
open Sys2Proof Sys2Proof.Machine

/-- Settles O27: a completion heat by heat through its stages, an abort by `abortHeat_aborts`, the watchdog as an abort at its time, and the class and
the halted seat by whether the class has drained. -/
theorem heatsEnd : Obligations.HeatsEnd := by
  refine ⟨?complete, ?abort, ?drained⟩
  case complete =>
    intro s r h run x d mask posts hr hx hp ha hf hseats hans
    have hh : heatOf s r h = some x := by rw [heatOf_eq, hr]; exact hx
    have hex := exec_heatComplete_done hr hh hp ha hf hseats hans
    have hposts : completionPosts s r h run x = true ↔ posts := completionPosts_iff s r h run x
    refine ⟨fun hroom => ?_, fun hpost hfull => ?_⟩
    · have hgo : ¬ (completionPosts s r h run x && holdFull s run.ring) = true := fun hn => by
        obtain ⟨h1, h2⟩ := Bool.and_eq_true_iff.mp hn
        exact Bool.false_ne_true ((hroom (hposts.mp h1)).symm.trans h2)
      rw [if_neg hgo] at hex
      have hno (hs : d.hasSucc = false ∨ mask ≠ 0) : skipsSucc s r h x = false := by
        rw [← Bool.not_eq_true, skipsSucc_iff]
        exact fun hn => hs.elim (fun h => Bool.false_ne_true (h.symm.trans hn.1)) fun h => h hn.2
      have k := heatsBecome_completionSkipped s r h run x
      have hframe := exec_leaves (.heatComplete r h) s _ hex
      refine ⟨_, hex, fun y hy => by rw [heatOf_completed hh hy]; rfl, fun _ => settled_live, fun hs => heatEnds_completed hh (hno hs), ?_,
        fun w hw => seatFreed_completed s r h run x hw, ?_, flt_eq_of_hide hframe (by simp [touches]), fun y hy => ?_,
        fun hpost => completed_entry hr hh (hposts.mpr hpost),
        fun z hs hm hz hne hzp y hy => succ_completed ((skipsSucc_iff s r h x).mpr ⟨hs, hm⟩) hz hne hzp hy, ?_, fun hs => ?_⟩
      · exact (retired_retire _ _ _).of_runsOnly (runsOnly_freeHeat s r h x) (runsOnly_completed s r h run x)
      · rw [(runsOnly_completed s r h run x).aborts, retire_aborts, (runsOnly_freeHeat s r h x).aborts]
      · rw [heatOf_completed hh hy]
        exact ⟨rfl, bne_iff_ne, heatDigest_eq_none s r h⟩
      · exact otherHeats_settled k fun i y hi _ =>
          completed_fixes y (fun he => hi (by simp [he])) (.inl fun he => hi (by simp [d, he]))
      · exact otherHeats_settled k fun i y hi _ => completed_fixes y (fun he => hi (by simp [he])) (.inr (hno hs))
    · rw [if_pos (by rw [hposts.mpr hpost, hfull]; rfl)] at hex
      refine ⟨_, hex, ?_, freeHeat_cq s r h x, fun w hw => ?_, x.freedWith (gather s x.seats) (heatDigest s r h), ?_, hp, rfl, rfl⟩
      · obtain ⟨l, hl⟩ := runsOnly_freeHeat s r h x
        rw [hl]
      · rw [seatOf_freeHeat, if_pos hw]
        exact seatFreed_endOnSeat r h (seatOf s w)
      · rw [(heatsBecome_freeHeat s r h x).heatOf, hh, Option.map_some, atHeat, if_pos rfl]
  case abort =>
    intro s r h x hx hp
    refine ⟨fun cause seq ha => ?_, fun hf hn ht => ?_, fun ht => exec_heatWatchdog_early hx ht⟩
    · refine ⟨_, exec_heatAbort_asked hx ha, abortHeat_aborts cause seq hx hp, fun hc hq => ?_⟩
      subst hc
      exact abortHeat_holds hx hp hq
    · have hex := exec_heatWatchdog_due hx hp hf hn ht
      refine ⟨fun hl => ?_, fun hl => ?_⟩
      · rw [if_pos (List.any_eq_true.mpr hl)] at hex
        exact ⟨_, hex, abortHeat_aborts 18 0 hx hp⟩
      · rw [if_neg (by simpa using hl)] at hex
        exact ⟨_, hex, abortHeat_aborts 17 0 hx hp⟩
  case drained =>
    intro s
    refine ⟨fun k hk => ⟨exec_classFree_drained hk, fun hl => exec_classFree_draining (.inl hl), fun ho => exec_classFree_draining (.inr ho)⟩,
      fun w => ?_⟩
    intro x k hh
    have hs := seatOf_lastLogged s w.val
    refine ⟨fun hk => ⟨_, exec_seatLastLogged_drained hh hk, ?_, ?_, ?_, fun v hv => (seatOf_modSeat_ne _ _ hv).trans (hs v),
      fun hc => ?_, fun hc => ?_⟩, exec_seatLastLogged_draining⟩
    · rw [seatOf_modSeat_self]
      rfl
    · rw [seatOf_modSeat_self, hs]
      rfl
    · rw [seatOf_modSeat_self, hs]
      rfl
    · rw [modSeat_flt, lastLogged, if_neg (not_not.mpr hc)]
    · rw [modSeat_flt, lastLogged, if_pos hc]
      rfl

end

section
/-!
SUPPORT. Dispatch (07 R224, R228, R231, R233-R235): the abandonment of a heat, the dependences that dispatch may meet, what it sets at each seat, the
START messages, and the state that it leaves.
-/
namespace Sys2Proof.Machine
open Host (Outcome)

/-! ## An abandonment -/

/-- The heat `x` is abandoned, and its pages are released. -/
def abandonEnded (s : State) (r h : Nat) (x : Heat) : State := modHeat (releasePages s r h x.pre) r h fun x => { x with phase := .abandoned }

section
variable (s : State) (r h cause pred : Nat) (x : Heat)

theorem abandonEnded_keeps : (abandonEnded s r h x).hide [.seats, .str] = s.hide [.seats, .str] := by
  rw [abandonEnded, modHeat_hide _ _ _ _ (by decide), releasePages_hide _ _ _ _ (by decide)]

theorem runsOnly_abandonEnded : RunsOnly s (abandonEnded s r h x) :=
  (runsOnly_of_str (releasePages_str s r h x.pre)).trans (runsOnly_modHeat _ r h _)

theorem seatOf_abandonLogged (w : Nat) :
    seatOf (abandonLogged s r h cause pred x) w = if w ∈ x.pre then releasePage (seatOf s w) r h else seatOf s w := by
  rw [← seatOf_releasePages]
  exact seatOf_modHeat _ r h _ w

theorem abandonLogged_str : (abandonLogged s r h cause pred x).str =
    { (abandonEnded s r h x).str with abandons := satInc (abandonEnded s r h x).str.abandons } := rfl

theorem abandonLogged_path : ∃ u, (abandonLogged s r h cause pred x).flt.path = s.flt.path ++ [starterRec u r h cause pred] := by
  rw [← flt_eq_of_hide (abandonEnded_keeps s r h x) (by decide)]
  exact ⟨_, rfl⟩

theorem abandonLogged_cq : (abandonLogged s r h cause pred x).cq = s.cq := by
  rw [← cq_eq_of_hide (abandonEnded_keeps s r h x) (by decide)]
  rfl

end

/-- The abandonment of a heat that has not been dispatched does what 07 R231 says. -/
theorem abandonHeat_abandons {s : State} {r h : Nat} (cause pred : Nat) {x : Heat} (hx : heatOf s r h = some x)
    (hp : x.phase = .pending ∨ x.phase = .ready) : Abandons s (abandonHeat s r h cause pred) r h x cause := by
  obtain ⟨hr, ho⟩ := runOf_abandonLogged s r h cause pred x
  have k : HeatsBecome s (abandonLogged s r h cause pred x) r (atHeat h fun x => { x with phase := .abandoned }) :=
    ⟨hr.trans (by simp only [modAt_eq_mapIdx]; rfl), ho⟩
  have kp := k.of_runs (postHeat_runOf _ r h cause 0)
  obtain ⟨u, hpath⟩ := abandonLogged_path s r h cause pred x
  have hend := runsOnly_abandonEnded s r h x
  have hruns := (runsOnly_postHeat (abandonLogged s r h cause pred x) r h cause 0).trans (runsOnly_settleRun _ r)
  have hwst := (wstOnly_postHeat (abandonLogged s r h cause pred x) r h cause 0).trans (wstOnly_settleRun _ r)
  have hpages (w : Nat) := seatOf_abandonLogged s r h cause pred x w
  rw [abandonHeat_eq cause pred hx hp]
  refine ⟨heatEnds_settled kp (fun y _ => by rw [atHeat, if_pos rfl]) rfl (by rw [hx]; exact Option.some_ne_none _) fun i y hi _ => if_neg hi,
    otherHeats_settled kp fun i y hi _ => if_neg fun he => hi (List.mem_singleton.mpr he), starterRecord_of_path (pred := pred) (u := u) ?_,
    ?_, ?_, fun j => ?_, fun w hw => ?_, fun w => ?_, fun run hrun => ?_⟩
  · rw [← hpath, settleRun_flt, postHeat_flt]
  · rw [hruns.abandons, abandonLogged_str, hend.abandons]
  · rw [hruns.aborts, abandonLogged_str, hend.aborts]
  · rw [hruns.classOf, ← hend.classOf]
    rfl
  · obtain ⟨c, hc⟩ := hwst w
    rw [hc, hpages, if_pos hw]
    exact releasePage_uses _ r h
  · obtain ⟨c, hc⟩ := hwst w
    rw [hc, hpages]
    split <;> exact ⟨rfl, rfl, rfl⟩
  · have hx' := (k.heatOf h).trans (congrArg _ hx)
    rw [Option.map_some, atHeat, if_pos rfl] at hx'
    exact (postHeat_out (s := s) cause 0 (k.run.trans (congrArg _ hrun)) hx' (abandonLogged_cq s r h cause pred x)).of_grows
      (grows_settleRun _ r)

/-! ## Dependences that are met -/

theorem tfind_map_key {α β : Type} (f : Nat → α → β) (t : Tbl α) (i : Nat) :
    tfind (t.map fun p => (p.1, f p.1 p.2)) i = (tfind t i).map (f i) := by
  induction t with
  | nil => rfl
  | cons p t ih =>
    obtain ⟨k, v⟩ := p
    by_cases hk : k = i
    · simp [tfind, hk]
    · simpa [tfind, hk] using ih

/-- The run `run`, number `q`, with the dependences of its heats tested. -/
def latchRun (s : State) (q : Nat) (run : Run) : Run :=
  { run with heats := (run.heats.zipIdx).map fun e => latchHeat s e.1 (hdOf s q e.2) }

theorem heatOf_latchDeps (s : State) (q i : Nat) : heatOf (latchDeps s) q i = (heatOf s q i).map fun x => latchHeat s x (hdOf s q i) := by
  have hr : runOf (latchDeps s) q = (runOf s q).map (latchRun s q) := tfind_map_key (latchRun s) s.str.runs q
  rw [heatOf_eq, heatOf_eq, hr]
  cases runOf s q with
  | none => rfl
  | some run => simp [latchRun, List.getElem?_zipIdx, Function.comp_def]

theorem latchHeat_of_begun (s : State) {x : Heat} (d : HeatDesc) (hp : x.phase ≠ .pending) : latchHeat s x d = x := if_neg hp

/-- A test of the dependences changes only the bits of those met, and a dependence that is met stays so. -/
theorem latchHeat_met (s : State) (x : Heat) (d : HeatDesc) :
    latchHeat s x d = { x with met := (latchHeat s x d).met } ∧ ∀ n, x.met.getLsbD n = true → (latchHeat s x d).met.getLsbD n = true := by
  have hfold (l : List (DepRaw × Nat)) (m : BitVec 8) (n : Nat) (hm : m.getLsbD n = true) :
      (l.foldl (fun m p => if isCounterDep p.1 && counterMet s x p.1 p.2 then setBit m p.2 else m) m).getLsbD n = true := by
    induction l generalizing m with
    | nil => exact hm
    | cons p l ih =>
      refine ih _ ?_
      dsimp only
      split
      · simp [getLsbD_setBit, hm]
      · exact hm
  by_cases hp : x.phase = .pending
  · rw [latchHeat, if_pos hp]
    exact ⟨rfl, hfold _ _⟩
  · rw [latchHeat_of_begun s d hp]
    exact ⟨rfl, fun _ => id⟩

theorem heatOf_modHeat_other (s : State) (r h : Nat) (f : Heat → Heat) {q i : Nat} (hn : ¬ (q = r ∧ i = h)) :
    heatOf (modHeat s r h f) q i = heatOf s q i := by
  have k := heatsBecome_modHeat s r h f
  by_cases hq : q = r
  · subst hq
    have hid : atHeat h f i = id := funext fun x => if_neg fun hi => hn ⟨rfl, hi⟩
    rw [k.heatOf, hid, Option.map_id, id]
  · rw [heatOf_eq, heatOf_eq, k.others q hq]

/-! ## What dispatch sets at a seat -/

/-- Seat `y` is seat `x` with heat `h` of run `r`, of context `c`, dispatched to it under `epoch`: its landing block and records are cleared, and
its memories stay (07 R228). -/
def DispatchedTo (x y : Seat) (r h c : Nat) (epoch : BitVec 16) : Prop :=
  y.cox.dispatched = some (r, h) ∧ y.cox.started = false ∧ y.cox.epoch = epoch ∧ y.cox.ctx = c ∧ y.cox.heat = h ∧ y.cox.run = r ∧
  y.lnd.ctr = [] ∧ y.lnd.flag = [] ∧ y.lnd.held = [] ∧ y.first = {} ∧ y.last = {} ∧ y.core = x.core ∧ y.desc = x.desc

theorem DispatchedTo.trans {x y z : Seat} {r h c : Nat} {epoch : BitVec 16} (k : DispatchedTo x y r h c epoch) (l : DispatchedTo y z r h c epoch) :
    DispatchedTo x z r h c epoch := by
  obtain ⟨_, _, _, _, _, _, _, _, _, _, _, hc, hd⟩ := k
  obtain ⟨h1, h2, h3, h4, h5, h6, h7, h8, h9, h10, h11, h12, h13⟩ := l
  exact ⟨h1, h2, h3, h4, h5, h6, h7, h8, h9, h10, h11, h12.trans hc, h13.trans hd⟩

/-- A START message for seat `w` stands in the north edge port of its column (09 R272, R279). -/
def StartQueued (s : State) (w : Nat) : Prop :=
  ∃ f ∈ (bufOf s (nodeHost + (coordOf w).1) 0 vcCtl).flits, f.last = true ∧ pType f.data.toNat = 8 ∧
    ∃ p, f.head = some p ∧ p.goal = .seat w ∧ p.legs = []

theorem startHdr_type (s : State) (w : Nat) : pType (startHdr s w).toNat = 8 := by
  rw [pType, startHdr, fld_toNat_ofNat _ (by decide), fld_pack_self (by simp (disch := decide) only [fld_pack_ne, fld_pack_nil])]
  rfl

/-- The flit of a START message to seat `w`. -/
def startFlit (s : State) (w : Nat) : Flit :=
  { head := some { goal := .seat w, entry := nodeHost + (coordOf w).1 }, data := startHdr s w, last := true }

theorem bufOf_sendStart_self (s : State) (w : Nat) : bufOf (sendStart s w) (nodeHost + (coordOf w).1) 0 vcCtl =
    (bufOf s (nodeHost + (coordOf w).1) 0 vcCtl).take (startFlit s w) := bufOf_putBuf_self _ _ _ _ _

theorem bufOf_sendStart_ne (s : State) {w n : Nat} (hn : n ≠ nodeHost + (coordOf w).1) :
    bufOf (sendStart s w) n 0 vcCtl = bufOf s n 0 vcCtl := bufOf_putBuf_ne _ _ (by simp only [bufKey]; omega)

section
variable (s : State) (r h : Nat) (run : Run) (d : HeatDesc) (epoch : BitVec 16) (g : Gen)

/-- Dispatch at a seat changes that seat, wakes its crew and sends the message. -/
theorem dispatchSeat_sends (p : Place) (w : Nat) : ∃ f m, dispatchSeat s r h run d epoch g p w =
    sendStart (modDom (modSeat s w f) (crewOf w) m) w ∧ ∀ x, DispatchedTo x (f x) r h d.ctx epoch :=
  ⟨_, _, rfl, fun _ => ⟨rfl, rfl, rfl, rfl, rfl, rfl, rfl, rfl, rfl, rfl, rfl, rfl, rfl⟩⟩

theorem dispatchSeat_self (p : Place) (w : Nat) :
    DispatchedTo (seatOf s w) (seatOf (dispatchSeat s r h run d epoch g p w) w) r h d.ctx epoch := by
  obtain ⟨f, m, he, hf⟩ := dispatchSeat_sends s r h run d epoch g p w
  have hs : seatOf (dispatchSeat s r h run d epoch g p w) w = f (seatOf s w) := he ▸ seatOf_modSeat_self s w f
  exact hs ▸ hf _

theorem dispatchSeat_ne (p : Place) {w v : Nat} (hv : v ≠ w) : seatOf (dispatchSeat s r h run d epoch g p w) v = seatOf s v := by
  obtain ⟨f, m, he, -⟩ := dispatchSeat_sends s r h run d epoch g p w
  exact he ▸ seatOf_modSeat_ne s f hv

/-- Where the rest of no discarded packet is awaited, the START message is the last in its port. -/
theorem dispatchSeat_buf (p : Place) (w n : Nat) (ho : (bufOf s n 0 vcCtl).eating = false) :
    let t := dispatchSeat s r h run d epoch g p w
    (bufOf t n 0 vcCtl).eating = false ∧ (∀ f ∈ (bufOf s n 0 vcCtl).flits, f ∈ (bufOf t n 0 vcCtl).flits) ∧
      (n = nodeHost + (coordOf w).1 → StartQueued t w) := by
  obtain ⟨f, m, he, -⟩ := dispatchSeat_sends s r h run d epoch g p w
  have hu : bufOf s n 0 vcCtl = bufOf (modDom (modSeat s w f) (crewOf w) m) n 0 vcCtl := rfl
  dsimp only
  rw [he]
  rw [hu] at ho ⊢
  by_cases hn : n = nodeHost + (coordOf w).1
  · subst hn
    unfold StartQueued
    rw [bufOf_sendStart_self, Buf.take, if_neg (Bool.eq_false_iff.mp ho)]
    exact ⟨ho, fun f hf => List.mem_append_left _ hf,
      fun _ => ⟨_, List.mem_append_right _ List.mem_cons_self, rfl, startHdr_type _ w, _, rfl, rfl, rfl⟩⟩
  · rw [bufOf_sendStart_ne _ hn]
    exact ⟨ho, fun _ => id, fun h => absurd h hn⟩

/-- Dispatch at the seats of a list: each has the heat, and its START message is under way; every other is as it was. -/
theorem dispatchSeats_spec (l : List (Place × Nat)) :
    let t := l.foldl (fun s p => dispatchSeat s r h run d epoch g p.1 p.2) s
    (∀ w, w ∉ l.map (·.2) → seatOf t w = seatOf s w) ∧
    (∀ w ∈ l.map (·.2), DispatchedTo (seatOf s w) (seatOf t w) r h d.ctx epoch) ∧
    ∀ n, (bufOf s n 0 vcCtl).eating = false → (∀ f ∈ (bufOf s n 0 vcCtl).flits, f ∈ (bufOf t n 0 vcCtl).flits) ∧
      ∀ w ∈ l.map (·.2), n = nodeHost + (coordOf w).1 → StartQueued t w := by
  induction l generalizing s with
  | nil => exact ⟨fun _ _ => rfl, fun w hw => absurd hw List.not_mem_nil, fun _ _ => ⟨fun _ => id, fun w hw => absurd hw List.not_mem_nil⟩⟩
  | cons a l ih =>
    obtain ⟨hout, hin, hbuf⟩ := ih (dispatchSeat s r h run d epoch g a.1 a.2)
    refine ⟨fun w hw => ?_, fun w hw => ?_, fun n ho => ?_⟩
    · obtain ⟨hne, hl⟩ := not_or.mp fun h => hw (List.mem_cons.mpr h)
      exact (hout w hl).trans (dispatchSeat_ne s r h run d epoch g a.1 hne)
    · by_cases hl : w ∈ l.map (·.2)
      · have hl := hin w hl
        by_cases hwa : w = a.2
        · subst hwa
          exact (dispatchSeat_self s r h run d epoch g a.1 a.2).trans hl
        · rwa [dispatchSeat_ne s r h run d epoch g a.1 hwa] at hl
      · obtain rfl := (List.mem_cons.mp hw).resolve_right hl
        rw [List.foldl_cons, hout _ hl]
        exact dispatchSeat_self s r h run d epoch g a.1 a.2
    · obtain ⟨he, hf, hst⟩ := dispatchSeat_buf s r h run d epoch g a.1 a.2 n ho
      obtain ⟨hf', hst'⟩ := hbuf n he
      refine ⟨fun f hm => hf' f (hf f hm), fun w hw hn => ?_⟩
      rcases List.mem_cons.mp hw with rfl | hw
      · obtain ⟨f, hm, hfs⟩ := hst hn
        exact ⟨f, hn ▸ hf' f (hn ▸ hm), hfs⟩
      · exact hst' w hw hn

end

end Sys2Proof.Machine
end

section
/-!
SUPPORT. HEAT_DISPATCH as a whole (07 R228, R233-R235, R253), and the seats that begin (05 R154, R155, 06 R211).
-/
namespace Sys2Proof.Machine
open Host (Outcome)

/-! ## The state that dispatch leaves -/

/-- The class that dispatch takes: a free value picks it among the free ones (07 R228, R235). -/
def dispatchClass (s : State) : Nat := ((freeClasses s)[Config.freeClass s.free % (freeClasses s).length]?).getD 0

/-- That class's next sequence number (07 R233). -/
def dispatchSeq (s : State) : Nat :=
  if (classOf s (dispatchClass s)).seq = 1023 then 1 else (classOf s (dispatchClass s)).seq + 1

/-- The epoch that dispatch forms (07 R233). -/
def dispatchEpoch (s : State) : BitVec 16 := BitVec.ofNat 16 (dispatchSeq s * 64 + dispatchClass s)

/-- The places that a heat names, each with the seat presented there. -/
def dispatchPlaces (s : State) (d : HeatDesc) : List (Place × Nat) := (places d).filterMap fun p => (placeSeat s p).map fun w => (p, w)

/-- The class has been taken, for heat `h` of run `r`. -/
def classTaken (s : State) (r h : Nat) : State :=
  modClass (drawn s) (dispatchClass s) fun c =>
    { c with state := 1, epoch := dispatchEpoch s, seq := dispatchSeq s, run := r, heat := h }

/-- The heat's seats have been prepared. -/
def seatsPrepared (s : State) (r h : Nat) (run : Run) (g : Gen) : State :=
  (dispatchPlaces s (hdOf s r h)).foldl (fun u p => dispatchSeat u r h run (hdOf s r h) (dispatchEpoch s) g p.1 p.2) (classTaken s r h)

/-- The heat `x` as it is once it has been dispatched. -/
def dispatchedHeat (s : State) (r h : Nat) (x : Heat) : Heat :=
  { x with phase := .dispatched, cls := dispatchClass s, epoch := dispatchEpoch s, seats := (dispatchPlaces s (hdOf s r h)).map (·.2),
           finished := [], startTick := s.clk.ticks, waited := false }

/-- The state after HEAT_DISPATCH. -/
def heatDispatched (s : State) (r h : Nat) (run : Run) (g : Gen) : State :=
  modCtx (modHeat (latchDeps (seatsPrepared s r h run g)) r h (dispatchedHeat s r h)) (hdOf s r h).ctx fun c =>
    { c with used := (domTime s 98).toNat }

theorem seatOf_modCtx (s : State) (c : Nat) (f : Ctx → Ctx) (w : Nat) : seatOf (modCtx s c f) w = seatOf s w := rfl

theorem heatOf_modCtx (s : State) (c : Nat) (f : Ctx → Ctx) (q i : Nat) : heatOf (modCtx s c f) q i = heatOf s q i := rfl

theorem seatOf_latchDeps (s : State) (w : Nat) : seatOf (latchDeps s) w = seatOf s w := rfl

theorem runsOnly_latchDeps (s : State) : RunsOnly s (latchDeps s) := ⟨_, rfl⟩

theorem dispatchClass_free {s : State} (h : freeClasses s ≠ []) : dispatchClass s ∈ freeClasses s := by
  have hi : Config.freeClass s.free % (freeClasses s).length < (freeClasses s).length := Nat.mod_lt _ (List.length_pos_iff.mpr h)
  rw [dispatchClass, List.getElem?_eq_getElem hi, Option.getD_some]
  exact List.getElem_mem hi

theorem dispatchClass_lt {s : State} (h : freeClasses s ≠ []) : dispatchClass s < 64 :=
  List.mem_range.mp (List.mem_filter.mp (dispatchClass_free h)).1

/-- The class number stands in the low six bits of an epoch (07 R233). -/
theorem dispatchEpoch_class (s : State) : (dispatchEpoch s).toNat % 64 = dispatchClass s % 64 := by
  rw [dispatchEpoch, BitVec.toNat_ofNat]
  omega

theorem dispatchPlaces_seats (s : State) (d : HeatDesc) : (dispatchPlaces s d).map (·.2) = (places d).filterMap (placeSeat s) := by
  rw [dispatchPlaces, List.map_filterMap]
  simp [Function.comp_def]

section
variable (s : State) (r h : Nat) (run : Run) (g : Gen)

theorem seatsPrepared_str : (seatsPrepared s r h run g).str = (classTaken s r h).str :=
  str_eq_of_hide (ps := [.seats, .clk, .noc])
    (hide_foldl _ _ _ fun u p => dispatchSeat_hide u r h run _ _ g p.1 p.2 (by decide) (by decide) (by decide)) (by decide)

theorem heatOf_seatsPrepared (q i : Nat) : heatOf (seatsPrepared s r h run g) q i = heatOf s q i :=
  heatOf_congr (t := seatsPrepared s r h run g) (s := classTaken s r h) (seatsPrepared_str s r h run g) q i

theorem seatOf_heatDispatched (w : Nat) : seatOf (heatDispatched s r h run g) w = seatOf (seatsPrepared s r h run g) w := by
  rw [heatDispatched, seatOf_modCtx, seatOf_modHeat, seatOf_latchDeps]

theorem bufOf_heatDispatched (n : Nat) : bufOf (heatDispatched s r h run g) n 0 vcCtl = bufOf (seatsPrepared s r h run g) n 0 vcCtl := by
  rw [bufOf, heatDispatched, modCtx_noc, modHeat_noc]
  rfl

theorem classOf_heatDispatched (j : Nat) : classOf (heatDispatched s r h run g) j = classOf (classTaken s r h) j := by
  have hruns : RunsOnly (seatsPrepared s r h run g) (heatDispatched s r h run g) :=
    ((runsOnly_latchDeps _).trans (runsOnly_modHeat _ r h _)).trans (runsOnly_of_str (modCtx_str _ _ _))
  rw [hruns.classOf, classOf, seatsPrepared_str, ← classOf]

theorem classOf_classTaken_self : classOf (classTaken s r h) (dispatchClass s) =
    { state := 1, epoch := dispatchEpoch s, seq := dispatchSeq s, run := r, heat := h } :=
  classOf_modClass_self _ _ _

theorem classOf_classTaken_ne {j : Nat} (hj : j ≠ dispatchClass s) : classOf (classTaken s r h) j = classOf s j :=
  classOf_modClass_ne (drawn s) _ hj

theorem heatOf_heatDispatched_self {x : Heat} (hx : heatOf s r h = some x) (hp : x.phase ≠ .pending) :
    heatOf (heatDispatched s r h run g) r h = some (dispatchedHeat s r h x) := by
  have hl := heatOf_latchDeps (seatsPrepared s r h run g) r h
  rw [heatOf_seatsPrepared, hx, Option.map_some, latchHeat_of_begun _ _ hp] at hl
  rw [heatDispatched, heatOf_modCtx, heatOf_modHeat_self, hl, Option.map_some]

theorem otherHeatsLatched_heatDispatched : OtherHeatsLatched s (heatDispatched s r h run g) r h := by
  intro q i y hn hy
  rw [heatDispatched, heatOf_modCtx, heatOf_modHeat_other _ r h _ hn, heatOf_latchDeps, heatOf_seatsPrepared] at hy
  obtain ⟨z, hz, rfl⟩ := Option.map_eq_some_iff.mp hy
  exact ⟨z, hz, latchHeat_met _ z _⟩

/-- Every table accepts the new epoch (07 R234). -/
theorem liveAt_heatDispatched (hk : dispatchClass s < 64) (table : Nat) : liveAt (heatDispatched s r h run g) table (dispatchEpoch s) = true := by
  have hc : classOf (heatDispatched s r h run g) ((dispatchEpoch s).toNat % 64) =
      { state := 1, epoch := dispatchEpoch s, seq := dispatchSeq s, run := r, heat := h } := by
    rw [dispatchEpoch_class, Nat.mod_eq_of_lt hk, classOf_heatDispatched, classOf_classTaken_self]
  simp [liveAt, hc]

/-- The seats of a dispatched heat, and their START messages. -/
theorem seats_heatDispatched :
    let t := heatDispatched s r h run g
    let l := (dispatchPlaces s (hdOf s r h)).map (·.2)
    (∀ w ∈ l, DispatchedTo (seatOf s w) (seatOf t w) r h (hdOf s r h).ctx (dispatchEpoch s) ∧
      ((bufOf s (nodeHost + (coordOf w).1) 0 vcCtl).eating = false → StartQueued t w)) ∧
    ∀ w, w ∉ l → seatOf t w = seatOf s w := by
  obtain ⟨hout, hin, hbuf⟩ := dispatchSeats_spec (classTaken s r h) r h run (hdOf s r h) (dispatchEpoch s) g (dispatchPlaces s (hdOf s r h))
  refine ⟨fun w hw => ⟨?_, fun ho => ?_⟩, fun w hw => ?_⟩
  · rw [seatOf_heatDispatched]
    exact hin w hw
  · unfold StartQueued
    rw [bufOf_heatDispatched]
    exact (hbuf _ ho).2 w hw rfl
  · rw [seatOf_heatDispatched]
    exact hout w hw

end

/-! ## HEAT_DISPATCH -/

section
variable {s : State} {r h : Nat} {run : Run} {x : Heat} (hr : runOf s r = some run) (hx : heatOf s r h = some x)
  (hd : dispatchable s r h x = true)
include hr hx hd

theorem exec_heatDispatch_goes {g : Gen} (hf : freeClasses s ≠ []) (ho : overtaken s r h x = false)
    (hc : dispatchCheck s run (hdOf s r h) = none) (hg : boundGen s run (hdOf s r h).ctx = some g) :
    exec (.heatDispatch r h) s = .next (heatDispatched s r h run g) := by
  show execHeatDispatch r h s = _
  simp only [execHeatDispatch, hr, hx, hd, hc, hg, ho]
  rw [if_neg (by decide), if_neg hf, if_neg (by decide)]
  rfl

theorem exec_heatDispatch_fails {cause : Nat} (hf : freeClasses s ≠ []) (ho : overtaken s r h x = false)
    (hc : dispatchCheck s run (hdOf s r h) = some cause) : exec (.heatDispatch r h) s = .next (abandonHeat s r h cause 0) := by
  show execHeatDispatch r h s = _
  simp only [execHeatDispatch, hr, hx, hd, hc, ho]
  rw [if_neg (by decide), if_neg hf, if_neg (by decide)]

theorem exec_heatDispatch_waits (hf : freeClasses s = []) (hw : x.waited = false) : exec (.heatDispatch r h) s =
    .next (modHeat { s with str := { s.str with waits := satInc s.str.waits } } r h fun x => { x with waited := true }) := by
  show execHeatDispatch r h s = _
  simp only [execHeatDispatch, hr, hx, hd, hf, hw]
  rfl

end

theorem phase_of_dispatchable {s : State} {r h : Nat} {x : Heat} (hd : dispatchable s r h x = true) : x.phase = .ready := by
  unfold dispatchable at hd
  simp only [Bool.and_eq_true, beq_iff_eq] at hd
  exact hd.1.1.1.1

/-! ## A seat begins -/

theorem modSeat_putSeat (s : State) (w : Nat) (x : Seat) (f : Seat → Seat) : modSeat (putSeat s w x) w f = putSeat s w (f x) := by
  rw [modSeat, seatOf_putSeat_self, putSeat_putSeat]

theorem landWindow_none (s : State) (w : Nat) (x : Seat) (h : x.winWait = []) :
    landWindow (putSeat s w x) w = putSeat s w { x with winWait := [] } := by
  rw [landWindow, seatOf_putSeat_self, h, List.foldl_nil, modSeat_putSeat]

theorem landWindow_write (s : State) (w : Nat) (x : Seat) {o : Nat} {v : Word} (h : x.winWait = [(o, some v)]) :
    landWindow (putSeat s w x) w = putSeat s w (coreWrite { x with winWait := [] } o (bytesOf v.toNat 4)) := by
  rw [landWindow, seatOf_putSeat_self, h, List.foldl_cons, List.foldl_nil, modSeat_putSeat]
  exact modSeat_putSeat s w _ fun x => coreWrite x o (bytesOf v.toNat 4)

/-- Core memory after a word written to it while it held zeros. -/
theorem zeroed_write (o : Nat) (v : Word) : mword (mwr [] o 4 v.toNat) o = v ∧
    ∀ a, (a < o ∨ o + 4 ≤ a) → mread (mwr [] o 4 v.toNat) a = 0 := by
  refine ⟨?_, fun a ha => mread_mwr_out [] o 4 v.toNat a ha⟩
  rw [mword, mrd_mwr_self, Nat.mod_eq_of_lt (show v.toNat < 256 ^ 4 from v.isLt), BitVec.ofNat_toNat, BitVec.setWidth_eq]

/-- The seat whose core memory has been filled with zeros. -/
def coreFilled (x : Seat) : Seat := { x with core := [], cox := { x.cox with filling := false } }

section
variable {s : State} {w : SeatIx} (hrow : crewInRow s (crewOf w.val) = true) (hclk : (domOf s (crewOf w.val)).stop = .none)
  (hst : (seatOf s w.val).cox.state = .noHeat)
include hrow hclk hst

theorem exec_coreFill_due (hf : (seatOf s w.val).cox.filling = true) :
    exec (.coreFill w) s = .next (landWindow (putSeat s w.val (coreFilled (seatOf s w.val))) w.val) := by
  have hc : clocked s w.val = true := beq_iff_eq.mpr hclk
  exact if_pos (by simp [hf, seatRuns, hst, hrow, hc])

theorem exec_heatStart_due {r h : Nat} {pg : Fin 2} (hd : (seatOf s w.val).cox.dispatched = some (r, h))
    (hp : pageOf (seatOf s w.val) r h = some pg) (hs : (seatOf s w.val).cox.started = true) (hf : (seatOf s w.val).cox.filling = false) :
    exec (.heatStart w) s = .next (putSeat s w.val (begun (seatOf s w.val) pg)) := by
  have hc : clocked s w.val = true := beq_iff_eq.mpr hclk
  show execHeatStart w s = _
  simp only [execHeatStart, hd, hp]
  exact if_pos (by simp [hs, hf, hst, hrow, hc])

end

theorem exec_heatStart_filling {s : State} {w : SeatIx} (hf : (seatOf s w.val).cox.filling = true) : exec (.heatStart w) s = .next s := by
  show execHeatStart w s = _
  unfold execHeatStart
  dsimp only
  split
  · split
    · exact if_neg (by simp [hf])
    · rfl
  · rfl

end Sys2Proof.Machine
end

section
open Sys2Proof Sys2Proof.Machine

/-- Settles O26: the state that dispatch leaves is `heatDispatched`, whose class, heats, seats and ports are read one by one; a seat begins in `begun`,
once its core memory has been filled. -/
theorem dispatchAndBegin : Obligations.DispatchAndBegin := by
  refine ⟨?dispatch, ?begins⟩
  case dispatch =>
    intro s r h run x d hr hx hd
    have hh : heatOf s r h = some x := by rw [heatOf_eq, hr]; exact hx
    have hp := phase_of_dispatchable hd
    refine ⟨fun g hf ho hc hg => ?_, fun cause hf ho hc => ?_, fun hf hw => ?_⟩
    · have hk := dispatchClass_lt hf
      have hcls := classOf_heatDispatched s r h run g
      have hself := (hcls _).trans (classOf_classTaken_self s r h)
      obtain ⟨hin, hout⟩ := seats_heatDispatched s r h run g
      refine ⟨_, dispatchClass s, dispatchedHeat s r h x, exec_heatDispatch_goes hr hh hd hf ho hc hg, dispatchClass_free hf,
        heatOf_heatDispatched_self s r h run g hh (by simp [hp]), otherHeatsLatched_heatDispatched s r h run g, rfl, rfl, rfl, rfl,
        dispatchEpoch_class s, ?_, ?_, fun j hj => (hcls j).trans (classOf_classTaken_ne s r h hj),
        liveAt_heatDispatched s r h run g hk, dispatchPlaces_seats s d, fun w hw => ?_, hout⟩
      · rw [hself]
        rfl
      · rw [hself]
        rfl
      · obtain ⟨⟨h1, h2, h3, h4, h5, h6, h7, h8, h9, h10, h11, h12, h13⟩, hq⟩ := hin w hw
        exact ⟨h1, h2, h3, h4, h5, h6, h7, h8, h9, h10, h11, h12, h13, hq⟩
    · exact ⟨_, exec_heatDispatch_fails hr hh hd hf ho hc, abandonHeat_abandons cause 0 hh (.inr hp)⟩
    · have k := heatsBecome_modHeat { s with str := { s.str with waits := satInc s.str.waits } } r h fun x => { x with waited := true }
      obtain ⟨l, hl⟩ := runsOnly_modHeat { s with str := { s.str with waits := satInc s.str.waits } } r h fun x => { x with waited := true }
      refine ⟨_, exec_heatDispatch_waits hr hh hd hf hw, by rw [hl], ?_, ⟨k.others, fun i y hi hy => ?_⟩, modHeat_seats _ _ _ _, by rw [hl]⟩
      · exact (heatOf_modHeat_self _ r h _).trans (congrArg _ hh)
      · rw [heatOf_modHeat_other _ r h _ fun hn => hi (List.mem_singleton.mpr hn.2)] at hy
        exact hy
  case begins =>
    intro s w x hrow hclk hst
    refine ⟨fun hf => ⟨exec_heatStart_filling hf, fun hw => ?_, fun o v hw => ?_⟩, fun r h pg hd hpg hs hf => ?_⟩
    · have hex := exec_coreFill_due hrow hclk hst hf
      rw [landWindow_none s w.val (coreFilled x) hw] at hex
      refine ⟨_, hex, by rw [seatOf_putSeat_self], fun a => ?_, ?_⟩
      · rw [seatOf_putSeat_self]
        rfl
      · rw [seatOf_putSeat_self, ← hw]
        rfl
    · have hex := exec_coreFill_due hrow hclk hst hf
      rw [landWindow_write s w.val (coreFilled x) hw] at hex
      obtain ⟨hv, ho⟩ := zeroed_write o v
      refine ⟨_, hex, by rw [seatOf_putSeat_self], ?_, fun a ha => ?_, ?_, ?_⟩ <;> rw [seatOf_putSeat_self]
      · exact hv
      · exact ho a ha
      · rfl
      · rfl
    · refine ⟨_, exec_heatStart_due hrow hclk hst hd hpg hs hf, by rw [seatOf_putSeat_self], ?_⟩
      rw [seatOf_putSeat_self]
      refine ⟨rfl, rfl, rfl, rfl, rfl, rfl, fun _ => rfl, fun _ => rfl, rfl, rfl, rfl, fun _ => rfl, rfl, rfl, rfl, rfl, rfl, fun e => ?_,
        rfl, rfl, rfl, rfl, rfl, rfl⟩
      unfold Seat.eng
      split <;> exact ⟨rfl, rfl, rfl, rfl, rfl⟩

end

section
/-!
SUPPORT. Completion (06 R205, R214): what counter writes that take effect with a completion leave of the cox, and the steps of the two commands.
-/
namespace Sys2Proof.Machine
open Host (Outcome)

/-- A counter write changes the counters, their write times and the collision count alone (06 R195). -/
theorem writeCtr_cox (c : Cox) (k : Nat) (v : Word) (t rank : Nat) :
    ∃ r a n, writeCtr c k v t rank = { c with ctr := r, ctrAt := a, collide := n } := by
  unfold writeCtr
  split
  · split
    · dsimp only
      split <;> exact ⟨_, _, _, rfl⟩
    · split <;> exact ⟨_, _, _, rfl⟩
  · exact ⟨_, _, _, rfl⟩

/-- The counter writes of COMPRESS that take effect change the counters and their bookkeeping alone (04 R133). -/
theorem settle_cox (c : Cox) (now : Nat) : ∃ r a n l, settle c now = { c with ctr := r, ctrAt := a, collide := n, due := l } := by
  suffices h : ∀ (l : List (Nat × Nat × Word)) (c : Cox), ∃ r a n,
      l.foldl (fun (a : Cox) p => if p.1 < now then writeCtr a p.2.1 p.2.2 p.1 2 else a) c = { c with ctr := r, ctrAt := a, collide := n } by
    obtain ⟨r, a, n, h⟩ := h c.due c
    exact ⟨r, a, n, (settle c now).due, by simp only [settle, h]⟩
  intro l
  induction l with
  | nil => exact fun c => ⟨_, _, _, rfl⟩
  | cons p l ih =>
    intro c
    rw [List.foldl_cons]
    obtain ⟨r, a, n, h⟩ : ∃ r a n, (if p.1 < now then writeCtr c p.2.1 p.2.2 p.1 2 else c) = { c with ctr := r, ctrAt := a, collide := n } := by
      split
      · exact writeCtr_cox ..
      · exact ⟨_, _, _, rfl⟩
    obtain ⟨r', a', n', h'⟩ := ih { c with ctr := r, ctrAt := a, collide := n }
    exact ⟨r', a', n', by rw [h, h']⟩

/-- The cox once the descriptor `j`, in place `i` of those that have run, has completed (06 R205). -/
def coxCompleted (c : Cox) (i : Nat) (j : Job) : Cox :=
  let c := settle { c with fin := dropAt c.fin i } (j.doneAt + 1)
  let c := if tfind c.issuedAt j.idx = some (j.issued + 1) then { c with done := tput c.done j.idx (j.doneAt + 1) } else c
  if c.state = .pastEnd then { c with cycle := max c.cycle (j.doneAt + 1) } else c

theorem coxCompleted_fin (c : Cox) (i : Nat) (j : Job) : (coxCompleted c i j).fin = dropAt c.fin i := by
  obtain ⟨r, a, n, l, h⟩ := settle_cox { c with fin := dropAt c.fin i } (j.doneAt + 1)
  simp only [coxCompleted, h]
  repeat' split
  all_goals rfl

theorem coxCompleted_done (c : Cox) (i : Nat) (j : Job) : (coxCompleted c i j).done =
    if tfind c.issuedAt j.idx = some (j.issued + 1) then tput c.done j.idx (j.doneAt + 1) else c.done := by
  obtain ⟨r, a, n, l, h⟩ := settle_cox { c with fin := dropAt c.fin i } (j.doneAt + 1)
  simp only [coxCompleted, h]
  repeat' split
  all_goals rfl

/-- A descriptor that has run completes, where no clips or flushes are to be counted, in its core cycle (06 R205, 03 R110, 04 R146). -/
theorem exec_descriptorComplete_due {s : State} {w : SeatIx} {i : Nat} {j : Job} (hj : (seatOf s w.val).cox.fin[i]? = some j)
    (ht : OnTime s w.val j.doneAt) (hc : j.clips = 0) (hf : j.flushes = 0) :
    let x := seatOf s w.val
    exec (.descriptorComplete w i) s = .next (putSeat s w.val { x with
      cox := coxCompleted x.cox i j
      mxa := if dClass j.raw.toNat = 1 ∧ dOp j.raw.toNat = 1 then { x.mxa with bloads := satInc x.mxa.bloads } else x.mxa
      vec := if dClass j.raw.toNat = 2 then { x.vec with descs := satInc x.vec.descs } else x.vec }) := by
  obtain ⟨hclk, hr, hs⟩ := ht
  show execDescriptorComplete w i s = _
  unfold execDescriptorComplete
  simp only [hj, hr, hs, hclk, hc, hf, and_self, if_true]
  rfl

/-- After END and every completion the seat reports to the starter and its banks rest (06 R214, 05 R170). -/
theorem exec_planFinished_done {s : State} {w : SeatIx} (hst : (seatOf s w.val).cox.state = .pastEnd) (hclk : clocked s w.val = true)
    (hd : allDone (seatOf s w.val) = true) :
    exec (.planFinished w) s = .next (modHeat (modCox s w.val fun c => { c with rest := 0xFFFFFFFF }) (seatOf s w.val).cox.run
      (seatOf s w.val).cox.heat fun h => { h with finished := if h.finished.contains w.val then h.finished else h.finished ++ [w.val] }) :=
  if_pos ⟨hst, hd, hclk⟩

end Sys2Proof.Machine
end

section
open Sys2Proof Sys2Proof.Machine

/-- Settles O4: a completion changes of the seat its cox and two counts, and the report changes of the starter one heat. -/
theorem completionAndFinish : Obligations.CompletionAndFinish := by
  intro s w x
  refine ⟨fun i j hj ht hc hf => ?_, fun hst hclk hd h hh hw => ?_⟩
  · refine ⟨_, exec_descriptorComplete_due hj ht hc hf, ?_⟩
    rw [seatOf_putSeat_self]
    refine ⟨coxCompleted_fin .., ?_, fun k hk => ?_, ?_, ?_, rfl, rfl, rfl, rfl⟩
    · simp only [coxCompleted_done]
      split
      · exact tfind_tput_self ..
      · rfl
    · simp only [coxCompleted_done]
      split
      · exact tfind_tput_ne _ _ hk
      · rfl
    · exact apply_ite Mxa.bloads ..
    · exact apply_ite Vec.descs ..
  · refine ⟨_, exec_planFinished_done hst hclk hd, ?_, ?_⟩
    · rw [heatOf_modHeat_self, heatOf_congr (modCox_str s w.val _), hh, Option.map_some, if_neg (by simpa using hw)]
    · rw [seatOf_modHeat, seatOf_modCox_self]

end

section
/-!
SUPPORT. Starts in the matrix array (03 R80, R92, R108): the job that a unit takes, the faults of a start, and what a unit start and a pass start
leave.
-/
namespace Sys2Proof.Machine
open Host (Outcome)

/-! ## Faults of one event -/

theorem raiseEvents_single (s : State) (w t code eng b1 wd dd : Nat) (j : Job) :
    raiseEvents s w [(t, code, eng, b1, wd, dd, j)] = jobFault s w j code eng t b1 wd dd := by
  simp [raiseEvents, beforeEvents, insEv]

/-- Of two faults of one core cycle the one of the lower code is raised first (15 R456). -/
theorem raiseEvents_pair (s : State) (w t : Nat) {c c' : Nat} (eng b1 wd dd eng' b1' wd' dd' : Nat) (j : Job) (h : c' < c) :
    raiseEvents s w [(t, c, eng, b1, wd, dd, j), (t, c', eng', b1', wd', dd', j)] =
      jobFault (jobFault s w j c' eng' t b1' wd' dd') w j c eng t b1 wd dd := by
  simp [raiseEvents, beforeEvents, insEv, h]

/-! ## The start of a unit -/

theorem takeUnit_first {u : Nat} {a : List Job} {j : Job} (b : List Job) (ha : ∀ i ∈ a, mxUnit (dOp i.raw.toNat) ≠ u)
    (hj : mxUnit (dOp j.raw.toNat) = u) : takeUnit u (a ++ j :: b) = some (j, a ++ b) := by
  induction a with
  | nil => exact if_pos hj
  | cons i a ih =>
    rw [List.cons_append, takeUnit, if_neg (ha i List.mem_cons_self), ih fun k hk => ha k (List.mem_cons_of_mem _ hk)]
    rfl

theorem noteRoom_mxa (x : Seat) (q : Fin 4) : (noteRoom x q).mxa = x.mxa := by
  unfold noteRoom
  split <;> rfl

/-- How long each descriptor keeps its unit busy (03 R103). -/
theorem mxBusyUntil_eq (d start : Nat) : mxBusyUntil d start = start +
    (if dOp d = 1 then 34 else if dOp d = 2 then 18 else if dOp d = 3 then 2
     else if dOp d = 0x10 then (passTable (prTable d)).length * max (prRows d) 4
     else if drCore d = true then 135 else 5 + 2 * drRows d) := by
  unfold mxBusyUntil
  simp only [opBload, opDiag, opAload, opProduct]
  split_ifs <;> omega

/-- WST_REST_CONFLICT at the start of a BLOAD from a bank at rest (05 R171). -/
def mxRestEvents (x : Seat) (j : Job) : List Ev :=
  if dOp j.raw.toNat = opBload ∧ x.cox.rest.getLsbD (bloadBank j) = true then
    [(j.start, wstRestConflict, 10, 0, (blAddr j.raw.toNat j.c).toNat, 0, j)] else []

/-- The array once unit `u` has taken `j`, whose start is set, and left `q` in the queue (03 R80, R99, R108). -/
def mxTaken (x : Seat) (u : Nat) (j : Job) (q : List Job) : Mxa :=
  let d := j.raw.toNat
  let m := { x.mxa with queue := q, cur := tput x.mxa.cur u j, freeAt := tput x.mxa.freeAt u (mxBusyUntil d j.start),
                        startAt := tput x.mxa.startAt u j.start }
  let m := if dOp d = opProduct then { m with pass := 0, passDue := false, slotUse := slotUses m.slotUse j } else m
  if dOp d = opAload ∧ (mxStartEvents x j).isEmpty = true then { m with slots := tdel m.slots (alSlot d) } else m

theorem mxTaken_fields (x : Seat) (u : Nat) (j : Job) (q : List Job) :
    (mxTaken x u j q).queue = q ∧ (mxTaken x u j q).cur = tput x.mxa.cur u j ∧
    (mxTaken x u j q).freeAt = tput x.mxa.freeAt u (mxBusyUntil j.raw.toNat j.start) := by
  unfold mxTaken
  by_cases hp : dOp j.raw.toNat = opProduct
  · simp [hp]
  · simp only [hp, if_false]
    split <;> exact ⟨rfl, rfl, rfl⟩

/-- An idle unit takes its first job at its issue or when it is free, and the faults of that start arise (03 R80, R108, 05 R171). -/
theorem exec_mxUnitStart_takes {s : State} {w : SeatIx} {u : UnitIx} {x : Seat} {j : Job} {q : List Job} {start : Nat} {es : List Ev}
    (hx : seatOf s w.val = x) (hcur : tfind x.mxa.cur u.val = none) (hq : takeUnit u.val x.mxa.queue = some (j, q))
    (hst : start = max j.issued (tget 0 x.mxa.freeAt u.val)) (ht : OnTime s w.val start)
    (hes : mxStartEvents x { j with start := start } ++ mxRestEvents x { j with start := start } = es) :
    exec (.mxUnitStart w u) s = .next (raiseEvents
      (putSeat s w.val (noteRoom { x with mxa := mxTaken x u.val { j with start := start } q } 0)) w.val es) := by
  subst hx hes
  obtain ⟨hclk, hr, hs⟩ := ht
  show execMxUnitStart w u s = _
  unfold execMxUnitStart
  simp only [hcur, hclk, hq, ← hst, hr, hs, and_self, if_true, Bool.true_eq_false, or_self, if_false]
  rfl

theorem mxRestEvents_awake {x : Seat} {j : Job} (h : dOp j.raw.toNat = 1 → x.cox.rest.getLsbD (bloadBank j) = false) : mxRestEvents x j = [] :=
  if_neg fun ⟨ho, hb⟩ => by rw [h ho] at hb; cases hb

theorem mxStartEvents_bload {x : Seat} {j : Job} (ho : dOp j.raw.toNat = 1) : mxStartEvents x j =
    if (blNib j.raw.toNat ≠ 1 ∧ x.mxa.sh0.isSome = true) ∨ (blNib j.raw.toNat ≠ 0 ∧ x.mxa.sh1.isSome = true) then
      [(j.start, mxShadowBusy, 2, 0, noWord, 0, j)] else [] := by
  simp only [mxStartEvents, opBload, ho, if_true]
  by_cases h0 : blNib j.raw.toNat = 0
  · simp [h0]
  · by_cases h1 : blNib j.raw.toNat = 1
    · simp [h1]
    · simp [h0, h1]

/-- No fault arises at a start that R93 and R108 let be. -/
theorem mxStartEvents_none {x : Seat} {j : Job} (h : MxMayStart x j j.start) : mxStartEvents x j = [] := by
  obtain ⟨hb, ha, hd⟩ := h
  by_cases h1 : dOp j.raw.toNat = 1
  · obtain ⟨h0, h1', -⟩ := hb h1
    rw [mxStartEvents_bload h1, if_neg]
    rintro (⟨hn, hs⟩ | ⟨hn, hs⟩)
    · rw [h0 hn] at hs
      cases hs
    · rw [h1' hn] at hs
      cases hs
  · unfold mxStartEvents
    dsimp only
    rw [if_neg h1]
    split
    next h3 =>
      obtain ⟨hs, hr, a, hf, ht⟩ := hd h3
      have he : slotReady x.mxa (dgSlot j.raw.toNat) j.start = true := by rw [slotReady, hf, decide_eq_true hr]; rfl
      have hg : tget {} x.mxa.slots (dgSlot j.raw.toNat) = a := by rw [tget, hf]; rfl
      rw [if_neg (by simp [hs]), if_neg (by simp [he]), hg, if_neg (Nat.not_lt.mpr ht)]
      rfl
    next =>
      split
      next h2 => exact if_neg (Nat.not_lt.mpr (ha h2))
      next => rfl

theorem mxStart_faultless {x : Seat} {j : Job} (h : MxMayStart x j j.start) : mxStartEvents x j ++ mxRestEvents x j = [] := by
  rw [mxStartEvents_none h, mxRestEvents_awake fun ho => (h.1 ho).2.2, List.append_nil]

/-- A BLOAD into N0 while the shadow's N0 holds a tile is MX_SHADOW_BUSY (03 R92, R108). -/
theorem mxStart_shadowBusy {x : Seat} {j : Job} (ho : dOp j.raw.toNat = 1) (hn : blNib j.raw.toNat = 0) (hs : x.mxa.sh0.isSome = true)
    (hr : x.cox.rest.getLsbD (bloadBank j) = false) :
    mxStartEvents x j ++ mxRestEvents x j = [(j.start, mxShadowBusy, 2, 0, noWord, 0, j)] := by
  rw [mxStartEvents_bload ho, if_pos (.inl ⟨by rw [hn]; decide, hs⟩), mxRestEvents_awake fun _ => hr, List.append_nil]

/-! ## The start of a pass -/

section
variable {m : Mxa} {j : Job} {p t : Nat}

/-- The faults at the start of a pass without a swap, or with one that is ready, are those of the pass (03 R92). -/
theorem startEvents_swapped (h : swapsAt j.raw.toNat p = true → swapReady m j.raw.toNat p t = true) :
    startEvents m j p t = passEvents (if swapsAt j.raw.toNat p then swapBlades m else m) j p t := by
  unfold startEvents
  dsimp only
  by_cases hs : swapsAt j.raw.toNat p = true
  · rw [if_pos hs, if_pos hs, if_pos (h hs)]
  · rw [if_neg hs, if_neg hs]

/-- A swap that is not ready is one fault, before any others of its pass (03 R92). -/
theorem startEvents_unready (hs : swapsAt j.raw.toNat p = true) (hr : swapReady m j.raw.toNat p t = false) :
    startEvents m j p t =
      (t, mxBladeNotReady, 4, 0, noWord, 0, j) :: (passEvents (swapBlades m) j p t).filter fun e => e.2.1 != mxBladeNotReady := by
  unfold startEvents
  dsimp only
  rw [if_pos hs, if_neg (by simp [hr])]

/-- An empty slot is a fault of the pass that reads it, beside that of an empty blade (03 R108). -/
theorem passEvents_slotEmpty {ps : Pass} (hp : (passTable (prTable j.raw.toNat))[p]? = some ps)
    (he : slotReady m (prA j.raw.toNat + ps.slot) t = false) :
    ∃ l, (passEvents m j p t).filter (fun e => e.2.1 != mxBladeNotReady) = (t, mxSlotEmpty, 4, 0, noWord, 0, j) :: l := by
  unfold passEvents
  simp only [hp, he, if_true, List.filter_append]
  by_cases ha : (activeNib m ps.nib).isNone = true
  · exact ⟨_, by rw [if_pos ha]; rfl⟩
  · exact ⟨_, by rw [if_neg ha]; rfl⟩

end

section
variable {s : State} {w : SeatIx} {x : Seat} {j : Job} {ps : Pass} {t : Nat} (hx : seatOf s w.val = x)
  (hcur : tfind x.mxa.cur 2 = some j) (hdue : x.mxa.passDue = false)
  (hps : (passTable (prTable j.raw.toNat))[x.mxa.pass]? = some ps) (hat : passAt x j x.mxa.pass = t) (ht : OnTime s w.val t)
include hx hcur hdue hps hat ht

/-- A pass without a fault begins: its blades are swapped where its table says so, it is due, and it counts (03 R92, R110). -/
theorem exec_passStart_begins {m : Mxa} (hm : (if swapsAt j.raw.toNat x.mxa.pass then swapBlades x.mxa else x.mxa) = m)
    (hes : startEvents x.mxa j x.mxa.pass t = []) :
    let d := j.raw.toNat
    exec (.passStart w) s = .next (putSeat s w.val { x with mxa :=
      { m with passDue := true, passSlot := tfind m.slots (prA d + ps.slot), passNib := activeNib m ps.nib,
               passCount := satInc x.mxa.passCount, rowCount := x.mxa.rowCount + BitVec.ofNat 64 (prRows d),
               busyRows := x.mxa.busyRows + prRows d, rowRuns := x.mxa.rowRuns ++ [(t, t + prRows d)] } }) := by
  subst hx hat hm
  obtain ⟨hclk, hr, hs⟩ := ht
  show execPassStart w s = _
  unfold execPassStart
  simp only [hcur, hps, hr, hs, hclk, hdue, hes, and_self, if_true, List.isEmpty_nil]
  split <;> rfl

/-- A pass with faults ends its PRODUCT with them. -/
theorem exec_passStart_fails {e : Ev} {es : List Ev} (hes : startEvents x.mxa j x.mxa.pass t = e :: es) :
    exec (.passStart w) s = .next (raiseEvents (putSeat s w.val (mxStop x 2)) w.val (e :: es)) := by
  subst hx hat
  obtain ⟨hclk, hr, hs⟩ := ht
  show execPassStart w s = _
  unfold execPassStart
  simp [hcur, hps, hr, hs, hclk, hdue, hes]

end

end Sys2Proof.Machine
end

section
open Sys2Proof Sys2Proof.Machine

/-- Settles O5: the unit takes the first job that is for it, and the faults of a start are those of R108 one by one. -/
theorem mxUnitAndPassStart : Obligations.MxUnitAndPassStart := by
  intro s w j x d
  have hx : seatOf s w.val = x := rfl
  constructor
  · intro u a b hcur _ hq ha hj start ht
    have htake : takeUnit u.val x.mxa.queue = some (j, a ++ b) := by rw [hq, takeUnit_first b ha hj]
    refine ⟨fun hm => ?_, fun h1 h0 hsh hrest => ?_⟩
    · obtain ⟨hqu, hcu, hfr⟩ := mxTaken_fields x u.val { j with start := start } (a ++ b)
      refine ⟨_, exec_mxUnitStart_takes hx hcur htake rfl ht (mxStart_faultless hm), rfl, ?_, ?_, ?_⟩ <;>
        simp only [raiseEvents, seatOf_putSeat_self, noteRoom_mxa]
      · exact hqu
      · rw [hcu, tfind_tput_self]
      · rw [hfr, tget_tput_self, mxBusyUntil_eq]
    · exact ⟨_, (exec_mxUnitStart_takes hx hcur htake rfl ht (mxStart_shadowBusy h1 h0 hsh hrest)).trans
        (congrArg _ (raiseEvents_single ..))⟩
  · intro hcur hdue hp p t0 swap m ht
    refine ⟨fun ps hps hr hes => ?_, fun hs hr hl => ?_, fun ps hps hs hr he hl => ?_⟩
    · exact exec_passStart_begins hx hcur hdue hps rfl ht rfl ((startEvents_swapped hr).trans hes)
    · have hes := startEvents_unready hs hr
      rw [hes, List.length_cons, Nat.add_eq_right, List.length_eq_zero_iff] at hl
      rw [hl] at hes
      refine ⟨_, (exec_passStart_fails hx hcur hdue (List.getElem?_eq_getElem hp) rfl ht hes).trans (congrArg _ (raiseEvents_single ..)), ?_⟩
      rw [seatOf_putSeat_self]
      exact ⟨rfl, rfl⟩
    · obtain ⟨l, hf⟩ := passEvents_slotEmpty (m := swapBlades x.mxa) hps he
      have hes := startEvents_unready hs hr
      rw [hf] at hes
      rw [hes] at hl
      obtain rfl : l = [] := List.length_eq_zero_iff.mp (by simpa using hl)
      refine ⟨_, (exec_passStart_fails hx hcur hdue hps rfl ht hes).trans
        (congrArg _ (raiseEvents_pair _ _ _ _ _ _ _ _ _ _ _ _ (by decide))), ?_⟩
      rw [seatOf_putSeat_self]
      exact ⟨rfl, rfl⟩

end

section
/-!
SUPPORT. Loads of the matrix array (03 R93, R98, R99, R103, R104, R108): how a unit's job runs to its effect or its fault, what the tile compares
find, and the tile that DIAG makes.
-/
namespace Sys2Proof.Machine
open Host (Outcome)

/-! ## A unit's job -/

section
variable {op u w : Nat} {s : State} {over_ : Seat → Job → Nat} {ev : Seat → Job → List Ev} {eff : Seat → Job → State} {j : Job}

/-- A unit's job that meets no fault before its end has its effect (03 R104). -/
theorem mxRow_effect (hcur : tfind (seatOf s w).mxa.cur u = some j) (ho : dOp j.raw.toNat = op) (hev : ev (seatOf s w) j = [])
    (ht : OnTime s w (over_ (seatOf s w) j)) : mxRow op u w s over_ ev eff = .next (eff (seatOf s w) j) := by
  obtain ⟨hclk, hr, hs⟩ := ht
  simp [mxRow, hcur, ho, hclk, hev, hr, hs]

/-- A unit's job that meets a fault ends with it (03 R108). -/
theorem mxRow_fault {t code eng b1 wd dd : Nat} (hcur : tfind (seatOf s w).mxa.cur u = some j) (ho : dOp j.raw.toNat = op)
    (hclk : clocked s w = true) (hev : ev (seatOf s w) j = [(t, code, eng, b1, wd, dd, j)]) (hs : stillBefore (seatOf s w) t = true) :
    mxRow op u w s over_ ev eff = .next (jobFault (putSeat s w (mxStop (seatOf s w) u)) w j code eng t b1 wd dd) := by
  simp [mxRow, hcur, ho, hclk, hev, beforeEvents, hs, raiseEvents_single]

end

/-! ## The compares of a tile -/

section
variable {m : Mem} {kind want : Nat} (j : Job) (eng g tagAt crcAt : Nat)

theorem tileChecks_sound (ht : tileTag m kind = want) (hc : tileStored m kind = (tileCrc m kind).toNat) :
    tileChecks m kind want j eng g tagAt crcAt = [] := by
  rw [tileChecks, if_neg (not_not.mpr ht), if_neg (not_not.mpr hc)]

/-- Another tag than the one expected is TAG_MISMATCH, in the core cycle of its compare (05 R166). -/
theorem tileChecks_tag (ht : tileTag m kind ≠ want) (hj : j.torn = false) :
    tileChecks m kind want j eng g tagAt crcAt = [(tagAt, tagMismatch, eng, 0, g, tileTag m kind, j)] := by
  rw [tileChecks, if_pos ht, checkEv, if_neg (by simp [hj])]
  rfl

/-- A stored CRC that does not hold is CRC_MISMATCH, in the core cycle of its compare (05 R166). -/
theorem tileChecks_crc (ht : tileTag m kind = want) (hc : tileStored m kind ≠ (tileCrc m kind).toNat) (hj : j.torn = false) :
    tileChecks m kind want j eng g tagAt crcAt =
      [(crcAt, crcMismatch, eng, 0, g, pack [(0, 32, tileStored m kind), (32, 32, (tileCrc m kind).toNat)], j)] := by
  rw [tileChecks, if_neg (not_not.mpr ht), if_pos hc, checkEv, if_neg (by simp [hj])]
  rfl

end

/-! ## Loads -/

/-- The shadow blade once a BLOAD with field NIB = `n` has filled it with `a`, ready from core cycle `t` (03 R98). -/
def shadowFilled (m : Mxa) (n : Nat) (a : Tile) (t : Nat) : Mxa :=
  let m := if n = 1 then m else { m with sh0 := some a, shAt0 := t }
  if n = 0 then m else { m with sh1 := some a, shAt1 := t }

theorem shadowFilled_shadow (m : Mxa) (n : Nat) (a : Tile) (t : Nat) :
    (shadowFilled m n a t).sh0 = (if n = 1 then m.sh0 else some a) ∧ (shadowFilled m n a t).sh1 = (if n = 0 then m.sh1 else some a) ∧
    (n ≠ 1 → (shadowFilled m n a t).shAt0 = t) ∧ (n ≠ 0 → (shadowFilled m n a t).shAt1 = t) := by
  by_cases h1 : n = 1
  · simp [shadowFilled, h1]
  · by_cases h0 : n = 0
    · simp [shadowFilled, h0]
    · simp [shadowFilled, h0, h1]

theorem shadowFilled_active (m : Mxa) (n : Nat) (a : Tile) (t : Nat) :
    (shadowFilled m n a t).act0 = m.act0 ∧ (shadowFilled m n a t).act1 = m.act1 := by
  by_cases h1 : n = 1
  · simp [shadowFilled, h1]
  · by_cases h0 : n = 0
    · simp [shadowFilled, h0]
    · simp [shadowFilled, h0, h1]

section
variable {s : State} {w : SeatIx} {x : Seat} {j : Job} (hx : seatOf s w.val = x)
include hx

section
variable {g want : Nat} (hg : (blAddr j.raw.toNat j.c).toNat = g)
  (hw : mkTag x.cox.ctx x.cox.gen 1 (blFmt j.raw.toNat) (tileIdx (blTidx j.raw.toNat) j.c (blTstep j.raw.toNat)) = want)
  (hcur : tfind x.mxa.cur 0 = some j) (ho : dOp j.raw.toNat = 1)
include hg hw hcur ho

/-- A BLOAD of the expected tile, with a CRC that holds, fills its nibble and completes (03 R98, R103, R104). -/
theorem exec_bload_sound (ht : tileTag (weightTile x g) 1 = want) (hc : tileStored (weightTile x g) 1 = (tileCrc (weightTile x g) 1).toNat)
    (hot : OnTime s w.val (mxAt x j 33)) :
    exec (.bload w) s = .next (putSeat s w.val
      (mxDone { x with mxa := shadowFilled x.mxa (blNib j.raw.toNat) (asTile (weightTile x g)) (mxAt x j 34) } 0 j (mxAt x j 33))) := by
  subst hx hg hw
  show execBload w s = _
  rw [execBload, mxRow_effect hcur ho]
  · rfl
  · exact tileChecks_sound _ _ _ _ _ ht hc
  · exact hot

theorem exec_bload_tag (ht : tileTag (weightTile x g) 1 ≠ want) (hj : j.torn = false) (hclk : clocked s w.val = true)
    (hs : stillBefore x (mxAt x j 3) = true) : exec (.bload w) s =
      .next (jobFault (putSeat s w.val (mxStop x 0)) w.val j tagMismatch 2 (mxAt x j 3) 0 g (tileTag (weightTile x g) 1)) := by
  subst hx hg hw
  show execBload w s = _
  rw [execBload, mxRow_fault hcur ho hclk]
  · exact tileChecks_tag _ _ _ _ _ ht hj
  · exact hs

theorem exec_bload_crc (ht : tileTag (weightTile x g) 1 = want) (hc : tileStored (weightTile x g) 1 ≠ (tileCrc (weightTile x g) 1).toNat)
    (hj : j.torn = false) (hclk : clocked s w.val = true) (hs : stillBefore x (mxAt x j 33) = true) : exec (.bload w) s =
      .next (jobFault (putSeat s w.val (mxStop x 0)) w.val j crcMismatch 2 (mxAt x j 33) 0 g
        (pack [(0, 32, tileStored (weightTile x g) 1), (32, 32, (tileCrc (weightTile x g) 1).toNat)])) := by
  subst hx hg hw
  show execBload w s = _
  rw [execBload, mxRow_fault hcur ho hclk]
  · exact tileChecks_crc _ _ _ _ _ ht hc hj
  · exact hs

end

/-- An ALOAD of the expected tile, with a CRC that holds and no bank conflict, fills its slot and completes (03 R99, R103, R104). -/
theorem exec_aload_sound {g : Nat} (hg : (alAddr j.raw.toNat j.c).toNat = g) (hcur : tfind x.mxa.cur 1 = some j) (ho : dOp j.raw.toNat = 2)
    (ht : tileTag (coreTile x g 2) 2 =
      mkTag x.cox.ctx 0 2 (alFmt j.raw.toNat) (tileIdx (alTidx j.raw.toNat) j.c (alTstep j.raw.toNat)))
    (hc : tileStored (coreTile x g 2) 2 = (tileCrc (coreTile x g 2) 2).toNat) (hb : bankEvents x j = [])
    (hot : OnTime s w.val (mxAt x j 19)) :
    exec (.aload w) s = .next (putSeat s w.val (addSpans (mxDone { x with mxa := { x.mxa with
      slots := tput x.mxa.slots (alSlot j.raw.toNat) (asTile (coreTile x g 2))
      slotAt := tput x.mxa.slotAt (alSlot j.raw.toNat) (mxAt x j 20) } } 1 j (mxAt x j 19)) j)) := by
  subst hx hg
  show execAload w s = _
  rw [execAload, mxRow_effect hcur ho]
  · dsimp only
    rw [tileChecks_sound _ _ _ _ _ ht hc, hb, List.append_nil]
  · exact hot

/-- A DIAG fills N0 of the shadow and completes (03 R93, R104). -/
theorem exec_diag (hcur : tfind x.mxa.cur 0 = some j) (ho : dOp j.raw.toNat = 3) (hot : OnTime s w.val (mxAt x j 1)) :
    exec (.diag w) s = .next (putSeat s w.val (mxDone { x with mxa := { x.mxa with
      sh0 := some (diagTile (tget {} x.mxa.slots (dgSlot j.raw.toNat)) (dgRow j.raw.toNat)), shAt0 := mxAt x j 2 } } 0 j (mxAt x j 1))) := by
  subst hx
  show execDiag w s = _
  rw [execDiag, mxRow_effect hcur ho]
  · rfl
  · exact hot

end

/-! ## The tile that DIAG makes -/

/-- One step of the payload of `diagTile`: element (`r`, `k`) of the slot stands at (`k`, `k`). -/
def diagPayload (a : Tile) (r : Nat) (m : Mem) (k : Nat) : Mem :=
  mwrite m (32 * k + k / 2) (mread m (32 * k + k / 2) ||| BitVec.ofNat 8 (nibAt a r k <<< (4 * (k % 2))))

/-- One step of the scales of `diagTile`: column `k` has the scale of its element's block, and 2^0 in the other block. -/
def diagScales (a : Tile) (r : Nat) (m : Mem) (k : Nat) : Mem :=
  mwrite (mwrite m (64 * (k / 32) + k) (mread a.scales (2 * r + k / 32))) (64 * (1 - k / 32) + k) 0x7F

theorem diagTile_eq (a : Tile) (r : Nat) : diagTile a r =
    { tag := a.tag, payload := (List.range 64).foldl (diagPayload a r) [], scales := (List.range 64).foldl (diagScales a r) [] } := rfl

/-- Byte `b` of row `k` of a DIAG's payload: the nibble of element (`r`, `k`) of the slot, in the byte of column `k`. -/
theorem mread_diagPayload (a : Tile) (r : Nat) {k b : Nat} (hk : k < 64) (hb : b < 32) : mread (diagTile a r).payload (32 * k + b) =
    if b = k / 2 then BitVec.ofNat 8 (nibAt a r k <<< (4 * (k % 2))) else 0 := by
  suffices h : ∀ n, n ≤ 64 → mread ((List.range n).foldl (diagPayload a r) []) (32 * k + b) =
      if k < n ∧ b = k / 2 then BitVec.ofNat 8 (nibAt a r k <<< (4 * (k % 2))) else 0 by
    rw [diagTile_eq]
    simpa [hk] using h 64 le_rfl
  intro n hn
  induction n with
  | zero => simp [mread]
  | succ n ih =>
    rw [List.range_succ, List.foldl_append, List.foldl_cons, List.foldl_nil]
    by_cases h : 32 * k + b = 32 * n + n / 2
    · obtain rfl : k = n := by omega
      obtain rfl : b = k / 2 := by omega
      rw [diagPayload, mread_mwrite_self, ih (by omega), if_neg (by omega), if_pos (by omega)]
      exact BitVec.zero_or
    · rw [diagPayload, mread_mwrite_ne _ _ h, ih (by omega)]
      by_cases hkn : k = n
      · subst hkn
        rw [if_neg (by omega), if_neg (by omega)]
      · simp only [show k < n + 1 ↔ k < n by omega]

/-- One of a byte's two nibbles, where the byte holds a nibble's value in one of them. -/
theorem fld_nibble {v : Nat} (hv : v < 2 ^ 4) (p : Nat) {q : Nat} (hq : q < 2) :
    fld (BitVec.ofNat 8 (v <<< (4 * p))).toNat (4 * q) 4 = if q = p then v else 0 := by
  rw [fld_toNat_ofNat _ (by omega)]
  refine Nat.eq_of_testBit_eq fun i => ?_
  rw [testBit_fld, Nat.testBit_shiftLeft]
  have hi : ∀ i, 4 ≤ i → v.testBit i = false := fun i h => Nat.testBit_lt_two_pow (lt_of_lt_of_le hv (Nat.pow_le_pow_right (by omega) h))
  by_cases h4 : i < 4
  · rcases lt_trichotomy q p with h | rfl | h
    · simp [h.ne, show ¬ 4 * p ≤ 4 * q + i by omega]
    · simp [h4]
    · rw [if_neg h.ne', hi (4 * q + i - 4 * p) (by omega)]
      simp
  · split <;> simp [h4, hi i (by omega)]

/-- DIAG puts element (`r`, `k`) of the slot at (`k`, `k`) and 0 elsewhere (03 R93). -/
theorem nibAt_diagTile (a : Tile) (r : Nat) {k c : Nat} (hk : k < 64) (hc : c < 64) :
    nibAt (diagTile a r) k c = if k = c then nibAt a r k else 0 := by
  rw [nibAt, mread_diagPayload a r hk (by omega)]
  by_cases h : c / 2 = k / 2
  · rw [if_pos h, fld_nibble (show nibAt a r k < 2 ^ 4 from fld_lt _ _ _) _ (by omega)]
    simp only [show c % 2 = k % 2 ↔ k = c by omega]
  · rw [if_neg h, if_neg (by omega)]
    simp [fld]

/-- Column `c` of DIAG's tile has the slot's scale in the block of its element, and 2^0 in the other (03 R93). -/
theorem mread_diagScales (a : Tile) (r : Nat) {c blk : Nat} (hc : c < 64) (hb : blk < 2) :
    mread (diagTile a r).scales (64 * blk + c) = if blk = c / 32 then mread a.scales (2 * r + blk) else 0x7F := by
  suffices h : ∀ n, n ≤ 64 → c < n → mread ((List.range n).foldl (diagScales a r) []) (64 * blk + c) =
      if blk = c / 32 then mread a.scales (2 * r + blk) else 0x7F from h 64 le_rfl hc
  intro n hn hcn
  induction n with
  | zero => omega
  | succ n ih =>
    rw [List.range_succ, List.foldl_append, List.foldl_cons, List.foldl_nil, diagScales]
    by_cases h : c = n
    · subst h
      split
      next h => rw [mread_mwrite_ne _ _ (by omega), h, mread_mwrite_self]
      next h => rw [show 64 * blk + c = 64 * (1 - c / 32) + c by omega, mread_mwrite_self]
    · rw [mread_mwrite_ne _ _ (by omega), mread_mwrite_ne _ _ (by omega), ih (by omega) (by omega)]

end Sys2Proof.Machine
end

section
/-!
SUPPORT. A DRAIN to core memory (03 R102, R103, 05 R161-R164): its times, the bytes of its half rows, and the tile that it leaves.
-/
namespace Sys2Proof.Machine
open Host (Outcome)

/-! ## Times of a job -/

theorem late_add_le {c n t t' k : Nat} (h : t + k ≤ t') : late c n t + k ≤ late c n t' := by
  unfold late
  split_ifs <;> omega

/-- A forced refresh delays what comes later by no less than what comes before (03 R82). -/
theorem runTime_add_le (c : Cox) (t0 : Nat) {t t' k : Nat} (h : t + k ≤ t') : runTime c t0 t + k ≤ runTime c t0 t' := by
  unfold runTime
  generalize c.gaps = l
  induction l generalizing t t' with
  | nil => exact h
  | cons g l ih =>
    rw [List.foldl_cons, List.foldl_cons]
    split
    · exact ih (late_add_le h)
    · exact ih h

theorem mxAt_add_le (x : Seat) (j : Job) {a b k : Nat} (h : a + k ≤ b) : mxAt x j a + k ≤ mxAt x j b :=
  runTime_add_le _ _ (by omega)

theorem mxAt_mono (x : Seat) (j : Job) {a b : Nat} (h : a ≤ b) : mxAt x j a ≤ mxAt x j b := mxAt_add_le x j (k := 0) h

theorem runsAt_mono {x : Seat} {t t' : Nat} (h : t ≤ t') (hr : runsAt x t' = true) : runsAt x t = true := by
  simp only [runsAt, Bool.or_eq_true, Bool.and_eq_true, decide_eq_true_eq] at hr ⊢
  exact hr.imp_right fun ⟨hh, ht⟩ => ⟨hh, h.trans ht⟩

/-! ## Bytes and words -/

theorem length_mbytes (m : Mem) (a n : Nat) : (mbytes m a n).length = n := by
  induction n generalizing a with
  | zero => rfl
  | succ n ih => rw [mbytes, List.length_cons, ih]

theorem getElem_mbytes (m : Mem) (a n : Nat) {k : Nat} (h : k < (mbytes m a n).length) : (mbytes m a n)[k] = mread m (a + k) := by
  induction n generalizing a k with
  | zero => simp [mbytes] at h
  | succ n ih =>
    cases k with
    | zero => rfl
    | succ k =>
      simp only [mbytes, List.getElem_cons_succ]
      rw [ih, Nat.add_right_comm, Nat.add_assoc]

/-- The bytes of words, four to a word (00 R9). -/
def wordBytes (ws : List Word) : List Byte := ws.flatMap fun v => bytesOf v.toNat 4

theorem length_wordBytes (ws : List Word) : (wordBytes ws).length = 4 * ws.length := by
  induction ws with
  | nil => rfl
  | cons v ws ih =>
    rw [wordBytes, List.flatMap_cons, List.length_append, ← wordBytes, ih, length_bytesOf, List.length_cons]
    omega

theorem mwrites_append (m : Mem) (a : Nat) (bs cs : List Byte) : mwrites m a (bs ++ cs) = mwrites (mwrites m a bs) (a + bs.length) cs := by
  induction bs generalizing m a with
  | nil => rfl
  | cons b bs ih => rw [List.cons_append, mwrites, ih, mwrites, List.length_cons, Nat.add_right_comm, Nat.add_assoc a]

/-- Words stored as their bytes read back. -/
theorem mrd_mwrites_wordBytes (m : Mem) (a : Nat) (ws : List Word) {i : Nat} (h : i < ws.length) :
    mrd (mwrites m a (wordBytes ws)) (a + 4 * i) 4 = (ws[i]).toNat := by
  induction ws generalizing m a i with
  | nil => simp at h
  | cons v ws ih =>
    have hm : mwrites m a (wordBytes (v :: ws)) = mwrites (mwr m a 4 v.toNat) (a + 4) (wordBytes ws) := by
      rw [wordBytes, List.flatMap_cons, mwrites_append, length_bytesOf]
      rfl
    rw [hm]
    cases i with
    | zero =>
      rw [Nat.mul_zero, mrd_congr _ (mwr m a 4 v.toNat) (a + 0) a 4 fun k hk => mread_mwrites_out _ _ _ _ (.inl (by omega)),
        mrd_mwr_self]
      exact Nat.mod_eq_of_lt v.isLt
    | succ i =>
      rw [show a + 4 * (i + 1) = a + 4 + 4 * i by omega, ih]
      rfl

/-! ## The rows of a tile -/

/-- The rows of a full tile at address `a`, stored half row by half row (03 R103). -/
def storeRows (row : Nat → List Word) (a : Nat) (m : Mem) (l : List Nat) : Mem :=
  l.foldl (fun m k => mwrites m (a + 128 * k) (halfRow (row (k / 2)) k)) m

section
variable {row : Nat → List Word} (hrow : ∀ r, (row r).length = 64)
include hrow

theorem length_halfRow (r k : Nat) : (halfRow (row r) k).length = 128 := by
  rw [halfRow, ← wordBytes, length_wordBytes, List.length_take, List.length_drop, hrow]
  omega

/-- Half row `k` lies in its own 128 bytes. -/
theorem mread_halfRow_out (a : Nat) (m : Mem) (k n : Nat) (h : ¬ (a + 128 * k ≤ n ∧ n < a + 128 * k + 128)) :
    mread (mwrites m (a + 128 * k) (halfRow (row (k / 2)) k)) n = mread m n :=
  mread_mwrites_out _ _ _ _ (by rw [length_halfRow hrow]; omega)

theorem mrd_storeRows (a : Nat) (m : Mem) {r c : Nat} (hr : r < 64) (hc : c < 64) :
    mrd (storeRows row a m (List.range 128)) (a + 256 * r + 4 * c) 4 = ((row r).getD c 0).toNat := by
  have hk : (2 * r + c / 32) / 2 = r ∧ (2 * r + c / 32) % 2 = c / 32 := by omega
  obtain ⟨u, -, hf⟩ := foldl_owned mread _ (fun k n => a + 128 * k ≤ n ∧ n < a + 128 * k + 128) (mread_halfRow_out hrow a)
    (fun _ _ _ _ _ => by omega) List.nodup_range m (List.mem_range.mpr (show 2 * r + c / 32 < 128 by omega))
  have hlen : c % 32 < ((row r).drop (32 * (c / 32)) |>.take 32).length := by
    rw [List.length_take, List.length_drop, hrow]
    omega
  rw [storeRows, mrd_congr _ _ _ _ 4 fun i hi => hf _ (by omega), halfRow, hk.1, hk.2, ← wordBytes,
    show a + 256 * r + 4 * c = a + 128 * (2 * r + c / 32) + 4 * (c % 32) by omega, mrd_mwrites_wordBytes _ _ _ hlen,
    List.getElem_take, List.getElem_drop, List.getD_eq_getElem?_getD, List.getElem?_eq_getElem (by rw [hrow]; exact hc), Option.getD_some]
  simp only [show 32 * (c / 32) + c % 32 = c by omega]

theorem mread_storeRows_out (a : Nat) (m : Mem) {n : Nat} (h : n < a ∨ a + 16384 ≤ n) :
    mread (storeRows row a m (List.range 128)) n = mread m n :=
  foldl_keeps_unowned mread _ (fun k n => a + 128 * k ≤ n ∧ n < a + 128 * k + 128) (mread_halfRow_out hrow a) _ _ fun k hk => by
    have := List.mem_range.mp hk
    omega

end

theorem length_rowAt (m : Mxa) (bank row t : Nat) : (rowAt m bank row t).length = 64 := by
  unfold rowAt
  split <;> simp [accRow]

/-! ## The tile of a DRAIN -/

/-- The row that a DRAIN reads for row `r` of its tile (03 R103, R109). -/
def drainedRow (x : Seat) (j : Job) (r : Nat) : List Word := rowAt x.mxa (drBank j.raw.toNat) r (mxAt x j (2 * r))

/-- The tag of the tile that a DRAIN makes (05 R163). -/
def drainTag (x : Seat) (j : Job) : Nat :=
  let d := j.raw.toNat
  mkTag x.cox.ctx 0 3 (if drI32 d then fmtI32 else fmtFp32) (tileIdx (drTidx d) j.c (drTstep d))

/-- Core memory after a DRAIN to granule `g`: the rows, then the trailer (03 R103). -/
def drainedCore (x : Seat) (j : Job) (g : Nat) : Mem :=
  let m := storeRows (drainedRow x j) (64 * g) x.core (List.range 128)
  mwrites m (64 * g + 0x4000) (mbytes (sealTile (mslice m (64 * g) 0x4000) 3 (drainTag x j) 0 0 x.cox.epoch.toNat) 0x4000 32)

theorem mread_drainedCore (x : Seat) (j : Job) (g : Nat) {a : Nat} (h : a < 0x4000 ∨ 16416 ≤ a) : mread (drainedCore x j g) (64 * g + a) =
    mread (storeRows (drainedRow x j) (64 * g) x.core (List.range 128)) (64 * g + a) :=
  mread_mwrites_out _ _ _ _ (by rw [length_mbytes]; omega)

/-- A DRAIN's rows lie in its tile. -/
theorem mrd_drainedCore (x : Seat) (j : Job) (g : Nat) {r c : Nat} (hr : r < 64) (hc : c < 64) :
    mrd (drainedCore x j g) (64 * g + 256 * r + 4 * c) 4 = ((drainedRow x j r).getD c 0).toNat := by
  rw [← mrd_storeRows (row := drainedRow x j) (fun _ => length_rowAt ..) (64 * g) x.core hr hc]
  refine mrd_congr _ _ _ _ 4 fun i hi => ?_
  rw [show 64 * g + 256 * r + 4 * c + i = 64 * g + (256 * r + 4 * c + i) by omega]
  exact mread_drainedCore x j g (.inl (by omega))

theorem mread_drainedCore_out (x : Seat) (j : Job) (g : Nat) {a : Nat} (h : a < 64 * g ∨ 64 * g + 16416 ≤ a) :
    mread (drainedCore x j g) a = mread x.core a :=
  (mread_mwrites_out _ _ _ _ (by rw [length_mbytes]; omega)).trans
    (mread_storeRows_out (fun _ => length_rowAt ..) _ _ (by omega))

/-- A TAG fits its eight bytes (05 R163). -/
theorem mkTag_lt (ctx gen kind fmt tidx : Nat) : mkTag ctx gen kind fmt tidx < 2 ^ 64 := pack_lt (by simp)

/-- The tile that a DRAIN leaves is sealed: it has its tag, and its CRC holds (05 R163, R164). -/
theorem drainedCore_sealed {x y : Seat} {j : Job} {g : Nat} (h : y.core = drainedCore x j g) :
    tileTag (coreTile y g 3) 3 = drainTag x j ∧ tileStored (coreTile y g 3) 3 = (tileCrc (coreTile y g 3) 3).toNat := by
  have hs := coreTile_sealed y g 3 (mslice (storeRows (drainedRow x j) (64 * g) x.core (List.range 128)) (64 * g) 0x4000)
    (drainTag x j) 0 0 x.cox.epoch.toNat fun a ha => by
      have ha : a < 16416 := ha
      rw [h]
      by_cases hp : a < 0x4000
      · rw [mread_drainedCore x j g (.inl hp), sealTile_out _ _ _ _ _ _ _ (.inl hp), mread_mslice _ _ _ _ hp]
      · obtain ⟨i, rfl⟩ := Nat.exists_eq_add_of_le (Nat.le_of_not_lt hp)
        rw [drainedCore, ← Nat.add_assoc, mread_mwrites_in _ _ _ _ (by rw [length_mbytes]; omega), getElem_mbytes]
  rwa [Nat.mod_eq_of_lt (show drainTag x j < 2 ^ 64 from mkTag_lt ..)] at hs

/-! ## The step -/

/-- One write cycle of a DRAIN to core memory, of those up to core cycle `stop` (03 R83, R103). -/
def drainHalf (j : Job) (stop : Nat) (x : Seat) (k : Nat) : Seat :=
  if mxAt x j (6 + k) ≤ stop then
    coreWrite x (64 * (drAt j.raw.toNat j.c).toNat + 128 * k)
      (halfRow (rowAt x.mxa (drBank j.raw.toNat) (k / 2) (mxAt x j (2 * (k / 2)))) k)
  else x

/-- The seat with core memory `m` and the running jobs `c` of the array and `v` of the vector engine: what writes to core memory change
(07 R249). -/
def withCore (x : Seat) (m : Mem) (c : Tbl Job) (v : Option Job) : Seat :=
  { x with core := m, mxa := { x.mxa with cur := c }, vec := { x.vec with cur := v } }

theorem drainHalf_writes {x : Seat} {j : Job} {stop k : Nat} (h : mxAt x j (6 + k) ≤ stop) (m : Mem) (c : Tbl Job) (v : Option Job) :
    ∃ c' v', drainHalf j stop (withCore x m c v) k =
      withCore x (mwrites m (64 * (drAt j.raw.toNat j.c).toNat + 128 * k) (halfRow (drainedRow x j (k / 2)) k)) c' v' :=
  ⟨_, _, if_pos h⟩

/-- The write cycles up to `stop` write core memory, and mark the readers of what they write. -/
theorem drainHalf_foldl {x : Seat} {j : Job} {stop : Nat} (l : List Nat) (h : ∀ k ∈ l, mxAt x j (6 + k) ≤ stop) (m : Mem) (c : Tbl Job)
    (v : Option Job) : ∃ c' v', l.foldl (drainHalf j stop) (withCore x m c v) =
      withCore x (storeRows (drainedRow x j) (64 * (drAt j.raw.toNat j.c).toNat) m l) c' v' := by
  induction l generalizing m c v with
  | nil => exact ⟨_, _, rfl⟩
  | cons k l ih =>
    obtain ⟨c', v', he⟩ := drainHalf_writes (h k List.mem_cons_self) m c v
    rw [List.foldl_cons, he]
    exact ih (fun i hi => h i (List.mem_cons_of_mem _ hi)) _ c' v'

/-- The write of the trailer of a DRAIN's tile, once its rows are in the core memory of `y` (05 R162). -/
def drainTrailer (x : Seat) (j : Job) (y : Seat) : Seat :=
  let g := (drAt j.raw.toNat j.c).toNat
  coreWrite y (64 * g + 0x4000) (mbytes (sealTile (mslice y.core (64 * g) 0x4000) 3 (drainTag x j) 0 0 x.cox.epoch.toNat) 0x4000 32)

theorem drainTrailer_withCore (x : Seat) (j : Job) (c : Tbl Job) (v : Option Job) :
    ∃ c' v', drainTrailer x j (withCore x (storeRows (drainedRow x j) (64 * (drAt j.raw.toNat j.c).toNat) x.core (List.range 128)) c v) =
      withCore x (drainedCore x j (drAt j.raw.toNat j.c).toNat) c' v' := ⟨_, _, rfl⟩

theorem exec_drain_core_eq {s : State} {w : SeatIx} {x : Seat} {j : Job} (hx : seatOf s w.val = x) (hcur : tfind x.mxa.cur 3 = some j)
    (hc : drCore j.raw.toNat = true) (hot : OnTime s w.val (mxAt x j 134)) (hb : bankEvents x j = []) :
    exec (.drain w) s = .next (putSeat s w.val (addSpans
      (mxDone (drainTrailer x j ((List.range 128).foldl (drainHalf j (mxAt x j 134)) x)) 3 j (mxAt x j 134)) j)) := by
  subst hx
  obtain ⟨hclk, hr, hs⟩ := hot
  show execDrain w s = _
  simp only [execDrain, hcur, hc, if_true, hclk, hr, hs, hb, Bool.true_eq_false, or_self, if_false, List.isEmpty_nil, and_self]
  rfl

/-- A DRAIN to core memory leaves the tile there, and completes (03 R103, R104). -/
theorem exec_drain_core {s : State} {w : SeatIx} {x : Seat} {j : Job} (hx : seatOf s w.val = x) (hcur : tfind x.mxa.cur 3 = some j)
    (hc : drCore j.raw.toNat = true) (hot : OnTime s w.val (mxAt x j 134)) (hb : bankEvents x j = []) :
    ∃ y, exec (.drain w) s = .next (putSeat s w.val y) ∧ y.core = drainedCore x j (drAt j.raw.toNat j.c).toNat ∧
      y.cox.fin = x.cox.fin ++ [{ j with doneAt := mxAt x j 134 }] ∧ y.store = x.store ∧ y.desc = x.desc := by
  obtain ⟨c, v, hf⟩ := drainHalf_foldl (x := x) (j := j) (stop := mxAt x j 134) (List.range 128)
    (fun k hk => mxAt_mono _ _ (by have := List.mem_range.mp hk; omega)) x.core x.mxa.cur x.vec.cur
  obtain ⟨c', v', ht⟩ := drainTrailer_withCore x j c v
  rw [show withCore x x.core x.mxa.cur x.vec.cur = x from rfl] at hf
  exact ⟨addSpans (mxDone (withCore x (drainedCore x j (drAt j.raw.toNat j.c).toNat) c' v') 3 j (mxAt x j 134)) j,
    by rw [exec_drain_core_eq hx hcur hc hot hb, hf, ht], rfl, rfl, rfl, rfl⟩

end Sys2Proof.Machine
end

section
/-!
SUPPORT. A DRAIN to the operand cache (03 R102, R103, 04 R114): the writes that it adds, and what a later vector cycle reads of them.
-/
namespace Sys2Proof.Machine
open Host (Outcome)

/-! ## Writes of whole entries -/

theorem mem_pendAdd {e p : Nat × Nat × List (Option Word)} {l : List (Nat × Nat × List (Option Word))} :
    p ∈ pendAdd e l ↔ p = e ∨ p ∈ l := by
  induction l with
  | nil => simp [pendAdd]
  | cons f l ih =>
    rw [pendAdd]
    split
    · rw [List.mem_cons]
    · rw [List.mem_cons, ih, List.mem_cons]
      tauto

/-- One lane of a write to entry `e`. -/
def putLane (e : Nat) (t : Tbl Word) (p : Option Word × Nat) : Tbl Word := match p.1 with
  | some x => tset 0 t (e * 32 + p.2) x
  | none => t

theorem opcLanes_eq (t : Tbl Word) (e : Nat) (ls : List (Option Word)) : opcLanes t e ls = ls.zipIdx.foldl (putLane e) t := rfl

theorem putLanes_ne {e k : Nat} (l : List (Option Word × Nat)) (h : ∀ p ∈ l, e * 32 + p.2 ≠ k) (t : Tbl Word) :
    tget 0 (l.foldl (putLane e) t) k = tget 0 t k := by
  induction l generalizing t with
  | nil => rfl
  | cons p l ih =>
    rw [List.foldl_cons, ih fun q hq => h q (List.mem_cons_of_mem _ hq)]
    unfold putLane
    split
    · exact tget_tset_ne _ _ _ (h p List.mem_cons_self).symm
    · rfl

theorem putLanes_self (e : Nat) (ws : List Word) {n l : Nat} (h : l < ws.length) (t : Tbl Word) :
    tget 0 (((ws.map some).zipIdx n).foldl (putLane e) t) (e * 32 + (n + l)) = ws[l] := by
  induction ws generalizing n l t with
  | nil => simp at h
  | cons x ws ih =>
    rw [List.map_cons, List.zipIdx_cons, List.foldl_cons]
    cases l with
    | zero =>
      rw [putLanes_ne _ fun p hp => by have := List.le_snd_of_mem_zipIdx hp; omega]
      exact tget_tset_self ..
    | succ l =>
      rw [show n + (l + 1) = n + 1 + l by omega, ih (Nat.lt_of_succ_lt_succ h), List.getElem_cons_succ]

/-- A write to an entry puts each word in its lane. -/
theorem opcLanes_self (t : Tbl Word) (e : Nat) {ws : List Word} {l : Nat} (h : l < ws.length) :
    tget 0 (opcLanes t e (ws.map some)) (e * 32 + l) = ws[l] := by
  rw [opcLanes_eq, ← putLanes_self e ws (n := 0) h t, Nat.zero_add]

/-- A write to an entry of no more than 32 lanes leaves every other entry. -/
theorem opcLanes_ne (t : Tbl Word) {e k : Nat} {ls : List (Option Word)} (hl : ls.length ≤ 32) (h : k / 32 ≠ e) :
    tget 0 (opcLanes t e ls) k = tget 0 t k := by
  rw [opcLanes_eq, putLanes_ne _ fun p hp => by have := List.snd_lt_of_mem_zipIdx hp; omega]

/-- The operand cache once every pending write has taken effect. -/
theorem opcSettle_all {o : Vec} {v : Nat} (h : ∀ p ∈ o.pend, p.1 < v) :
    (opcSettle o v).opc = o.pend.foldl (fun t e => opcLanes t e.2.1 e.2.2) o.opc := by
  simp only [opcSettle]
  generalize o.pend = l at h
  generalize o.opc = t
  generalize [] = q
  induction l generalizing t with
  | nil => rfl
  | cons p l ih =>
    rw [List.foldl_cons, List.foldl_cons, if_pos (h p List.mem_cons_self)]
    exact ih (fun q hq => h q (List.mem_cons_of_mem _ hq)) _

/-- Where all writes of an entry write the same 32 words, the entry holds them after one of them. -/
theorem opcLanes_foldl {ws : Nat → List Word} (hlen : ∀ e, (ws e).length = 32) {e l : Nat} (hl : l < 32)
    (ps : List (Nat × Nat × List (Option Word))) (hp : ∀ p ∈ ps, p.2.2 = (ws p.2.1).map some) (t : Tbl Word)
    (h : (∃ p ∈ ps, p.2.1 = e) ∨ tget 0 t (e * 32 + l) = (ws e).getD l 0) :
    tget 0 (ps.foldl (fun t p => opcLanes t p.2.1 p.2.2) t) (e * 32 + l) = (ws e).getD l 0 := by
  induction ps generalizing t with
  | nil => simpa using h
  | cons p ps ih =>
    rw [List.foldl_cons]
    refine ih (fun q hq => hp q (List.mem_cons_of_mem _ hq)) _ ?_
    rw [hp p List.mem_cons_self]
    by_cases hpe : p.2.1 = e
    · right
      rw [hpe, opcLanes_self _ _ (by rw [hlen]; exact hl), List.getD_eq_getElem?_getD, List.getElem?_eq_getElem (by rw [hlen]; exact hl)]
      rfl
    · rw [opcLanes_ne _ (by rw [List.length_map, hlen]) (by omega)]
      refine h.imp_left fun ⟨q, hq, he⟩ => ⟨q, ?_, he⟩
      exact (List.mem_cons.mp hq).resolve_left fun hqp => hpe (hqp ▸ he)

/-- Where all pending writes of an entry write the same 32 words, and all have taken effect, the entry reads as those. -/
theorem entryOf_settled {o : Vec} {v e : Nat} {ws : Nat → List Word} (hlen : ∀ e, (ws e).length = 32)
    (hp : ∀ p ∈ o.pend, p.1 < v ∧ p.2.2 = (ws p.2.1).map some) (he : ∃ p ∈ o.pend, p.2.1 = e) :
    entryOf (opcSettle o v) e = (List.range 32).map fun l => (ws e).getD l 0 :=
  List.map_congr_left fun l hl => by
    rw [opcSettle_all fun p h => (hp p h).1]
    exact opcLanes_foldl hlen (List.mem_range.mp hl) _ (fun p h => (hp p h).2) _ (.inl he)

/-! ## The rows of a DRAIN -/

/-- Half `h` of a row, as the words of an entry. -/
def halfOfRow (ws : List Word) (h : Nat) : List Word := (ws.drop (32 * h)).take 32

theorem length_halfOfRow {ws : List Word} (h : ws.length = 64) (k : Nat) : (halfOfRow ws (k % 2)).length = 32 := by
  rw [halfOfRow, List.length_take, List.length_drop, h]
  omega

theorem getD_halfOfRow (ws : List Word) (h : Nat) {l : Nat} (hl : l < 32) : (halfOfRow ws h).getD l 0 = ws.getD (32 * h + l) 0 := by
  simp [halfOfRow, List.getD_eq_getElem?_getD, List.getElem?_drop, hl]

theorem opcWrite_adds (o : Vec) (e : Nat × Nat × List (Option Word)) : ∃ p u, opcWrite o e = { o with pend := p, written := u } ∧
    ∀ q, q ∈ p ↔ q ∈ o.pend ∨ q = e :=
  ⟨_, _, rfl, fun _ => mem_pendAdd.trans or_comm⟩

theorem drainRow_eq {o : Vec} (hw : o.w0 = []) (ws : List Word) (e v : Nat) : drainRow ws e v o =
    opcWrite (opcWrite o (v, e + 0, (halfOfRow ws 0).map some)) (v, e + 1, (halfOfRow ws 1).map some) := by
  simp [drainRow, hw, List.range_succ, opcWrite, halfOfRow]

/-- A row is two writes through W1, where W0 writes nothing (04 R114). -/
theorem drainRow_adds {o : Vec} (hw : o.w0 = []) (ws : List Word) (e v : Nat) : ∃ p u, drainRow ws e v o = { o with pend := p, written := u } ∧
    ∀ q, q ∈ p ↔ q ∈ o.pend ∨ ∃ h, h < 2 ∧ q = (v, e + h, (halfOfRow ws h).map some) := by
  obtain ⟨p, u, h, hp⟩ := opcWrite_adds o (v, e + 0, (halfOfRow ws 0).map some)
  obtain ⟨p', u', h', hp'⟩ := opcWrite_adds { o with pend := p, written := u } (v, e + 1, (halfOfRow ws 1).map some)
  refine ⟨p', u', by rw [drainRow_eq hw, h, h'], fun q => ?_⟩
  rw [hp', hp, or_assoc, Nat.exists_lt_succ_right, Nat.exists_lt_succ_right]
  simp

theorem drainRows_add {o : Vec} (hw : o.w0 = []) (ws : Nat → List Word) (e v : Nat → Nat) (l : List Nat) :
    ∃ p u, l.foldl (fun o i => drainRow (ws i) (e i) (v i) o) o = { o with pend := p, written := u } ∧
      ∀ q, q ∈ p ↔ q ∈ o.pend ∨ ∃ i ∈ l, ∃ h, h < 2 ∧ q = (v i, e i + h, (halfOfRow (ws i) h).map some) := by
  induction l generalizing o with
  | nil => exact ⟨_, _, rfl, fun q => by simp⟩
  | cons i l ih =>
    obtain ⟨p, u, h, hp⟩ := drainRow_adds hw (ws i) (e i) (v i)
    obtain ⟨p', u', h', hp'⟩ := ih (o := { o with pend := p, written := u }) hw
    refine ⟨p', u', by rw [List.foldl_cons, h, h'], fun q => ?_⟩
    rw [hp', hp, List.exists_mem_cons_iff, or_assoc]

/-! ## The step -/

/-- Row `i` of a DRAIN to the operand cache, as its read cycle sees it (03 R103, R109). -/
def drainedStrip (x : Seat) (j : Job) (i : Nat) : List Word :=
  rowAt x.mxa (drBank j.raw.toNat) (drRow0 j.raw.toNat + i) (mxAt x j (2 * i))

/-- The vector engine after a DRAIN to the operand cache whose rows have all been written (03 R103). -/
def drainedVec (x : Seat) (j : Job) : Vec :=
  let d := j.raw.toNat
  let e := (drAt d j.c).toNat
  let o := (List.range (drRows d)).foldl (fun o i => drainRow (drainedStrip x j i) (e + 2 * i) (mxAt x j (6 + 2 * i) / 2) o) x.vec
  { o with w1 := o.w1 ++ cutRuns x j.start [{ v := (j.start + 6) / 2, e := e, n := 2 * (List.range (drRows d)).length, per := 2 }] }

/-- It adds two writes for each row to those that were pending. -/
theorem mem_drainedVec_pend {x : Seat} (j : Job) (hw : x.vec.w0 = []) (q : Nat × Nat × List (Option Word)) : q ∈ (drainedVec x j).pend ↔
    q ∈ x.vec.pend ∨ ∃ i ∈ List.range (drRows j.raw.toNat), ∃ h, h < 2 ∧
      q = (mxAt x j (6 + 2 * i) / 2, (drAt j.raw.toNat j.c).toNat + 2 * i + h, (halfOfRow (drainedStrip x j i) h).map some) := by
  obtain ⟨p, u, h, hp⟩ := drainRows_add hw (drainedStrip x j) (fun i => (drAt j.raw.toNat j.c).toNat + 2 * i)
    (fun i => mxAt x j (6 + 2 * i) / 2) (List.range (drRows j.raw.toNat))
  rw [drainedVec, h]
  exact hp q

/-- A DRAIN to the operand cache that ends before any halt writes every row, and completes (03 R103, R104). -/
theorem exec_drain_opc {s : State} {w : SeatIx} {x : Seat} {j : Job} (hx : seatOf s w.val = x) (hcur : tfind x.mxa.cur 3 = some j)
    (hc : drCore j.raw.toNat = false) (hot : OnTime s w.val (mxAt x j (4 + 2 * drRows j.raw.toNat))) :
    exec (.drain w) s =
      .next (putSeat s w.val (mxDone { x with vec := drainedVec x j } 3 j (mxAt x j (4 + 2 * drRows j.raw.toNat)))) := by
  subst hx
  obtain ⟨hclk, hr, hs⟩ := hot
  have hrows : (List.range (drRows j.raw.toNat)).filter (fun i => runsAt (seatOf s w.val) (mxAt (seatOf s w.val) j (6 + 2 * i))) =
      List.range (drRows j.raw.toNat) :=
    List.filter_eq_self.mpr fun i hi => runsAt_mono (mxAt_mono _ _ (by have := List.mem_range.mp hi; omega)) hr
  show execDrain w s = _
  simp only [execDrain, hcur, hc, hclk, hr, hs, hrows, if_true, Bool.true_eq_false, Bool.false_eq_true, or_self, if_false]
  rfl

/-- From the vector cycle after its last write on, the entries of a DRAIN read as the halves of its rows (04 R114). -/
theorem entryOf_drainedVec {x : Seat} {j : Job} {v i h : Nat} (hw : x.vec.w0 = []) (hpend : x.vec.pend = [])
    (hv : mxAt x j (6 + 2 * drRows j.raw.toNat) ≤ 2 * v) (hi : i < drRows j.raw.toNat) (hh : h < 2) :
    entryOf (opcSettle (drainedVec x j) v) ((drAt j.raw.toNat j.c).toNat + 2 * i + h) =
      (List.range 32).map fun l => (drainedStrip x j i).getD (32 * h + l) 0 := by
  have hp := mem_drainedVec_pend j hw
  simp only [hpend, List.not_mem_nil, false_or] at hp
  generalize (drAt j.raw.toNat j.c).toNat = e at hp ⊢
  have hat : ∀ {i h}, h < 2 → (e + 2 * i + h - e) / 2 = i ∧ (e + 2 * i + h - e) % 2 = h := by omega
  rw [entryOf_settled (ws := fun n => halfOfRow (drainedStrip x j ((n - e) / 2)) ((n - e) % 2))
    (fun _ => length_halfOfRow (length_rowAt ..) _) (fun q hq => ?_) ⟨_, (hp _).mpr ⟨i, List.mem_range.mpr hi, h, hh, rfl⟩, rfl⟩]
  · refine List.map_congr_left fun l hl => ?_
    rw [(hat hh).1, (hat hh).2, getD_halfOfRow _ _ (List.mem_range.mp hl)]
  · obtain ⟨i, hi, h, hh, rfl⟩ := (hp q).mp hq
    have := mxAt_add_le x j (a := 6 + 2 * i) (k := 2) (b := 6 + 2 * drRows j.raw.toNat) (by have := List.mem_range.mp hi; omega)
    exact ⟨by dsimp only; omega, by rw [(hat hh).1, (hat hh).2]⟩

end Sys2Proof.Machine
end

section
open Sys2Proof Sys2Proof.Machine

/-- Settles O6: a load runs to the effect or the fault that its compares find; the half rows and the trailer of a tile lie each in bytes of their
own, and the writes of a DRAIN to the operand cache each in lanes of their own. -/
theorem mxLoadsAndDrains : Obligations.MxLoadsAndDrains := by
  refine ⟨fun s w j => ?_, fun s w j => ?_⟩ <;> intro x d
  · have hx : seatOf s w.val = x := rfl
    refine ⟨fun hcur ho => ?_, fun hcur ho => ?_, fun hcur ho ht => ?_⟩
    · intro g tile tag
      refine ⟨fun htag hcrc ht => ?_, fun htag hj hclk hs => ?_, fun htag hcrc hj hclk hs => ?_⟩
      · obtain ⟨h0, h1, ht0, ht1⟩ := shadowFilled_shadow x.mxa (blNib d) (asTile tile) (mxAt x j 34)
        obtain ⟨ha0, ha1⟩ := shadowFilled_active x.mxa (blNib d) (asTile tile) (mxAt x j 34)
        refine ⟨_, exec_bload_sound hx rfl rfl hcur ho htag hcrc ht, ?_⟩
        rw [seatOf_putSeat_self]
        exact ⟨rfl, h0, h1, ht0, ht1, rfl, ha0, ha1, rfl⟩
      · refine ⟨_, exec_bload_tag hx rfl rfl hcur ho htag hj hclk hs, ?_⟩
        rw [seatOf_putSeat_self]
        exact ⟨rfl, rfl⟩
      · refine ⟨_, exec_bload_crc hx rfl rfl hcur ho htag hcrc hj hclk hs, ?_⟩
        rw [seatOf_putSeat_self]
        exact ⟨rfl, rfl⟩
    · intro g tile htag hcrc hb ht
      refine ⟨_, exec_aload_sound hx rfl hcur ho htag hcrc hb ht, ?_⟩
      rw [seatOf_putSeat_self]
      exact ⟨rfl, tfind_tput_self .., fun k hk => tfind_tput_ne _ _ hk, tget_tput_self .., rfl, rfl⟩
    · intro a
      refine ⟨_, diagTile a (dgRow d), exec_diag hx hcur ho ht, ?_⟩
      rw [seatOf_putSeat_self]
      exact ⟨rfl, rfl, rfl, rfl, fun k c hk hc => nibAt_diagTile _ _ hk hc, fun c blk hc hb => mread_diagScales _ _ hc hb, rfl⟩
  · have hx : seatOf s w.val = x := rfl
    intro hcur
    refine ⟨fun hc ht hb => ?_, fun hc ht hp hw => ?_⟩
    · intro g
      obtain ⟨y, hex, hcore, hfin, hstore, hdesc⟩ := exec_drain_core hx hcur hc ht hb
      obtain ⟨htag, hcrc⟩ := drainedCore_sealed hcore
      refine ⟨_, hex, rfl, ?_⟩
      rw [seatOf_putSeat_self, hcore]
      exact ⟨fun r c hr hc => mrd_drainedCore x j g hr hc, htag, hcrc, fun a ha => mread_drainedCore_out x j g ha, hfin, hstore, hdesc⟩
    · intro e
      refine ⟨_, exec_drain_opc hx hcur hc ht, rfl, ?_⟩
      rw [seatOf_putSeat_self]
      exact ⟨fun v i h hv hi hh => entryOf_drainedVec hw hp hv hi hh, rfl, rfl, rfl, rfl⟩

end

section
/-!
SUPPORT. A job of the vector engine (04 R111, R115, R125): its times, its row, and the reads that it makes.
-/
namespace Sys2Proof.Machine

/-! ## Times of a job -/

theorem veCoreAt_add_le (x : Seat) (j : Job) {a b k : Nat} (h : a + k ≤ b) : veCoreAt x j a + k ≤ veCoreAt x j b :=
  runTime_add_le _ _ (by omega)

theorem veCoreAt_mono (x : Seat) (j : Job) {a b : Nat} (h : a ≤ b) : veCoreAt x j a ≤ veCoreAt x j b := veCoreAt_add_le x j (k := 0) h

theorem veAt_lt (x : Seat) (j : Job) {a b : Nat} (h : a < b) : veAt x j a < veAt x j b := by
  have := veCoreAt_add_le x j (a := 2 * a) (k := 2) (b := 2 * b) (by omega)
  unfold veAt
  omega

theorem two_mul_veAt_le (x : Seat) (j : Job) (a : Nat) : 2 * veAt x j a ≤ veCoreAt x j (2 * a) := Nat.mul_div_le _ _

section
variable {x : Seat} {j : Job} (hr : runsAt x (veOver x j) = true)
include hr

/-- What lies no later than the end of a job that goes on to its end takes place. -/
theorem runsAt_of_le_veOver {t : Nat} (h : t ≤ veOver x j) : runsAt x t = true := runsAt_mono h hr

/-- A job that goes on to its end makes every read of a stream (04 R115). -/
theorem readsMade_all {k n : Nat} (hn : k + n ≤ veDone j.raw.toNat + 1) : readsMade x j k n = n := by
  have h : (List.range n).filter (fun i => runsAt x (2 * veAt x j (k + i))) = List.range n := by
    refine List.filter_eq_self.mpr fun i hi => runsAt_of_le_veOver hr ?_
    have hi := List.mem_range.mp hi
    exact (two_mul_veAt_le x j _).trans (veCoreAt_mono x j (by omega))
  rw [readsMade, h, List.length_range]

end

/-! ## The row of a job -/

section
variable {s : State} {w op : Nat} {j : Job} (h : VeRuns s w j op)
include h

/-- A job that goes on to its end runs in the row of its opcode. -/
theorem veRow_runs (f : Seat → Job → State) : veRow op w s f = .next (f (seatOf s w) j) := by
  obtain ⟨hcur, ho, ⟨hclk, -, hs⟩, -⟩ := h
  simp [veRow, hcur, ho, hclk, hs]

theorem VeRuns.opcode : dOp j.raw.toNat = op := h.2.1
theorem VeRuns.live : veLive (seatOf s w) j = true := h.2.2.1.2.1

end

end Sys2Proof.Machine
end

section
/-!
SUPPORT. The operand cache entry by entry (04 R112-R114): what an entry holds after writes of which each has an entry of its own, while some are
still to take effect and once all have.
-/
namespace Sys2Proof.Machine

/-- What a write leaves in lane `l` that held `c`. -/
def laneWritten (p : W0) (l : Nat) (c : Word) : Word := (p.2.2.getD l none).getD c

theorem laneWritten_idem (p : W0) (l : Nat) (c : Word) : laneWritten p l (laneWritten p l c) = laneWritten p l c := by
  unfold laneWritten
  cases p.2.2.getD l none <;> rfl

theorem putLanes_lane (e : Nat) (ls : List (Option Word)) (n l : Nat) (t : Tbl Word) :
    tget 0 ((ls.zipIdx n).foldl (putLane e) t) (e * 32 + (n + l)) = (ls.getD l none).getD (tget 0 t (e * 32 + (n + l))) := by
  induction ls generalizing n l t with
  | nil => rfl
  | cons a ls ih =>
    rw [List.zipIdx_cons, List.foldl_cons]
    cases l with
    | zero =>
      rw [putLanes_ne _ fun p hp => by have := List.le_snd_of_mem_zipIdx hp; omega]
      cases a with
      | none => rfl
      | some a => exact tget_tset_self ..
    | succ l =>
      rw [show n + (l + 1) = n + 1 + l by omega, ih, List.getD_cons_succ]
      congr 1
      exact putLanes_ne [(a, n)] (by simp; omega) t

/-- A write puts its words in their lanes and keeps the lanes for which it has none (04 R113). -/
theorem opcLanes_lane (t : Tbl Word) (p : W0) (l : Nat) :
    tget 0 (opcLanes t p.2.1 p.2.2) (p.2.1 * 32 + l) = laneWritten p l (tget 0 t (p.2.1 * 32 + l)) := by
  have h := putLanes_lane p.2.1 p.2.2 0 l t
  rwa [Nat.zero_add] at h

/-- Writes of which only `p` is to its entry leave there what `p` writes, if it is among them. -/
theorem opcLanes_foldl_lane {p : W0} {l : Nat} (hl : l < 32) (ps : List W0) (hlen : ∀ q ∈ ps, q.2.2.length ≤ 32)
    (hp : ∀ q ∈ ps, q.2.1 = p.2.1 → q = p) (t : Tbl Word) :
    tget 0 (ps.foldl (fun t q => opcLanes t q.2.1 q.2.2) t) (p.2.1 * 32 + l) =
      if p ∈ ps then laneWritten p l (tget 0 t (p.2.1 * 32 + l)) else tget 0 t (p.2.1 * 32 + l) := by
  induction ps generalizing t with
  | nil => rfl
  | cons q ps ih =>
    rw [List.foldl_cons, ih (fun r hr => hlen r (List.mem_cons_of_mem _ hr)) fun r hr => hp r (List.mem_cons_of_mem _ hr)]
    by_cases hq : q = p
    · subst hq
      rw [opcLanes_lane, laneWritten_idem, if_pos List.mem_cons_self, ite_self]
    · have he : q.2.1 ≠ p.2.1 := fun h => hq (hp q List.mem_cons_self h)
      rw [opcLanes_ne _ (hlen q List.mem_cons_self) (by omega)]
      simp only [List.mem_cons, Ne.symm hq, false_or]

/-- The writes of an earlier vector cycle take effect, the others wait (04 R114). -/
theorem opcSettle_eq (o : Vec) (v : Nat) : opcSettle o v =
    { o with opc := (o.pend.filter fun p => decide (p.1 < v)).foldl (fun t p => opcLanes t p.2.1 p.2.2) o.opc
             pend := o.pend.filter fun p => !decide (p.1 < v) } := by
  suffices h : ∀ (l q : List W0) (t : Tbl Word),
      l.foldl (fun (a : Tbl Word × List W0) e => if e.1 < v then (opcLanes a.1 e.2.1 e.2.2, a.2) else (a.1, a.2 ++ [e])) (t, q) =
        ((l.filter fun p => decide (p.1 < v)).foldl (fun t p => opcLanes t p.2.1 p.2.2) t, q ++ l.filter fun p => !decide (p.1 < v)) by
    unfold opcSettle
    rw [h, List.nil_append]
  intro l
  induction l with
  | nil => simp
  | cons p l ih =>
    intro q t
    rw [List.foldl_cons]
    by_cases hv : p.1 < v
    · simp [hv, ih]
    · simp [hv, ih]

/-- No two of the writes are to one entry. -/
def OwnEntries (ws : List W0) : Prop := ws.Pairwise fun p q => p.2.1 ≠ q.2.1

theorem OwnEntries.eq {ws : List W0} (h : OwnEntries ws) {p q : W0} (hp : p ∈ ws) (hq : q ∈ ws) (he : p.2.1 = q.2.1) : p = q :=
  List.inj_on_of_nodup_map (List.pairwise_map.mpr h) hp hq he

/-- `o` is `o0` after the writes `ws`, each of which is pending still or has taken effect. -/
structure CacheAfter (o0 : Vec) (ws : List W0) (o : Vec) : Prop where
  lanes : ∀ p ∈ ws, p.2.2.length ≤ 32
  pending : ∀ p ∈ o.pend, p ∈ ws
  outside : ∀ e, (∀ p ∈ ws, p.2.1 ≠ e) → ∀ l, l < 32 → laneOf o e l = laneOf o0 e l
  inside : ∀ p ∈ ws, (p ∈ o.pend ∧ ∀ l, l < 32 → laneOf o p.2.1 l = laneOf o0 p.2.1 l) ∨
    ∀ l, l < 32 → laneOf o p.2.1 l = laneWritten p l (laneOf o0 p.2.1 l)
  reads : ∀ e v, readable o0 e v = true → readable o e v = true

theorem CacheAfter.start {o : Vec} (h : o.pend = []) : CacheAfter o [] o where
  lanes := by simp
  pending := by simp [h]
  outside _ _ _ _ := rfl
  inside := by simp
  reads _ _ h := h

section
variable {o0 o : Vec} {ws : List W0}

/-- What a later vector cycle finds in an entry with a write of its own. -/
theorem CacheAfter.laneOf_settle (h : CacheAfter o0 ws o) (hw : OwnEntries ws) (v : Nat) {p : W0} (hp : p ∈ ws) {l : Nat} (hl : l < 32) :
    laneOf (opcSettle o v) p.2.1 l =
      if p ∈ o.pend ∧ p.1 < v then laneWritten p l (laneOf o p.2.1 l) else laneOf o p.2.1 l := by
  rw [opcSettle_eq, laneOf, opcLanes_foldl_lane hl _ (fun q hq => h.lanes q (h.pending q (List.mem_of_mem_filter hq)))
    fun q hq he => hw.eq (h.pending q (List.mem_of_mem_filter hq)) hp he]
  simp only [List.mem_filter, decide_eq_true_eq]
  rfl

theorem CacheAfter.laneOf_settle_outside (h : CacheAfter o0 ws o) (v : Nat) {e : Nat} (he : ∀ p ∈ ws, p.2.1 ≠ e) {l : Nat} (hl : l < 32) :
    laneOf (opcSettle o v) e l = laneOf o0 e l := by
  have hq : ∀ q ∈ o.pend.filter (fun p => decide (p.1 < v)), q ∈ ws := fun q hq => h.pending q (List.mem_of_mem_filter hq)
  have hk := opcLanes_foldl_lane (p := (0, e, [])) hl _ (fun q m => h.lanes q (hq q m)) (fun q m he' => absurd he' (he q (hq q m))) o.opc
  rw [if_neg fun m => he _ (hq _ m) rfl] at hk
  rw [opcSettle_eq]
  exact hk.trans (h.outside e he l hl)

/-- Once every write lies in an earlier vector cycle, each entry holds what its write gives. -/
theorem CacheAfter.laneOf_settled (h : CacheAfter o0 ws o) (hw : OwnEntries ws) {v : Nat} {p : W0} (hp : p ∈ ws) (hv : p.1 < v) {l : Nat}
    (hl : l < 32) : laneOf (opcSettle o v) p.2.1 l = laneWritten p l (laneOf o0 p.2.1 l) := by
  rw [h.laneOf_settle hw v hp hl]
  rcases h.inside p hp with ⟨hm, ho⟩ | ho
  · rw [if_pos ⟨hm, hv⟩, ho l hl]
  · rw [ho l hl, laneWritten_idem, ite_self]

theorem CacheAfter.settle (h : CacheAfter o0 ws o) (hw : OwnEntries ws) (v : Nat) : CacheAfter o0 ws (opcSettle o v) where
  lanes := h.lanes
  pending p hp := by
    rw [opcSettle_eq] at hp
    exact h.pending p (List.mem_of_mem_filter hp)
  outside _ he _ hl := h.laneOf_settle_outside v he hl
  inside p hp := by
    rcases h.inside p hp with ⟨hm, ho⟩ | ho
    · by_cases hv : p.1 < v
      · right
        intro l hl
        rw [h.laneOf_settle hw v hp hl, if_pos ⟨hm, hv⟩, ho l hl]
      · left
        refine ⟨by rw [opcSettle_eq]; simp [hm, hv], fun l hl => ?_⟩
        rw [h.laneOf_settle hw v hp hl, if_neg fun hh => hv hh.2, ho l hl]
    · right
      intro l hl
      rw [h.laneOf_settle hw v hp hl, ho l hl, laneWritten_idem, ite_self]
  reads _ _ hr := h.reads _ _ hr

/-- A write leaves no entry harder to read: its own can be read no later than before, the others as before (04 R113). -/
theorem readable_opcWrite {e v : Nat} (p : W0) (h : readable o e v = true) : readable (opcWrite o p) e v = true := by
  unfold readable opcWrite at *
  dsimp only
  by_cases he : e = p.2.1
  · subst he
    rw [tfind_tput_self]
    cases hf : tfind o.written p.2.1 with
    | none => simp [hf] at h
    | some u =>
      simp only [hf, decide_eq_true_eq] at h ⊢
      omega
  · rw [tfind_tput_ne _ _ he]
    exact h

theorem CacheAfter.write (h : CacheAfter o0 ws o) {p : W0} (hlen : p.2.2.length ≤ 32) (hp : ∀ q ∈ ws, q.2.1 ≠ p.2.1) :
    CacheAfter o0 (ws ++ [p]) (opcWrite o p) where
  lanes q hq := by
    rcases List.mem_append.mp hq with hq | hq
    · exact h.lanes q hq
    · rw [List.mem_singleton.mp hq]
      exact hlen
  pending q hq := by
    rcases mem_pendAdd.mp hq with rfl | hq
    · simp
    · exact List.mem_append_left _ (h.pending q hq)
  outside e he l hl := h.outside e (fun q hq => he q (List.mem_append_left _ hq)) l hl
  inside q hq := by
    rcases List.mem_append.mp hq with hq | hq
    · exact (h.inside q hq).imp_left fun ⟨hm, ho⟩ => ⟨mem_pendAdd.mpr (.inr hm), ho⟩
    · rw [List.mem_singleton.mp hq]
      exact .inl ⟨mem_pendAdd.mpr (.inl rfl), fun l hl => h.outside p.2.1 hp l hl⟩
  reads _ _ hr := readable_opcWrite p (h.reads _ _ hr)

/-- Writes one after the other. -/
theorem CacheAfter.writes (h : CacheAfter o0 ws o) (ps : List W0) (hlen : ∀ p ∈ ps, p.2.2.length ≤ 32) (hw : OwnEntries (ws ++ ps)) :
    CacheAfter o0 (ws ++ ps) (ps.foldl opcWrite o) := by
  induction ps generalizing ws o with
  | nil => rwa [List.append_nil]
  | cons p ps ih =>
    have hp : ∀ q ∈ ws, q.2.1 ≠ p.2.1 := fun q hq => (List.pairwise_append.mp hw).2.2 q hq p List.mem_cons_self
    rw [← List.singleton_append, ← List.append_assoc] at hw ⊢
    exact ih (h.write (hlen p List.mem_cons_self) hp) (fun q hq => hlen q (List.mem_cons_of_mem _ hq)) hw

end

/-- Writes to the entries from `dst` on, one to each, are each to an entry of their own. -/
theorem ownEntries_strip (t : Nat → Nat) (dst : Nat) (ls : Nat → List (Option Word)) (n : Nat) :
    OwnEntries ((List.range n).map fun i => (t i, dst + i, ls i)) :=
  List.pairwise_map.mpr (List.pairwise_lt_range.imp fun {a b} h => show dst + a ≠ dst + b by omega)

/-! ## Streams -/

/-- What the first `n` steps of a stream carry along and write where every read finds its entry as `o` has it. -/
def streamRun {α : Type} (step : α → Vec → Nat → α × List W0) (o : Vec) (a : α) (n : Nat) : α × List W0 :=
  (List.range n).foldl (fun b i => ((step b.1 o i).1, b.2 ++ (step b.1 o i).2)) (a, [])

section
variable {α : Type} {step : α → Vec → Nat → α × List W0} {o0 : Vec} {a : α}

theorem streamRun_succ (n : Nat) : streamRun step o0 a (n + 1) =
    ((step (streamRun step o0 a n).1 o0 n).1, (streamRun step o0 a n).2 ++ (step (streamRun step o0 a n).1 o0 n).2) := by
  rw [streamRun, List.range_succ, List.foldl_append]
  rfl

/-- What a stream has written stays among what it writes. -/
theorem streamRun_grows {m n : Nat} (h : m ≤ n) {p : W0} (hp : p ∈ (streamRun step o0 a m).2) : p ∈ (streamRun step o0 a n).2 := by
  induction h with
  | refl => exact hp
  | step _ ih =>
    rw [streamRun_succ]
    exact List.mem_append_left _ ih

/-- A stream that writes once in each step. -/
theorem streamRun_writes {w : α → Nat → W0} (h : ∀ a i, (step a o0 i).2 = [w a i]) (n : Nat) :
    (streamRun step o0 a n).2 = (List.range n).map fun i => w (streamRun step o0 a i).1 i := by
  induction n with
  | zero => rfl
  | succ n ih => rw [streamRun_succ, ih, h, List.range_succ, List.map_append, List.map_singleton]

/-- A stream that writes nothing. -/
theorem streamRun_silent (h : ∀ a i, (step a o0 i).2 = []) (n : Nat) : (streamRun step o0 a n).2 = [] := by
  induction n with
  | zero => rfl
  | succ n ih => rw [streamRun_succ, ih, h, List.append_nil]

variable {v : Nat → Nat} {reads : Nat → List Nat}

/-- A stream whose reads have all been written, and none of which reads what the stream has written before, carries along and writes what it
would if every read found its entry as it was at first (04 R113, R114, 06 R206). -/
theorem stream_undisturbed {o : Vec} (ho : CacheAfter o0 [] o) (n : Nat)
    (hr : ∀ i, i < n → ∀ e ∈ reads i, readable o0 e (v i) = true ∧ ∀ p ∈ (streamRun step o0 a i).2, p.2.1 ≠ e)
    (hs : ∀ i, i < n → ∀ b u, (∀ e ∈ reads i, ∀ l, l < 32 → laneOf u e l = laneOf o0 e l) → step b u i = step b o0 i)
    (hlen : ∀ p ∈ (streamRun step o0 a n).2, p.2.2.length ≤ 32) (hw : OwnEntries (streamRun step o0 a n).2) :
    ∃ u, stream v n reads step (o, a, none) = (u, (streamRun step o0 a n).1, none) ∧ CacheAfter o0 (streamRun step o0 a n).2 u := by
  induction n with
  | zero => exact ⟨o, rfl, ho⟩
  | succ n ih =>
    rw [streamRun_succ] at hlen hw ⊢
    have hw' : OwnEntries (streamRun step o0 a n).2 := (List.pairwise_append.mp hw).1
    obtain ⟨u, he, hu⟩ := ih (fun i hi => hr i (by omega)) (fun i hi => hs i (by omega))
      (fun p hp => hlen p (List.mem_append_left _ hp)) hw'
    have hset := hu.settle hw' (v n)
    have hfind : (reads n).find? (fun e => !readable (opcSettle u (v n)) e (v n)) = none :=
      List.find?_eq_none.mpr fun e hm => by simp [hset.reads e (v n) (hr n (by omega) e hm).1]
    have hstep := hs n (by omega) (streamRun step o0 a n).1 (opcSettle u (v n)) fun e hm l hl =>
      hset.outside e (hr n (by omega) e hm).2 l hl
    refine ⟨_, ?_, hset.writes _ (fun p hp => hlen p (List.mem_append_right _ hp)) hw⟩
    unfold stream at he ⊢
    rw [List.range_succ, List.foldl_append, he, List.foldl_cons, List.foldl_nil]
    simp only [hfind, hstep]

end

end Sys2Proof.Machine
end

section
/-!
SUPPORT. A stream of the vector engine from its reads to its end (04 R118, R121, R125): which lanes are active, what the stream's step depends
on, and the seat that it leaves.
-/
namespace Sys2Proof.Machine

/-! ## Active lanes -/

/-- `u` holds in entry `e` what `o` holds there. -/
def SameEntry (u o : Vec) (e : Nat) : Prop := ∀ l, l < 32 → laneOf u e l = laneOf o e l

theorem entryOf_congr {u o : Vec} {e : Nat} (h : SameEntry u o e) : entryOf u e = entryOf o e :=
  List.map_congr_left fun l hl => h l (List.mem_range.mp hl)

theorem zipIdx_map_range {α : Type} (f : Nat → α) (n : Nat) : ((List.range n).map f).zipIdx = (List.range n).map fun l => (f l, l) :=
  List.ext_getElem (by simp) fun i h1 h2 => by simp

theorem getD_map_range {α : Type} (f : Nat → α) (d : α) {n l : Nat} (hl : l < n) : ((List.range n).map f).getD l d = f l := by
  simp [List.getD_eq_getElem?_getD, hl]

section
variable {d tail i : Nat} {u o : Vec} (hm : ∀ e ∈ maskReads d i, SameEntry u o e)
include hm

/-- Which lanes are active depends on the mask entry that is read, and on no other (04 R121). -/
theorem activeLanes_congr : activeLanes d tail u i = activeLanes d tail o i := by
  refine List.map_congr_left fun l hl => ?_
  by_cases h : vMen d = true
  · rw [show tget 0 u.opc ((vM d + i) * 32 + l) = tget 0 o.opc ((vM d + i) * 32 + l) from
      hm (vM d + i) (by rw [maskReads, if_pos h]; exact List.mem_singleton_self _) l (List.mem_range.mp hl)]
  · simp [activeElem, h]

theorem activeMap_congr {β : Type} {g g' : Nat → β} (z : β) (hg : ∀ l, l < 32 → g l = g' l) :
    ((activeLanes d tail u i).zipIdx.map fun p => if p.1 then g p.2 else z) =
      (activeLanes d tail o i).zipIdx.map fun p => if p.1 then g' p.2 else z := by
  rw [activeLanes_congr hm]
  refine List.map_congr_left fun p hp => ?_
  have := List.snd_lt_of_mem_zipIdx hp
  rw [activeLanes, List.length_map, List.length_range] at this
  rw [hg p.2 (by omega)]

end

section
variable (x : Seat) (j : Job) (i : Nat)

/-- The active lanes of a strip entry are those of the statements (04 R121). -/
theorem activeLanes_eq : activeLanes j.raw.toNat j.tail x.vec i = (List.range 32).map fun l => decide (ActiveLane x j i l) := by
  refine List.map_congr_left fun l _ => ?_
  rw [Bool.eq_iff_iff, decide_eq_true_iff, ActiveLane, laneOf]
  simp [activeElem, imp_iff_not_or]

theorem activeMap_eq {β : Type} (g : Nat → β) (z : β) : ((activeLanes j.raw.toNat j.tail x.vec i).zipIdx.map fun p => if p.1 then g p.2 else z) =
    (List.range 32).map fun l => if ActiveLane x j i l then g l else z := by
  rw [activeLanes_eq, zipIdx_map_range, List.map_map]
  exact List.map_congr_left fun l _ => by simp only [Function.comp_apply, decide_eq_true_eq]

end

/-! ## The end of a job -/

section
variable {x y : Seat} {j : Job} {o : Vec} {v0 dst n : Nat} {f : Nat → Nat → Option Word}

/-- A seat whose vector engine has ended `j` with the operand cache of `o` has written what `o` is after. -/
theorem veWrites_of_cacheAfter {ws : List W0} (h : CacheAfter x.vec ws o) (hw : OwnEntries ws) (hopc : y.vec.opc = o.opc)
    (hpend : y.vec.pend = o.pend) (hin : ∀ i, i < n → ∃ p ∈ ws, p.2.1 = dst + i ∧ ∀ l, l < 32 → p.2.2.getD l none = f i l)
    (hout : ∀ p ∈ ws, p.1 < v0 ∧ dst ≤ p.2.1 ∧ p.2.1 < dst + n)
    (hy : y.vec.cur = none ∧ y.cox.fin = x.cox.fin ++ [{ j with doneAt := veOver x j }] ∧
      y.mxa = x.mxa ∧ y.core = x.core ∧ y.store = x.store ∧ y.desc = x.desc) : VeWrites x y j v0 dst n f := by
  have hread : ∀ v e l, laneOf (opcSettle y.vec v) e l = laneOf (opcSettle o v) e l := fun v e l => by
    simp only [opcSettle_eq, laneOf, hopc, hpend]
  refine ⟨fun v i l hv hi hl => ?_, fun v e l hv hl he => ?_, hy⟩
  · obtain ⟨p, hp, he, hf⟩ := hin i hi
    rw [hread, ← he, h.laneOf_settled hw hp ((hout p hp).1.trans_le hv) hl, laneWritten, hf l hl]
  · rw [hread]
    refine h.laneOf_settle_outside v (fun p hp hpe => ?_) hl
    have := hout p hp
    omega

/-- The same for writes to the entries from `dst` on, one to each. -/
theorem veWrites_of_strip {t : Nat → Nat} {ls : Nat → List (Option Word)} (h : CacheAfter x.vec ((List.range n).map fun i => (t i, dst + i, ls i)) o)
    (hopc : y.vec.opc = o.opc) (hpend : y.vec.pend = o.pend) (ht : ∀ i, i < n → t i < v0)
    (hf : ∀ i, i < n → ∀ l, l < 32 → (ls i).getD l none = f i l)
    (hy : y.vec.cur = none ∧ y.cox.fin = x.cox.fin ++ [{ j with doneAt := veOver x j }] ∧
      y.mxa = x.mxa ∧ y.core = x.core ∧ y.store = x.store ∧ y.desc = x.desc) : VeWrites x y j v0 dst n f := by
  refine veWrites_of_cacheAfter h (ownEntries_strip t dst ls n) hopc hpend (fun i hi => ?_) (fun p hp => ?_) hy
  · exact ⟨_, List.mem_map.mpr ⟨i, List.mem_range.mpr hi, rfl⟩, rfl, hf i hi⟩
  · obtain ⟨i, hi, rfl⟩ := List.mem_map.mp hp
    have := List.mem_range.mp hi
    exact ⟨ht i this, by dsimp only; omega, by dsimp only; omega⟩

end

/-- A stream without an unwritten read ends its job in its time (04 R125). -/
theorem veEnd_finish {α : Type} {s : State} {w : Nat} {x : Seat} {j : Job} {g : Vec → α → Vec} {u : Vec} {a : α} (hl : veLive x j = true) :
    veEnd s w x j (u, a, none) g = putSeat s w (veFinish x j (g u a)) := by
  simp [veEnd, hl]

/-- Nothing has been written yet where a job begins that finds no write pending. -/
theorem VeRuns.cache {s : State} {w op : Nat} {j : Job} (h : VeRuns s w j op) : CacheAfter (seatOf s w).vec [] (seatOf s w).vec :=
  CacheAfter.start h.2.2.2

section
variable {α : Type} {x : Seat} {j : Job} {k n : Nat} {reads : Nat → List Nat} {step : α → Vec → Nat → α × List W0} {a : α}
  (hr : runsAt x (veOver x j) = true) (hn : k + n ≤ veDone j.raw.toNat + 1)
include hr hn

/-- A job's stream that is undisturbed makes all its reads. -/
theorem jobStream_undisturbed {o : Vec} (ho : CacheAfter x.vec [] o)
    (hrd : ∀ i, i < n → ∀ e ∈ reads i, readable x.vec e (veAt x j (k + i)) = true ∧ ∀ p ∈ (streamRun step x.vec a i).2, p.2.1 ≠ e)
    (hs : ∀ i, i < n → ∀ b u, (∀ e ∈ reads i, SameEntry u x.vec e) → step b u i = step b x.vec i)
    (hlen : ∀ p ∈ (streamRun step x.vec a n).2, p.2.2.length ≤ 32) (hw : OwnEntries (streamRun step x.vec a n).2) :
    ∃ u, jobStream x j k n reads step (o, a, none) = (u, (streamRun step x.vec a n).1, none) ∧
      CacheAfter x.vec (streamRun step x.vec a n).2 u := by
  rw [jobStream, readsMade_all hr hn]
  exact stream_undisturbed ho n hrd hs hlen hw

/-- A job's stream that reads and writes nothing carries along what it reads. -/
theorem jobStream_silent {o : Vec} (ho : CacheAfter x.vec [] o) (hrd : ∀ i, i < n → ∀ e ∈ reads i, readable x.vec e (veAt x j (k + i)) = true)
    (hs : ∀ i, i < n → ∀ b u, (∀ e ∈ reads i, SameEntry u x.vec e) → step b u i = step b x.vec i)
    (hw : ∀ b i, (step b x.vec i).2 = []) :
    ∃ u, jobStream x j k n reads step (o, a, none) = (u, (streamRun step x.vec a n).1, none) ∧ CacheAfter x.vec [] u := by
  have hs0 := streamRun_silent (step := step) (o0 := x.vec) (a := a) hw
  obtain ⟨u, he, hu⟩ := jobStream_undisturbed hr hn (reads := reads) (step := step) (a := a) ho
    (fun i hi e he => ⟨hrd i hi e he, by simp [hs0]⟩) hs (by simp [hs0]) (by rw [hs0]; exact List.Pairwise.nil)
  exact ⟨u, he, by rwa [hs0] at hu⟩

/-- A job's stream that writes one entry of its strip in each step, and reads none that it has written before (04 R122). -/
theorem jobStream_strip {o : Vec} {dst : Nat} {t : Nat → Nat} {ls : α → Nat → List (Option Word)} (ho : CacheAfter x.vec [] o)
    (hrd : ∀ i, i < n → ∀ e ∈ reads i, ReadsFirst x j k dst i e)
    (hs : ∀ i, i < n → ∀ b u, (∀ e ∈ reads i, SameEntry u x.vec e) → step b u i = step b x.vec i)
    (hw : ∀ b i, (step b x.vec i).2 = [(t i, dst + i, ls b i)]) (hlen : ∀ b i, (ls b i).length ≤ 32) :
    ∃ u, jobStream x j k n reads step (o, a, none) = (u, (streamRun step x.vec a n).1, none) ∧
      CacheAfter x.vec ((List.range n).map fun i => (t i, dst + i, ls (streamRun step x.vec a i).1 i)) u := by
  have hs0 := streamRun_writes (step := step) (o0 := x.vec) (a := a) hw
  have hmem : ∀ m p, p ∈ (streamRun step x.vec a m).2 → ∃ i, i < m ∧ p = (t i, dst + i, ls (streamRun step x.vec a i).1 i) := by
    intro m p hp
    rw [hs0] at hp
    obtain ⟨i, hi, rfl⟩ := List.mem_map.mp hp
    exact ⟨i, List.mem_range.mp hi, rfl⟩
  rw [← hs0]
  refine jobStream_undisturbed hr hn ho (fun i hi e he => ⟨(hrd i hi e he).1, fun p hp => ?_⟩) hs (fun p hp => ?_) ?_
  · obtain ⟨m, hm, rfl⟩ := hmem i p hp
    exact (hrd i hi e he).2 m hm
  · obtain ⟨m, hm, rfl⟩ := hmem n p hp
    exact hlen _ _
  · rw [hs0]
    exact ownEntries_strip ..

/-- A job's stream that reads no entry of those that it writes, from `dst` on and one to each. -/
theorem jobStream_apart {o : Vec} {m dst : Nat} {t : Nat → Nat} {ls : Nat → List (Option Word)} (ho : CacheAfter x.vec [] o)
    (hrd : ∀ i, i < n → ∀ e ∈ reads i, readable x.vec e (veAt x j (k + i)) = true ∧ (e < dst ∨ dst + m ≤ e))
    (hs : ∀ i, i < n → ∀ b u, (∀ e ∈ reads i, SameEntry u x.vec e) → step b u i = step b x.vec i)
    (hw : (streamRun step x.vec a n).2 = (List.range m).map fun i => (t i, dst + i, ls i)) (hlen : ∀ i, (ls i).length ≤ 32) :
    ∃ u, jobStream x j k n reads step (o, a, none) = (u, (streamRun step x.vec a n).1, none) ∧
      CacheAfter x.vec ((List.range m).map fun i => (t i, dst + i, ls i)) u := by
  have hmem : ∀ p ∈ (streamRun step x.vec a n).2, ∃ i, i < m ∧ p = (t i, dst + i, ls i) := by
    intro p hp
    rw [hw] at hp
    obtain ⟨i, hi, rfl⟩ := List.mem_map.mp hp
    exact ⟨i, List.mem_range.mp hi, rfl⟩
  rw [← hw]
  refine jobStream_undisturbed hr hn ho (fun i hi e he => ⟨(hrd i hi e he).1, fun p hp => ?_⟩) hs (fun p hp => ?_) ?_
  · obtain ⟨q, hq, rfl⟩ := hmem p (streamRun_grows hi.le hp)
    have := (hrd i hi e he).2
    dsimp only
    omega
  · obtain ⟨q, hq, rfl⟩ := hmem p hp
    exact hlen _
  · rw [hw]
    exact ownEntries_strip ..

end

theorem VeWrites.congr {x y : Seat} {j : Job} {v0 dst n : Nat} {f g : Nat → Nat → Option Word} (h : VeWrites x y j v0 dst n f)
    (hg : ∀ i l, g i l = f i l) : VeWrites x y j v0 dst n g := by
  rwa [show g = f from funext₂ hg]

section
variable {α : Type} {s : State} {w op : Nat} {j : Job} (h : VeRuns s w j op) {k n v0 dst : Nat} {reads : Nat → List Nat}
  {step : α → Vec → Nat → α × List W0} {a : α} {o : Vec} {g : Vec → α → Vec} {F : Seat → Job → State} {f : Nat → Nat → Option Word}
  (hF : F (seatOf s w) j = veEnd s w (seatOf s w) j (jobStream (seatOf s w) j k n reads step (o, a, none)) g)
  (hg : ∀ u b, (g u b).opc = u.opc ∧ (g u b).pend = u.pend)
include h hF hg

/-- A job that goes on to its end, and whose stream has written the entries from `dst` on, one to each, ends with its strip written. What `g`
counts is none of the operand cache. -/
theorem veRow_ends {m : Nat} {u : Vec} {b : α} {t : Nat → Nat} {ls : Nat → List (Option Word)}
    (hst : jobStream (seatOf s w) j k n reads step (o, a, none) = (u, b, none))
    (hu : CacheAfter (seatOf s w).vec ((List.range m).map fun i => (t i, dst + i, ls i)) u) (ht : ∀ i, i < m → t i < v0)
    (hf : ∀ i, i < m → ∀ l, l < 32 → (ls i).getD l none = f i l) :
    ∃ y, veRow op w s F = .next (putSeat s w y) ∧ VeWrites (seatOf s w) y j v0 dst m f := by
  refine ⟨veFinish (seatOf s w) j (g u b), ?_, veWrites_of_strip hu (hg _ _).1 (hg _ _).2 ht hf ⟨rfl, rfl, rfl, rfl, rfl, rfl⟩⟩
  rw [veRow_runs h, hF, hst, veEnd_finish h.live]

/-- The same for a stream that writes one entry of its strip in each step and reads none that it has written before. -/
theorem veRow_strip (t : Nat → Nat) (ls : α → Nat → List (Option Word)) (hn : k + n ≤ veDone j.raw.toNat + 1)
    (ho : CacheAfter (seatOf s w).vec [] o) (hrd : ∀ i, i < n → ∀ e ∈ reads i, ReadsFirst (seatOf s w) j k dst i e)
    (hs : ∀ i b u, (∀ e ∈ reads i, SameEntry u (seatOf s w).vec e) → step b u i = step b (seatOf s w).vec i)
    (hw : ∀ b i, (step b (seatOf s w).vec i).2 = [(t i, dst + i, ls b i)]) (hlen : ∀ b i, (ls b i).length ≤ 32)
    (ht : ∀ i, i < n → t i < v0)
    (hf : ∀ i, i < n → ∀ l, l < 32 → (ls (streamRun step (seatOf s w).vec a i).1 i).getD l none = f i l) :
    ∃ y, veRow op w s F = .next (putSeat s w y) ∧ VeWrites (seatOf s w) y j v0 dst n f := by
  obtain ⟨u, hst, hu⟩ := jobStream_strip h.live hn (a := a) ho hrd (fun i _ => hs i) hw hlen
  exact veRow_ends h hF hg hst hu ht hf

end

end Sys2Proof.Machine
end

section
/-!
SUPPORT. The element-wise operations (04 R117, R118, R121, R122): the values of one element, and what an operation's lanes depend on.
-/
namespace Sys2Proof.Machine

/-! ## Values -/

theorem toInt_intMin (a b : Word) : (intMin a b).toInt = min a.toInt b.toInt := by
  unfold intMin
  split
  next h => exact (min_eq_left h).symm
  next h => exact (min_eq_right (by omega)).symm

theorem toInt_intMax (a b : Word) : (intMax a b).toInt = max a.toInt b.toInt := by
  unfold intMax
  split
  next h => exact (max_eq_right h).symm
  next h => exact (max_eq_left (by omega)).symm

theorem intAbs_eq (a : Word) : (if a.toInt < 0 then -a else a) = BitVec.ofNat 32 a.toInt.natAbs := by
  rw [← BitVec.ofInt_natCast, Int.natCast_natAbs]
  split
  next h => rw [abs_of_neg h, BitVec.ofInt_neg, BitVec.ofInt_toInt]
  next h => rw [abs_of_nonneg (by omega), BitVec.ofInt_toInt]

section
variable {ty sub : Nat} (a b c : Word)

/-- Integers are taken modulo 2^32 (04 R117). -/
theorem elemOp_i32 :
    elemOp 0x02 tyI32 sub a b c = BitVec.ofNat 32 (a.toNat + b.toNat) ∧
    elemOp 0x03 tyI32 sub a b c = BitVec.ofInt 32 ((a.toNat : Int) - b.toNat) ∧
    elemOp 0x04 tyI32 sub a b c = BitVec.ofNat 32 (a.toNat * b.toNat) ∧
    elemOp 0x05 tyI32 sub a b c = BitVec.ofNat 32 (a.toNat * b.toNat + c.toNat) ∧
    elemOp 0x09 tyI32 sub a b c = BitVec.ofInt 32 (-a.toInt) := by
  refine ⟨?_, ?_, ?_, ?_, ?_⟩
  · show a + b = _
    rw [BitVec.ofNat_add, BitVec.ofNat_toNat, BitVec.ofNat_toNat]
    rfl
  · show a - b = _
    refine BitVec.eq_of_toNat_eq ?_
    rw [BitVec.toNat_ofInt, BitVec.toNat_sub]
    omega
  · show a * b = _
    rw [BitVec.ofNat_mul, BitVec.ofNat_toNat, BitVec.ofNat_toNat]
    rfl
  · show a * b + c = _
    rw [BitVec.ofNat_add, BitVec.ofNat_mul, BitVec.ofNat_toNat, BitVec.ofNat_toNat, BitVec.ofNat_toNat]
    rfl
  · show -a = _
    rw [BitVec.ofInt_neg, BitVec.ofInt_toInt]

end

/-- A NaN is converted to the canonical one, at either width (02 R49, R50). -/
theorem fpConv_nan (p : Nat) : fpConv p fpNan = fpNan := rfl

theorem fpConv_zero (ty : Nat) (neg : Bool) : fpConv (tyBits ty) (fpZero neg) = fpZero neg := by
  cases neg <;> rfl

section
variable {ty : Nat} (sub : Nat) {a b : Word} (c : Word) (hty : ty ≠ tyI32)
include hty

/-- MIN and MAX of a NaN (04 R117). -/
theorem elemOp_min_max_nan (h : fpIsNan a = true ∨ fpIsNan b = true) : elemOp 0x06 ty sub a b c = fpNan ∧ elemOp 0x07 ty sub a b c = fpNan := by
  have hi : (ty == tyI32) = false := beq_eq_false_iff_ne.mpr hty
  simp only [elemOp, hi, fpMin, fpMax, Bool.or_eq_true, h, if_true, Bool.false_eq_true, if_false]
  exact ⟨fpConv_nan _, fpConv_nan _⟩

/-- MIN and MAX of zeros of either sign (04 R117). -/
theorem elemOp_min_max_zero (neg : Bool) :
    elemOp 0x06 ty sub (fpZero neg) (fpZero !neg) c = fpZero true ∧ elemOp 0x07 ty sub (fpZero neg) (fpZero !neg) c = fpZero false := by
  have hi : (ty == tyI32) = false := beq_eq_false_iff_ne.mpr hty
  have hmin : fpMin (fpZero neg) (fpZero !neg) = fpZero true := by cases neg <;> decide
  have hmax : fpMax (fpZero neg) (fpZero !neg) = fpZero false := by cases neg <;> decide
  simp [elemOp, hi, hmin, hmax, fpConv_zero]

/-- ABS and NEG of a NaN (04 R117). -/
theorem elemOp_abs_neg_nan (h : fpIsNan a = true) : elemOp 0x08 ty sub a b c = fpNan ∧ elemOp 0x09 ty sub a b c = fpNan := by
  have hi : (ty == tyI32) = false := beq_eq_false_iff_ne.mpr hty
  simp only [elemOp, hi, fpAbs, fpNegate, h, if_true, Bool.false_eq_true, if_false]
  exact ⟨fpConv_nan _, fpConv_nan _⟩

/-- CMP of a NaN holds for NE and UNORD alone (04 R117). -/
theorem elemOp_cmp_nan (h : fpIsNan a = true ∨ fpIsNan b = true) (k : Nat) :
    elemOp 0x0A ty k a b c = if k = 1 ∨ k = 6 then 1 else 0 := by
  simp [elemOp, cmpHolds, hty, h]

end

/-! ## What an operation's lanes depend on -/

/-- An element depends on S2 and S3 only where its opcode reads them (04 R118). -/
theorem elemOp_congr {op : Nat} (ho : 1 ≤ op ∧ op ≤ 16) (ty sub : Nat) (a : Word) {b b' c c' : Word} (hb : 2 ≤ veSources op → b = b')
    (hc : 3 ≤ veSources op → c = c') : elemOp op ty sub a b c = elemOp op ty sub a b' c' := by
  obtain ⟨h1, h16⟩ := ho
  interval_cases op <;> simp_all [elemOp, veSources]

/-- The word of lane `l` of strip entry `i` of an element-wise operation (04 R117, R122). -/
def elemWord (d c : Nat) (o : Vec) (i l : Nat) : Word :=
  let s2 := (vEntry d c 1 (vS2 d)).toNat + stripOff (vP2 d) i
  let s3 := (vEntry d c 0 (vS3 d)).toNat + stripOff (vP3 d) i
  elemOp (dOp d) (vType d) (vSub d) (laneOf o ((vEntry d c 2 (vS1 d)).toNat + i) l)
    (if vIsel d = 1 then vImm d else laneOf o s2 l) (if vIsel d = 2 then vImm d else laneOf o s3 l)

theorem elemLanes_eq (d c tail : Nat) (o : Vec) (i : Nat) : elemLanes d c tail o i =
    (activeLanes d tail o i).zipIdx.map fun p => if p.1 then some (elemWord d c o i p.2) else inactive d := rfl

section
variable {d c i : Nat} (ho : 1 ≤ dOp d ∧ dOp d ≤ 16) {u o : Vec} (h : ∀ e ∈ elemReads d c i, SameEntry u o e)
include ho h

theorem elemWord_congr {l : Nat} (hl : l < 32) : elemWord d c u i l = elemWord d c o i l := by
  have h1 : laneOf u ((vEntry d c 2 (vS1 d)).toNat + i) l = laneOf o ((vEntry d c 2 (vS1 d)).toNat + i) l := h _ (by simp [elemReads]) l hl
  unfold elemWord
  dsimp only
  rw [h1]
  refine elemOp_congr ho _ _ _ (fun h2 => ?_) fun h3 => ?_
  · by_cases hi : vIsel d = 1
    · rw [if_pos hi, if_pos hi]
    · rw [if_neg hi, if_neg hi]
      exact h _ (by simp [elemReads, h2, hi]) l hl
  · by_cases hi : vIsel d = 2
    · rw [if_pos hi, if_pos hi]
    · rw [if_neg hi, if_neg hi]
      exact h _ (by simp [elemReads, h3, hi]) l hl

theorem elemLanes_congr (tail : Nat) : elemLanes d c tail u i = elemLanes d c tail o i := by
  rw [elemLanes_eq, elemLanes_eq]
  exact activeMap_congr (g := fun l => some (elemWord d c u i l)) (fun e he => h e (by simp [elemReads, he])) _
    fun l hl => congrArg some (elemWord_congr ho h hl)

end

/-! ## The step -/

theorem veDone_elem {d : Nat} (ho : 1 ≤ dOp d ∧ dOp d ≤ 16) : veDone d = vN d - 1 + veLat (dOp d) := by
  unfold veDone veW0Last
  dsimp only
  repeat rw [if_neg (by omega)]

theorem veLat_elem {op : Nat} (ho : 1 ≤ op ∧ op ≤ 16) : veLat op ≤ 4 := by
  unfold veLat
  split_ifs <;> omega

/-- An element-wise operation that goes on to its end and reads no entry that it has overwritten writes its strip, and completes
(04 R117, R121, R125). -/
theorem runElem_writes {s : State} {w op : Nat} {j : Job} (h : VeRuns s w j op) (ho : 1 ≤ op ∧ op ≤ 16) :
    let x := seatOf s w
    let d := j.raw.toNat
    let dst := (vEntry d j.c 3 (vD d)).toNat
    (∀ i, i < vN d → ∀ e ∈ elemReads d j.c i, ReadsFirst x j 0 dst i e) →
    ∃ y, runElem op w s = .next (putSeat s w y) ∧ VeWrites x y j (veAt x j (vN d + 4)) dst (vN d) fun i l =>
      if ActiveLane x j i l then some (elemWord d j.c x.vec i l) else inactive d := by
  intro x d dst hrd
  have hop := h.opcode
  have ho' : 1 ≤ dOp d ∧ dOp d ≤ 16 := hop ▸ ho
  have hlat := veLat_elem ho
  exact veRow_strip h rfl (fun _ _ => ⟨rfl, rfl⟩) (fun i => veAt x j (i + veLat op)) (fun _ i => elemLanes d j.c j.tail x.vec i)
    (by rw [veDone_elem ho', hop]; omega) h.cache hrd (fun i b u hu => by rw [elemLanes_congr ho' hu]) (fun _ _ => rfl)
    (fun _ i => by simp [elemLanes, activeLanes]) (fun i hi => veAt_lt x j (by omega))
    fun i _ l hl => by rw [elemLanes_eq, activeMap_eq x j i fun l => some (elemWord d j.c x.vec i l), getD_map_range _ _ hl]

end Sys2Proof.Machine
end

section
open Sys2Proof Sys2Proof.Machine

/-- Settles O8: the values case by case, and each opcode as the one element-wise stream. -/
theorem vectorElements : Obligations.VectorElements := by
  constructor
  · intro ty sub a b c
    obtain ⟨hadd, hsub, hmul, hfma, hneg⟩ := elemOp_i32 (sub := sub) a b c
    refine ⟨rfl, rfl, rfl, rfl, hadd, hsub, hmul, hfma, toInt_intMin a b, toInt_intMax a b, intAbs_eq a, hneg,
      fun ht hn => elemOp_min_max_nan sub c ht hn, fun ht => ?_, fun ht hn => elemOp_abs_neg_nan sub c ht hn,
      fun ht hn k _ => elemOp_cmp_nan c ht hn k, rfl, rfl, rfl, fun ht => if_neg ht, fun hn => if_pos hn⟩
    obtain ⟨hmin, hmax⟩ := elemOp_min_max_zero sub c ht true
    obtain ⟨hmin', hmax'⟩ := elemOp_min_max_zero sub c ht false
    exact ⟨hmin, hmin', hmax, hmax'⟩
  · intro s w j cmd hcmd x d dst s1 s2 s3 h hrd
    have hrow : exec cmd.1 s = runElem cmd.2 w.val s ∧ 1 ≤ cmd.2 ∧ cmd.2 ≤ 16 := by
      simp only [List.mem_cons, List.not_mem_nil, or_false] at hcmd
      rcases hcmd with rfl | rfl | rfl | rfl | rfl | rfl | rfl | rfl | rfl | rfl | rfl | rfl | rfl | rfl | rfl | rfl <;>
        exact ⟨rfl, by norm_num, by norm_num⟩
    obtain ⟨y, he, hy⟩ := runElem_writes h hrow.2 hrd
    refine ⟨_, hrow.1.trans he, rfl, ?_⟩
    rw [seatOf_putSeat_self, ← h.2.1]
    exact hy

end

section
/-!
SUPPORT. The start of a vector descriptor (04 R124, R144), and a stream whose first read finds an entry that has not been written (04 R113,
06 R206).
-/
namespace Sys2Proof.Machine

/-! ## The start -/

theorem le_runTime (c : Cox) (t0 t : Nat) : t ≤ runTime c t0 t := by
  unfold runTime
  generalize c.gaps = l
  induction l generalizing t with
  | nil => exact le_rfl
  | cons g l ih =>
    rw [List.foldl_cons]
    refine le_trans ?_ (ih _)
    unfold late
    split_ifs <;> omega

/-- No forced refresh that has begun since a moment delays that moment (04 R115). -/
theorem runTime_self (c : Cox) (t : Nat) : runTime c t t = t := by
  unfold runTime
  induction c.gaps with
  | nil => rfl
  | cons g l ih =>
    rw [List.foldl_cons]
    split
    next h => rwa [late, if_neg (by omega)]
    next => exact ih

theorem veAt_zero (x : Seat) (j : Job) : veAt x j 0 = j.start := by
  rw [veAt, veCoreAt, Nat.mul_zero, Nat.add_zero, runTime_self]
  omega

/-- A start lies no earlier than the issue, the end of the previous reads and the previous start (04 R124). -/
theorem veStartAt_bounds (x : Seat) (j : Job) :
    (j.issued + 1) / 2 ≤ veStartAt x j ∧ x.vec.readEnd ≤ veStartAt x j ∧ x.vec.startFrom ≤ veStartAt x j := by
  have := le_runTime x.cox j.issued (2 * ((j.issued + 1) / 2))
  unfold veStartAt
  dsimp only
  omega

theorem noteRoom_vec (x : Seat) (q : Fin 4) : (noteRoom x q).vec = x.vec := by
  unfold noteRoom
  split <;> rfl

/-- The vector engine once it has started `j`, whose start is set, and left `q` in the queue (04 R124, R146). -/
def veStarted (o : Vec) (j : Job) (q : List Job) : Vec :=
  let d := j.raw.toNat
  let v := j.start
  let runs := veRun0 d j.c v
  let w0 := match veW0First d with
    | some _ => v + veW0Last d + 1
    | none => 0
  let core := match veCoreSpan d with
    | some p => 2 * v + p.2 + 1
    | none => 0
  let fin := v + veDone d + 1
  { o with queue := q, cur := some j, readEnd := if veReadLen d = 0 then o.readEnd else v + veReadLen d,
           w0End := max o.w0End w0, coreEnd := max o.coreEnd core, doneEnd := max o.doneEnd fin, startFrom := v,
           prevCt := dOp d == 0x19, reads := satAdd o.reads (veReadLen d), busy := o.busy + (fin - max v o.doneEnd),
           busyRuns := o.busyRuns ++ [(max v o.doneEnd, max v (max fin o.doneEnd))], readRuns := o.readRuns ++ [(v, v + veReadLen d)],
           w0 := o.w0 ++ runs, pend := loseW1 runs o.pend, collide := satAdd o.collide (collisions o runs) }

section
variable {s : State} {w : SeatIx} {x : Seat} {j : Job} {q : List Job} {v : Nat} (hx : seatOf s w.val = x) (hv : veStartAt x j = v)
  (hq : x.vec.queue = j :: q) (hcur : x.vec.cur = none) (ht : OnTime s w.val (2 * v))
include hx hv hq hcur ht

/-- An idle engine starts the first descriptor of its queue (04 R124). -/
theorem exec_veStart_starts (hc : dOp j.raw.toNat = 0x18 → (tfind x.vec.curves (vCslot j.raw.toNat)).isSome = true) :
    exec (.veStart w) s = .next (putSeat s w.val (noteRoom { x with vec := veStarted x.vec { j with start := v } q } 1)) := by
  subst hx hv
  obtain ⟨hclk, hr, hs⟩ := ht
  show execVeStart w s = _
  unfold execVeStart
  simp only [hq, hr, hcur, hs, hclk, and_self, if_true]
  refine if_neg fun h => ?_
  have := hc h.1
  simp_all

/-- A CURVE whose slot is empty faults at its start (04 R144). -/
theorem exec_veStart_curveEmpty (ho : dOp j.raw.toNat = 0x18) (hc : tfind x.vec.curves (vCslot j.raw.toNat) = none) :
    exec (.veStart w) s = .next (jobFault
      (putSeat s w.val { noteRoom { x with vec := veStarted x.vec { j with start := v } q } 1 with
        vec := { veStarted x.vec { j with start := v } q with cur := none } })
      w.val { j with start := v } veCurveEmpty 6 (2 * v) 0 noWord 0) := by
  subst hx hv
  obtain ⟨hclk, hr, hs⟩ := ht
  show execVeStart w s = _
  unfold execVeStart
  simp only [hq, hr, hcur, hs, hclk, and_self, if_true]
  exact if_pos ⟨ho, by rw [hc]; rfl⟩

end

/-! ## A first read of an unwritten entry -/

section
variable {α : Type} {v : Nat → Nat} {reads : Nat → List Nat} {step : α → Vec → Nat → α × List W0}

/-- A stream whose first read is of an entry that has not been written ends there. -/
theorem stream_unwritten {n e : Nat} {o : Vec} {a : α} (hn : 0 < n) (hr : (reads 0).head? = some e)
    (hu : tfind o.written e = none) : stream v n reads step (o, a, none) = (opcSettle o (v 0), a, some (v 0, e)) := by
  obtain ⟨m, rfl⟩ := Nat.exists_eq_succ_of_ne_zero hn.ne'
  obtain ⟨l, hl⟩ := List.head?_eq_some_iff.mp hr
  have hf : (reads 0).find? (fun e => !readable (opcSettle o (v 0)) e (v 0)) = some e := by
    rw [hl]
    refine List.find?_cons_of_pos ?_
    have hw : tfind (opcSettle o (v 0)).written e = none := hu
    simp [readable, hw]
  rw [stream, List.range_succ_eq_map, List.foldl_cons]
  simp only [hf]
  exact List.foldl_fixed' (fun _ => rfl) _

end

theorem readsMade_pos {x : Seat} {j : Job} {n : Nat} (hn : 0 < n) (hr : runsAt x (2 * j.start) = true) : 0 < readsMade x j 0 n :=
  List.length_pos_of_mem (List.mem_filter.mpr ⟨List.mem_range.mpr hn, by rw [Nat.zero_add, veAt_zero, hr]⟩)

/-- An element-wise operation whose first read is of an entry that has not been written in the heat is UMP_UNWRITTEN_READ in the vector cycle of
that read (04 R113, 06 R206). -/
theorem runElem_unwritten {s : State} {w op : Nat} {x : Seat} {j : Job} (hx : seatOf s w = x) (hcur : x.vec.cur = some j)
    (ho : dOp j.raw.toNat = op) (hn : 0 < vN j.raw.toNat) (ht : OnTime s w (2 * j.start)) (hs : stillBefore x (veOver x j) = true)
    (hu : tfind x.vec.written (vEntry j.raw.toNat j.c 2 (vS1 j.raw.toNat)).toNat = none) :
    runElem op w s = .next (jobFault (putSeat s w (veStop { x with vec := opcSettle x.vec j.start })) w j umpUnwrittenRead 1 (2 * j.start) 0
      (vEntry j.raw.toNat j.c 2 (vS1 j.raw.toNat)).toNat 0) := by
  subst hx
  obtain ⟨hclk, hr, -⟩ := ht
  simp only [runElem, veRow, hcur, ho, hclk, hs, and_self, if_true, jobStream]
  rw [stream_unwritten (readsMade_pos hn hr) (by simp [elemReads]) hu, Nat.add_zero, veAt_zero]
  rfl

end Sys2Proof.Machine
end

section
open Sys2Proof Sys2Proof.Machine

/-- Settles O9: the engine as `veStarted` leaves it, and a stream that ends at its first read. -/
theorem vectorStart : Obligations.VectorStart := by
  constructor
  · intro s w j q x d v hq hcur ht
    obtain ⟨hi, hr, hf⟩ := veStartAt_bounds x j
    refine ⟨fun hc => ⟨_, exec_veStart_starts rfl rfl hq hcur ht hc, ?_⟩, fun ho hc => ⟨_, exec_veStart_curveEmpty rfl rfl hq hcur ht ho hc, ?_⟩⟩
    · rw [seatOf_putSeat_self, noteRoom_vec]
      exact ⟨rfl, rfl, hi, hr, hf, rfl, rfl, rfl⟩
    · rw [seatOf_putSeat_self]
  · intro s w j x d e hcur ho hn ht hs hu
    refine ⟨_, runElem_unwritten rfl hcur ho hn ht hs hu, ?_⟩
    rw [seatOf_putSeat_self]
    exact ⟨rfl, rfl⟩

end

section
/-!
SUPPORT. The operations that move, select or make words one strip entry at a time (04 R130, R133-R135, R143): the words of a strip and its active
elements, and what EXPAND, GATHER, COMPRESS, CURVE and RAND write.
-/
namespace Sys2Proof.Machine

/-! ## The elements of a strip -/

/-- Element `m` of the strip from entry `e`. -/
def stripWord (o : Vec) (e m : Nat) : Word := laneOf o (e + m / 32) (m % 32)

/-- The active elements of a strip among its first `n`. -/
def activeBefore (x : Seat) (j : Job) (n : Nat) : List Nat := (List.range n).filter fun m => decide (ActiveLane x j (m / 32) (m % 32))

theorem map_range_add {α : Type} (g : Nat → α) (a b : Nat) :
    (List.range (a + b)).map g = (List.range a).map g ++ (List.range b).map fun l => g (a + l) := by
  rw [List.range_add, List.map_append, List.map_map]
  rfl

theorem filter_range_add (p : Nat → Bool) (a b : Nat) :
    (List.range (a + b)).filter p = (List.range a).filter p ++ ((List.range b).filter fun l => p (a + l)).map (a + ·) := by
  rw [List.range_add, List.filter_append, List.filter_map]
  rfl

theorem entryOf_strip (o : Vec) (e i : Nat) : entryOf o (e + i) = (List.range 32).map fun l => stripWord o e (32 * i + l) :=
  List.map_congr_left fun l hl => by
    have := List.mem_range.mp hl
    rw [stripWord, show (32 * i + l) / 32 = i by omega, show (32 * i + l) % 32 = l by omega]
    rfl

theorem map_stripWord_succ (o : Vec) (e i : Nat) :
    (List.range (32 * i)).map (stripWord o e) ++ entryOf o (e + i) = (List.range (32 * (i + 1))).map (stripWord o e) := by
  rw [entryOf_strip, ← map_range_add, Nat.mul_succ]

theorem getElem?_map_range {α : Type} (g : Nat → α) {n k : Nat} (h : k < n) : ((List.range n).map g)[k]? = some (g k) := by
  simp [h]

section
variable (x : Seat) (j : Job)

theorem activeBefore_add (i n : Nat) (hn : n ≤ 32) : activeBefore x j (32 * i + n) =
    activeBefore x j (32 * i) ++ ((List.range n).filter fun l => decide (ActiveLane x j i l)).map (32 * i + ·) := by
  rw [activeBefore, filter_range_add]
  congr 2
  refine List.filter_congr fun l hl => ?_
  have := List.mem_range.mp hl
  rw [show (32 * i + l) / 32 = i by omega, show (32 * i + l) % 32 = l by omega]

/-- What is taken of the active lanes of a strip entry, in ascending lane order. -/
theorem activeFilterMap_eq (i : Nat) {β : Type} (g : Nat → β) :
    ((activeLanes j.raw.toNat j.tail x.vec i).zipIdx.filterMap fun p => if p.1 then some (g p.2) else none) =
      ((List.range 32).filter fun l => decide (ActiveLane x j i l)).map g := by
  rw [activeLanes_eq, zipIdx_map_range, List.filterMap_map, ← List.filterMap_eq_map, List.filterMap_filter]
  exact List.filterMap_congr fun l _ => by simp only [Function.comp_apply]

end

theorem activeFilterMap_congr {d tail i : Nat} {u o : Vec} (hm : ∀ e ∈ maskReads d i, SameEntry u o e) {β : Type} {g g' : Nat → β}
    (hg : ∀ l, l < 32 → g l = g' l) :
    ((activeLanes d tail u i).zipIdx.filterMap fun p => if p.1 then some (g p.2) else none) =
      (activeLanes d tail o i).zipIdx.filterMap fun p => if p.1 then some (g' p.2) else none := by
  rw [activeLanes_congr hm]
  refine List.filterMap_congr fun p hp => ?_
  have := List.snd_lt_of_mem_zipIdx hp
  rw [activeLanes, List.length_map, List.length_range] at this
  rw [hg p.2 (by omega)]

/-- Lane `l` of the entry `e` of a strip, where the stream has read it with its mask entry. -/
theorem SameEntry.of_read {d i : Nat} {u o : Vec} {e : Nat} (h : ∀ k ∈ e :: maskReads d i, SameEntry u o k) :
    SameEntry u o e ∧ ∀ k ∈ maskReads d i, SameEntry u o k :=
  ⟨h e List.mem_cons_self, fun k hk => h k (List.mem_cons_of_mem _ hk)⟩

/-! ## EXPAND -/

/-- One lane of EXPAND: an active lane takes the next dense element (04 R134). -/
def expandLane (d : Nat) (dense : List Word) (b : Nat × List (Option Word)) (act : Bool) : Nat × List (Option Word) :=
  if act then (b.1 + 1, b.2 ++ [some ((dense[b.1]?).getD 0)]) else (b.1, b.2 ++ [inactive d])

/-- One step of EXPAND's stream: the dense elements so far, and how many of them are taken (04 R134). -/
def expandStep (x : Seat) (j : Job) (a : List Word × Nat) (o : Vec) (i : Nat) : (List Word × Nat) × List W0 :=
  let d := j.raw.toNat
  let dense := a.1 ++ entryOf o ((vEntry d j.c 2 (vS1 d)).toNat + i)
  let r := (activeLanes d j.tail o i).foldl (expandLane d dense) (a.2, [])
  ((dense, r.1), [(veAt x j (i + 4), (vEntry d j.c 3 (vD d)).toNat + i, r.2)])

theorem execExpand_eq (w : SeatIx) (s : State) : execExpand w s = veRow 0x29 w.val s fun x j =>
    let d := j.raw.toNat
    veEnd s w.val x j (jobStream x j 0 (vN d) (fun i => ((vEntry d j.c 2 (vS1 d)).toNat + i) :: maskReads d i) (expandStep x j)
      (x.vec, ([], 0), none)) fun o _ => o := rfl

theorem expandStep_congr (x : Seat) (j : Job) (a : List Word × Nat) {u o : Vec} {i : Nat}
    (h : ∀ e ∈ ((vEntry j.raw.toNat j.c 2 (vS1 j.raw.toNat)).toNat + i) :: maskReads j.raw.toNat i, SameEntry u o e) :
    expandStep x j a u i = expandStep x j a o i := by
  obtain ⟨he, hm⟩ := SameEntry.of_read h
  simp only [expandStep, entryOf_congr he, activeLanes_congr hm]

/-- Lanes of one entry: each active one takes the dense element whose index is the number of active elements before it. -/
theorem expandLane_foldl (d : Nat) (dense : List Word) (p : Nat → Bool) (c n : Nat) :
    ((List.range n).map p).foldl (expandLane d dense) (c, []) = (c + ((List.range n).filter p).length, (List.range n).map fun l =>
      if p l then some ((dense[c + ((List.range l).filter p).length]?).getD 0) else inactive d) := by
  induction n with
  | zero => rfl
  | succ n ih =>
    rw [List.range_succ, List.map_append, List.foldl_append, ih, List.map_append, List.filter_append, List.length_append]
    cases h : p n <;> simp [expandLane, h, Nat.add_assoc]

theorem length_activeBefore_add (x : Seat) (j : Job) (i : Nat) {n : Nat} (hn : n ≤ 32) : (activeBefore x j (32 * i + n)).length =
    (activeBefore x j (32 * i)).length + ((List.range n).filter fun l => decide (ActiveLane x j i l)).length := by
  rw [activeBefore_add x j i n hn, List.length_append, List.length_map]

theorem expandStep_run (x : Seat) (j : Job) (n : Nat) : (streamRun (expandStep x j) x.vec ([], 0) n).1 =
    ((List.range (32 * n)).map (stripWord x.vec (vEntry j.raw.toNat j.c 2 (vS1 j.raw.toNat)).toNat), (activeBefore x j (32 * n)).length) := by
  induction n with
  | zero => rfl
  | succ n ih =>
    rw [streamRun_succ, ih, expandStep]
    dsimp only
    rw [map_stripWord_succ, activeLanes_eq, expandLane_foldl, Nat.mul_succ, length_activeBefore_add x j n le_rfl]

/-- EXPAND writes its strip, each active element the dense one of its rank (04 R134). -/
theorem exec_expand {s : State} {w : SeatIx} {j : Job} (h : VeRuns s w.val j 0x29) :
    let x := seatOf s w.val
    let d := j.raw.toNat
    let dst := (vEntry d j.c 3 (vD d)).toNat
    let s1 := (vEntry d j.c 2 (vS1 d)).toNat
    (∀ i, i < vN d → ∀ e ∈ (s1 + i) :: maskReads d i, ReadsFirst x j 0 dst i e) →
    ∃ y, exec (.expand w) s = .next (putSeat s w.val y) ∧ VeWrites x y j (veAt x j (vN d + 4)) dst (vN d) fun i l =>
      if ActiveLane x j i l then some (stripWord x.vec s1 (activeBefore x j (32 * i + l)).length) else inactive d := by
  intro x d dst s1 hrd
  have hdone : veDone d = vN d - 1 + 4 := by simp [veDone, veW0Last, veLat, d, h.opcode]
  have hk : ∀ i l, l < 32 → (activeBefore x j (32 * i + l)).length < 32 * (i + 1) := fun i l hl =>
    lt_of_le_of_lt (List.length_filter_le _ _) (by rw [List.length_range]; omega)
  show ∃ y, execExpand w s = _ ∧ _
  rw [execExpand_eq]
  refine veRow_strip h (step := expandStep x j) (a := ([], 0)) (g := fun o _ => o) rfl (fun _ _ => ⟨rfl, rfl⟩)
    (fun i => veAt x j (i + 4)) (fun a i => ((activeLanes d j.tail x.vec i).foldl (expandLane d (a.1 ++ entryOf x.vec (s1 + i))) (a.2, [])).2)
    (by rw [hdone]; omega) h.cache hrd (fun i b u hu => expandStep_congr x j b hu) (fun _ _ => rfl)
    (fun a i => by rw [activeLanes_eq, expandLane_foldl]; simp) (fun i hi => veAt_lt x j (by omega)) fun i _ l hl => ?_
  rw [expandStep_run, map_stripWord_succ, activeLanes_eq, expandLane_foldl, getD_map_range _ _ hl,
    ← length_activeBefore_add x j i hl.le, getElem?_map_range _ (hk i l hl)]
  simp only [decide_eq_true_eq]
  rfl

/-! ## GATHER -/

/-- One lane of GATHER: the window element that the index `ix` names, +0 and a count where it lies outside (04 R135). -/
def gatherLane (d : Nat) (window : List Word) (ix : Int) : Option Word × Nat :=
  if 0 ≤ ix ∧ ix < 32 * vSlen d then (some ((window[ix.toNat]?).getD 0), 0) else (some 0, 1)

/-- One step of GATHER's stream of index entries (04 R135). -/
def gatherStep (x : Seat) (j : Job) (a : List Word × Nat) (o : Vec) (i : Nat) : (List Word × Nat) × List W0 :=
  let d := j.raw.toNat
  let r := (activeLanes d j.tail o i).zipIdx.map fun p =>
    if p.1 then gatherLane d a.1 (laneOf o ((vEntry d j.c 1 (vS2 d)).toNat + i) p.2).toInt else (inactive d, 0)
  ((a.1, a.2 + (r.map (·.2)).sum), [(veAt x j (vSlen d + i + 3), (vEntry d j.c 3 (vD d)).toNat + i, r.map (·.1))])

/-- One step of GATHER's reads of its window. -/
def windowStep (d c : Nat) (a : List Word × Nat) (o : Vec) (i : Nat) : (List Word × Nat) × List W0 :=
  ((a.1 ++ entryOf o ((vEntry d c 2 (vS1 d)).toNat + i), a.2), [])

theorem execGather_eq (w : SeatIx) (s : State) : execGather w s = veRow 0x2A w.val s fun x j =>
    let d := j.raw.toNat
    let win := jobStream x j 0 (vSlen d) (fun i => [(vEntry d j.c 2 (vS1 d)).toNat + i]) (windowStep d j.c) (x.vec, ([], 0), none)
    veEnd s w.val x j (jobStream x j (vSlen d) (vN d) (fun i => ((vEntry d j.c 1 (vS2 d)).toNat + i) :: maskReads d i) (gatherStep x j) win)
      fun o a => { o with oor := satAdd o.oor a.2 } := rfl

theorem windowStep_run (d c : Nat) (o : Vec) (n : Nat) : (streamRun (windowStep d c) o ([], 0) n).1 =
    ((List.range (32 * n)).map (stripWord o (vEntry d c 2 (vS1 d)).toNat), 0) := by
  induction n with
  | zero => rfl
  | succ n ih => rw [streamRun_succ, ih, windowStep, map_stripWord_succ]

theorem gatherStep_run (x : Seat) (j : Job) (a : List Word × Nat) (n : Nat) : (streamRun (gatherStep x j) x.vec a n).1.1 = a.1 := by
  induction n with
  | zero => rfl
  | succ n ih =>
    rw [streamRun_succ, gatherStep]
    exact ih

theorem gatherStep_congr (x : Seat) (j : Job) (a : List Word × Nat) {u o : Vec} {i : Nat}
    (h : ∀ e ∈ ((vEntry j.raw.toNat j.c 1 (vS2 j.raw.toNat)).toNat + i) :: maskReads j.raw.toNat i, SameEntry u o e) :
    gatherStep x j a u i = gatherStep x j a o i := by
  obtain ⟨he, hm⟩ := SameEntry.of_read h
  unfold gatherStep
  dsimp only
  rw [activeMap_congr (g := fun l => gatherLane j.raw.toNat a.1 (laneOf u _ l).toInt) hm _ fun l hl => by rw [he l hl]]

/-- GATHER writes its strip, each active element the window element that its index names (04 R135). -/
theorem exec_gather {s : State} {w : SeatIx} {j : Job} (h : VeRuns s w.val j 0x2A) :
    let x := seatOf s w.val
    let d := j.raw.toNat
    let dst := (vEntry d j.c 3 (vD d)).toNat
    let s1 := (vEntry d j.c 2 (vS1 d)).toNat
    let s2 := (vEntry d j.c 1 (vS2 d)).toNat
    (∀ i, i < vSlen d → readable x.vec (s1 + i) (veAt x j i) = true) →
    (∀ i, i < vN d → ∀ e ∈ (s2 + i) :: maskReads d i, ReadsFirst x j (vSlen d) dst i e) →
    ∃ y, exec (.gather w) s = .next (putSeat s w.val y) ∧ VeWrites x y j (veAt x j (vSlen d + vN d + 3)) dst (vN d) fun i l =>
      if ActiveLane x j i l then
        let k := (laneOf x.vec (s2 + i) l).toInt
        some (if 0 ≤ k ∧ k < 32 * vSlen d then stripWord x.vec s1 k.toNat else 0)
      else inactive d := by
  intro x d dst s1 s2 hwin hrd
  have hdone : veDone d = vSlen d + vN d + 2 := by simp [veDone, veW0Last, d, h.opcode]
  obtain ⟨o, hst, ho⟩ := jobStream_silent (k := 0) (n := vSlen d) (reads := fun i => [s1 + i]) (step := windowStep d j.c) (a := ([], 0))
    h.live (by rw [hdone]; omega) h.cache
    (fun i hi e he => by rw [List.mem_singleton.mp he, Nat.zero_add]; exact hwin i hi)
    (fun i _ a u hu => by rw [windowStep, entryOf_congr (hu _ (List.mem_singleton_self _))]; rfl) (fun _ _ => rfl)
  show ∃ y, execGather w s = _ ∧ _
  rw [execGather_eq]
  refine veRow_strip h (step := gatherStep x j) (g := fun o a => { o with oor := satAdd o.oor a.2 }) (by dsimp only; rw [hst])
    (fun _ _ => ⟨rfl, rfl⟩) (fun i => veAt x j (vSlen d + i + 3))
    (fun a i => ((activeLanes d j.tail x.vec i).zipIdx.map fun p =>
      if p.1 then gatherLane d a.1 (laneOf x.vec (s2 + i) p.2).toInt else (inactive d, 0)).map (·.1))
    (by rw [hdone]; omega) ho hrd (fun i b u hu => gatherStep_congr x j b hu) (fun _ _ => rfl)
    (fun a i => by simp [activeLanes]) (fun i hi => veAt_lt x j (by omega)) fun i _ l hl => ?_
  rw [gatherStep_run, windowStep_run, activeMap_eq x j i fun l => gatherLane d _ (laneOf x.vec (s2 + i) l).toInt, List.map_map,
    getD_map_range _ _ hl, Function.comp_apply]
  by_cases ha : ActiveLane x j i l
  · rw [if_pos ha, if_pos ha, gatherLane]
    dsimp only
    split
    next hk => rw [getElem?_map_range _ (by omega), Option.getD_some]
    next => rfl
  · rw [if_neg ha, if_neg ha]

/-! ## CURVE and RAND -/

/-- One lane of CURVE: the value of the table `img` at `y`, at the width of the descriptor's type, and what it counts (04 R130). -/
def curveLane (d : Nat) (img : Mem) (y : Word) : Option Word × Nat :=
  (some (if vType d = tyBf then fpConv pBf (curveEval img y).1 else (curveEval img y).1), (curveEval img y).2)

/-- One step of CURVE's stream (04 R130, R131). -/
def curveStep (x : Seat) (j : Job) (a : Nat) (o : Vec) (i : Nat) : Nat × List W0 :=
  let d := j.raw.toNat
  let r := (activeLanes d j.tail o i).zipIdx.map fun p =>
    if p.1 then curveLane d (tget [] x.vec.curves (vCslot d)) (laneOf o ((vEntry d j.c 2 (vS1 d)).toNat + i) p.2) else (inactive d, 0)
  (a + (r.map (·.2)).sum, [(veAt x j (i + 6), (vEntry d j.c 3 (vD d)).toNat + i, r.map (·.1))])

theorem execCurve_eq (w : SeatIx) (s : State) : execCurve w s = veRow 0x18 w.val s fun x j =>
    let d := j.raw.toNat
    veEnd s w.val x j (jobStream x j 0 (vN d) (fun i => ((vEntry d j.c 2 (vS1 d)).toNat + i) :: maskReads d i) (curveStep x j)
      (x.vec, 0, none)) fun o n => { o with curveOut := satAdd o.curveOut n } := rfl

theorem curveStep_congr (x : Seat) (j : Job) (a : Nat) {u o : Vec} {i : Nat}
    (h : ∀ e ∈ ((vEntry j.raw.toNat j.c 2 (vS1 j.raw.toNat)).toNat + i) :: maskReads j.raw.toNat i, SameEntry u o e) :
    curveStep x j a u i = curveStep x j a o i := by
  obtain ⟨he, hm⟩ := SameEntry.of_read h
  unfold curveStep
  dsimp only
  rw [activeMap_congr (g := fun l => curveLane j.raw.toNat _ (laneOf u _ l)) hm _ fun l hl => by rw [he l hl]]

/-- CURVE writes its strip, each active element its value in the slot's table (04 R130). -/
theorem exec_curve {s : State} {w : SeatIx} {j : Job} (h : VeRuns s w.val j 0x18) :
    let x := seatOf s w.val
    let d := j.raw.toNat
    let dst := (vEntry d j.c 3 (vD d)).toNat
    let s1 := (vEntry d j.c 2 (vS1 d)).toNat
    (∀ i, i < vN d → ∀ e ∈ (s1 + i) :: maskReads d i, ReadsFirst x j 0 dst i e) →
    ∃ y, exec (.curve w) s = .next (putSeat s w.val y) ∧ VeWrites x y j (veAt x j (vN d + 6)) dst (vN d) fun i l =>
      if ActiveLane x j i l then (curveLane d (tget [] x.vec.curves (vCslot d)) (laneOf x.vec (s1 + i) l)).1 else inactive d := by
  intro x d dst s1 hrd
  have hdone : veDone d = vN d - 1 + 6 := by simp [veDone, veW0Last, veLat, d, h.opcode]
  show ∃ y, execCurve w s = _ ∧ _
  rw [execCurve_eq]
  refine veRow_strip h (step := curveStep x j) rfl (fun _ _ => ⟨rfl, rfl⟩) (fun i => veAt x j (i + 6))
    (fun _ i => ((activeLanes d j.tail x.vec i).zipIdx.map fun p =>
      if p.1 then curveLane d (tget [] x.vec.curves (vCslot d)) (laneOf x.vec (s1 + i) p.2) else (inactive d, 0)).map (·.1))
    (by rw [hdone]; omega) h.cache hrd (fun i b u hu => curveStep_congr x j b hu) (fun _ _ => rfl)
    (fun a i => by simp [activeLanes]) (fun i hi => veAt_lt x j (by omega)) fun i _ l hl => ?_
  rw [activeMap_eq x j i fun l => curveLane d _ (laneOf x.vec (s1 + i) l), List.map_map, getD_map_range _ _ hl, Function.comp_apply]
  exact apply_ite Prod.fst ..

/-- Lane `l` of strip entry `i` of a RAND: the generator's value for that element of the descriptor's tile index (04 R143). -/
def randLane (x : Seat) (j : Job) (i l : Nat) : Option Word :=
  let d := j.raw.toNat
  let r := rnd24 x.cox.seed (tileIdx (vRtidx d) j.c (vRtstep d)) ((vEbase d + 32 * i + l) % 4096)
  some (if vType d = tyI32 then w32 r else roundFp pFp false r (-24))

/-- One step of RAND's stream (04 R143). -/
def randStep (x : Seat) (j : Job) (a : Unit) (o : Vec) (i : Nat) : Unit × List W0 :=
  let d := j.raw.toNat
  (a, [(veAt x j (i + 5), (vEntry d j.c 3 (vD d)).toNat + i, (activeLanes d j.tail o i).zipIdx.map fun p =>
    if p.1 then randLane x j i p.2 else inactive d)])

theorem execRand_eq (w : SeatIx) (s : State) : execRand w s = veRow 0x2C w.val s fun x j =>
    veEnd s w.val x j (jobStream x j 0 (vN j.raw.toNat) (maskReads j.raw.toNat) (randStep x j) (x.vec, (), none)) fun o _ => o := rfl

/-- RAND writes its strip, each active element the generator's value for it (04 R143). -/
theorem exec_rand {s : State} {w : SeatIx} {j : Job} (h : VeRuns s w.val j 0x2C) :
    let x := seatOf s w.val
    let d := j.raw.toNat
    let dst := (vEntry d j.c 3 (vD d)).toNat
    (∀ i, i < vN d → ∀ e ∈ maskReads d i, ReadsFirst x j 0 dst i e) →
    ∃ y, exec (.rand w) s = .next (putSeat s w.val y) ∧ VeWrites x y j (veAt x j (vN d + 5)) dst (vN d) fun i l =>
      if ActiveLane x j i l then randLane x j i l else inactive d := by
  intro x d dst hrd
  have hdone : veDone d = vN d - 1 + 5 := by simp [veDone, veW0Last, veLat, d, h.opcode]
  show ∃ y, execRand w s = _ ∧ _
  rw [execRand_eq]
  refine veRow_strip h (step := randStep x j) rfl (fun _ _ => ⟨rfl, rfl⟩) (fun i => veAt x j (i + 5))
    (fun _ i => (activeLanes d j.tail x.vec i).zipIdx.map fun p => if p.1 then randLane x j i p.2 else inactive d)
    (by rw [hdone]; omega) h.cache hrd (fun i b u hu => by rw [randStep, activeLanes_congr hu]; rfl)
    (fun _ _ => rfl) (fun a i => by simp [activeLanes]) (fun i hi => veAt_lt x j (by omega)) fun i _ l hl => ?_
  rw [activeMap_eq x j i fun l => randLane x j i l, getD_map_range _ _ hl]

end Sys2Proof.Machine
end

section
/-!
SUPPORT. The operations that gather a strip before they write (04 R133, R136, R137): what COMPRESS, TOPK and REDUCE along entries carry, and what
they write.
-/
namespace Sys2Proof.Machine

/-! ## COMPRESS -/

/-- What COMPRESS takes of the active element `m` (04 R133). -/
def compressWord (d c : Nat) (o : Vec) (m : Nat) : Word := if vIdx d then w32 m else stripWord o (vEntry d c 2 (vS1 d)).toNat m

/-- One step of COMPRESS's stream (04 R133). -/
def compressStep (j : Job) : List Word → Vec → Nat → List Word × List W0 := fun a o i =>
  let d := j.raw.toNat
  let s1 := (vEntry d j.c 2 (vS1 d)).toNat
  (a ++ (activeLanes d j.tail o i).zipIdx.filterMap fun p =>
    if p.1 then some (if vIdx d then w32 (32 * i + p.2) else laneOf o (s1 + i) p.2) else none, [])

/-- The writes of COMPRESS: the words packed from element 0, then +0 (04 R133). -/
def compressWrites (x : Seat) (j : Job) (xs : List Word) : List W0 :=
  let d := j.raw.toNat
  (List.range (vN d)).map fun k => (veAt x j (vN d + 4 + k), (vEntry d j.c 3 (vD d)).toNat + k,
    (List.range 32).map fun l => some ((xs[32 * k + l]?).getD 0))

theorem stripWord_lane (o : Vec) (e i : Nat) {l : Nat} (hl : l < 32) : stripWord o e (32 * i + l) = laneOf o (e + i) l := by
  rw [stripWord, show (32 * i + l) / 32 = i by omega, show (32 * i + l) % 32 = l by omega]

theorem compressStep_congr (j : Job) (a : List Word) {u o : Vec} {i : Nat}
    (h : ∀ e ∈ ((vEntry j.raw.toNat j.c 2 (vS1 j.raw.toNat)).toNat + i) :: maskReads j.raw.toNat i, SameEntry u o e) :
    compressStep j a u i = compressStep j a o i := by
  obtain ⟨he, hm⟩ := SameEntry.of_read h
  unfold compressStep
  dsimp only
  rw [activeFilterMap_congr (g := fun l => if vIdx _ then w32 (32 * i + l) else laneOf u _ l) hm fun l hl => by rw [he l hl]]

theorem compressStep_run (x : Seat) (j : Job) (n : Nat) :
    (streamRun (compressStep j) x.vec [] n).1 = (activeBefore x j (32 * n)).map (compressWord j.raw.toNat j.c x.vec) := by
  induction n with
  | zero => rfl
  | succ n ih =>
    rw [streamRun_succ, ih, compressStep]
    dsimp only
    rw [activeFilterMap_eq x j n fun l => if vIdx _ then w32 (32 * n + l) else laneOf x.vec _ l, Nat.mul_succ,
      activeBefore_add x j n 32 le_rfl, List.map_append, List.map_map]
    refine congrArg _ (List.map_congr_left fun l hl => ?_)
    rw [Function.comp_apply, compressWord, stripWord_lane _ _ _ (List.mem_range.mp (List.mem_of_mem_filter hl))]

/-- COMPRESS, once its stream has taken the words `xs`, writes them and gives their count to its counter (04 R133). -/
theorem exec_compress_packs {s : State} {w : SeatIx} {x : Seat} {j : Job} {u : Vec} {xs : List Word} (hx : seatOf s w.val = x)
    (h : VeRuns s w.val j 0x28) (hat : runsAt x (2 * veAt x j (vN j.raw.toNat + 3) + 1) = true)
    (hst : jobStream x j 0 (vN j.raw.toNat) (fun i => ((vEntry j.raw.toNat j.c 2 (vS1 j.raw.toNat)).toNat + i) :: maskReads j.raw.toNat i)
      (compressStep j) (x.vec, [], none) = (u, xs, none)) :
    exec (.compress w) s = .next (putSeat s w.val (veFinish
      { x with cox := { x.cox with
        due := x.cox.due ++ [(2 * veAt x j (vN j.raw.toNat + 3) + 1, vCdst j.raw.toNat, w32 xs.length)] } } j
      { (compressWrites x j xs).foldl opcWrite u with lastCount := w32 xs.length })) := by
  subst hx
  have hlive : veLive (seatOf s w.val) j = true := h.live
  show execCompress w s = _
  unfold execCompress
  unfold compressStep laneOf at hst
  rw [veRow_runs h]
  simp only [hst, hat, hlive, Bool.true_eq_false, if_false, if_true, compressWrites, List.foldl_map]

/-- COMPRESS writes its strip and its count (04 R133). -/
theorem exec_compress {s : State} {w : SeatIx} {j : Job} (h : VeRuns s w.val j 0x28) :
    let x := seatOf s w.val
    let d := j.raw.toNat
    let dst := (vEntry d j.c 3 (vD d)).toNat
    let s1 := (vEntry d j.c 2 (vS1 d)).toNat
    let act := activeBefore x j (32 * vN d)
    (∀ i, i < vN d → ∀ e ∈ (s1 + i) :: maskReads d i, readable x.vec e (veAt x j i) = true) →
    ∃ y, exec (.compress w) s = .next (putSeat s w.val y) ∧
      VeWrites x y j (veAt x j (2 * vN d + 4)) dst (vN d) (fun i l => some (((act.map (compressWord d j.c x.vec))[32 * i + l]?).getD 0)) ∧
      y.vec.lastCount = w32 act.length ∧ y.cox.due = x.cox.due ++ [(2 * veAt x j (vN d + 3) + 1, vCdst d, w32 act.length)] := by
  intro x d dst s1 act hrd
  have hdone : veDone d = 2 * vN d + 3 := by simp [veDone, veW0Last, d, h.opcode]
  obtain ⟨u, hst, hu⟩ := jobStream_silent (k := 0) (n := vN d) (reads := fun i => (s1 + i) :: maskReads d i) (step := compressStep j)
    (a := []) h.live (by rw [hdone]; omega) h.cache (fun i hi e he => by rw [Nat.zero_add]; exact hrd i hi e he)
    (fun i _ a u hu => compressStep_congr j a hu) (fun _ _ => rfl)
  rw [compressStep_run] at hst
  have hat : runsAt x (2 * veAt x j (vN d + 3) + 1) = true := by
    refine runsAt_of_le_veOver h.live ?_
    have h1 := two_mul_veAt_le x j (vN d + 3)
    have h2 := veCoreAt_add_le x j (a := 2 * (vN d + 3)) (k := 1) (b := 2 * veDone d + 1) (by omega)
    exact (Nat.add_le_add_right h1 1).trans h2
  have hu' := hu.writes (compressWrites x j (act.map (compressWord d j.c x.vec))) (fun p hp => by
    obtain ⟨k, -, rfl⟩ := List.mem_map.mp hp
    simp) (ownEntries_strip _ _ _ _)
  refine ⟨_, exec_compress_packs rfl h hat hst, ?_, ?_, ?_⟩
  · exact veWrites_of_strip hu' rfl rfl (fun i hi => veAt_lt x j (by have : vN j.raw.toNat = vN d := rfl; omega)) (fun i _ l hl => getD_map_range _ _ hl)
      ⟨rfl, rfl, rfl, rfl, rfl, rfl⟩
  · rw [List.length_map]
    rfl
  · rw [List.length_map]
    rfl

/-! ## TOPK -/

/-- The active elements of one entry of a pair, each with its index in the pair (04 R137). -/
def pairHalf (d tail : Nat) (s1 : Nat) (o : Vec) (i : Nat) : List (Word × Nat) :=
  (activeLanes d tail o i).zipIdx.filterMap fun p => if p.1 then some (laneOf o (s1 + i) p.2, 32 * (i % 2) + p.2) else none

/-- One step of TOPK's stream: the second entry of a pair gives the pair's ranking (04 R137). -/
def topkStep (x : Seat) (j : Job) (a : List (Word × Nat)) (o : Vec) (i : Nat) : List (Word × Nat) × List W0 :=
  let d := j.raw.toNat
  let dst := (vEntry d j.c 3 (vD d)).toNat
  let xs := pairHalf d j.tail (vEntry d j.c 2 (vS1 d)).toNat o i
  if i % 2 = 0 then (xs, [])
  else
    let r := topk (vType d == tyI32) (vK d) (a ++ xs)
    let b := i - 1
    ([], [(veAt x j (b + 13), dst + b, r.map fun e => some e.1), (veAt x j (b + 14), dst + b + 1, r.map fun e => some e.2)])

theorem execTopk_eq (w : SeatIx) (s : State) : execTopk w s = veRow 0x21 w.val s fun x j =>
    let d := j.raw.toNat
    veEnd s w.val x j (jobStream x j 0 (vN d) (fun i => ((vEntry d j.c 2 (vS1 d)).toNat + i) :: maskReads d i) (topkStep x j)
      (x.vec, [], none)) fun o _ => o := rfl

theorem pairHalf_congr {d tail s1 i : Nat} {u o : Vec} (he : SameEntry u o (s1 + i)) (hm : ∀ e ∈ maskReads d i, SameEntry u o e) :
    pairHalf d tail s1 u i = pairHalf d tail s1 o i :=
  activeFilterMap_congr (g := fun l => (laneOf u (s1 + i) l, 32 * (i % 2) + l)) (g' := fun l => (laneOf o (s1 + i) l, 32 * (i % 2) + l)) hm
    fun l hl => by rw [he l hl]

theorem topkStep_congr (x : Seat) (j : Job) (a : List (Word × Nat)) {u o : Vec} {i : Nat}
    (h : ∀ e ∈ ((vEntry j.raw.toNat j.c 2 (vS1 j.raw.toNat)).toNat + i) :: maskReads j.raw.toNat i, SameEntry u o e) :
    topkStep x j a u i = topkStep x j a o i := by
  obtain ⟨he, hm⟩ := SameEntry.of_read h
  simp only [topkStep, pairHalf_congr he hm]

/-- The active elements of pair `q` of the strip, each with its index in the pair (04 R137). -/
def pairActive (x : Seat) (j : Job) (q : Nat) : List (Word × Nat) :=
  let s1 := (vEntry j.raw.toNat j.c 2 (vS1 j.raw.toNat)).toNat
  ((List.range 64).filter fun m => decide (ActiveLane x j (q * 2 + m / 32) (m % 32))).map fun m =>
    (laneOf x.vec (s1 + q * 2 + m / 32) (m % 32), m)

theorem pairHalf_eq (x : Seat) (j : Job) (s1 q : Nat) {b : Nat} (hb : b < 2) : pairHalf j.raw.toNat j.tail s1 x.vec (2 * q + b) =
    ((List.range 32).filter fun l => decide (ActiveLane x j (q * 2 + (32 * b + l) / 32) ((32 * b + l) % 32))).map fun l =>
      (laneOf x.vec (s1 + q * 2 + (32 * b + l) / 32) ((32 * b + l) % 32), 32 * b + l) := by
  have hl : ∀ l ∈ List.range 32, q * 2 + (32 * b + l) / 32 = 2 * q + b ∧ (32 * b + l) % 32 = l := fun l hl => by
    have := List.mem_range.mp hl
    omega
  have hfil : (List.range 32).filter (fun l => decide (ActiveLane x j (2 * q + b) l)) =
      (List.range 32).filter fun l => decide (ActiveLane x j (q * 2 + (32 * b + l) / 32) ((32 * b + l) % 32)) :=
    List.filter_congr fun l h => by rw [(hl l h).1, (hl l h).2]
  unfold pairHalf
  rw [activeFilterMap_eq x j (2 * q + b) fun l => (laneOf x.vec (s1 + (2 * q + b)) l, 32 * ((2 * q + b) % 2) + l),
    hfil]
  refine List.map_congr_left fun l h => ?_
  obtain ⟨h1, h2⟩ := hl l (List.mem_of_mem_filter h)
  rw [Nat.add_assoc s1, h1, h2, show (2 * q + b) % 2 = b by omega]

theorem pairHalf_append (x : Seat) (j : Job) (q : Nat) :
    let s1 := (vEntry j.raw.toNat j.c 2 (vS1 j.raw.toNat)).toNat
    pairHalf j.raw.toNat j.tail s1 x.vec (2 * q) ++ pairHalf j.raw.toNat j.tail s1 x.vec (2 * q + 1) = pairActive x j q := by
  intro s1
  rw [pairActive, show 64 = 32 * 1 + 32 from rfl, filter_range_add, List.map_append, List.map_map, ← Nat.add_zero (2 * q),
    pairHalf_eq x j s1 q (by decide), Nat.add_zero, pairHalf_eq x j s1 q (by decide)]
  simp only [Nat.mul_zero, Nat.zero_add]
  rfl

/-- The write of entry `i` of TOPK's strip: the values of its pair's ranking, or their indices (04 R137). -/
def topkWrite (x : Seat) (j : Job) (i : Nat) : List (Option Word) :=
  (topk (vType j.raw.toNat == tyI32) (vK j.raw.toNat) (pairActive x j (i / 2))).map fun e => some (if i % 2 = 0 then e.1 else e.2)

theorem getD_map_some {α β : Type} (g : α → β) (a : List α) (l : Nat) : (a.map fun e => some (g e)).getD l none = a[l]?.map g := by
  rw [List.getD_eq_getElem?_getD, List.getElem?_map]
  cases a[l]? <;> rfl

theorem topkStep_run (x : Seat) (j : Job) (q : Nat) : streamRun (topkStep x j) x.vec [] (2 * q) =
    ([], (List.range (2 * q)).map fun i => (veAt x j (i + 13), (vEntry j.raw.toNat j.c 3 (vD j.raw.toNat)).toNat + i, topkWrite x j i)) := by
  induction q with
  | zero => rfl
  | succ q ih =>
    rw [Nat.mul_succ, streamRun_succ, streamRun_succ, ih]
    have h0 : 2 * q % 2 = 0 := by omega
    have h1 : ¬ (2 * q + 1) % 2 = 0 := by omega
    simp only [topkStep, if_pos h0, if_neg h1, pairHalf_append, List.append_nil, Nat.add_sub_cancel]
    rw [List.range_succ, List.range_succ, List.map_append, List.map_append, List.append_assoc]
    simp only [List.map_cons, List.map_nil, topkWrite, show 2 * q / 2 = q by omega, show (2 * q + 1) / 2 = q by omega, if_pos h0, if_neg h1]
    rfl

theorem length_topk (i32 : Bool) {k : Nat} (hk : k ≤ 32) (xs : List (Word × Nat)) : (topk i32 k xs).length = 32 := by
  unfold topk
  simp only [List.length_append, List.length_replicate, List.length_map, List.length_take]
  omega

/-- TOPK writes for each pair of entries the highest values and their indices (04 R137). -/
theorem exec_topk {s : State} {w : SeatIx} {j : Job} (h : VeRuns s w.val j 0x21) (hn : vN j.raw.toNat % 2 = 0) (hk : vK j.raw.toNat ≤ 32) :
    let x := seatOf s w.val
    let d := j.raw.toNat
    let dst := (vEntry d j.c 3 (vD d)).toNat
    let s1 := (vEntry d j.c 2 (vS1 d)).toNat
    (∀ i, i < vN d → ∀ e ∈ (s1 + i) :: maskReads d i, readable x.vec e (veAt x j i) = true ∧ (e < dst ∨ dst + vN d ≤ e)) →
    ∃ y, exec (.topk w) s = .next (putSeat s w.val y) ∧
      VeWrites x y j (veAt x j (vN d + 13)) dst (vN d) fun i l => (topkWrite x j i).getD l none := by
  intro x d dst s1 hrd
  have hdone : veDone d = vN d + 12 := by simp [veDone, veW0Last, d, h.opcode]
  obtain ⟨q, hq⟩ : ∃ q, vN d = 2 * q := ⟨vN d / 2, by have : vN d % 2 = 0 := hn; omega⟩
  obtain ⟨u, hst, hu⟩ := jobStream_apart (k := 0) (n := vN d) (m := vN d) (step := topkStep x j) (a := []) (ls := topkWrite x j) h.live (by rw [hdone]; omega) h.cache
    (fun i hi e he => by rw [Nat.zero_add]; exact hrd i hi e he) (fun i _ a u hu => topkStep_congr x j a hu)
    (by rw [hq]; exact congrArg Prod.snd (topkStep_run x j q)) (fun i => by rw [topkWrite, List.length_map, length_topk _ hk])
  show ∃ y, execTopk w s = _ ∧ _
  rw [execTopk_eq]
  exact veRow_ends h (g := fun o _ => o) rfl (fun _ _ => ⟨rfl, rfl⟩) hst hu (fun i hi => veAt_lt x j (by omega)) fun _ _ _ _ => rfl

/-! ## REDUCE along entries -/

/-- The words that REDUCE takes of a strip entry, the identity in inactive lanes (04 R136). -/
def reduceRow (d tail s1 : Nat) (o : Vec) (i : Nat) : List Word :=
  (activeLanes d tail o i).zipIdx.map fun p =>
    if p.1 then ropTake (vRop d) (vType d == tyI32) (laneOf o (s1 + i) p.2) else ropIdent (vRop d) (vType d == tyI32)

/-- One step of REDUCE's stream (04 R136). -/
def reduceStep (x : Seat) (j : Job) (a : List (List Word) × List Word) (o : Vec) (i : Nat) : (List (List Word) × List Word) × List W0 :=
  let d := j.raw.toNat
  let dst := (vEntry d j.c 3 (vD d)).toNat
  let f := ropApply (vRop d) (vType d == tyI32)
  let grp := a.1 ++ [reduceRow d j.tail (vEntry d j.c 2 (vS1 d)).toNat o i]
  if (i + 1) % vG d = 0 then
    if vAxis d then (([], []), [(veAt x j ((i / vG d + 1) * vG d - 1 + 4), dst + i / vG d, (reduceEntries f grp).map some)])
    else
      let sc := a.2 ++ [reduceLanes f grp]
      if sc.length = 32 ∨ i + 1 = vN d then
        (([], []), [(veAt x j (i + 6), dst + i / vG d / 32, (List.range 32).map fun l => some ((sc[l]?).getD 0))])
      else (([], sc), [])
  else ((grp, a.2), [])

theorem execReduce_eq (w : SeatIx) (s : State) : execReduce w s = veRow 0x20 w.val s fun x j =>
    let d := j.raw.toNat
    veEnd s w.val x j (jobStream x j 0 (vN d) (fun i => ((vEntry d j.c 2 (vS1 d)).toNat + i) :: maskReads d i) (reduceStep x j)
      (x.vec, ([], []), none)) fun o _ => o := rfl

theorem reduceStep_congr (x : Seat) (j : Job) (a : List (List Word) × List Word) {u o : Vec} {i : Nat}
    (h : ∀ e ∈ ((vEntry j.raw.toNat j.c 2 (vS1 j.raw.toNat)).toNat + i) :: maskReads j.raw.toNat i, SameEntry u o e) :
    reduceStep x j a u i = reduceStep x j a o i := by
  obtain ⟨he, hm⟩ := SameEntry.of_read h
  have hr : reduceRow j.raw.toNat j.tail (vEntry j.raw.toNat j.c 2 (vS1 j.raw.toNat)).toNat u i =
      reduceRow j.raw.toNat j.tail (vEntry j.raw.toNat j.c 2 (vS1 j.raw.toNat)).toNat o i :=
    activeMap_congr (g := fun l => ropTake _ _ (laneOf u _ l)) (g' := fun l => ropTake _ _ (laneOf o _ l)) hm _ fun l hl => by rw [he l hl]
  simp only [reduceStep, hr]

/-- The rows of group `q` among its first `n` entries. -/
def groupRows (x : Seat) (j : Job) (q n : Nat) : List (List Word) :=
  (List.range n).map fun k => reduceRow j.raw.toNat j.tail (vEntry j.raw.toNat j.c 2 (vS1 j.raw.toNat)).toNat x.vec (vG j.raw.toNat * q + k)

theorem groupRows_succ (x : Seat) (j : Job) (q n : Nat) : groupRows x j q (n + 1) = groupRows x j q n ++
    [reduceRow j.raw.toNat j.tail (vEntry j.raw.toNat j.c 2 (vS1 j.raw.toNat)).toNat x.vec (vG j.raw.toNat * q + n)] := by
  rw [groupRows, List.range_succ, List.map_append]
  rfl

/-- The write of entry `q` of the strip of a REDUCE along entries: its group's result (04 R136). -/
def reduceWrite (x : Seat) (j : Job) (q : Nat) : W0 :=
  let d := j.raw.toNat
  (veAt x j ((q + 1) * vG d - 1 + 4), (vEntry d j.c 3 (vD d)).toNat + q,
    (reduceEntries (ropApply (vRop d) (vType d == tyI32)) (groupRows x j q (vG d))).map some)

section
variable (x : Seat) (j : Job) (ha : vAxis j.raw.toNat = true) (hg : 0 < vG j.raw.toNat)

/-- Inside a group the rows are carried along. -/
theorem reduceStep_group {q : Nat} {ws : List W0} (h0 : streamRun (reduceStep x j) x.vec ([], []) (vG j.raw.toNat * q) = (([], []), ws)) (n : Nat)
    (hn : n < vG j.raw.toNat) : streamRun (reduceStep x j) x.vec ([], []) (vG j.raw.toNat * q + n) = ((groupRows x j q n, []), ws) := by
  induction n with
  | zero => exact h0
  | succ n ih =>
    have hm : ¬ (vG j.raw.toNat * q + n + 1) % vG j.raw.toNat = 0 := by
      rw [Nat.add_assoc, Nat.mul_add_mod, Nat.mod_eq_of_lt hn]
      omega
    rw [← Nat.add_assoc, streamRun_succ, ih (by omega), reduceStep]
    dsimp only
    rw [if_neg hm, ← groupRows_succ, List.append_nil]

include ha hg

/-- With the last entry of each group its result is written. -/
theorem reduceStep_run (q : Nat) :
    streamRun (reduceStep x j) x.vec ([], []) (vG j.raw.toNat * q) = (([], []), (List.range q).map (reduceWrite x j)) := by
  induction q with
  | zero => rfl
  | succ q ih =>
    obtain ⟨n, hn⟩ : ∃ n, vG j.raw.toNat = n + 1 := Nat.exists_eq_add_one.mpr hg
    have hm : (vG j.raw.toNat * q + n + 1) % vG j.raw.toNat = 0 := by
      rw [Nat.add_assoc, ← hn, Nat.mul_add_mod, Nat.mod_self]
    have hd : (vG j.raw.toNat * q + n) / vG j.raw.toNat = q := by
      rw [Nat.mul_add_div hg, Nat.div_eq_of_lt (by omega), Nat.add_zero]
    rw [show vG j.raw.toNat * (q + 1) = vG j.raw.toNat * q + n + 1 by rw [Nat.mul_succ]; omega, streamRun_succ,
      reduceStep_group x j ih n (by omega), reduceStep]
    dsimp only
    rw [if_pos hm, if_pos ha, ← groupRows_succ, ← hn, hd, List.range_succ, List.map_append]
    rfl

end

/-- The rows of a group by their active lanes (04 R121, R136). -/
theorem groupRows_eq (x : Seat) (j : Job) (q n : Nat) : groupRows x j q n = (List.range n).map fun k => (List.range 32).map fun l =>
    let d := j.raw.toNat
    if ActiveLane x j (q * vG d + k) l then
      ropTake (vRop d) (vType d == tyI32) (laneOf x.vec ((vEntry d j.c 2 (vS1 d)).toNat + (q * vG d + k)) l)
    else ropIdent (vRop d) (vType d == tyI32) :=
  List.map_congr_left fun k _ => by
    rw [Nat.mul_comm, reduceRow]
    exact activeMap_eq x j _ (fun l => ropTake _ _ (laneOf x.vec _ l)) _

/-- REDUCE along entries writes each group's result (04 R136). -/
theorem exec_reduce {s : State} {w : SeatIx} {j : Job} (h : VeRuns s w.val j 0x20) (ha : vAxis j.raw.toNat = true) (hg : 0 < vG j.raw.toNat)
    (hn : vN j.raw.toNat % vG j.raw.toNat = 0) :
    let x := seatOf s w.val
    let d := j.raw.toNat
    let dst := (vEntry d j.c 3 (vD d)).toNat
    let s1 := (vEntry d j.c 2 (vS1 d)).toNat
    (∀ i, i < vN d → ∀ e ∈ (s1 + i) :: maskReads d i, readable x.vec e (veAt x j i) = true ∧ (e < dst ∨ dst + vN d ≤ e)) →
    ∃ y, exec (.reduce w) s = .next (putSeat s w.val y) ∧
      VeWrites x y j (veAt x j (vN d + 4)) dst (vN d / vG d) fun i l => (reduceWrite x j i).2.2.getD l none := by
  intro x d dst s1 hrd
  have ha' : vAxis d = true := ha
  have hdone : veDone d = vN d - 1 + 4 := by simp [veDone, veW0Last, d, h.opcode, ha']
  have hq : vN d = vG d * (vN d / vG d) := (Nat.mul_div_cancel' (Nat.dvd_of_mod_eq_zero hn)).symm
  obtain ⟨u, hst, hu⟩ := jobStream_apart (k := 0) (n := vN d) (m := vN d / vG d) (dst := dst) (step := reduceStep x j) (a := ([], []))
    (t := fun q => (reduceWrite x j q).1) (ls := fun q => (reduceWrite x j q).2.2) h.live (by rw [hdone]; omega) h.cache
    (fun i hi e he => by
      obtain ⟨hr, ho⟩ := hrd i hi e he
      exact ⟨by rw [Nat.zero_add]; exact hr, ho.imp_right ((Nat.add_le_add_left (Nat.div_le_self _ _) _).trans ·)⟩)
    (fun i _ a u hu => reduceStep_congr x j a hu)
    (by conv_lhs => rw [hq]
        exact congrArg Prod.snd (reduceStep_run x j ha hg _)) (fun i => by simp [reduceWrite, reduceEntries])
  show ∃ y, execReduce w s = _ ∧ _
  rw [execReduce_eq]
  refine veRow_ends h (g := fun o _ => o) rfl (fun _ _ => ⟨rfl, rfl⟩) hst hu (fun i hi => veAt_lt x j ?_) fun _ _ _ _ => rfl
  have : (i + 1) * vG d ≤ vN d := (Nat.mul_le_mul_right _ hi).trans (Nat.div_mul_le_self _ _)
  have : (i + 1) * vG j.raw.toNat = (i + 1) * vG d := rfl
  have : 0 < (i + 1) * vG d := Nat.mul_pos (by omega) hg
  omega

end Sys2Proof.Machine
end

section
open Sys2Proof Sys2Proof.Machine

/-- Settles O10: each operation as a stream over its strip, its writes as what the rules give for the strip's elements. -/
theorem vectorRearranging : Obligations.VectorRearranging := by
  intro s w j x d n dst s1 s2 idle
  refine ⟨fun h hrd => ?_, fun h hwin hrd => ?_, fun h hrd => ?_, fun h hrd => ?_, fun h hrd => ?_, fun h hn hk hrd => ?_,
    fun h ha hg hn hrd => ?_⟩
  · obtain ⟨y, he, hy⟩ := exec_expand h hrd
    exact ⟨_, he, by rw [seatOf_putSeat_self]; exact hy⟩
  · obtain ⟨y, he, hy⟩ := exec_gather h hwin hrd
    exact ⟨_, he, by rw [seatOf_putSeat_self]; exact hy⟩
  · obtain ⟨y, he, hy, hcount, hdue⟩ := exec_compress h hrd
    refine ⟨_, he, ?_⟩
    rw [seatOf_putSeat_self]
    refine ⟨?_, hcount, hdue⟩
    refine hy.congr fun i l => congrArg some ?_
    rw [List.getElem?_map]
    split
    next m hm =>
      rw [show (activeBefore x j (32 * n))[32 * i + l]? = some m from hm]
      rfl
    next hm =>
      rw [show (activeBefore x j (32 * n))[32 * i + l]? = none from hm]
      rfl
  · obtain ⟨y, he, hy⟩ := exec_curve h hrd
    exact ⟨_, he, by rw [seatOf_putSeat_self]; exact hy⟩
  · obtain ⟨y, he, hy⟩ := exec_rand h hrd
    exact ⟨_, he, by rw [seatOf_putSeat_self]; exact hy⟩
  · obtain ⟨y, he, hy⟩ := exec_topk h hn hk hrd
    refine ⟨_, he, ?_⟩
    rw [seatOf_putSeat_self]
    exact hy.congr fun i l => (getD_map_some (fun e : Word × Word => if i % 2 = 0 then e.1 else e.2) _ l).symm
  · obtain ⟨y, he, hy⟩ := exec_reduce h ha hg hn hrd
    refine ⟨_, he, ?_⟩
    rw [seatOf_putSeat_self]
    refine hy.congr fun i l => ?_
    simp only [reduceWrite, groupRows_eq]
    exact ((getD_map_some (fun e => e) _ l).trans Option.map_id').symm

end

section
/-!
SUPPORT. What CTLOAD, VLOAD and DEQUANTIZE read of core memory and write (04 R128, R141).
-/
namespace Sys2Proof.Machine

/-! ## CTLOAD -/

/-- The compares of a curve image that fail (04 R128): of its CRC, then of its header. -/
def curveChecks (x : Seat) (j : Job) : List Ev :=
  let g := (vCore j.raw.toNat j.c).toNat
  let img := mslice x.core (64 * g) 1088
  if mrd img 0x3C 4 ≠ (curveCrc img).toNat then
    [checkEv j 6 g (veCoreAt x j 10) true (pack [(0, 32, mrd img 0x3C 4), (32, 32, (curveCrc img).toNat)])]
  else if curveBad img then [(veCoreAt x j 10, veCurveImage, 6, 0, g, 0, j)]
  else []

/-- The seat whose CTLOAD has failed: the slot is empty (04 R128). -/
def curveEmptied (x : Seat) (d : Nat) : Seat := veStop { x with vec := { x.vec with curves := tdel x.vec.curves (vCslot d) } }

theorem execCtload_eq (w : SeatIx) (s : State) : execCtload w s = veRow 0x19 w.val s fun x j =>
    let d := j.raw.toNat
    let es := curveChecks x j ++ bankEvents x j
    if es.isEmpty && !veLive x j then putSeat s w.val (veStop x)
    else if es.isEmpty then
      putSeat s w.val (addSpans (veFinish x j
        { x.vec with curves := tput x.vec.curves (vCslot d) (mslice x.core (64 * (vCore d j.c).toNat) 1088) }) j)
    else raiseEvents (putSeat s w.val (curveEmptied x d)) w.val es := rfl

section
variable {s : State} {w : SeatIx} {j : Job} {x : Seat} {d g : Nat} {img : Mem} (h : VeRuns s w.val j 0x19) (hx : seatOf s w.val = x)
  (hd : j.raw.toNat = d) (hg : (vCore d j.c).toNat = g) (himg : mslice x.core (64 * g) 1088 = img) (hb : bankEvents x j = [])
include h hx hd hg himg hb

/-- An image whose CRC and header check out fills its slot (04 R128). -/
theorem exec_ctload_sound (hcrc : mrd img 0x3C 4 = (curveCrc img).toNat) (hgood : curveBad img = false) :
    exec (.ctload w) s =
      .next (putSeat s w.val (addSpans (veFinish x j { x.vec with curves := tput x.vec.curves (vCslot d) img }) j)) := by
  subst hx hd hg himg
  have hes : curveChecks (seatOf s w.val) j = [] := by
    rw [curveChecks, if_neg (not_not.mpr hcrc), if_neg (ne_true_of_eq_false hgood)]
  show execCtload w s = _
  rw [execCtload_eq, veRow_runs h]
  simp only [hes, hb, h.live, List.append_nil, List.isEmpty_nil, Bool.not_true, Bool.and_false, Bool.false_eq_true, if_false, if_true]

/-- An image whose CRC is wrong empties its slot and is CRC_MISMATCH, in the core cycle of the compare (04 R128, 15 R454). -/
theorem exec_ctload_crc (hcrc : mrd img 0x3C 4 ≠ (curveCrc img).toNat) (hj : j.torn = false) :
    exec (.ctload w) s = .next (jobFault (putSeat s w.val (curveEmptied x d)) w.val j 0x0051 6 (veCoreAt x j 10) 0 g
      (pack [(0, 32, mrd img 0x3C 4), (32, 32, (curveCrc img).toNat)])) := by
  have hes : curveChecks x j =
      [(veCoreAt x j 10, crcMismatch, 6, 0, g, pack [(0, 32, mrd img 0x3C 4), (32, 32, (curveCrc img).toNat)], j)] := by
    subst hd hg himg
    rw [curveChecks, if_pos hcrc, checkEv, if_neg (ne_true_of_eq_false hj)]
    rfl
  subst hx hd
  show execCtload w s = _
  rw [execCtload_eq, veRow_runs h]
  simp only [hes, hb, List.append_nil, List.isEmpty_cons, Bool.false_and, Bool.false_eq_true, if_false, raiseEvents_single]

end

/-! ## The entries of a tile -/

/-- The two strips of a tile do not meet, so that its first `n` entries are `n` entries (04 R138). -/
theorem ownEntries_tile {n a b : Nat} (hn : n ≤ 128) (hab : n ≤ 64 ∨ a + 64 ≤ b ∨ b + 64 ≤ a) (t : Nat → Nat) (ls : Nat → List (Option Word)) :
    OwnEntries ((List.range n).map fun k => (t k, tileEntry a b k, ls k)) := by
  refine List.pairwise_map.mpr (List.Pairwise.imp_of_mem (fun {k m} _ hm hkm => ?_) List.pairwise_lt_range)
  have := List.mem_range.mp hm
  show tileEntry a b k ≠ tileEntry a b m
  unfold tileEntry
  split_ifs <;> omega

/-- The operand cache once a load has written the words `val` to the first `n` entries of a tile, entry `k` in vector cycle `t k` (04 R141). -/
def tileLoaded (t : Nat → Nat) (a b : Nat) (val : Nat → Nat → Word) (n : Nat) (o : Vec) : Vec :=
  (List.range n).foldl (fun o k => opcWrite o (t k, tileEntry a b k, (List.range 32).map fun l => some (val k l))) o

theorem laneOf_tileLoaded {t : Nat → Nat} {a b n : Nat} {val : Nat → Nat → Word} {o : Vec} (ho : o.pend = []) (hn : n ≤ 128)
    (hab : n ≤ 64 ∨ a + 64 ≤ b ∨ b + 64 ≤ a) {v k l : Nat} (hk : k < n) (hl : l < 32) (hv : t k < v) :
    laneOf (opcSettle (tileLoaded t a b val n o) v) (tileEntry a b k) l = val k l := by
  have hw := ownEntries_tile hn hab t fun k => (List.range 32).map fun l => some (val k l)
  have h := (CacheAfter.start ho).writes _ (fun p hp => by
    obtain ⟨k, -, rfl⟩ := List.mem_map.mp hp
    simp) hw
  rw [List.foldl_map] at h
  refine (h.laneOf_settled hw (List.mem_map.mpr ⟨k, List.mem_range.mpr hk, rfl⟩) hv hl).trans ?_
  rw [laneWritten, getD_map_range _ _ hl]
  rfl

/-! ## VLOAD and DEQUANTIZE -/

theorem mword_coreTile (x : Seat) (g kind : Nat) {a : Nat} (h : a + 4 ≤ tileLen kind) :
    mword (coreTile x g kind) a = BitVec.ofNat 32 (mrd x.core (64 * g + a) 4) :=
  congrArg (BitVec.ofNat 32) (mrd_congr _ _ _ _ _ fun k hk => by
    rw [mread_coreTile x g kind (a + k) (by omega), Nat.add_assoc])

section
variable {s : State} {w : SeatIx} {j : Job} {x : Seat} {d g ti : Nat} (hx : seatOf s w.val = x) (hd : j.raw.toNat = d)
  (hg : (vCore d j.c).toNat = g) (hti : tileIdx (vTidx d) j.c (vTstep d) = ti) (hb : bankEvents x j = [])
include hx hd hg hti hb

/-- A VLOAD of a tile whose tag and CRC hold writes its words (04 R141). -/
theorem exec_vload (h : VeRuns s w.val j 0x32)
    (ht : tileTag (coreTile x g 3) 3 = mkTag x.cox.ctx 0 3 (if vType d = tyI32 then fmtI32 else fmtFp32) ti)
    (hc : tileStored (coreTile x g 3) 3 = (tileCrc (coreTile x g 3) 3).toNat) :
    exec (.vload w) s = .next (putSeat s w.val (addSpans (veFinish x j (tileLoaded (fun k => veAt x j (66 + k))
      (vEntry d j.c 3 (vD d)).toNat (vDb d) (fun k l => mword (coreTile x g 3) (128 * k + 4 * l)) (2 * vRows d) x.vec)) j)) := by
  subst hx hd hg hti
  show execVload w s = _
  unfold execVload
  rw [veRow_runs h]
  simp only [tileChecks_sound j 6 _ _ _ ht hc, hb, h.live, List.append_nil, List.isEmpty_nil, Bool.not_true, Bool.and_false, Bool.false_eq_true,
    if_false, if_true]
  rfl

/-- A DEQUANTIZE of a tile whose tag and CRC hold writes its values (04 R141). -/
theorem exec_dequantize (h : VeRuns s w.val j 0x31) (hq : vQfmt d ≠ 2)
    (ht : tileTag (coreTile x g 2) 2 = mkTag x.cox.ctx 0 2 (vQfmt d) ti)
    (hc : tileStored (coreTile x g 2) 2 = (tileCrc (coreTile x g 2) 2).toNat) :
    exec (.dequantize w) s = .next (putSeat s w.val (addSpans (veFinish x j (tileLoaded (fun k => veAt x j (10 + k))
      (vEntry d j.c 3 (vD d)).toNat (vDb d)
      (fun k l => elemValue (tyBits (vType d)) (nibView (vQfmt d) true (nibAt (asTile (coreTile x g 2)) (k / 2) (32 * (k % 2) + l)))
        (fmtOff (vQfmt d)) (mread (asTile (coreTile x g 2)).scales k).toNat) (2 * vRows d) x.vec)) j)) := by
  subst hx hd hg hti
  show execDequantize w s = _
  unfold execDequantize
  rw [veRow_runs h]
  simp only [if_neg hq, tileChecks_sound j 6 _ _ _ ht hc, hb, h.live, List.append_nil, List.isEmpty_nil, Bool.not_true, Bool.and_false,
    Bool.false_eq_true, if_false, if_true, narrowView]
  rfl

end

end Sys2Proof.Machine
end

section
/-!
SUPPORT. What VSTORE and QUANTIZE write to core memory (04 R140, R142, 05 R160-R164): blocks of bytes side by side, and the tiles that they make.
-/
namespace Sys2Proof.Machine

/-! ## Blocks of bytes -/

/-- Blocks of bytes stored from address `a` on, `p` bytes apart. -/
def storeBlocks (f : Nat → List Byte) (a p n : Nat) (m : Mem) : Mem := (List.range n).foldl (fun m k => mwrites m (a + p * k) (f k)) m

/-- Address `c` lies in block `k`. -/
def InBlock (f : Nat → List Byte) (a p k c : Nat) : Prop := a + p * k ≤ c ∧ c < a + p * k + (f k).length

section
variable {f : Nat → List Byte} {a p : Nat}

theorem mread_block_out {m : Mem} {k c : Nat} (h : ¬ InBlock f a p k c) : mread (mwrites m (a + p * k) (f k)) c = mread m c :=
  mread_mwrites_out _ _ _ _ (by unfold InBlock at h; omega)

theorem mread_storeBlocks_out (m : Mem) {n c : Nat} (h : ∀ k, k < n → ¬ InBlock f a p k c) : mread (storeBlocks f a p n m) c = mread m c :=
  foldl_keeps_unowned mread _ (InBlock f a p) (fun _ _ _ => mread_block_out) _ _ fun k hk => h k (List.mem_range.mp hk)

variable (hf : ∀ k, (f k).length ≤ p)
include hf

/-- Blocks no longer than their distance do not meet. -/
theorem InBlock.eq {i k c : Nat} (hi : InBlock f a p i c) (hk : InBlock f a p k c) : i = k := by
  have hdiv : ∀ {k}, InBlock f a p k c → (c - a) / p = k := fun {k} h => by
    have := hf k
    unfold InBlock at h
    refine Nat.div_eq_of_lt_le ?_ ?_
    · rw [Nat.mul_comm]
      omega
    · rw [Nat.succ_mul, Nat.mul_comm]
      omega
  rw [← hdiv hi, hdiv hk]

theorem mread_storeBlocks (m : Mem) {n k i : Nat} (hk : k < n) (hi : i < (f k).length) :
    mread (storeBlocks f a p n m) (a + p * k + i) = (f k)[i] := by
  obtain ⟨u, -, h⟩ := foldl_owned mread (fun m k => mwrites m (a + p * k) (f k)) (InBlock f a p) (fun _ _ _ => mread_block_out)
    (fun _ _ _ => InBlock.eq hf) List.nodup_range m (List.mem_range.mpr hk)
  exact (h _ ⟨by omega, by omega⟩).trans (mread_mwrites_in _ _ _ _ hi)

end

/-- Blocks of words read back. -/
theorem mrd_storeBlocks {ws : Nat → List Word} {a p : Nat} (hf : ∀ k, (wordBytes (ws k)).length ≤ p) (m : Mem) {n k l : Nat} (hk : k < n)
    (hl : l < (ws k).length) : mrd (storeBlocks (fun k => wordBytes (ws k)) a p n m) (a + p * k + 4 * l) 4 = ((ws k)[l]).toNat := by
  rw [← mrd_mwrites_wordBytes [] (a + p * k) (ws k) hl]
  refine mrd_congr _ _ _ _ _ fun i hi => ?_
  have hb : 4 * l + i < (wordBytes (ws k)).length := by rw [length_wordBytes]; omega
  rw [Nat.add_assoc _ (4 * l), mread_storeBlocks (f := fun k => wordBytes (ws k)) hf m hk hb, mread_mwrites_in _ _ _ _ hb]

/-! ## Writes to core memory in their core cycles -/

/-- Writes that all lie no later than `stop` all take place, and mark the readers of what they write. -/
theorem writeChunks_all {x : Seat} {stop : Nat} (t at_ : Nat → Nat) (f : Nat → List Byte) (l : List Nat) (h : ∀ k ∈ l, t k ≤ stop) (m : Mem)
    (c : Tbl Job) (v : Option Job) : ∃ c' v', writeChunks (withCore x m c v) stop (l.map fun k => (t k, at_ k, f k)) =
      withCore x (l.foldl (fun m k => mwrites m (at_ k) (f k)) m) c' v' := by
  induction l generalizing m c v with
  | nil => exact ⟨_, _, rfl⟩
  | cons k l ih =>
    unfold writeChunks at ih ⊢
    rw [List.map_cons, List.foldl_cons, if_pos (h k List.mem_cons_self)]
    exact ih (fun i hi => h i (List.mem_cons_of_mem _ hi)) _ _ _

theorem coreWrite_core (x : Seat) (a : Nat) (bs : List Byte) : (coreWrite x a bs).core = mwrites x.core a bs := rfl

theorem withCore_core (x : Seat) (m : Mem) (c : Tbl Job) (v : Option Job) : (withCore x m c v).core = m := rfl

theorem addSpans_veFinish_core (x : Seat) (j i : Job) (o : Vec) : (addSpans (veFinish x i o) j).core = x.core := rfl

/-- The same for blocks of bytes `p` bytes apart. -/
theorem writeChunks_blocks (x : Seat) {stop n : Nat} (t : Nat → Nat) (f : Nat → List Byte) (a p : Nat) (h : ∀ k, k < n → t k ≤ stop) :
    ∃ c v, writeChunks x stop ((List.range n).map fun k => (t k, a + p * k, f k)) = withCore x (storeBlocks f a p n x.core) c v :=
  writeChunks_all t (fun k => a + p * k) f (List.range n) (fun k hk => h k (List.mem_range.mp hk)) x.core x.mxa.cur x.vec.cur

/-- A stream that collects what it reads. -/
theorem streamRun_collect {α : Type} (f : Vec → Nat → α) (o : Vec) (n : Nat) :
    (streamRun (fun l o k => (l ++ [f o k], ([] : List W0))) o [] n).1 = (List.range n).map (f o) := by
  induction n with
  | zero => rfl
  | succ n ih => rw [streamRun_succ, ih, List.range_succ, List.map_append, List.map_singleton]

theorem length_entryOf (o : Vec) (e : Nat) : (entryOf o e).length = 32 := by simp [entryOf]

theorem getElem_entryOf (o : Vec) (e : Nat) {l : Nat} (h : l < (entryOf o e).length) : (entryOf o e)[l] = laneOf o e l := by
  simp only [entryOf, List.getElem_map, List.getElem_range]
  rfl

/-! ## VSTORE -/

/-- The entries of the tile that a VSTORE or a QUANTIZE reads (04 R138). -/
def srcEntry (j : Job) (k : Nat) : Nat :=
  let d := j.raw.toNat
  tileEntry (vEntry d j.c 2 (vS1 d)).toNat (vEntry d j.c 1 (vS2 d)).toNat k

/-- The address that a VSTORE or a QUANTIZE writes from (04 R138). -/
def destAt (j : Job) : Nat := 64 * (vCore j.raw.toNat j.c).toNat

/-- The tag of the tile that a VSTORE makes (05 R163). -/
def vstoreTag (x : Seat) (j : Job) : Nat :=
  let d := j.raw.toNat
  mkTag x.cox.ctx 0 3 (if vType d = tyI32 then fmtI32 else fmtFp32) (tileIdx (vTidx d) j.c (vTstep d))

/-- Core memory with the payload of a VSTORE's tile (04 R142). -/
def vstorePayload (x : Seat) (j : Job) : Mem := storeBlocks (fun k => wordBytes (entryOf x.vec (srcEntry j k))) (destAt j) 128 128 x.core

/-- The trailer of a VSTORE's tile whose payload lies in `m` (05 R161). -/
def vstoreTrailer (x : Seat) (j : Job) (m : Mem) : List Byte :=
  mbytes (sealTile (mslice m (destAt j) 0x4000) 3 (vstoreTag x j) 0 0 x.cox.epoch.toNat) 0x4000 32

/-- Core memory after a VSTORE (04 R142). -/
def vstoreCore (x : Seat) (j : Job) : Mem := mwrites (vstorePayload x j) (destAt j + 0x4000) (vstoreTrailer x j (vstorePayload x j))

section
variable (x : Seat) (j : Job)

theorem length_wordBytes_entryOf (o : Vec) (e : Nat) : (wordBytes (entryOf o e)).length = 128 := by
  rw [length_wordBytes, length_entryOf]

theorem mread_vstoreCore {c : Nat} (h : c < 0x4000 ∨ 16416 ≤ c) :
    mread (vstoreCore x j) (destAt j + c) = mread (vstorePayload x j) (destAt j + c) :=
  mread_mwrites_out _ _ _ _ (by rw [vstoreTrailer, length_mbytes]; omega)

theorem mrd_vstoreCore {k l : Nat} (hk : k < 128) (hl : l < 32) :
    mrd (vstoreCore x j) (destAt j + 128 * k + 4 * l) 4 = (laneOf x.vec (srcEntry j k) l).toNat := by
  have hl' : l < (entryOf x.vec (srcEntry j k)).length := by rwa [length_entryOf]
  rw [← getElem_entryOf _ _ hl', ← mrd_storeBlocks (ws := fun k => entryOf x.vec (srcEntry j k)) (a := destAt j) (p := 128)
    (fun k => (length_wordBytes_entryOf _ _).le) x.core hk hl']
  refine mrd_congr _ _ _ _ _ fun i hi => ?_
  rw [show destAt j + 128 * k + 4 * l + i = destAt j + (128 * k + 4 * l + i) by omega]
  exact mread_vstoreCore x j (.inl (by omega))

theorem mread_vstoreCore_out {c : Nat} (h : c < destAt j ∨ destAt j + 16416 ≤ c) : mread (vstoreCore x j) c = mread x.core c := by
  refine (mread_mwrites_out _ _ _ _ (by rw [vstoreTrailer, length_mbytes]; omega)).trans (mread_storeBlocks_out _ fun k hk hin => ?_)
  unfold InBlock at hin
  rw [length_wordBytes_entryOf] at hin
  omega

/-- The tile that a VSTORE leaves is sealed: it has its tag, and its CRC holds (05 R163, R164). -/
theorem vstoreCore_sealed {y : Seat} {g : Nat} (hg : (vCore j.raw.toNat j.c).toNat = g) (h : y.core = vstoreCore x j) :
    tileTag (coreTile y g 3) 3 = vstoreTag x j ∧ tileStored (coreTile y g 3) 3 = (tileCrc (coreTile y g 3) 3).toNat := by
  have hs := coreTile_sealed y g 3 (mslice (vstorePayload x j) (destAt j) 0x4000) (vstoreTag x j) 0 0 x.cox.epoch.toNat fun a ha => by
    have ha : a < 16416 := ha
    rw [h, ← hg, ← destAt]
    by_cases hp : a < 0x4000
    · rw [mread_vstoreCore x j (.inl hp), sealTile_out _ _ _ _ _ _ _ (.inl hp), mread_mslice _ _ _ _ hp]
    · obtain ⟨i, rfl⟩ := Nat.exists_eq_add_of_le (Nat.le_of_not_lt hp)
      have hi : i < (vstoreTrailer x j (vstorePayload x j)).length := by rw [vstoreTrailer, length_mbytes]; omega
      rw [vstoreCore, ← Nat.add_assoc, mread_mwrites_in _ _ _ _ hi]
      exact getElem_mbytes _ _ _ _
  rwa [Nat.mod_eq_of_lt (show vstoreTag x j < 2 ^ 64 from mkTag_lt ..)] at hs

end

/-- The step of VSTORE's stream (04 R142). -/
def vstoreStep (j : Job) (l : List (List Word)) (o : Vec) (k : Nat) : List (List Word) × List W0 := (l ++ [entryOf o (srcEntry j k)], [])

/-- A VSTORE whose stream has collected the words `ws` writes them, and the trailer (04 R142). -/
theorem exec_vstore_writes {s : State} {w : SeatIx} {x : Seat} {j : Job} {u : Vec} {ws : List (List Word)} (hx : seatOf s w.val = x)
    (h : VeRuns s w.val j 0x33) (hb : bankEvents x j = [])
    (hst : jobStream x j 0 128 (fun k => [srcEntry j k]) (vstoreStep j) (x.vec, [], none) = (u, ws, none)) :
    let x1 := writeChunks x (veOver x j) (ws.zipIdx.map fun p => (veCoreAt x j (2 * p.2 + 5), destAt j + 128 * p.2, wordBytes p.1))
    let x2 := coreWrite x1 (destAt j + 0x4000) (vstoreTrailer x j x1.core)
    exec (.vstore w) s = .next (putSeat s w.val (addSpans (veFinish x2 j { x2.vec with opc := u.opc, pend := u.pend }) j)) := by
  subst hx
  have hlive := h.live
  obtain ⟨hcur, ho, ⟨hclk, -, hs⟩, -⟩ := h
  unfold srcEntry vstoreStep at hst
  show execVstore w s = _
  unfold srcEntry at hst
  simp only [execVstore, hcur, ho, hclk, hs, hlive, hst, hb, ne_eq, not_true_eq_false, Bool.true_eq_false, or_self, if_false, if_true,
    List.nil_append, List.isEmpty_nil, and_self]
  rfl

/-- A VSTORE leaves its tile in core memory (04 R142). -/
theorem exec_vstore {s : State} {w : SeatIx} {j : Job} (h : VeRuns s w.val j 0x33) (hb : bankEvents (seatOf s w.val) j = [])
    (hrd : ∀ k, k < 128 → readable (seatOf s w.val).vec (srcEntry j k) (veAt (seatOf s w.val) j k) = true) :
    ∃ y, exec (.vstore w) s = .next (putSeat s w.val y) ∧ y.core = vstoreCore (seatOf s w.val) j := by
  have hdone : veDone j.raw.toNat = 131 := by simp [veDone, h.opcode]
  obtain ⟨u, hst, -⟩ := jobStream_silent (k := 0) (n := 128) (reads := fun k => [srcEntry j k]) (step := vstoreStep j) (a := [])
    h.live (by omega) h.cache (fun k hk e he => by
      rw [List.mem_singleton.mp he, Nat.zero_add]
      exact hrd k hk)
    (fun k _ l u hu => by rw [vstoreStep, entryOf_congr (hu _ (List.mem_singleton_self _)), vstoreStep]) (fun _ _ => rfl)
  rw [show vstoreStep j = fun l o k => (l ++ [entryOf o (srcEntry j k)], []) from rfl, streamRun_collect] at hst
  have hx := exec_vstore_writes rfl h hb hst
  obtain ⟨c, v, hc⟩ := writeChunks_blocks (seatOf s w.val) (stop := veOver (seatOf s w.val) j) (n := 128)
    (fun k => veCoreAt (seatOf s w.val) j (2 * k + 5)) (fun k => wordBytes (entryOf (seatOf s w.val).vec (srcEntry j k))) (destAt j) 128
    fun k hk => veCoreAt_mono _ _ (by rw [hdone]; omega)
  rw [zipIdx_map_range, List.map_map] at hx
  simp only [Function.comp_def, hc] at hx
  refine ⟨_, hx, ?_⟩
  rw [addSpans_veFinish_core, coreWrite_core, withCore_core, vstoreCore, vstorePayload]

end Sys2Proof.Machine
end

section
/-!
SUPPORT. The narrow tile of a QUANTIZE (02 R58-R63, 04 R140, 05 R160): its codes, its scales, its trailer, and core memory after it.
-/
namespace Sys2Proof.Machine

/-! ## Nibbles -/

theorem length_packNibs : ∀ cs : List Nat, (packNibs cs).length = cs.length / 2
  | [] => rfl
  | [_] => by simp [packNibs]
  | _ :: _ :: cs => by
    rw [packNibs, List.length_cons, length_packNibs cs, List.length_cons, List.length_cons]
    omega

/-- A byte of two nibbles holds each of them (02 R42). -/
theorem fld_nibblePair (a b : Nat) {p : Nat} (hp : p < 2) :
    fld (BitVec.ofNat 8 (a % 16 + 16 * (b % 16))).toNat (4 * p) 4 = (if p = 0 then a else b) % 16 := by
  rw [fld_toNat_ofNat _ (by omega), fld, Nat.shiftRight_eq_div_pow]
  obtain rfl | rfl : p = 0 ∨ p = 1 := by omega
  · rw [if_pos rfl]
    omega
  · rw [if_neg one_ne_zero]
    omega

/-- Element `l` of packed codes stands in nibble `l` % 2 of byte `l` / 2 (02 R42). -/
theorem fld_packNibs (cs : List Nat) {i p : Nat} (hp : p < 2) (h : i < (packNibs cs).length) :
    fld ((packNibs cs)[i]).toNat (4 * p) 4 = cs.getD (2 * i + p) 0 % 16 := by
  induction cs using packNibs.induct generalizing i with
  | case1 a b cs ih =>
    cases i with
    | zero =>
      refine (fld_nibblePair a b hp).trans ?_
      obtain rfl | rfl : p = 0 ∨ p = 1 := by omega
      · rfl
      · rfl
    | succ i =>
      rw [show 2 * (i + 1) + p = 2 * i + p + 1 + 1 by omega, List.getD_cons_succ, List.getD_cons_succ]
      exact ih _
  | case2 cs hcs =>
    rw [length_packNibs] at h
    match cs, hcs with
    | [], _ => simp at h
    | [_], _ => simp at h
    | a :: b :: cs, hcs => exact absurd rfl (hcs a b cs)

/-! ## The tile -/

theorem length_quantBlock (q : Nat) (stoch : Bool) (rnd : Nat → Nat) (xs : List Word) : (quantBlock q stoch rnd xs).2.1.length = xs.length := by
  unfold quantBlock
  split <;> simp

section
variable (blocks : Nat → Nat × List Nat) (n tag clip flush epoch : Nat)

/-- The codes of a narrow tile, then its scales (05 R160). -/
def narrowPayload : Mem :=
  let codes := storeBlocks (fun k => packNibs (blocks k).2) 0 16 n []
  storeBlocks (fun k => [BitVec.ofNat 8 ((((List.range n).map blocks)[k]?.map (·.1)).getD 0x7F)]) 0x800 1 128 codes

theorem narrowPlane_eq : narrowPlane id ((List.range n).map blocks) tag clip flush epoch =
    sealTile (narrowPayload blocks n) kindNarrow tag clip flush epoch := by
  have hcodes : (((List.range n).map blocks).zipIdx.foldl (fun m p => mwrites m (16 * p.2) (packNibs (p.1.2.map id))) []) =
      storeBlocks (fun k => packNibs (blocks k).2) 0 16 n [] := by
    rw [zipIdx_map_range, List.foldl_map]
    simp only [List.map_id, storeBlocks, Nat.zero_add]
  rw [narrowPlane, hcodes]
  simp only [narrowPayload, storeBlocks, Nat.one_mul, mwrites]

variable {blocks n}

theorem mread_narrowPayload_scale {k : Nat} (hn : n ≤ 128) (hk : k < n) :
    mread (narrowPayload blocks n) (0x800 + k) = BitVec.ofNat 8 (blocks k).1 := by
  have h := mread_storeBlocks (f := fun k => [BitVec.ofNat 8 ((((List.range n).map blocks)[k]?.map (·.1)).getD 0x7F)]) (a := 0x800) (p := 1)
    (fun _ => le_rfl) (storeBlocks (fun k => packNibs (blocks k).2) 0 16 n []) (n := 128) (k := k) (i := 0) (by omega) Nat.one_pos
  rw [Nat.one_mul, Nat.add_zero] at h
  rw [narrowPayload, h, List.getElem_singleton, getElem?_map_range _ hk]
  rfl

theorem fld_narrowPayload_code (hlen : ∀ k, (blocks k).2.length = 32) {k l : Nat} (hn : n ≤ 128) (hk : k < n) (hl : l < 32) :
    fld (mread (narrowPayload blocks n) (16 * k + l / 2)).toNat (4 * (l % 2)) 4 = (blocks k).2.getD l 0 % 16 := by
  have hlen' : ∀ k, (packNibs (blocks k).2).length = 16 := fun k => by rw [length_packNibs, hlen]
  have hi : l / 2 < (packNibs (blocks k).2).length := by rw [hlen']; omega
  have h := mread_storeBlocks (f := fun k => packNibs (blocks k).2) (a := 0) (p := 16) (fun k => (hlen' k).le) [] hk hi
  rw [Nat.zero_add] at h
  rw [narrowPayload, mread_storeBlocks_out _ fun i _ hin => ?_, h, fld_packNibs _ (Nat.mod_lt _ two_pos) hi, Nat.div_add_mod]
  unfold InBlock at hin
  omega

end

/-! ## QUANTIZE -/

/-- What a QUANTIZE makes of entry `k` of its tile (02 R58-R62). -/
def quantOf (x : Seat) (j : Job) (o : Vec) (k : Nat) : Nat × List Nat × Nat × Nat × Bool :=
  let d := j.raw.toNat
  quantBlock (vQfmt d) (vStoch d) (fun i => rnd24 x.cox.seed (tileIdx (vTidx d) j.c (vTstep d)) (32 * k + i)) (entryOf o (srcEntry j k))

/-- The tag of the tile that a QUANTIZE makes of other values than I8 (05 R163). -/
def quantTag (x : Seat) (j : Job) : Nat :=
  let d := j.raw.toNat
  mkTag x.cox.ctx 0 2 (vQfmt d) (tileIdx (vTidx d) j.c (vTstep d))

/-- The tile of a QUANTIZE that has made the blocks `bl` (04 R140). -/
def quantTile (x : Seat) (j : Job) (bl : List (Nat × List Nat × Nat × Nat × Bool)) : Mem :=
  narrowPlane id (bl.map fun e => (e.1, e.2.1)) (quantTag x j) (bl.map fun e => e.2.2.1).sum (bl.map fun e => e.2.2.2.1).sum x.cox.epoch.toNat

/-- Part `k` of a tile of 2208 bytes, written in one core cycle (04 R140). -/
def tilePart (m : Mem) (k : Nat) : List Byte := mbytes m (128 * k) (min 128 (2208 - 128 * k))

/-- Core memory once the tile `m` of 2208 bytes has been written at address `a` (04 R140). -/
def tileStoredAt (m : Mem) (a : Nat) (core : Mem) : Mem := storeBlocks (tilePart m) a 128 18 core

theorem length_tilePart (m : Mem) (k : Nat) : (tilePart m k).length = min 128 (2208 - 128 * k) := length_mbytes ..

theorem mread_tileStoredAt (m : Mem) (a : Nat) (core : Mem) {c : Nat} (h : c < 2208) : mread (tileStoredAt m a core) (a + c) = mread m c := by
  have hc : 128 * (c / 128) + c % 128 = c := Nat.div_add_mod ..
  have hi : c % 128 < (tilePart m (c / 128)).length := by rw [length_tilePart]; omega
  have hs := mread_storeBlocks (f := tilePart m) (a := a) (p := 128) (fun k => by rw [length_tilePart]; omega) core (n := 18)
    (show c / 128 < 18 by omega) hi
  rw [Nat.add_assoc, hc] at hs
  refine hs.trans ((getElem_mbytes _ _ _ _).trans ?_)
  rw [hc]

theorem mread_tileStoredAt_out (m : Mem) {a c : Nat} (core : Mem) (h : c < a ∨ a + 2208 ≤ c) : mread (tileStoredAt m a core) c = mread core c :=
  mread_storeBlocks_out _ fun k hk hin => by
    unfold InBlock at hin
    rw [length_tilePart] at hin
    omega

/-- The NaN blocks of a QUANTIZE whose codes have been written, counted (02 R63, R66). -/
def nanBlocks (w : Nat) (j : Job) (stop : Nat) (t : Nat → Nat) (bl : List (Nat × List Nat × Nat × Nat × Bool)) (s : State) : State :=
  bl.zipIdx.foldl (fun s p => if p.1.2.2.2.2 = true ∧ t (p.2 / 8) ≤ stop then guardRaise s w 2 1 true j (t (p.2 / 8)) else s) s

/-- Counting NaN blocks changes no core memory. -/
theorem nanBlocks_core (w : Nat) (j : Job) (stop : Nat) (t : Nat → Nat) (bl : List (Nat × List Nat × Nat × Nat × Bool)) (s : State) :
    (seatOf (nanBlocks w j stop t bl s) w).core = (seatOf s w).core := by
  unfold nanBlocks
  generalize bl.zipIdx = l
  induction l generalizing s with
  | nil => rfl
  | cons p l ih =>
    rw [List.foldl_cons, ih]
    split
    · obtain ⟨g, q, h⟩ := guardRaise_seat s w 2 1 true j (t (p.2 / 8))
      rw [h]
    · rfl

/-- The step of QUANTIZE's stream (04 R140). -/
def quantStep (x : Seat) (j : Job) (l : List (Nat × List Nat × Nat × Nat × Bool)) (o : Vec) (k : Nat) :
    List (Nat × List Nat × Nat × Nat × Bool) × List W0 := (l ++ [quantOf x j o k], [])

/-- A QUANTIZE whose stream has made the blocks `bl` writes their tile (04 R140). -/
theorem exec_quantize_writes {s : State} {w : SeatIx} {x : Seat} {j : Job} {u : Vec} {bl : List (Nat × List Nat × Nat × Nat × Bool)}
    (hx : seatOf s w.val = x) (h : VeRuns s w.val j 0x30) (hb : bankEvents x j = []) (hq : vQfmt j.raw.toNat ≠ 2)
    (hst : jobStream x j 0 (2 * vRows j.raw.toNat) (fun k => [srcEntry j k]) (quantStep x j) (x.vec, [], none) = (u, bl, none)) :
    let t k := veCoreAt x j (2 * quantAt j.raw.toNat + k)
    let x1 := writeChunks x (veOver x j) ((List.range 18).map fun k => (t k, destAt j + 128 * k, tilePart (quantTile x j bl) k))
    ∃ i, exec (.quantize w) s = .next (nanBlocks w.val j (veOver x j) t bl
      (putSeat s w.val (addSpans (veFinish x1 i { x1.vec with opc := u.opc, pend := u.pend }) j))) := by
  subst hx
  have hlive := h.live
  obtain ⟨hcur, ho, ⟨hclk, -, hs⟩, -⟩ := h
  unfold srcEntry quantStep quantOf srcEntry at hst
  refine ⟨{ j with clips := (bl.map fun e => e.2.2.1).sum, flushes := (bl.map fun e => e.2.2.2.1).sum }, ?_⟩
  show execQuantize w s = _
  simp only [execQuantize, hcur, ho, hclk, hs, hlive, hst, hb, hq, ne_eq, not_true_eq_false, Bool.true_eq_false, or_self, if_false, if_true,
    List.isEmpty_nil, and_self]
  rfl

/-- Core memory after a QUANTIZE of other values than I8 (04 R140). -/
def quantCore (x : Seat) (j : Job) : Mem :=
  tileStoredAt (quantTile x j ((List.range (2 * vRows j.raw.toNat)).map (quantOf x j x.vec))) (destAt j) x.core

/-- A QUANTIZE of other values than I8 leaves its tile in core memory (04 R140). -/
theorem exec_quantize {s : State} {w : SeatIx} {j : Job} (h : VeRuns s w.val j 0x30) (hb : bankEvents (seatOf s w.val) j = [])
    (hq : vQfmt j.raw.toNat ≠ 2)
    (hrd : ∀ k, k < 2 * vRows j.raw.toNat → readable (seatOf s w.val).vec (srcEntry j k) (veAt (seatOf s w.val) j k) = true) :
    ∃ t, exec (.quantize w) s = .next t ∧ (seatOf t w.val).core = quantCore (seatOf s w.val) j := by
  let x := seatOf s w.val
  have hdone : veDone j.raw.toNat = 2 * vRows j.raw.toNat + 12 := by simp [veDone, h.opcode, hq, quantAt]
  obtain ⟨u, hst, -⟩ := jobStream_silent (k := 0) (n := 2 * vRows j.raw.toNat) (reads := fun k => [srcEntry j k]) (step := quantStep x j) (a := [])
    h.live (by omega) h.cache (fun k hk e he => by
      rw [List.mem_singleton.mp he, Nat.zero_add]
      exact hrd k hk)
    (fun k _ l u hu => by rw [quantStep, quantOf, entryOf_congr (hu _ (List.mem_singleton_self _))]; rfl) (fun _ _ => rfl)
  rw [show quantStep x j = fun l o k => (l ++ [quantOf x j o k], []) from rfl, streamRun_collect] at hst
  obtain ⟨i, hx⟩ := exec_quantize_writes rfl h hb hq hst
  obtain ⟨c, v, hc⟩ := writeChunks_blocks x (stop := veOver x j) (n := 18) (fun k => veCoreAt x j (2 * quantAt j.raw.toNat + k))
    (tilePart (quantTile x j ((List.range (2 * vRows j.raw.toNat)).map (quantOf x j x.vec)))) (destAt j) 128
    fun k hk => veCoreAt_mono _ _ (by rw [hdone, quantAt]; omega)
  refine ⟨_, hx, ?_⟩
  rw [nanBlocks_core, seatOf_putSeat_self, addSpans_veFinish_core, hc, withCore_core, quantCore, tileStoredAt]

/-! ## The tile of a QUANTIZE in core memory -/

/-- The scale and the codes of block `k` of a QUANTIZE (02 R58, R59). -/
def quantCodes (x : Seat) (j : Job) (k : Nat) : Nat × List Nat := ((quantOf x j x.vec k).1, (quantOf x j x.vec k).2.1)

/-- The codes and scales of a QUANTIZE's tile (05 R160). -/
def quantPayload (x : Seat) (j : Job) : Mem := narrowPayload (quantCodes x j) (2 * vRows j.raw.toNat)

section
variable (x : Seat) (j : Job)

theorem length_quantCodes (k : Nat) : (quantCodes x j k).2.length = 32 := by
  rw [quantCodes, quantOf, length_quantBlock, length_entryOf]

theorem quantTile_sealed : ∃ clip flush, quantTile x j ((List.range (2 * vRows j.raw.toNat)).map (quantOf x j x.vec)) =
    sealTile (quantPayload x j) 2 (quantTag x j) clip flush x.cox.epoch.toNat := by
  have hcodes : ((List.range (2 * vRows j.raw.toNat)).map (quantOf x j x.vec)).map (fun e => (e.1, e.2.1)) =
      (List.range (2 * vRows j.raw.toNat)).map (quantCodes x j) := List.map_map
  exact ⟨_, _, by rw [quantTile, hcodes, narrowPlane_eq, quantPayload]⟩

/-- Outside the trailer a QUANTIZE's tile has its codes and scales (05 R160). -/
theorem mread_quantCore {c : Nat} (hc : c < 0x880) : mread (quantCore x j) (destAt j + c) = mread (quantPayload x j) c := by
  obtain ⟨clip, flush, htile⟩ := quantTile_sealed x j
  rw [quantCore, htile, mread_tileStoredAt _ _ _ (by omega), sealTile_out _ _ _ _ _ _ _ (.inl hc)]

theorem mread_quantCore_scale {k : Nat} (hr : vRows j.raw.toNat ≤ 64) (hk : k < 2 * vRows j.raw.toNat) :
    (mread (quantCore x j) (destAt j + 0x800 + k)).toNat = (quantOf x j x.vec k).1 % 256 := by
  rw [Nat.add_assoc, mread_quantCore x j (by omega), quantPayload, mread_narrowPayload_scale (by omega) hk, BitVec.toNat_ofNat, quantCodes]

theorem fld_quantCore_code {k l : Nat} (hr : vRows j.raw.toNat ≤ 64) (hk : k < 2 * vRows j.raw.toNat) (hl : l < 32) :
    fld (mread (quantCore x j) (destAt j + 16 * k + l / 2)).toNat (4 * (l % 2)) 4 = (quantOf x j x.vec k).2.1.getD l 0 % 16 := by
  rw [Nat.add_assoc, mread_quantCore x j (by omega), quantPayload, fld_narrowPayload_code (length_quantCodes x j) (by omega) hk hl, quantCodes]

theorem mread_quantCore_out {c : Nat} (h : c < destAt j ∨ destAt j + 2208 ≤ c) : mread (quantCore x j) c = mread x.core c :=
  mread_tileStoredAt_out _ _ h

/-- The tile that a QUANTIZE leaves is sealed: it has its tag, and its CRC holds (05 R163, R164). -/
theorem quantCore_sealed {y : Seat} {g : Nat} (hg : (vCore j.raw.toNat j.c).toNat = g) (h : y.core = quantCore x j) :
    tileTag (coreTile y g 2) 2 = quantTag x j ∧ tileStored (coreTile y g 2) 2 = (tileCrc (coreTile y g 2) 2).toNat := by
  obtain ⟨clip, flush, htile⟩ := quantTile_sealed x j
  have hs := coreTile_sealed y g 2 (quantPayload x j) (quantTag x j) clip flush x.cox.epoch.toNat fun a ha => by
    rw [h, ← hg, ← destAt, quantCore, htile]
    exact mread_tileStoredAt _ _ _ ha
  rwa [Nat.mod_eq_of_lt (show quantTag x j < 2 ^ 64 from mkTag_lt ..)] at hs

end

end Sys2Proof.Machine
end

section
open Sys2Proof Sys2Proof.Machine

/-- Settles O11: each load from what it reads of a checked tile, each store from the blocks of bytes that it writes and the seal of its tile. -/
theorem vectorTiles : Obligations.VectorTiles := by
  intro s w j x d g dst a b ti
  refine ⟨fun h hb => ⟨fun hcrc hgood => ?_, fun hcrc hj => ?_⟩, fun h hb hr hab ht hc => ?_, fun h hb hq hr hab ht hc => ?_,
    fun h hb hrd => ?_, fun h hb hq hr hrd => ?_⟩
  · refine ⟨_, exec_ctload_sound h rfl rfl rfl rfl hb hcrc hgood, ?_⟩
    rw [seatOf_putSeat_self]
    exact ⟨tfind_tput_self _ _ _, fun k hk => tfind_tput_ne _ _ hk, rfl⟩
  · refine ⟨_, exec_ctload_crc h rfl rfl rfl rfl hb hcrc hj, ?_⟩
    rw [seatOf_putSeat_self]
    exact tfind_tdel_self _ _
  · obtain ⟨hn, hab'⟩ : 2 * vRows d ≤ 128 ∧ (2 * vRows d ≤ 64 ∨ dst + 64 ≤ vDb d ∨ vDb d + 64 ≤ dst) := by omega
    refine ⟨_, exec_vload rfl rfl rfl rfl hb h ht hc, ?_⟩
    rw [seatOf_putSeat_self]
    refine ⟨rfl, fun v k l hv hk hl => ?_⟩
    have hlane := laneOf_tileLoaded (t := fun k => veAt x j (66 + k)) (val := fun k l => mword (coreTile x g 3) (128 * k + 4 * l))
      h.2.2.2 hn hab' hk hl ((veAt_lt x j (by omega)).trans_le hv)
    refine hlane.trans ((mword_coreTile x g 3 (by show _ ≤ 16416; omega)).trans ?_)
    rw [Nat.add_assoc]
  · obtain ⟨hn, hab'⟩ : 2 * vRows d ≤ 128 ∧ (2 * vRows d ≤ 64 ∨ dst + 64 ≤ vDb d ∨ vDb d + 64 ≤ dst) := by omega
    refine ⟨_, exec_dequantize rfl rfl rfl rfl hb h hq ht hc, ?_⟩
    rw [seatOf_putSeat_self]
    refine ⟨rfl, fun v k l hv hk hl => ?_⟩
    exact laneOf_tileLoaded (t := fun k => veAt x j (10 + k)) h.2.2.2 hn hab' hk hl ((veAt_lt x j (by omega)).trans_le hv)
  · obtain ⟨y, hx, hy⟩ := exec_vstore h hb hrd
    refine ⟨_, hx, ?_⟩
    rw [seatOf_putSeat_self]
    obtain ⟨htag, hcrc⟩ := vstoreCore_sealed x j (g := g) rfl hy
    rw [hy]
    exact ⟨fun k l hk hl => mrd_vstoreCore x j hk hl, htag, hcrc, fun c hc => mread_vstoreCore_out x j hc⟩
  · obtain ⟨t, hx, hy⟩ := exec_quantize h hb hq hrd
    refine ⟨t, hx, ?_⟩
    obtain ⟨htag, hcrc⟩ := quantCore_sealed x j (g := g) rfl hy
    rw [hy]
    exact ⟨fun k l hk hl => ⟨mread_quantCore_scale x j hr hk, fld_quantCore_code x j hr hk hl⟩, htag, hcrc,
      fun c hc => mread_quantCore_out x j hc⟩

end

section
/-!
SUPPORT. The canonical form of the part's memories through the shared operations. `(f s).canon = s.canon` says that `f` writes no memory; an
operation that writes one keeps the form.
-/
namespace Sys2Proof.Machine
open Host (Outcome)

/-- The components that hold no memory. -/
def memoryless : List Part := [.pending, .str, .ctxs, .cq, .clk, .pwr, .flt, .glb, .sec, .noc, .fab, .chain, .pins, .free]

theorem memoryless_has : Part.pending ∈ memoryless ∧ Part.str ∈ memoryless ∧ Part.ctxs ∈ memoryless ∧ Part.cq ∈ memoryless ∧
    Part.clk ∈ memoryless ∧ Part.pwr ∈ memoryless ∧ Part.flt ∈ memoryless ∧ Part.glb ∈ memoryless ∧ Part.sec ∈ memoryless ∧
    Part.noc ∈ memoryless ∧ Part.fab ∈ memoryless ∧ Part.chain ∈ memoryless ∧ Part.pins ∈ memoryless ∧ Part.free ∈ memoryless := by
  decide

/-- The canonical form of the memories, read off the components that hold one. -/
abbrev State.canon (s : State) : Bool := (s.hide memoryless).memoriesCanonical

theorem canon_eq (s : State) : s.canon = s.memoriesCanonical := rfl

/-- From `s` the command keeps the canonical form. -/
def Keeps (s : State) (o : Outcome State Fault Refusal) : Prop := ∀ t, o = .next t → s.canon = true → t.canon = true

theorem keeps_next (s t : State) : Keeps s (.next t) ↔ (s.canon = true → t.canon = true) :=
  ⟨fun h => h t rfl, fun h u hu => by cases hu; exact h⟩

theorem keeps_ite (c : Prop) [Decidable c] (s : State) (a b : Outcome State Fault Refusal) :
    Keeps s (if c then a else b) = if c then Keeps s a else Keeps s b := by split <;> rfl

theorem memoriesCanonical_ite (c : Prop) [Decidable c] (a b : State) :
    (if c then a else b).memoriesCanonical = if c then a.memoriesCanonical else b.memoriesCanonical := by split <;> rfl

theorem canon_foldl {α : Type} (l : List α) (f : State → α → State) (s : State) (h : ∀ u a, (f u a).canon = u.canon) :
    (l.foldl f s).canon = s.canon := by
  induction l generalizing s with
  | nil => rfl
  | cons a l ih => exact (ih (f s a)).trans (h s a)

/-! ## Listing a value -/

theorem all_tget {α : Type} {P : α → Bool} {d : α} (hd : P d = true) (t : Tbl α) (i : Nat) (h : t.all (fun p => P p.2) = true) :
    P (tget d t i) = true := by
  unfold tget
  cases e : tfind t i with
  | none => exact hd
  | some x => exact List.all_eq_true.mp h (i, x) (tfind_mem _ _ _ e)

/-- Listing a value of which `P` says what it says of the value read before changes nothing of what `P` says of the table. -/
theorem all_tput {α : Type} {P : α → Bool} {d : α} (hd : P d = true) (t : Tbl α) (i : Nat) (x : α) (h : P x = P (tget d t i)) :
    (tput t i x).all (fun p => P p.2) = t.all fun p => P p.2 := by
  induction t with
  | nil => simpa [tput, hd] using h
  | cons p t ih =>
    obtain ⟨k, v⟩ := p
    unfold tput
    split
    · next hlt =>
      rw [List.all_cons, h]
      cases hall : ((k, v) :: t).all fun p => P p.2 with
      | false => rw [Bool.and_false]
      | true => rw [all_tget hd _ i hall, Bool.and_true]
    · split
      · next heq =>
        subst heq
        simp only [List.all_cons, h, tget, tfind, if_true, Option.getD_some]
      · next hne =>
        rw [List.all_cons, List.all_cons, ih (by simpa only [tget, tfind, if_neg (Ne.symm hne)] using h)]

/-! ## Seats and pools -/

/-- A seat's memories are canonical, as a check. -/
def seatWf (x : Seat) : Bool := Memory.wf x.core && Memory.wf x.desc && Memory.wf x.store

theorem seatWf_congr {x y : Seat} (hc : x.core = y.core) (hd : x.desc = y.desc) (hs : x.store = y.store) : seatWf x = seatWf y := by
  unfold seatWf
  rw [hc, hd, hs]

/-- A seat replaced by one with its memories. -/
theorem putSeat_canon (s : State) (w : Nat) (x : Seat) (hc : x.core = (seatOf s w).core) (hd : x.desc = (seatOf s w).desc)
    (hs : x.store = (seatOf s w).store) : (putSeat s w x).canon = s.canon := by
  have h := all_tput (P := seatWf) (d := {}) rfl s.seats w x (seatWf_congr hc hd hs)
  exact congrArg (fun b => Memory.wf s.hostMem && (s.pools.all fun p => Memory.wf p.2.mem) && b) h

theorem modSeat_canon (s : State) (w : Nat) (f : Seat → Seat) (hc : ∀ x, (f x).core = x.core) (hd : ∀ x, (f x).desc = x.desc)
    (hs : ∀ x, (f x).store = x.store) : (modSeat s w f).canon = s.canon := putSeat_canon s w _ (hc _) (hd _) (hs _)

theorem modCox_canon (s : State) (w : Nat) (f : Cox → Cox) : (modCox s w f).canon = s.canon :=
  modSeat_canon s w _ (fun _ => rfl) (fun _ => rfl) fun _ => rfl

theorem modWst_canon (s : State) (w : Nat) (f : Wst → Wst) : (modWst s w f).canon = s.canon :=
  modSeat_canon s w _ (fun _ => rfl) (fun _ => rfl) fun _ => rfl

theorem putEng_core (x : Seat) (e : EngIx) (g : Eng) : (x.putEng e g).core = x.core := by unfold Seat.putEng; split <;> rfl
theorem putEng_desc (x : Seat) (e : EngIx) (g : Eng) : (x.putEng e g).desc = x.desc := by unfold Seat.putEng; split <;> rfl
theorem putEng_store (x : Seat) (e : EngIx) (g : Eng) : (x.putEng e g).store = x.store := by unfold Seat.putEng; split <;> rfl

theorem modEng_canon (s : State) (w : Nat) (e : EngIx) (f : Eng → Eng) : (modEng s w e f).canon = s.canon :=
  modSeat_canon s w _ (fun _ => putEng_core _ _ _) (fun _ => putEng_desc _ _ _) fun _ => putEng_store _ _ _

/-- A pool changed in all but its memory. -/
theorem modPool_canon (s : State) (h : Nat) (f : Pool → Pool) (hm : ∀ p, (f p).mem = p.mem) : (modPool s h f).canon = s.canon := by
  have h := all_tput (P := fun p : Pool => Memory.wf p.mem) (d := {}) rfl s.pools h (f (poolOf s h)) (congrArg Memory.wf (hm _))
  exact congrArg (fun b => Memory.wf s.hostMem && b && s.seats.all fun p => Memory.wf p.2.core && Memory.wf p.2.desc && Memory.wf p.2.store) h

end Sys2Proof.Machine
end

section
/-!
SUPPORT. The canonical form through the larger operations: what leaves a seat its memories, tiles, packets, loads and the rows that commands share.
-/
namespace Sys2Proof.Machine
open Host (Outcome)

/-! ## What leaves a seat its memories -/

/-- Two seats hold the same memories. -/
abbrev SameMemories (x y : Seat) : Prop := x.core = y.core ∧ x.desc = y.desc ∧ x.store = y.store

theorem putEng_memories (x : Seat) (e : EngIx) (g : Eng) : SameMemories (x.putEng e g) x :=
  ⟨putEng_core x e g, putEng_desc x e g, putEng_store x e g⟩

theorem enqueue_memories (x : Seat) (q : Fin 4) (j : Job) : SameMemories (enqueue x q j) x := by
  unfold enqueue
  split <;> exact ⟨rfl, rfl, rfl⟩

theorem releasePage_memories (x : Seat) (r h : Nat) : SameMemories (releasePage x r h) x := ⟨rfl, rfl, rfl⟩

theorem endOnSeat_memories (r h : Nat) (x : Seat) : SameMemories (endOnSeat r h x) x := by
  unfold endOnSeat
  dsimp only
  split <;> exact ⟨rfl, rfl, rfl⟩

theorem seatRaise_canon (s : State) (w : Nat) (r : Record) : (seatRaise s w r).canon = s.canon := by
  unfold seatRaise
  simp only [State.canon, ↓hide_flt, ↓hide_ite, memoriesCanonical_ite, ite_self, putSeat_canon, report_hide, memoryless_has]

theorem seatRaiseAt_canon (s : State) (w : Nat) (r : Record) : (seatRaiseAt s w r).canon = s.canon := by
  unfold seatRaiseAt
  simp only [State.canon, ↓hide_flt, ↓hide_ite, memoriesCanonical_ite, ite_self, putSeat_canon, seatRaise_canon, memoryless_has]

theorem jobFault_canon (s : State) (w : Nat) (j : Job) (code eng cycle : Nat) (b1 wd dd : Nat) :
    (jobFault s w j code eng cycle b1 wd dd).canon = s.canon := by
  unfold jobFault
  simp only [State.canon, seatRaiseAt_canon]

theorem guardRaise_canon (s : State) (w k n : Nat) (oneByOne : Bool) (j : Job) (cycle : Nat) :
    (guardRaise s w k n oneByOne j cycle).canon = s.canon := by
  unfold guardRaise
  simp only [State.canon, ↓hide_ite, memoriesCanonical_ite, ite_self, modCox_canon, report_hide, memoryless_has]

theorem restCheck_canon (s : State) (w now : Nat) : (restCheck s w now).canon = s.canon := by
  unfold restCheck
  simp only [State.canon, ↓canon_foldl, implies_true, ↓hide_ite, memoriesCanonical_ite, ite_self, jobFault_canon]

theorem issueJob_canon (s : State) (w : Nat) (j : Job) : (issueJob s w j).canon = s.canon := by
  unfold issueJob
  dsimp only
  (repeat' split) <;> simp only [State.canon, putSeat_canon, jobFault_canon, restCheck_canon, enqueue_memories]

theorem offerJob_canon (s : State) (w : Nat) (j : Job) : (offerJob s w j).canon = s.canon := by
  unfold offerJob
  dsimp only
  (repeat' split) <;> simp only [State.canon, modCox_canon, issueJob_canon]

theorem present_canon (s : State) (w : Nat) : (present s w).canon = s.canon := by
  unfold present
  dsimp only
  (repeat' split) <;> simp only [State.canon, modCox_canon, jobFault_canon, offerJob_canon]

theorem raiseEvents_canon (s : State) (w : Nat) (es : List Ev) : (raiseEvents s w es).canon = s.canon := by
  unfold raiseEvents
  (repeat' split) <;> simp only [State.canon, ↓canon_foldl, implies_true, jobFault_canon]

theorem releasePages_canon (s : State) (r h : Nat) (seats : List Nat) : (releasePages s r h seats).canon = s.canon := by
  unfold releasePages
  simp only [State.canon, ↓canon_foldl, implies_true, modSeat_canon, releasePage_memories]

theorem endOnSeats_canon (s : State) (r h : Nat) (seats : List Nat) : (endOnSeats s r h seats).canon = s.canon := by
  unfold endOnSeats
  simp only [State.canon, ↓canon_foldl, implies_true, modSeat_canon, touchCrew_hide, endOnSeat_memories, memoryless_has]

theorem retire_canon (s : State) (k : Nat) (epoch : BitVec 16) : (retire s k epoch).canon = s.canon := by
  unfold retire
  simp only [State.canon, ↓canon_foldl, implies_true, ↓hide_str, modPool_canon, modClass_hide, memoryless_has]

theorem releaseGen_canon (s : State) (c : Nat) (second : Bool) : (releaseGen s c second).canon = s.canon := by
  unfold releaseGen
  simp only [State.canon, ↓canon_foldl, implies_true, ↓hide_ctxs, modWst_canon, modCtx_hide, memoryless_has]

theorem releaseRetired_canon (s : State) (c : Nat) : (releaseRetired s c).canon = s.canon := by
  unfold releaseRetired
  simp only [State.canon, ↓hide_ite, memoriesCanonical_ite, ite_self, releaseGen_canon]

theorem settleRun_canon (s : State) (r : Nat) : (settleRun s r).canon = s.canon := by
  unfold settleRun
  (repeat' split) <;> simp only [State.canon, ↓canon_foldl, implies_true, ↓hide_str, answerLate_hide, releaseRetired_canon, memoryless_has]

theorem abortHeat_canon (s : State) (r h cause : Nat) (seq : Word) : (abortHeat s r h cause seq).canon = s.canon := by
  unfold abortHeat
  split
  · rfl
  · dsimp only
    (repeat' split) <;> simp only [State.canon, ↓hide_str_flt, modHeat_hide, report_hide, endOnSeats_canon, retire_canon, postHeat_hide,
      settleRun_canon, memoryless_has]

theorem abandonHeat_canon (s : State) (r h cause pred : Nat) : (abandonHeat s r h cause pred).canon = s.canon := by
  unfold abandonHeat
  (repeat' split) <;> simp only [State.canon, ↓hide_str, modHeat_hide, report_hide, releasePages_canon, postHeat_hide, settleRun_canon,
    memoryless_has]

theorem cancelRun_canon (s : State) (r cause : Nat) : (cancelRun s r cause).canon = s.canon := by
  unfold cancelRun
  (repeat' split) <;> simp only [State.canon, ↓canon_foldl, implies_true, abortHeat_canon, abandonHeat_canon]

theorem cancelRuns_canon (s : State) (cause : Nat) : (cancelRuns s cause).canon = s.canon := by
  unfold cancelRuns
  simp only [State.canon, ↓canon_foldl, implies_true, cancelRun_canon]

theorem countSeat_canon (s : State) (w n : Nat) : (countSeat s w n).canon = s.canon := by
  unfold countSeat
  simp only [State.canon, modSeat_canon, latchDeps_hide, implies_true, memoryless_has]

theorem countPool_canon (s : State) (h n : Nat) : (countPool s h n).canon = s.canon := by
  unfold countPool
  simp only [State.canon, modPool_canon, latchDeps_hide, implies_true, memoryless_has]

theorem setSeatWord_canon (s : State) (w o : Nat) (v : Word) : (setSeatWord s w o v).canon = s.canon := by
  unfold setSeatWord
  simp only [State.canon, modSeat_canon, latchDeps_hide, implies_true, memoryless_has]

theorem setPoolWord_canon (s : State) (h o : Nat) (v : Word) : (setPoolWord s h o v).canon = s.canon := by
  unfold setPoolWord
  simp only [State.canon, modPool_canon, latchDeps_hide, implies_true, memoryless_has]

theorem staleSeat_canon (s : State) (w : Nat) : (staleSeat s w).canon = s.canon := by
  unfold staleSeat
  simp only [State.canon, modSeat_canon, implies_true]

theorem putSource_canon (s : State) (n p v : Nat) (b : Buf) : (putSource s n p v b).canon = s.canon := by
  unfold putSource
  simp only [State.canon, ↓hide_ite, memoriesCanonical_ite, ite_self, modEng_canon, putBuf_hide, memoryless_has]

theorem dropLocal_canon (s : State) (n p v : Nat) (t : Trip) (f : Flit) : (dropLocal s n p v t f).canon = s.canon := by
  unfold dropLocal
  simp only [State.canon, putSource_canon]

theorem atOwnSeat_canon (s u : State) (n p v : Nat) (t : Trip) (f : Flit) (h : atOwnSeat s n p v t f = some u) : u.canon = s.canon := by
  unfold atOwnSeat at h
  dsimp only at h
  split at h
  · cases h
    exact dropLocal_canon ..
  split at h
  · cases h
    simp only [State.canon, skipMember_hide, dropLocal_canon, memoryless_has]
  split at h
  · cases h
    simp only [State.canon, answerFrom_hide, putSource_canon, memoryless_has]
  split at h
  · repeat' split at h
    all_goals cases h
    · rfl
    all_goals simp only [State.canon, ↓hide_noc, modDom_hide, putSource_canon, memoryless_has]
  · cases h

theorem atSeam_canon (s u : State) (n p v o : Nat) (t : Trip) (hdr : BitVec 512) (h : atSeam s n p v o t hdr = some u) : u.canon = s.canon := by
  unfold atSeam at h
  dsimp only at h
  repeat' split at h
  all_goals cases h
  all_goals simp only [State.canon, noteHeld_hide, refuseMembers_hide, answerFrom_hide, putSource_canon, memoryless_has]

theorem enterMesh_canon (s : State) (n p : Nat) (f : Flit) : (enterMesh s n p f).canon = s.canon := by
  unfold enterMesh
  dsimp only
  (repeat' split) <;> simp only [State.canon, enterSeat_hide, putSource_canon, memoryless_has]

theorem passFlit_canon (s : State) (n p v o ecc : Nat) (f : Flit) : (passFlit s n p v o ecc f).canon = s.canon := by
  unfold passFlit
  dsimp only
  (repeat' split) <;> simp only [State.canon, ↓hide_noc, touchCrew_hide, putSource_canon, landFlit_hide, noteOutput_hide, discarded_hide,
    eccRec_hide, memoryless_has]

theorem dispatchSeat_canon (s : State) (r h : Nat) (run : Run) (d : HeatDesc) (epoch : BitVec 16) (g : Gen) (p : Place) (w : Nat) :
    (dispatchSeat s r h run d epoch g p w).canon = s.canon := by
  unfold dispatchSeat
  simp only [State.canon, modSeat_canon, modDom_hide, sendStart_hide, implies_true, memoryless_has]

theorem skipHeat_canon (s : State) (r h : Nat) : (skipHeat s r h).canon = s.canon := by
  unfold skipHeat
  (repeat' split) <;> simp only [State.canon, modHeat_hide, releasePages_canon, postHeat_hide, memoryless_has]

theorem freeHeat_canon (s : State) (r h : Nat) (x : Heat) : (freeHeat s r h x).canon = s.canon := by
  unfold freeHeat
  simp only [State.canon, modHeat_hide, endOnSeats_canon, memoryless_has]

theorem functionReset_canon (s : State) : (functionReset s).canon = s.canon := by
  unfold functionReset
  simp only [State.canon, ↓hide_str_cq_pins_glb, cancelRuns_canon, stopFeeds_hide, memoryless_has]

theorem chipHalt_canon (s : State) (kind code : Nat) (det : BitVec 128) : (chipHalt s kind code det).canon = s.canon := by
  unfold chipHalt
  simp only [State.canon, ↓hide_flt_glb, ↓hide_ite, memoriesCanonical_ite, ite_self, report_hide, raiseEvent_hide, cancelRuns_canon,
    stopFeeds_hide, stopLoads_hide, memoryless_has]

theorem boardHalt_canon (s : State) (code : Nat) : (boardHalt s code).canon = s.canon := by
  unfold boardHalt
  simp only [State.canon, ↓hide_glb, ↓hide_ite, memoriesCanonical_ite, ite_self, chipHalt_canon, memoryless_has]

theorem tripThermal_canon (s : State) (q : Nat) (tj : Byte) : (tripThermal s q tj).canon = s.canon := by
  unfold tripThermal
  simp only [State.canon, ↓hide_pins, ↓hide_ite, memoriesCanonical_ite, ite_self, chipHalt_canon, raiseAlert_hide, stopAll_hide,
    memoryless_has]

theorem unlockDomain_canon (s : State) (d : Nat) : (unlockDomain s d).canon = s.canon := by
  unfold unlockDomain
  simp only [State.canon, modDom_hide, chipHalt_canon, raiseAlert_hide, stopDomain_hide, memoryless_has]

theorem takeLateHalt_canon (s : State) : (takeLateHalt s).canon = s.canon := by
  unfold takeLateHalt
  (repeat' split) <;> simp only [State.canon, ↓hide_glb, chipHalt_canon, memoryless_has]

theorem serveReady_canon (s : State) : (serveReady s).canon = s.canon := by
  unfold serveReady
  simp only [State.canon, ↓hide_glb, commitTrial_hide, freshRec_hide, takeLateHalt_canon, memoryless_has]

theorem becomeReady_canon (s : State) : (becomeReady s).canon = s.canon := by
  unfold becomeReady
  simp only [State.canon, raiseEvent_hide, serveReady_canon, memoryless_has]

theorem sendDraft_canon (s : State) (w : Nat) (e : EngIx) (j : Job) (t : Nat) (a : Draft) : (sendDraft s w e j t a).canon = s.canon := by
  unfold sendDraft
  simp only [State.canon, putSeat_canon, putEng_memories]

theorem finishEngine_canon (s : State) (w : Nat) (e : EngIx) (j : Job) (t : Nat) : (finishEngine s w e j t).canon = s.canon := by
  unfold finishEngine
  simp only [State.canon, putSeat_canon, putEng_memories]

theorem countRefusal_canon (s : State) (w space code : Nat) : (countRefusal s w space code).canon = s.canon := by
  unfold countRefusal
  simp only [State.canon, ↓hide_ite, memoriesCanonical_ite, ite_self, modCox_canon, modWst_canon]

theorem asleepAt_canon (s : State) (hf : Nat) : (asleepAt s hf).canon = s.canon := by
  unfold asleepAt
  simp only [State.canon, modPool_canon, implies_true]

theorem wordPool_canon (s : State) (i hf : Nat) (d : Deliv) : (wordPool s i hf d).canon = s.canon := by
  unfold wordPool
  simp only [State.canon, ↓hide_ite, memoriesCanonical_ite, ite_self, setPoolWord_canon, staleElse_hide, answered_hide, memoryless_has]

theorem overSeat_canon (s : State) (w : Nat) (f : Finish) : (overSeat s w f).canon = s.canon := by
  unfold overSeat
  simp only [State.canon, seatRaise_canon]

theorem releaseSeat_canon (s : State) (w : Nat) (f : Finish) (c : Word) : (releaseSeat s w f c).canon = s.canon := by
  unfold releaseSeat
  simp only [State.canon, ↓hide_ite, memoriesCanonical_ite, ite_self, modSeat_canon, overSeat_canon, implies_true]

theorem releasePool_canon (s : State) (hf : Nat) (f : Finish) (c : Word) : (releasePool s hf f c).canon = s.canon := by
  unfold releasePool
  simp only [State.canon, ↓hide_ite, ite_self, modPool_canon, overPool_hide, implies_true, memoryless_has]

theorem finishSeat_canon (s : State) (i w : Nat) (d : Deliv) : (finishSeat s i w d).canon = s.canon := by
  unfold finishSeat
  simp only [State.canon, ↓hide_ite, memoriesCanonical_ite, ite_self, modSeat_canon, staleSeat_canon, answered_hide, releaseSeat_canon,
    implies_true, memoryless_has]

theorem finishPool_canon (s : State) (i hf : Nat) (d : Deliv) : (finishPool s i hf d).canon = s.canon := by
  unfold finishPool
  simp only [State.canon, ↓hide_ite, memoriesCanonical_ite, ite_self, modPool_canon, staleElse_hide, answered_hide, releasePool_canon,
    implies_true, memoryless_has]

theorem readSeat_canon (s : State) (i w : Nat) (d : Deliv) : (readSeat s i w d).canon = s.canon := by
  unfold readSeat
  simp only [State.canon, ↓hide_ite, memoriesCanonical_ite, ite_self, staleSeat_canon, answered_hide, answerData_hide, memoryless_has]

theorem readPool_canon (s : State) (i hf : Nat) (d : Deliv) : (readPool s i hf d).canon = s.canon := by
  unfold readPool
  simp only [State.canon, ↓hide_ite, memoriesCanonical_ite, ite_self, staleElse_hide, answered_hide, asleepAt_canon, answerData_hide,
    memoryless_has]

theorem settleOut_canon (s : State) (w h : Nat) : (settleOut s w h).canon = s.canon := by
  unfold settleOut
  simp only [State.canon, modEng_canon]

theorem rdataOver_canon (s : State) (i w h : Nat) : (rdataOver s i w h).canon = s.canon := by
  unfold rdataOver
  simp only [State.canon, takeArrive_hide, settleOut_canon, memoryless_has]

theorem nackSeat_canon (s : State) (i w : Nat) (d : Deliv) : (nackSeat s i w d).canon = s.canon := by
  unfold nackSeat
  dsimp only
  (repeat' split) <;> simp only [State.canon, report_hide, seatRaise_canon, takeArrive_hide, settleOut_canon, memoryless_has]

theorem dropFinishes_canon (s : State) (hf : Nat) (e : BitVec 16) : (dropFinishes s hf e).canon = s.canon := by
  unfold dropFinishes
  simp only [State.canon, ↓hide_str, modPool_canon, implies_true, memoryless_has]

theorem releaseCrew_canon (s : State) (q : Nat) : (releaseCrew s q).canon = s.canon := by
  unfold releaseCrew
  simp only [State.canon, ↓canon_foldl, implies_true, ↓hide_ite, memoriesCanonical_ite, ite_self, modHeat_hide, releasePages_canon,
    memoryless_has]

theorem scrubEnd_canon (s : State) (w f : Nat) : (scrubEnd s w f).canon = s.canon := by
  unfold scrubEnd
  simp only [State.canon, ↓hide_ite, memoriesCanonical_ite, ite_self, modWst_canon, weakReport_hide, memoryless_has]

theorem diagRead_canon (s : State) (w g : Nat) : (diagRead s w g).canon = s.canon := by
  unfold diagRead
  simp only [State.canon, ↓hide_ite, memoriesCanonical_ite, ite_self, modWst_canon, drawn_hide, memoryless_has]

theorem numberSeat_canon (s : State) (r : Record) (n : Word) : (numberSeat s r n).canon = s.canon := by
  unfold numberSeat
  (repeat' split)
  · refine modSeat_canon s _ _ ?_ ?_ ?_ <;> intro x <;> dsimp only <;> split <;> rfl
  · refine modSeat_canon s _ _ ?_ ?_ ?_ <;> intro x <;> dsimp only <;> split <;> rfl
  · rfl

theorem acceptRecord_canon (s : State) (r : Record) : (acceptRecord s r).canon = s.canon := by
  unfold acceptRecord
  simp only [State.canon, ↓hide_flt, ↓hide_ite, ite_self, raiseEvent_hide, chargeHeat_hide, fillHold_hide, numberSeat_canon, memoryless_has]

theorem fenceOne_canon (s : State) (w : Nat) : (fenceOne s w).canon = s.canon := by
  unfold fenceOne
  (repeat' split) <;> simp only [State.canon, modMap_hide, report_hide, abortHeat_canon, memoryless_has]

theorem actOn_canon (s : State) (r : Record) : (actOn s r).canon = s.canon := by
  unfold actOn
  simp only [State.canon, ↓hide_ite, memoriesCanonical_ite, ite_self, modDom_hide, fenceOne_canon, recordFence_hide, markContext_hide,
    flagFenced_hide, memoryless_has]

theorem startupFails_canon (s : State) : (startupFails s).canon = s.canon := by
  unfold startupFails
  simp only [State.canon, ↓hide_glb, becomeReady_canon, memoryless_has]

theorem markFailed_canon (s : State) (bad : List Nat) : (markFailed s bad).canon = s.canon := by
  unfold markFailed
  simp only [State.canon, ↓canon_foldl, implies_true, modSeat_canon]

theorem segmentDead_canon (s : State) (h g : Nat) : (segmentDead s h g).canon = s.canon := by
  unfold segmentDead
  simp only [State.canon, modPool_canon, implies_true]

theorem disableSeats_canon (s : State) (keep : Nat → List Nat) : (disableSeats s keep).canon = s.canon := by
  unfold disableSeats
  simp only [State.canon, ↓canon_foldl, implies_true, modSeat_canon]

theorem fenceFailed_canon (s : State) (w : Nat) : (fenceFailed s w).canon = s.canon := by
  unfold fenceFailed
  simp only [State.canon, ↓hide_ite, memoriesCanonical_ite, ite_self, report_hide, fenceOne_canon, recordFence_hide, memoryless_has]

theorem applyGrade_canon (s : State) : (applyGrade s).canon = s.canon := by
  unfold applyGrade
  simp only [State.canon, ↓canon_foldl, implies_true, ↓hide_glb, ↓hide_ite, memoriesCanonical_ite, ite_self, disableSeats_canon,
    applyFences_hide, fenceFailed_canon, writeMap_hide, memoryless_has]

theorem evictCtx_canon (s : State) (k : Nat) : (evictCtx s k).canon = s.canon := by
  unfold evictCtx
  simp only [State.canon, ↓hide_flt, modCtx_hide, releaseGen_canon, unbind_hide, memoryless_has]

theorem evictFor_canon (s : State) (need : List (Nat × List Nat)) (cs : List Nat) : (evictFor s need cs).1.canon = s.canon := by
  induction cs generalizing s with
  | nil => rfl
  | cons c cs ih =>
    unfold evictFor
    dsimp only
    (repeat' split) <;> simp only [State.canon, ih, evictCtx_canon]

theorem makeRoom_canon (s : State) (k : Nat) (need : List (Nat × List Nat)) (may : Bool) (r : State × Nat)
    (hr : makeRoom s k need may = some r) : r.1.canon = s.canon := by
  unfold makeRoom at hr
  dsimp only at hr
  (repeat' split at hr) <;> simp only [Option.some.injEq, reduceCtorEq] at hr <;> subst hr <;> simp only [State.canon, evictFor_canon]

theorem storeTile_canon (s : State) (w f : Nat) (t : Mem) : (storeTile s w f t).canon = s.canon := by
  unfold storeTile
  simp only [State.canon, modWst_canon]

theorem walkRecords_canon (g : Gen) (k : Nat) (m : Mem) (len n i : Nat) (s : State) (ts : List (Nat × Nat)) :
    (walkRecords g k m len n i s ts).1.canon = s.canon := by
  induction n generalizing i s ts with
  | zero => rfl
  | succ n ih =>
    unfold walkRecords
    dsimp only
    (repeat' split) <;> simp only [State.canon, ih, storeTile_canon]

theorem segPassed_canon (s : State) (j : LoadJob) (g : Gen) (i : Nat) (plain : List Byte) : (segPassed s j g i plain).canon = s.canon := by
  unfold segPassed
  simp only [State.canon, ↓hide_ite, ite_self, modGenNum_hide, segmentFails_hide, modLoad_hide, walkRecords_canon, memoryless_has]

theorem loadSegment_canon (s : State) (j : LoadJob) (g : Gen) (i : Nat) (cipher : Option Mem) :
    (loadSegment s j g i cipher).canon = s.canon := by
  unfold loadSegment
  dsimp only
  (repeat' split) <;> simp only [State.canon, ↓hide_foldl, implies_true, segmentFails_hide, modLoad_hide, segPassed_canon, memoryless_has]

theorem giveExtents_canon (s : State) (ts : List (Nat × Nat)) : (giveExtents s ts).canon = s.canon := by
  unfold giveExtents
  simp only [State.canon, ↓canon_foldl, implies_true, modWst_canon]

theorem finishLoad_canon (s : State) (j : LoadJob) (g : Gen) : (finishLoad s j g).canon = s.canon := by
  unfold finishLoad
  simp only [State.canon, ↓hide_ite, ite_self, answerLate_hide, dropLoad_hide, giveExtents_canon, checkCount_hide, settleLoad_hide,
    memoryless_has]


theorem checkLoad_canon (turn : Bool) (s : State) (src c k : Nat) (m : Mem) : (checkLoad turn s src c k m).canon = s.canon := by
  unfold checkLoad
  dsimp only
  (repeat' split) <;> simp only [State.canon, loadAnswer_hide, refuseLoadCommand_hide, startLoad_hide, memoryless_has] <;>
    exact makeRoom_canon _ _ _ _ _ ‹_›



/-! ## The seat in hand -/

theorem ctrlWrite_canon (s : State) (w : Nat) (j : Job) (v : Word) : (ctrlWrite s w (seatOf s w) j v).canon = s.canon :=
  putSeat_canon s w _ rfl rfl rfl

theorem veEnd_canon {α : Type} (s : State) (w : Nat) (j : Job) (st : Strm α) (g : Vec → α → Vec) :
    (veEnd s w (seatOf s w) j st g).canon = s.canon := by
  unfold veEnd
  split
  · exact putSeat_canon s w _ (by split <;> rfl) (by split <;> rfl) (by split <;> rfl)
  · exact (jobFault_canon ..).trans (putSeat_canon s w _ rfl rfl rfl)

theorem transmit_canon (s : State) (w : Nat) (e : EngIx) (j : Job) (n t : Nat) (a : Draft) :
    (transmit s w e (seatOf s w) j n t a).canon = s.canon := by
  unfold transmit
  dsimp only
  (repeat' split) <;> simp only [State.canon, sendDraft_canon, finishEngine_canon, drawn_hide, putSeat_canon, putEng_memories, memoryless_has]

/-! ## What writes a memory keeps the form -/

theorem putSeat_canonical {s : State} {x : Seat} (w : Nat) (h : s.canon = true) (hx : SeatCanonical x) : (putSeat s w x).canon = true :=
  canonical_putSeat s w x h hx

theorem modSeat_canonical {s : State} {f : Seat → Seat} (w : Nat) (h : s.canon = true) (hf : ∀ x, SeatCanonical x → SeatCanonical (f x)) :
    (modSeat s w f).canon = true := canonical_modSeat s w f h hf

theorem coreWrite_canonical {x : Seat} (a : Nat) (bs : List Byte) (h : SeatCanonical x) : SeatCanonical (coreWrite x a bs) :=
  ⟨wf_mwrites _ _ _ h.1, h.2⟩

theorem seatWrite_canonical {x : Seat} (space o : Nat) (bs : List Byte) (h : SeatCanonical x) : SeatCanonical (seatWrite x space o bs) := by
  unfold seatWrite
  split
  · exact coreWrite_canonical o bs h
  · exact ⟨h.1, wf_mwrites _ _ _ h.2.1, h.2.2⟩

theorem tornLoad_memories (x : Seat) (g : Nat) : SameMemories (tornLoad x g) x := by
  unfold tornLoad
  dsimp only
  repeat' split
  all_goals exact ⟨rfl, rfl, rfl⟩

theorem storeWrite_canonical {x : Seat} (g : Nat) (d : Granule) (h : SeatCanonical x) : SeatCanonical (storeWrite x g d) := by
  obtain ⟨hcore, hdesc, hstore⟩ := h
  obtain ⟨hc, hd, hs⟩ := tornLoad_memories x g
  refine ⟨hc ▸ hcore, hd ▸ hdesc, wf_mwrGran _ _ _ ?_⟩
  exact hs ▸ hstore

theorem poolWrite_canonical {s : State} (h a : Nat) (bs : List Byte) (hs : s.canon = true) : (poolWrite s h a bs).canon = true :=
  canonical_modPool s h (fun p => { p with mem := mwrites p.mem a bs }) hs fun _ hp => wf_mwrites _ _ _ hp

theorem poolGranule_canonical {s : State} (h g : Nat) (d : Granule) (hs : s.canon = true) : (poolGranule s h g d).canon = true :=
  poolWrite_canonical h _ _ hs

theorem foldl_canonical {α : Type} {f : State → α → State} {s : State} (l : List α) (h : s.canon = true)
    (hf : ∀ t a, t.canon = true → (f t a).canon = true) : (l.foldl f s).canon = true := canonical_foldl f l s h hf

theorem landAccess_canonical (w : Nat) {s : State} (a : Nat × Option Word) (h : s.canon = true) : (landAccess w s a).canon = true := by
  unfold landAccess
  split
  · exact modSeat_canonical w h fun x hx => coreWrite_canonical _ _ hx
  · exact h

theorem landWindow_canonical {s : State} (w : Nat) (h : s.canon = true) : (landWindow s w).canon = true := by
  refine foldl_canonical _ ?_ fun _ a ht => landAccess_canonical w a ht
  simp only [modSeat_canon, implies_true, h]

theorem bar2Pool_canonical {s : State} (h o len : Nat) (wr : Option Mem) (hs : s.canon = true) : (bar2Pool s h o len wr).canon = true := by
  unfold bar2Pool
  dsimp only
  (repeat' split) <;> simp only [State.canon, badAccess_hide, bar2Refuse_hide, bar2Answer_hide, noteHeld_hide, modPool_canon,
    setPoolWord_canon,
    poolWrite_canonical, implies_true, memoryless_has, hs]

theorem feedMove_canonical {s : State} (d n k : Nat) (data : List Granule) (h : s.canon = true) : (feedMove s d n k data).1.canon = true := by
  induction n generalizing s k data with
  | zero => exact h
  | succ n ih =>
    unfold feedMove
    dsimp only
    split
    · exact h
    split
    · exact h
    split
    · exact h
    split
    · refine ih _ _ ?_
      split <;> simp only [countPool_canon, poolGranule_canonical, h]
    · exact ih _ _ (canonical_hostWrite s _ _ h)

/-- A granule or word that lands, or is refused or dropped, leaves what its row's parts leave. -/
theorem writeRow_canonical {s : State} {i g : Nat} {d : Deliv} {live : Bool} {stale : State} {bad : Option (State × Nat)} {wait : Bool}
    {put : Granule → State} (h : s.canon = true) (hstale : stale.canon = true) (hbad : ∀ p, bad = some p → p.1.canon = true)
    (hput : ∀ y, (put y).canon = true) : (writeRow s i g d live stale bad wait put).canon = true := by
  unfold writeRow
  repeat' split
  all_goals simp only [State.canon, answered_hide, dropPkt_hide, wroteGranule_hide, memoryless_has, h, hstale, hput]
  next hb =>
    split at hb
    · exact hbad _ hb
    · cases hb

theorem writeSeat_canonical {s : State} (i g w : Nat) (d : Deliv) (h : s.canon = true) : (writeSeat s i g w d).canon = true := by
  refine writeRow_canonical h ((staleSeat_canon s w).trans h) (fun p hp => ?_) fun y => ?_
  · obtain ⟨c, -, rfl⟩ := Option.map_eq_some_iff.mp hp
    exact (countRefusal_canon s w _ c).trans h
  · have hw := modSeat_canonical w h fun x hx => seatWrite_canonical (pSpace d.pkt.hdr.toNat)
      (pOff d.pkt.hdr.toNat + 64 * g) (bytesOf y.toNat 64) hx
    dsimp only
    split
    · exact (countSeat_canon _ _ _).trans hw
    · exact hw

theorem writePool_canonical {s : State} (i g hf : Nat) (d : Deliv) (h : s.canon = true) : (writePool s i g hf d).canon = true := by
  refine writeRow_canonical h h (fun p hp => ?_) fun y => ?_
  · (repeat' split at hp) <;> cases hp
    · exact h
    · exact (asleepAt_canon s hf).trans h
  · have hw := poolWrite_canonical hf (pOff d.pkt.hdr.toNat + 64 * g) (bytesOf y.toNat 64) h
    dsimp only
    split
    · exact (countPool_canon _ _ _).trans hw
    · exact hw

theorem wordSeat_canonical {s : State} (i w : Nat) (d : Deliv) (h : s.canon = true) : (wordSeat s i w d).canon = true := by
  have hw := modSeat_canonical w h fun x hx => seatWrite_canonical (pSpace d.pkt.hdr.toNat) (pOff d.pkt.hdr.toNat)
    (bytesOf (pWord d.pkt.hdr.toNat) 4) hx
  unfold wordSeat
  dsimp only
  repeat' split
  all_goals simp only [State.canon, answered_hide, staleSeat_canon, setSeatWord_canon, countRefusal_canon, memoryless_has, h, hw]

theorem rdataSeat_canonical {s : State} (i g w : Nat) (d : Deliv) (h : s.canon = true) : (rdataSeat s i g w d).canon = true := by
  have hw (y : Granule) := modSeat_canonical w h fun x hx => coreWrite_canonical (pOff d.pkt.hdr.toNat + 64 * g) (bytesOf y.toNat 64) hx
  unfold rdataSeat
  dsimp only
  repeat' split
  all_goals simp only [State.canon, rdataOver_canon, dropPkt_hide, modArrive_hide, staleSeat_canon, countSeat_canon, memoryless_has, h, hw]

theorem writeBuffer_canonical {s : State} (src a : Nat) (bs : List Byte) (h : s.canon = true) : (writeBuffer s src a bs).canon = true := by
  unfold writeBuffer
  split
  · exact h
  · exact canonical_hostWrite s a bs h

theorem windowWrite_canonical {s : State} (w o : Nat) (v : Word) (h : s.canon = true) : (windowWrite s w o v).canon = true := by
  have hw := modSeat_canonical w h fun x hx => seatWrite_canonical (seatOf s w).winSpace.toNat (winByte (seatOf s w) o)
    (bytesOf v.toNat 4) hx
  unfold windowWrite
  dsimp only
  repeat' split
  all_goals simp only [countRefusal_canon, modSeat_canon, modCox_canon, implies_true, h, hw]

theorem seatRegWrite_canonical {s : State} (w o : Nat) (v : Word) (h : s.canon = true) : (seatRegWrite s w o v).canon = true := by
  unfold seatRegWrite
  split
  · exact h
  split
  · exact windowWrite_canonical w o v h
  split
  · simp only [modSeat_canon, implies_true, h]
  · simp only [modSeat_canon, implies_true, h]
  · simp only [modWst_canon, h]
  · simp only [modWst_canon, h]
  · unfold execWstDiagGo
    split
    · simp only [outState, modWst_canon, h]
    · exact h
  · exact h

theorem bar0Write_canonical {s : State} (off : Nat) (v : Word) (h : s.canon = true) : (bar0Write s off v).canon = true := by
  unfold bar0Write
  repeat' split
  · simp only [State.canon, glbWrite_hide, memoryless_has, h]
  · simp only [State.canon, cqWrite_hide, memoryless_has, h]
  · exact h
  · exact h
  · exact h
  · simp only [State.canon, clkWrite_hide, memoryless_has, h]
  · simp only [State.canon, fabWrite_hide, memoryless_has, h]
  · exact h
  · exact h
  · simp only [State.canon, wakeWindow_hide, seatRegWrite_canonical, memoryless_has, h]
  · exact h

theorem registerPut_canonical {s : State} (off size : Nat) (val : BitVec 64) (h : s.canon = true) : (registerPut s off size val).canon = true := by
  unfold registerPut
  dsimp only
  repeat' split
  · simp only [State.canon, msixAccess_hide, memoryless_has, h]
  · exact h
  · exact bar0Write_canonical off _ h

/-! ## Halves and the whole part -/

theorem halfSeats_canonical {s : State} (n : Nat) {f : Seat → Seat} (h : s.canon = true) (hf : ∀ x, SeatCanonical x → SeatCanonical (f x)) :
    ∀ p ∈ halfSeats s n f, SeatCanonical p.2 := by
  obtain ⟨-, -, hs⟩ := (memoriesCanonical_iff s).mp h
  intro p hp
  unfold halfSeats at hp
  rcases List.mem_append.mp hp with hp | hp
  · rcases List.mem_append.mp hp with hp | hp
    · exact hs p (List.mem_filter.mp hp).1
    · obtain ⟨i, -, rfl⟩ := List.mem_map.mp hp
      exact hf _ (seatOf_canonical s _ h)
  · exact hs p (List.mem_filter.mp hp).1

/-- Seats replaced by ones with canonical memories. -/
theorem withSeats_canonical {s : State} {l : Tbl Seat} (h : s.canon = true) (hl : ∀ p ∈ l, SeatCanonical p.2) :
    State.canon { s with seats := l } = true := by
  obtain ⟨hm, hp, -⟩ := (memoriesCanonical_iff s).mp h
  exact (memoriesCanonical_iff _).mpr ⟨hm, hp, hl⟩

theorem stopHalf_canon (s : State) (h : Nat) : (losePower (setHalf (stopHalf s h) h 3) h).canon = s.canon := by
  simp only [State.canon, losePower_hide, setHalf_hide, stopHalf_hide, memoryless_has]

theorem startHalf_canon (s : State) (h : Nat) : (setHalf (startHalf s h) h 0).canon = s.canon := by
  simp only [State.canon, setHalf_hide, startHalf_hide, memoryless_has]

theorem enterBoated_canonical {s : State} (h : Nat) (hs : s.canon = true) : (enterBoated s h).canon = true := by
  have h1 := (stopHalf_canon s h).trans hs
  unfold enterBoated
  generalize losePower (setHalf (stopHalf s h) h 3) h = u at h1 ⊢
  dsimp only
  obtain ⟨hm, hp, hseat⟩ := (memoriesCanonical_iff u).mp h1
  refine (memoriesCanonical_iff _).mpr ⟨hm, fun p (hq : p ∈ tput u.pools h _) => ?_, fun p (hq : p ∈ u.seats.map _) => ?_⟩
  · rcases mem_tput _ _ _ _ hq with rfl | hq
    · rfl
    · exact hp p hq
  · obtain ⟨q, hmem, rfl⟩ := List.mem_map.mp hq
    split
    · exact ⟨rfl, rfl, rfl⟩
    · exact hseat q hmem

theorem enterMember_canonical {s : State} (r : PwrReq) (m : Nat) (h : s.canon = true) : (enterMember r s m).canon = true := by
  unfold enterMember
  repeat' split
  all_goals simp only [State.canon, enterPaddle_hide, enterEasy_hide, enterBoated_canonical, memoryless_has, h]

theorem leaveEasy_canonical {s : State} (h : Nat) (hs : s.canon = true) : (leaveEasy s h).canon = true := by
  have h1 := (startHalf_canon s h).trans hs
  unfold leaveEasy
  generalize setHalf (startHalf s h) h 0 = u at h1 ⊢
  refine foldl_canonical _ ?_ fun t a ht => bar2Pool_canonical h _ _ _ ht
  have h2 := withSeats_canonical h1 (halfSeats_canonical h h1 (f := fun x => { x with wst := x.wst.afresh s.clk.ticks }) fun _ hx => hx)
  simp only [modPool_canon, implies_true, h2]

theorem leaveBoated_canonical {s : State} (h : Nat) (hs : s.canon = true) : (leaveBoated s h).canon = true := by
  have h1 : (losePower (setHalf (startHalf s h) h 0) h).canon = true := by
    simp only [State.canon, losePower_hide, setHalf_hide, startHalf_hide, memoryless_has, hs]
  unfold leaveBoated
  generalize losePower (setHalf (startHalf s h) h 0) h = u at h1 ⊢
  have h2 : State.canon { u with seats := fillSeats u h } = true := withSeats_canonical h1 (halfSeats_canonical h h1 fun _ hx => hx)
  dsimp only
  split
  · simp only [State.canon, ↓hide_foldl, modPort_hide, startDomain_hide, implies_true, memoryless_has]
    exact h2
  · exact h2

theorem resetPart_canonical {s : State} (h : s.canon = true) : (resetPart s).canon = true :=
  (memoriesCanonical_iff _).mpr ⟨((memoriesCanonical_iff s).mp h).1, fun _ hp => absurd hp List.not_mem_nil, fun _ hp => absurd hp List.not_mem_nil⟩

theorem powerLost_canonical {s : State} (g : Nat) (h : s.canon = true) : (powerLost s g).canon = true := by
  unfold powerLost
  have h1 := resetPart_canonical h
  generalize resetPart s = u at h1 ⊢
  exact h1

/-! ## Rows -/

theorem keeps_self (s : State) : Keeps s (.next s) := (keeps_next s s).mpr id

/-- A command whose frame holds no memory. -/
theorem keeps_of_leaves {ps : List Part} {s : State} {o : Outcome State Fault Refusal} (h : Leaves ps s o)
    (hp : Part.seats ∉ ps ∧ Part.pools ∉ ps ∧ Part.hostMem ∉ ps) : Keeps s o := by
  intro t ht hs
  obtain ⟨hseats, hpools, hmem⟩ := hp
  have heq := h t ht
  refine memoriesCanonical_congr s t hs ?_ ?_ ?_
  · simpa only [State.hide, if_neg hseats] using congrArg State.seats heq
  · simpa only [State.hide, if_neg hpools] using congrArg State.pools heq
  · simpa only [State.hide, if_neg hmem] using congrArg State.hostMem heq

theorem commandRow_keeps {s : State} {src op : Nat} {f : Nat → State} (h : ∀ c, s.canon = true → (f c).canon = true) :
    Keeps s (commandRow s src op f) := by
  unfold commandRow
  split
  · exact (keeps_next _ _).mpr (h _)
  · exact keeps_self s

theorem lateRow_keeps {s : State} {src op : Nat} {f : Nat → State} (h : ∀ c, s.canon = true → (f c).canon = true) :
    Keeps s (lateRow s src op f) := by
  unfold lateRow
  repeat' split
  · simp only [keeps_next, State.canon, beginBg_hide, imp_self, memoryless_has]
  · exact (keeps_next _ _).mpr (h _)
  · exact keeps_self s

theorem loadRow_keeps {s : State} {src op : Nat} {f : Bool → Nat → State} (h : ∀ turn c, s.canon = true → (f turn c).canon = true) :
    Keeps s (loadRow s src op f) := by
  unfold loadRow
  split
  · exact (keeps_next _ _).mpr (h _ _)
  · exact commandRow_keeps (h false)

theorem updateRow_keeps {src : SrcIx} {img : Option Mem} {ty : Nat} {s : State} {f : Nat → Mem → State}
    (h : ∀ c m, s.canon = true → (f c m).canon = true) : Keeps s (updateRow src img ty s f) := by
  unfold updateRow updateStart
  dsimp only
  repeat' split
  all_goals simp only [keeps_next, State.canon, answer_hide, beginBg_hide, finishBg_hide, imp_self, memoryless_has]
  exact h _ _

section
variable {op w : Nat} {s : State} {f : Seat → Job → State} (h : ∀ j, s.canon = true → (f (seatOf s w) j).canon = true)
include h

theorem coxRow_keeps {cls : Nat} : Keeps s (coxRow cls op w s f) := by
  unfold coxRow
  dsimp only
  repeat' split
  · exact (keeps_next _ _).mpr (h _)
  · exact keeps_self s
  · exact keeps_self s

theorem veRow_keeps : Keeps s (veRow op w s f) := by
  unfold veRow
  dsimp only
  repeat' split
  · exact (keeps_next _ _).mpr (h _)
  · exact keeps_self s
  · exact keeps_self s

theorem mxRow_keeps {u : Nat} {fin : Seat → Job → Nat} {ev : Seat → Job → List Ev} : Keeps s (mxRow op u w s fin ev f) := by
  unfold mxRow
  dsimp only
  repeat' split
  all_goals simp only [keeps_next, raiseEvents_canon, imp_self]
  · exact (putSeat_canon s w (mxStop _ _) rfl rfl rfl).substr id
  · exact h _
  · exact (putSeat_canon s w (mxStop _ _) rfl rfl rfl).substr id

end

theorem engineRow_keeps {op : Nat} {w : SeatIx} {e : EngIx} {s : State} {f : Seat → Job → State}
    (h : ∀ j, s.canon = true → (f (seatOf s w.val) j).canon = true) : Keeps s (engineRow op w e s f) := by
  unfold engineRow
  dsimp only
  repeat' split
  · exact (keeps_next _ _).mpr (h _)
  · exact keeps_self s
  · exact keeps_self s

theorem ctrlRow_keeps (op w : Nat) (s : State) (v : Seat → Job → Word) :
    Keeps s (coxRow clsCtrl op w s fun x j => ctrlWrite s w x j (v x j)) :=
  coxRow_keeps fun _ h => (ctrlWrite_canon s w _ _).trans h

theorem runElem_keeps (op w : Nat) (s : State) : Keeps s (runElem op w s) := veRow_keeps fun _ h => (veEnd_canon s w _ _ _).trans h

theorem packetRow_keeps {ty i : Nat} {s : State} {seat pool : Nat → Deliv → State} {fabric : Deliv → State}
    (hs : ∀ w d, s.canon = true → (seat w d).canon = true) (hp : ∀ n d, s.canon = true → (pool n d).canon = true)
    (hf : ∀ d, s.canon = true → (fabric d).canon = true) : Keeps s (packetRow ty i s seat pool fabric) := by
  unfold packetRow
  repeat' split
  · exact keeps_self s
  · exact (keeps_next _ _).mpr (hs _ _)
  · exact (keeps_next _ _).mpr (hp _ _)
  · exact (keeps_next _ _).mpr (hf _)
  · simp only [keeps_next, State.canon, takeArrive_hide, imp_self, memoryless_has]
  · exact keeps_self s

end Sys2Proof.Machine
end

section
/-!
SUPPORT. Every command keeps the canonical form. A command whose frame holds no memory keeps it by its frame; each other command is walked once,
down to the shared operations.
-/
namespace Sys2Proof.Machine
open Host (Outcome)

/-! ## Loads, contexts and records -/

theorem execShardLoad_keeps (src : SrcIx) (img : Option Mem) (s : State) : Keeps s (execShardLoad src img s) := by
  refine loadRow_keeps fun turn c => ?_
  dsimp only
  repeat' split
  all_goals simp only [State.canon, imp_self, loadAnswer_hide, answer_hide, queueLoad_hide, holdRead_hide, checkLoad_canon, memoryless_has]

theorem execGenerationSwitch_keeps (src : SrcIx) (s : State) : Keeps s (execGenerationSwitch src s) := by
  refine commandRow_keeps fun c => ?_
  dsimp only
  repeat' split
  all_goals simp only [State.canon, imp_self, answer_hide, releaseRetired_canon, modCtx_hide, memoryless_has]

theorem execEvict_keeps (src : SrcIx) (s : State) : Keeps s (execEvict src s) := by
  refine commandRow_keeps fun c => ?_
  simp only [State.canon, imp_self, answer_hide, evictCtx_canon, ↓hide_ite, memoriesCanonical_ite, ite_self, memoryless_has]

theorem execLoadSegment_keeps (img : Option Mem) (s : State) : Keeps s (execLoadSegment img s) := by
  unfold execLoadSegment
  repeat' split
  all_goals simp only [State.canon, imp_self, keeps_next, holdRead_hide, loadSegment_canon, modLoad_hide, memoryless_has]

theorem execLoadComplete_keeps (s : State) : Keeps s (execLoadComplete s) := by
  unfold execLoadComplete
  repeat' split
  all_goals simp only [State.canon, imp_self, keeps_next, answerLate_hide, dropLoad_hide, finishLoad_canon, memoryless_has]

theorem execRecordLogged_keeps (i : Nat) (s : State) : Keeps s (execRecordLogged i s) := by
  unfold execRecordLogged
  repeat' split
  all_goals simp only [State.canon, imp_self, keeps_next, ↓hide_flt, acceptRecord_canon, memoryless_has]

theorem execRecordHandling_keeps (s : State) : Keeps s (execRecordHandling s) := by
  unfold execRecordHandling
  dsimp only
  repeat' split
  all_goals simp only [State.canon, imp_self, keeps_next, ↓hide_flt_glb, releaseHolds_hide, markContext_hide, actOn_canon, memoryless_has]

theorem execSeatMapReassign_keeps (q : CrewIx) (s : State) : Keeps s (execSeatMapReassign q s) := by
  simp only [State.canon, imp_self, execSeatMapReassign, keeps_ite, keeps_next, ↓hide_ctxs_noc, modMap_hide, lagMap_hide, releaseCrew_canon,
    ite_self, memoryless_has]

/-! ## Heats and runs -/

theorem execHeatDispatch_keeps (r h : Nat) (s : State) : Keeps s (execHeatDispatch r h s) := by
  unfold execHeatDispatch
  dsimp only
  repeat' split
  all_goals simp only [State.canon, imp_self, keeps_next, ↓canon_foldl, implies_true, ↓hide_str, modHeat_hide, abandonHeat_canon,
    modClass_hide, drawn_hide, latchDeps_hide, dispatchSeat_canon, modCtx_hide, memoryless_has]

theorem execHeatComplete_keeps (r h : Nat) (s : State) : Keeps s (execHeatComplete r h s) := by
  unfold execHeatComplete
  dsimp only
  repeat' split
  all_goals simp only [State.canon, imp_self, keeps_next, freeHeat_canon, modHeat_hide, retire_canon, postHeat_hide, skipHeat_canon,
    settleRun_canon, memoryless_has]

theorem execHeatAbort_keeps (r h : Nat) (s : State) : Keeps s (execHeatAbort r h s) := by
  unfold execHeatAbort
  repeat' split
  all_goals simp only [State.canon, imp_self, keeps_next, abortHeat_canon]

theorem execHeatAbandon_keeps (r h : Nat) (s : State) : Keeps s (execHeatAbandon r h s) := by
  unfold execHeatAbandon
  repeat' split
  all_goals simp only [State.canon, imp_self, keeps_next, abandonHeat_canon]

theorem execHeatWatchdog_keeps (r h : Nat) (s : State) : Keeps s (execHeatWatchdog r h s) := by
  unfold execHeatWatchdog
  dsimp only
  repeat' split
  all_goals simp only [State.canon, imp_self, keeps_next, abortHeat_canon]

theorem execCancel_keeps (src : SrcIx) (s : State) : Keeps s (execCancel src s) := by
  refine commandRow_keeps fun c => ?_
  dsimp only
  repeat' split
  all_goals simp only [State.canon, imp_self, answer_hide, modRun_hide, goBackground_hide, cancelRun_canon, memoryless_has]

theorem execDescriptorPresent_keeps (w : SeatIx) (s : State) : Keeps s (execDescriptorPresent w s) := by
  simp only [State.canon, imp_self, execDescriptorPresent, keeps_next, present_canon]

theorem execQueueHoldEnd_keeps (w : SeatIx) (s : State) : Keeps s (execQueueHoldEnd w s) := by
  unfold execQueueHoldEnd
  dsimp only
  repeat' split
  all_goals simp only [State.canon, imp_self, keeps_next, modCox_canon, issueJob_canon]

theorem execDescriptorComplete_keeps (w : SeatIx) (i : Nat) (s : State) : Keeps s (execDescriptorComplete w i s) := by
  unfold execDescriptorComplete
  dsimp only
  repeat' split
  all_goals simp only [State.canon, imp_self, keeps_next, putSeat_canon, guardRaise_canon]

theorem execPlanFinished_keeps (w : SeatIx) (s : State) : Keeps s (execPlanFinished w s) := by
  simp only [State.canon, imp_self, execPlanFinished, keeps_ite, keeps_next, modCox_canon, modHeat_hide, ite_self, memoryless_has]

/-! ## Halts, start-up and the pins -/

theorem execWeighEnough_keeps (src : SrcIx) (s : State) : Keeps s (execWeighEnough src s) := by
  refine commandRow_keeps fun c => ?_
  simp only [State.canon, imp_self, answer_hide, chipHalt_canon, fleetHalt_hide, ↓hide_ite, memoriesCanonical_ite, ite_self, memoryless_has]

theorem execHaltSymbol_keeps (s : State) : Keeps s (execHaltSymbol s) := by
  simp only [State.canon, imp_self, execHaltSymbol, keeps_ite, keeps_next, ↓hide_chain, fleetHalt_hide, boardHalt_canon, ↓hide_ite,
    memoriesCanonical_ite, ite_self, memoryless_has]

theorem execHaltAssert_keeps (ns : Nat) (s : State) : Keeps s (execHaltAssert ns s) := by
  simp only [State.canon, imp_self, execHaltAssert, keeps_ite, keeps_next, ↓hide_pwr, boardHalt_canon, fleetHalt_hide, ↓hide_ite, ite_self,
    memoryless_has]

theorem execSnivanReady_keeps (s : State) : Keeps s (execSnivanReady s) := by
  simp only [State.canon, imp_self, execSnivanReady, keeps_next, becomeReady_canon, ↓hide_ite, memoriesCanonical_ite, ite_self]

theorem execMgmtWatchdog_keeps (puf : Bool) (s : State) : Keeps s (execMgmtWatchdog puf s) := by
  simp only [State.canon, imp_self, execMgmtWatchdog, keeps_ite, keeps_next, ↓hide_glb, raiseAlert_hide, chipHalt_canon, restartSnivan_hide,
    ite_self, memoryless_has]

theorem execSnivanHandler_keeps (puf : Bool) (s : State) : Keeps s (execSnivanHandler puf s) := by
  unfold execSnivanHandler
  dsimp only
  repeat' split
  all_goals simp only [State.canon, imp_self, keeps_next, ↓hide_glb, raiseAlert_hide, chipHalt_canon, restartSnivan_hide, memoryless_has]

theorem execFunctionLevelReset_keeps (s : State) : Keeps s (execFunctionLevelReset s) := by
  simp only [State.canon, imp_self, execFunctionLevelReset, keeps_next, functionReset_canon]

theorem execPerstAssert_keeps (s : State) : Keeps s (execPerstAssert s) := by
  simp only [State.canon, imp_self, execPerstAssert, keeps_next, ↓hide_pins, functionReset_canon, ↓hide_ite, memoriesCanonical_ite, ite_self,
    memoryless_has]

theorem execThermtrip_keeps (q : CrewIx) (tj : Byte) (s : State) : Keeps s (execThermtrip q tj s) := by
  simp only [State.canon, imp_self, execThermtrip, keeps_ite, keeps_next, tripThermal_canon, ite_self]

theorem execJunctionSample_keeps (q : CrewIx) (tj : Byte) (s : State) : Keeps s (execJunctionSample q tj s) := by
  simp only [State.canon, imp_self, execJunctionSample, keeps_ite, keeps_next, ↓hide_pwr, modDom_hide, lowerRails_hide, clamp_hide,
    tripThermal_canon, ↓hide_ite, memoriesCanonical_ite, ite_self, memoryless_has]

theorem execClkReflost_keeps (s : State) : Keeps s (execClkReflost s) := by
  simp only [State.canon, imp_self, execClkReflost, keeps_ite, keeps_next, ↓hide_pins, raiseAlert_hide, chipHalt_canon, stopAll_hide,
    ite_self, memoryless_has]

theorem execClkUnlock_keeps (d : DomIx) (s : State) : Keeps s (execClkUnlock d s) := by
  simp only [State.canon, imp_self, execClkUnlock, keeps_ite, keeps_next, unlockDomain_canon, ite_self]

theorem execRailsAndClocks_keeps (bad : List Nat) (s : State) : Keeps s (execRailsAndClocks bad s) := by
  simp only [State.canon, imp_self, execRailsAndClocks, keeps_ite, keeps_next, ↓canon_foldl, ↓hide_foldl, implies_true, ↓hide_pwr,
    lockDomain_hide, toStage_hide, startupFails_canon, unlockDomain_canon, ite_self, memoryless_has]

theorem execCrossingCalibration_keeps (base : Nat) (lats : Tbl Nat) (d : DomIx) (s : State) :
    Keeps s (execCrossingCalibration base lats d s) := by
  simp only [State.canon, imp_self, execCrossingCalibration, keeps_ite, keeps_next, ↓hide_noc, toStage_hide, startupFails_canon,
    raiseAlert_hide, chipHalt_canon, ite_self, memoryless_has]

theorem execDramTraining_keeps (bad : List Nat) (s : State) : Keeps s (execDramTraining bad s) := by
  simp only [State.canon, imp_self, execDramTraining, keeps_ite, keeps_next, ↓canon_foldl, implies_true, toStage_hide, segmentDead_canon,
    markFailed_canon, ite_self, memoryless_has]

/-! ## Refresh and scrub -/

theorem execWstDiagGo_keeps (w : SeatIx) (val : Word) (s : State) : Keeps s (execWstDiagGo w val s) := by
  simp only [execWstDiagGo, keeps_ite, keeps_next, modWst_canon, imp_self, ite_self]

theorem execRefreshAccrual_keeps (w : SeatIx) (s : State) : Keeps s (execRefreshAccrual w s) := by
  simp only [State.canon, imp_self, execRefreshAccrual, keeps_ite, keeps_next, modWst_canon, modDom_hide, ite_self, memoryless_has]

theorem execRefreshOperation_keeps (w : SeatIx) (b : BankIx) (ahead : Nat) (s : State) : Keeps s (execRefreshOperation w b ahead s) := by
  simp only [State.canon, imp_self, execRefreshOperation, keeps_ite, keeps_next, modWst_canon, ite_self]

theorem execForcedRefresh_keeps (w : SeatIx) (c : Nat) (s : State) : Keeps s (execForcedRefresh w c s) := by
  simp only [State.canon, imp_self, execForcedRefresh, keeps_ite, keeps_next, modWst_canon, ite_self]

theorem execForcedRefreshEnd_keeps (w : SeatIx) (s : State) : Keeps s (execForcedRefreshEnd w s) := by
  unfold execForcedRefreshEnd
  dsimp only
  repeat' split
  all_goals simp only [State.canon, imp_self, keeps_next, putSeat_canon]

theorem execScrubTile_keeps (w : SeatIx) (s : State) : Keeps s (execScrubTile w s) := by
  unfold execScrubTile
  dsimp only
  repeat' split
  all_goals simp only [State.canon, imp_self, keeps_next, modWst_canon]

theorem execDramSample_keeps (q : CrewIx) (t : Byte) (s : State) : Keeps s (execDramSample q t s) := by
  simp only [State.canon, imp_self, execDramSample, keeps_next, ↓canon_foldl, implies_true, modDom_hide, modWst_canon, memoryless_has]

/-! ## The cox -/

theorem execLoopIteration_keeps (w : SeatIx) (s : State) : Keeps s (execLoopIteration w s) := by
  unfold execLoopIteration
  dsimp only
  repeat' split
  all_goals simp only [State.canon, imp_self, keeps_next, putSeat_canon]

theorem execCatchCond_keeps (w : SeatIx) (s : State) : Keeps s (execCatchCond w s) := by
  unfold execCatchCond
  dsimp only
  repeat' split
  all_goals simp only [State.canon, imp_self, keeps_next, modCox_canon]

theorem execCatchSatisfied_keeps (w : SeatIx) (held : Nat) (s : State) : Keeps s (execCatchSatisfied w held s) := by
  unfold execCatchSatisfied
  dsimp only
  repeat' split
  all_goals simp only [State.canon, imp_self, keeps_next, issueJob_canon, putSeat_canon]

theorem execCset_keeps (w : SeatIx) (s : State) : Keeps s (execCset w s) := ctrlRow_keeps 1 w.val s _

theorem execCadd_keeps (w : SeatIx) (s : State) : Keeps s (execCadd w s) := ctrlRow_keeps 2 w.val s _

theorem execCsub_keeps (w : SeatIx) (s : State) : Keeps s (execCsub w s) := ctrlRow_keeps 3 w.val s _

theorem execCmul_keeps (w : SeatIx) (s : State) : Keeps s (execCmul w s) := ctrlRow_keeps 4 w.val s _

theorem execCand_keeps (w : SeatIx) (s : State) : Keeps s (execCand w s) := ctrlRow_keeps 5 w.val s _

theorem execCshr_keeps (w : SeatIx) (s : State) : Keeps s (execCshr w s) := ctrlRow_keeps 6 w.val s _

theorem execCid_keeps (w : SeatIx) (s : State) : Keeps s (execCid w s) := ctrlRow_keeps 8 w.val s _

/-! ## Element operations -/

theorem execMov_keeps (w : SeatIx) (s : State) : Keeps s (execMov w s) := runElem_keeps 0x01 w.val s

theorem execVadd_keeps (w : SeatIx) (s : State) : Keeps s (execVadd w s) := runElem_keeps 0x02 w.val s

theorem execVsub_keeps (w : SeatIx) (s : State) : Keeps s (execVsub w s) := runElem_keeps 0x03 w.val s

theorem execVmul_keeps (w : SeatIx) (s : State) : Keeps s (execVmul w s) := runElem_keeps 0x04 w.val s

theorem execFma_keeps (w : SeatIx) (s : State) : Keeps s (execFma w s) := runElem_keeps 0x05 w.val s

theorem execVmin_keeps (w : SeatIx) (s : State) : Keeps s (execVmin w s) := runElem_keeps 0x06 w.val s

theorem execVmax_keeps (w : SeatIx) (s : State) : Keeps s (execVmax w s) := runElem_keeps 0x07 w.val s

theorem execVabs_keeps (w : SeatIx) (s : State) : Keeps s (execVabs w s) := runElem_keeps 0x08 w.val s

theorem execVneg_keeps (w : SeatIx) (s : State) : Keeps s (execVneg w s) := runElem_keeps 0x09 w.val s

theorem execCmp_keeps (w : SeatIx) (s : State) : Keeps s (execCmp w s) := runElem_keeps 0x0A w.val s

theorem execSel_keeps (w : SeatIx) (s : State) : Keeps s (execSel w s) := runElem_keeps 0x0B w.val s

theorem execVand_keeps (w : SeatIx) (s : State) : Keeps s (execVand w s) := runElem_keeps 0x0C w.val s

theorem execVor_keeps (w : SeatIx) (s : State) : Keeps s (execVor w s) := runElem_keeps 0x0D w.val s

theorem execVxor_keeps (w : SeatIx) (s : State) : Keeps s (execVxor w s) := runElem_keeps 0x0E w.val s

theorem execShift_keeps (w : SeatIx) (s : State) : Keeps s (execShift w s) := runElem_keeps 0x0F w.val s

theorem execCvt_keeps (w : SeatIx) (s : State) : Keeps s (execCvt w s) := runElem_keeps 0x10 w.val s

/-! ## The seat's units -/

theorem noteRoom_memories (x : Seat) (q : Fin 4) : SameMemories (noteRoom x q) x := by
  unfold noteRoom
  dsimp only
  repeat' split
  all_goals exact ⟨rfl, rfl, rfl⟩

/-- The seat in hand with other units and the same memories. -/
theorem putSeat_units {s : State} {w : Nat} {x : Seat} (h : s.canon = true)
    (hx : SameMemories x (seatOf s w) := by exact ⟨rfl, rfl, rfl⟩) : (putSeat s w x).canon = true :=
  (putSeat_canon s w x hx.1 hx.2.1 hx.2.2).trans h

theorem keeps_putSeat {s : State} {w : Nat} {x : Seat} (h : SameMemories x (seatOf s w)) : Keeps s (.next (putSeat s w x)) :=
  (keeps_next _ _).mpr fun hs => putSeat_units hs h

theorem sameMemories_ite {c : Prop} [Decidable c] {x y z : Seat} (hy : SameMemories y x) (hz : SameMemories z x) :
    SameMemories (if c then y else z) x := by
  split
  · exact hy
  · exact hz

/-- Where a condition decides, both ways keep the form. -/
theorem keeps_if {c : Prop} [Decidable c] {s : State} {a b : Outcome State Fault Refusal} (ha : Keeps s a) (hb : Keeps s b) :
    Keeps s (if c then a else b) := by
  split
  · exact ha
  · exact hb

theorem keeps_raiseEvents {s : State} {w : Nat} {x : Seat} (es : List Ev) (h : SameMemories x (seatOf s w)) :
    Keeps s (.next (raiseEvents (putSeat s w x) w es)) :=
  (keeps_next _ _).mpr fun hs => (raiseEvents_canon _ _ _).trans (putSeat_units hs h)

theorem foldl_seatCanonical {α : Type} {f : Seat → α → Seat} (l : List α) {x : Seat} (h : SeatCanonical x)
    (hf : ∀ y a, SeatCanonical y → SeatCanonical (f y a)) : SeatCanonical (l.foldl f x) := by
  induction l generalizing x with
  | nil => exact h
  | cons a l ih => exact ih (hf x a h)

/-- A part of a tile that is written in time, and one that is not. -/
theorem partWrite_canonical {x : Seat} (c : Prop) [Decidable c] (a : Nat) (bs : List Byte) (h : SeatCanonical x) :
    SeatCanonical (if c then coreWrite x a bs else x) := by
  split
  · exact coreWrite_canonical a bs h
  · exact h

theorem writeChunks_canonical {x : Seat} (stop : Nat) (cs : List (Nat × Nat × List Byte)) (h : SeatCanonical x) :
    SeatCanonical (writeChunks x stop cs) := foldl_seatCanonical cs h fun _ _ hy => partWrite_canonical _ _ _ hy

section
variable {x : Seat} (h : SeatCanonical x)
include h

theorem mxDone_canonical (u : Nat) (j : Job) (t : Nat) : SeatCanonical (mxDone x u j t) := h
theorem mxStop_canonical (u : Nat) : SeatCanonical (mxStop x u) := h
theorem veFinish_canonical (j : Job) (o : Vec) : SeatCanonical (veFinish x j o) := h
theorem veStop_canonical : SeatCanonical (veStop x) := h
theorem addSpans_canonical (j : Job) : SeatCanonical (addSpans x j) := h

end

theorem execBload_keeps (w : SeatIx) (s : State) : Keeps s (execBload w s) :=
  mxRow_keeps fun _ h => putSeat_units h

theorem execAload_keeps (w : SeatIx) (s : State) : Keeps s (execAload w s) :=
  mxRow_keeps fun _ h => putSeat_units h

theorem execDiag_keeps (w : SeatIx) (s : State) : Keeps s (execDiag w s) :=
  mxRow_keeps fun _ h => putSeat_units h

theorem execProduct_keeps (w : SeatIx) (s : State) : Keeps s (execProduct w s) := by
  unfold execProduct
  dsimp only
  split
  · exact keeps_self s
  split
  · exact keeps_self s
  split
  · rw [keeps_next]
    intro h
    refine (canon_foldl _ _ _ fun u a => guardRaise_canon _ _ _ _ _ _ _).trans (putSeat_canonical _ h ?_)
    (repeat' split) <;> exact seatOf_canonical s w.val h
  · split
    · exact keeps_self s
    · exact keeps_putSeat ⟨rfl, rfl, rfl⟩

theorem execDrain_keeps (w : SeatIx) (s : State) : Keeps s (execDrain w s) := by
  unfold execDrain
  dsimp only
  split
  · exact keeps_self s
  refine keeps_if (keeps_self s) (keeps_if (keeps_if ?_ ?_) ?_)
  · refine (keeps_next _ _).mpr fun h => putSeat_canonical _ h (addSpans_canonical (mxDone_canonical (coreWrite_canonical _ _ ?_) ..) _)
    exact foldl_seatCanonical _ (seatOf_canonical s w.val h) fun y k hy => partWrite_canonical _ _ _ hy
  · rw [keeps_next, raiseEvents_canon]
    refine fun h => putSeat_canonical _ h (mxStop_canonical ?_ _)
    exact foldl_seatCanonical _ (seatOf_canonical s w.val h) fun y k hy => partWrite_canonical _ _ _ hy
  · refine (keeps_next _ _).mpr fun h => putSeat_units h (sameMemories_ite ?_ ?_) <;> exact ⟨rfl, rfl, rfl⟩

theorem execMxUnitStart_keeps (w : SeatIx) (u : UnitIx) (s : State) : Keeps s (execMxUnitStart w u s) := by
  unfold execMxUnitStart
  dsimp only
  split
  · split
    · exact keeps_self s
    split
    · exact keeps_self s
    · exact keeps_raiseEvents _ (noteRoom_memories _ _)
  · exact keeps_self s

theorem execPassStart_keeps (w : SeatIx) (s : State) : Keeps s (execPassStart w s) := by
  unfold execPassStart
  dsimp only
  split
  · exact keeps_self s
  split
  · exact keeps_self s
  split
  · split
    · exact keeps_putSeat ⟨rfl, rfl, rfl⟩
    · exact keeps_raiseEvents _ ⟨rfl, rfl, rfl⟩
  · exact keeps_self s

/-! ## The vector engine -/

theorem execCurve_keeps (w : SeatIx) (s : State) : Keeps s (execCurve w s) := veRow_keeps fun _ h => (veEnd_canon ..).trans h
theorem execReduce_keeps (w : SeatIx) (s : State) : Keeps s (execReduce w s) := veRow_keeps fun _ h => (veEnd_canon ..).trans h
theorem execTopk_keeps (w : SeatIx) (s : State) : Keeps s (execTopk w s) := veRow_keeps fun _ h => (veEnd_canon ..).trans h
theorem execExpand_keeps (w : SeatIx) (s : State) : Keeps s (execExpand w s) := veRow_keeps fun _ h => (veEnd_canon ..).trans h
theorem execGather_keeps (w : SeatIx) (s : State) : Keeps s (execGather w s) := veRow_keeps fun _ h => (veEnd_canon ..).trans h
theorem execRand_keeps (w : SeatIx) (s : State) : Keeps s (execRand w s) := veRow_keeps fun _ h => (veEnd_canon ..).trans h

/-- A tile or curve that is read: the engine stops, ends, or stops with what its checks find. -/
theorem loadEnd_canonical {s : State} {w : Nat} {c d : Prop} [Decidable c] [Decidable d] {x y z : Seat} {es : List Ev}
    (h : s.canon = true) (hx : SeatCanonical x) (hy : SeatCanonical y) (hz : SeatCanonical z) :
    (if c then putSeat s w x else if d then putSeat s w y else raiseEvents (putSeat s w z) w es).canon = true := by
  split
  · exact putSeat_canonical w h hx
  split
  · exact putSeat_canonical w h hy
  · exact (raiseEvents_canon _ _ _).trans (putSeat_canonical w h hz)

theorem execCtload_keeps (w : SeatIx) (s : State) : Keeps s (execCtload w s) := by
  refine veRow_keeps fun j h => ?_
  have hx := seatOf_canonical s w.val h
  exact loadEnd_canonical h hx hx hx

theorem execDequantize_keeps (w : SeatIx) (s : State) : Keeps s (execDequantize w s) := by
  refine veRow_keeps fun j h => ?_
  have hx := seatOf_canonical s w.val h
  exact loadEnd_canonical h hx hx hx

theorem execVload_keeps (w : SeatIx) (s : State) : Keeps s (execVload w s) := by
  refine veRow_keeps fun j h => ?_
  have hx := seatOf_canonical s w.val h
  exact loadEnd_canonical h hx hx hx

theorem execCompress_keeps (w : SeatIx) (s : State) : Keeps s (execCompress w s) := by
  refine veRow_keeps fun j h => ?_
  have hx := seatOf_canonical s w.val h
  dsimp only
  split
  · exact (veEnd_canon ..).trans h
  split
  · exact putSeat_canonical _ h hx
  · refine putSeat_canonical _ h ?_
    split <;> exact hx

theorem guardRaise_ite_canon {c : Prop} [Decidable c] (s : State) (w k n : Nat) (one : Bool) (j : Job) (t : Nat) :
    (if c then guardRaise s w k n one j t else s).canon = s.canon := by
  split
  · exact guardRaise_canon ..
  · rfl

theorem execQuantize_keeps (w : SeatIx) (s : State) : Keeps s (execQuantize w s) := by
  unfold execQuantize
  dsimp only
  split
  · exact keeps_self s
  refine keeps_if (keeps_self s) ?_
  split
  · rw [keeps_next, jobFault_canon]
    exact fun h => putSeat_units h
  have hw (h : s.canon = true) (stop : Nat) (cs : List (Nat × Nat × List Byte)) :=
    writeChunks_canonical stop cs (seatOf_canonical s w.val h)
  refine keeps_if ((keeps_next _ _).mpr fun h => ?_) ((keeps_next _ _).mpr fun h => ?_)
  · rw [canon_foldl]
    · exact putSeat_canonical _ h (addSpans_canonical (veFinish_canonical (hw h _ _) ..) _)
    · exact fun u p => guardRaise_ite_canon ..
  · rw [raiseEvents_canon, canon_foldl]
    · exact putSeat_canonical _ h (veStop_canonical (hw h _ _))
    · exact fun u p => guardRaise_ite_canon ..

theorem execVstore_keeps (w : SeatIx) (s : State) : Keeps s (execVstore w s) := by
  unfold execVstore
  dsimp only
  split
  · exact keeps_self s
  refine keeps_if (keeps_self s) (keeps_if ?_ ?_)
  · refine (keeps_next _ _).mpr fun h => putSeat_canonical _ h (addSpans_canonical (veFinish_canonical (coreWrite_canonical _ _ ?_) ..) _)
    exact writeChunks_canonical _ _ (seatOf_canonical s w.val h)
  · rw [keeps_next, raiseEvents_canon]
    exact fun h => putSeat_canonical _ h (veStop_canonical (writeChunks_canonical _ _ (seatOf_canonical s w.val h)))

theorem noteRoom_canonical {x : Seat} (q : Fin 4) (h : SeatCanonical x) : SeatCanonical (noteRoom x q) := by
  obtain ⟨hc, hd, hs⟩ := noteRoom_memories x q
  exact ⟨hc.symm ▸ h.1, hd.symm ▸ h.2.1, hs.symm ▸ h.2.2⟩

theorem execVeStart_keeps (w : SeatIx) (s : State) : Keeps s (execVeStart w s) := by
  unfold execVeStart
  dsimp only
  split
  · exact keeps_self s
  split
  · split
    · rw [keeps_next, jobFault_canon]
      exact fun h => putSeat_canonical _ h (noteRoom_canonical 1 (seatOf_canonical s w.val h))
    · exact (keeps_next _ _).mpr fun h => putSeat_canonical _ h (noteRoom_canonical 1 (seatOf_canonical s w.val h))
  · exact keeps_self s

/-! ## Engines, synchronisation and the cox -/

theorem execRset_keeps (w : SeatIx) (e : EngIx) (s : State) : Keeps s (execRset w e s) := by
  refine engineRow_keeps fun j h => ?_
  dsimp only
  split
  · exact h
  · exact (finishEngine_canon ..).trans (putSeat_units h (putEng_memories _ _ _))

theorem execEngineStart_keeps (w : SeatIx) (e : EngIx) (s : State) : Keeps s (execEngineStart w e s) := by
  unfold execEngineStart
  dsimp only
  split
  · exact keeps_self s
  split
  · obtain ⟨hc, hd, hs⟩ := noteRoom_memories ((seatOf s w.val).putEng e _) (if e = 0 then 2 else 3)
    obtain ⟨hc', hd', hs'⟩ := putEng_memories (seatOf s w.val) e _
    exact keeps_putSeat ⟨hc.trans hc', hd.trans hd', hs.trans hs'⟩
  · exact keeps_self s

theorem execRelease_keeps (w : SeatIx) (e : EngIx) (s : State) : Keeps s (execRelease w e s) := by
  unfold execRelease
  dsimp only
  split
  · split
    · exact keeps_putSeat (putEng_memories _ _ _)
    · exact keeps_self s
  · exact keeps_self s

theorem execReleaseComplete_keeps (w : SeatIx) (e : EngIx) (s : State) : Keeps s (execReleaseComplete w e s) := by
  unfold execReleaseComplete
  dsimp only
  split
  · split
    · rw [keeps_next, finishEngine_canon]
      exact (putSeat_canon (drawn s) w.val _ (putEng_core _ _ _) (putEng_desc _ _ _) (putEng_store _ _ _)).substr id
    · exact keeps_self s
  · exact keeps_self s

theorem execSend_keeps (w : SeatIx) (e : EngIx) (s : State) : Keeps s (execSend w e s) := engineRow_keeps fun _ h => (transmit_canon ..).trans h
theorem execGet_keeps (w : SeatIx) (e : EngIx) (s : State) : Keeps s (execGet w e s) := engineRow_keeps fun _ h => (transmit_canon ..).trans h
theorem execWord_keeps (w : SeatIx) (e : EngIx) (s : State) : Keeps s (execWord w e s) := engineRow_keeps fun _ h => (transmit_canon ..).trans h
theorem execFinish_keeps (w : SeatIx) (e : EngIx) (s : State) : Keeps s (execFinish w e s) := engineRow_keeps fun _ h => (transmit_canon ..).trans h

theorem execAcquire_keeps (w : SeatIx) (s : State) : Keeps s (execAcquire w s) :=
  coxRow_keeps fun _ h => putSeat_units h

theorem execNop_keeps (w : SeatIx) (s : State) : Keeps s (execNop w s) :=
  coxRow_keeps fun _ h => putSeat_units h

theorem execCmpset_keeps (w : SeatIx) (s : State) : Keeps s (execCmpset w s) :=
  coxRow_keeps fun _ h => putSeat_units h

theorem execLoop_keeps (w : SeatIx) (s : State) : Keeps s (execLoop w s) := by
  refine coxRow_keeps fun j h => ?_
  dsimp only
  split
  · exact (jobFault_canon ..).trans h
  · exact putSeat_units h

theorem execEndPlan_keeps (w : SeatIx) (s : State) : Keeps s (execEndPlan w s) := by
  refine coxRow_keeps fun j h => ?_
  dsimp only
  split
  · exact (jobFault_canon ..).trans h
  · exact putSeat_units h

theorem execHeatStart_keeps (w : SeatIx) (s : State) : Keeps s (execHeatStart w s) := by
  unfold execHeatStart
  dsimp only
  repeat' split
  · exact keeps_putSeat ⟨rfl, rfl, rfl⟩
  · exact keeps_self s
  · exact keeps_self s
  · exact keeps_self s

theorem execSeatLastLogged_keeps (w : SeatIx) (s : State) : Keeps s (execSeatLastLogged w s) := by
  unfold execSeatLastLogged
  dsimp only
  split
  · rw [keeps_next]
    intro h
    refine modSeat_canonical _ ?_ fun _ hx => hx
    split <;> exact h
  · exact keeps_self s

/-! ## Memories at rest, refresh and the side port -/

theorem execSidePortTransfer_keeps (w : SeatIx) (ahead : Nat) (s : State) : Keeps s (execSidePortTransfer w ahead s) := by
  unfold execSidePortTransfer
  dsimp only
  split
  · exact keeps_self s
  split
  · exact keeps_self s
  rename_i i _
  have h1 (h : s.canon = true) := (modWst_canon s w.val fun t => { t with work := dropAt t.work i }).trans h
  split
  · exact (keeps_next _ _).mpr fun h => modSeat_canonical _ (h1 h) fun x hx => storeWrite_canonical _ _ hx
  · refine (keeps_next _ _).mpr fun h => modSeat_canonical _ (h1 h) fun x hx => storeWrite_canonical _ _ ?_
    unfold restFill
    split <;> exact hx
  · exact (keeps_next _ _).mpr fun h => (diagRead_canon ..).trans (h1 h)
  · split
    · exact (keeps_next _ _).mpr fun h => (modWst_canon ..).trans (h1 h)
    · exact (keeps_next _ _).mpr fun h => (scrubEnd_canon ..).trans (h1 h)
  · exact keeps_self s

theorem execSegmentPowerDown_keeps (h : HalfIx) (g : SegIx) (s : State) : Keeps s (execSegmentPowerDown h g s) := by
  simp only [execSegmentPowerDown, keeps_ite, keeps_next, modPool_canon, implies_true, imp_self, ite_self]

theorem execSegmentReady_keeps (h : HalfIx) (g : SegIx) (s : State) : Keeps s (execSegmentReady h g s) := by
  simp only [execSegmentReady, keeps_ite, keeps_next, modPool_canon, implies_true, imp_self, ite_self]

theorem modPool_canonical {s : State} {f : Pool → Pool} (h : Nat) (hs : s.canon = true)
    (hf : ∀ p : Pool, Memory.wf p.mem = true → Memory.wf (f p).mem = true) : (modPool s h f).canon = true := canonical_modPool s h f hs hf

theorem execSegmentClose_keeps (h : HalfIx) (g : SegIx) (s : State) : Keeps s (execSegmentClose h g s) := by
  unfold execSegmentClose
  split
  · exact (keeps_next _ _).mpr fun hs => modPool_canonical _ hs fun _ hp => wf_mclear _ _ _ hp
  · exact keeps_self s

theorem execSegmentWake_keeps (h : HalfIx) (g : SegIx) (s : State) : Keeps s (execSegmentWake h g s) := by
  unfold execSegmentWake
  dsimp only
  split
  · exact (keeps_next _ _).mpr fun hs => modPool_canonical _ hs fun _ hp => wf_mclear _ _ _ hp
  · exact keeps_self s

theorem execSeatSelfTest_keeps (bad : List Nat) (s : State) : Keeps s (execSeatSelfTest bad s) := by
  unfold execSeatSelfTest
  split
  · rw [keeps_next]
    intro h
    obtain ⟨-, -, hs⟩ := (memoriesCanonical_iff s).mp h
    simp only [State.canon, toStage_hide, markFailed_canon, memoryless_has]
    refine withSeats_canonical h fun p hp => ?_
    obtain ⟨q, hq, rfl⟩ := List.mem_map.mp hp
    exact ⟨rfl, rfl, (hs q hq).2.2⟩
  · exact keeps_self s

theorem execCoreFill_keeps (w : SeatIx) (s : State) : Keeps s (execCoreFill w s) := by
  unfold execCoreFill
  dsimp only
  split
  · refine (keeps_next _ _).mpr fun h => landWindow_canonical _ (putSeat_canonical _ h ?_)
    exact ⟨rfl, (seatOf_canonical s w.val h).2⟩
  · exact keeps_self s

/-- The seats and pools after the fill of start-up. -/
theorem filled_canonical {s : State} (h : s.canon = true) : State.canon { s with
    seats := s.seats.map fun p => (p.1, { p.2 with store := [] }), pools := s.pools.map fun p => (p.1, { p.2 with mem := [] }) } = true := by
  obtain ⟨hm, -, hs⟩ := (memoriesCanonical_iff s).mp h
  refine (memoriesCanonical_iff _).mpr ⟨hm, fun p hp => ?_, fun p hp => ?_⟩
  · obtain ⟨q, -, rfl⟩ := List.mem_map.mp hp
    rfl
  · obtain ⟨q, hq, rfl⟩ := List.mem_map.mp hp
    exact ⟨(hs q hq).1, (hs q hq).2.1, rfl⟩

theorem execFillAndGrade_keeps (s : State) : Keeps s (execFillAndGrade s) := by
  unfold execFillAndGrade
  split
  · simp only [keeps_next, State.canon, ↓hide_ite, takeNode_hide, serveReady_canon, toStage_hide, ↓hide_foldl, setRail_hide,
      applyGrade_canon, implies_true, ite_self, memoryless_has]
    exact filled_canonical
  · exact keeps_self s

/-! ## The host's accesses -/

theorem execTelemetry_keeps (src : SrcIx) (ok : Bool) (s : State) : Keeps s (execTelemetry src ok s) := by
  refine commandRow_keeps fun c h => ?_
  simp only [State.canon, answer_hide, writeBuffer_canonical, ↓hide_ite, memoriesCanonical_ite, ite_self, memoryless_has, h]

theorem execLogRead_keeps (src : SrcIx) (ok : Bool) (s : State) : Keeps s (execLogRead src ok s) := by
  refine commandRow_keeps fun c h => ?_
  dsimp only
  repeat' split
  all_goals simp only [State.canon, answer_hide, writeBuffer_canonical, memoryless_has, h]

theorem execAttest_keeps (src : SrcIx) (ok fl : Bool) (s : State) : Keeps s (execAttest src ok fl s) := by
  refine lateRow_keeps fun c h => ?_
  have h1 (r : StateRec) : (drawn (writeRec s r)).canon = true := by
    simp only [State.canon, drawn_hide, writeRec_hide, memoryless_has, h]
  simp only [State.canon, finishBg_hide, drawn_hide, writeRec_hide, writeBuffer_canonical, ↓hide_ite, memoriesCanonical_ite, ite_self,
    memoryless_has, h]

theorem withHostMem_canonical {s : State} {m : Mem} (h : s.canon = true) (hm : Memory.wf m = true) :
    State.canon { s with hostMem := m } = true := by
  obtain ⟨-, hp, hs⟩ := (memoriesCanonical_iff s).mp h
  exact (memoriesCanonical_iff _).mpr ⟨hm, hp, hs⟩

theorem execCompletionPost_keeps (r : RingIx) (s : State) : Keeps s (execCompletionPost r s) := by
  unfold execCompletionPost
  dsimp only
  split
  · exact keeps_self s
  split
  · simp only [keeps_next, State.canon, modCqr_hide, memoryless_has]
    intro h
    obtain ⟨hm, -, -⟩ := (memoriesCanonical_iff s).mp h
    refine withHostMem_canonical (s := { s with cq := _ }) h ?_
    split
    · exact wf_mwr _ _ _ _ (wf_mwr _ _ _ _ hm)
    · exact wf_mwr _ _ _ _ hm
  · exact keeps_self s

theorem execRegisterWrite_keeps (off size : Nat) (val : Option (BitVec 64)) (s : State) : Keeps s (execRegisterWrite off size val s) := by
  unfold execRegisterWrite
  repeat' split
  all_goals simp only [keeps_next, State.canon, registerRead_hide, badAccess_hide, memoryless_has, imp_self]
  exact registerPut_canonical off size _

theorem wakeWindow_canon (s : State) (w : Nat) : (wakeWindow s w).canon = s.canon := by
  simp only [State.canon, wakeWindow_hide, memoryless_has]

theorem execSeatWindowAccess_keeps (w : SeatIx) (off : Nat) (wr : Option Word) (s : State) : Keeps s (execSeatWindowAccess w off wr s) := by
  have h1 (h : s.canon = true) := (wakeWindow_canon s w.val).trans h
  unfold execSeatWindowAccess
  dsimp only
  split
  · simp only [keeps_next, State.canon, badAccess_hide, memoryless_has, imp_self]
  split
  · exact (keeps_next _ _).mpr fun h => windowWrite_canonical _ _ _ (h1 h)
  split
  · exact (keeps_next _ _).mpr fun h => modSeat_canonical _ (h1 h) fun _ hx => hx
  · exact (keeps_next _ _).mpr h1

theorem execBar2Access_keeps (off len : Nat) (wr : Option Mem) (prot : Bool) (s : State) : Keeps s (execBar2Access off len wr prot s) := by
  unfold execBar2Access
  split
  · simp only [keeps_next, State.canon, badAccess_hide, memoryless_has, imp_self]
  split
  · simp only [keeps_next, State.canon, badAccess_hide, bar2Refuse_hide, ↓hide_ite, ite_self, memoryless_has, imp_self]
  · exact (keeps_next _ _).mpr (bar2Pool_canonical _ _ _ _)

theorem execFenceSeat_keeps (src : SrcIx) (s : State) : Keeps s (execFenceSeat src s) := by
  refine lateRow_keeps fun c h => ?_
  simp only [State.canon, ↓canon_foldl, finishBg_hide, recordFence_hide, fenceOne_canon, ↓hide_ite, memoriesCanonical_ite, ite_self,
    implies_true, memoryless_has, h]

theorem execDebugToken_keeps (src : SrcIx) (img : Option Mem) (s : State) : Keeps s (execDebugToken src img s) := by
  refine updateRow_keeps fun c m h => ?_
  simp only [State.canon, ↓canon_foldl, ↓hide_sec, finishBg_hide, evictCtx_canon, settleUnlock_hide, ↓hide_ite, memoriesCanonical_ite,
    ite_self, implies_true, memoryless_has, h]

/-! ## Reset and power -/

theorem execResetAssert_keeps (ns : Nat) (s : State) : Keeps s (execResetAssert ns s) := by
  refine (keeps_next _ _).mpr fun h => ?_
  split
  · exact h
  · exact resetPart_canonical h

theorem execPwrgdDeassert_keeps (g : Fin 4) (ns : Nat) (s : State) : Keeps s (execPwrgdDeassert g ns s) := by
  unfold execPwrgdDeassert
  split
  · refine (keeps_next _ _).mpr fun h => ?_
    have h1 := powerLost_canonical 0 h
    generalize powerLost s 0 = u at h1 ⊢
    exact h1
  split
  · exact keeps_self s
  · exact (keeps_next _ _).mpr (powerLost_canonical _)

theorem execPowerStateEntry_keeps (i : Nat) (s : State) : Keeps s (execPowerStateEntry i s) := by
  unfold execPowerStateEntry
  split
  · next r _ =>
    split
    · simp only [keeps_next, State.canon, settleReqs_hide, enterChip_hide, memoryless_has]
      exact fun h => foldl_canonical _ h fun _ m ht => enterMember_canonical r m ht
    · exact keeps_self s
  · exact keeps_self s

theorem execWakeComplete_keeps (unit : Word) (s : State) : Keeps s (execWakeComplete unit s) := by
  unfold execWakeComplete
  dsimp only
  repeat' split
  all_goals simp only [keeps_next, State.canon, settleReqs_hide, modDom_hide, memoryless_has, imp_self]
  · exact leaveBoated_canonical _
  · exact leaveEasy_canonical _

/-! ## Heats and packets -/

theorem execPreload_keeps (r h : Nat) (w : SeatIx) (s : State) : Keeps s (execPreload r h w s) := by
  unfold execPreload
  dsimp only
  repeat' split
  all_goals simp only [keeps_next, State.canon, wakeHalf_hide, holdRead_hide, modDom_hide, abandonHeat_canon, modHeat_hide, memoryless_has,
    imp_self]
  all_goals
    intro hs
    have h1 : (touchCrew s (crewOf w.val)).canon = true := by simp only [State.canon, touchCrew_hide, memoryless_has, hs]
    exact modSeat_canonical _ h1 fun z hz => ⟨hz.1, wf_mcopy _ _ _ _ _ (wf_mclear _ _ _ hz.2.1), hz.2.2⟩

theorem takeArrive_canon (s : State) (i : Nat) : (takeArrive s i).canon = s.canon := by
  simp only [State.canon, takeArrive_hide, memoryless_has]

theorem inboundAnswer_canon (s : State) (i : Nat) (k : Pkt) : (inboundAnswer (takeArrive s i) k).canon = s.canon := by
  simp only [State.canon, inboundAnswer_hide, takeArrive_hide, memoryless_has]

theorem execWritePkt_keeps (i g : Nat) (s : State) : Keeps s (execWritePkt i g s) :=
  packetRow_keeps (fun _ d h => writeSeat_canonical i g _ d h) (fun _ d h => writePool_canonical i g _ d h) fun _ h => h

theorem execWordPkt_keeps (i : Nat) (s : State) : Keeps s (execWordPkt i s) :=
  packetRow_keeps (fun _ d h => wordSeat_canonical i _ d h) (fun _ _ h => (wordPool_canon ..).trans h) fun _ h => h

theorem execReadPkt_keeps (i : Nat) (s : State) : Keeps s (execReadPkt i s) :=
  packetRow_keeps (fun _ _ h => (readSeat_canon ..).trans h) (fun _ _ h => (readPool_canon ..).trans h) fun _ h => h

theorem execFinishPkt_keeps (i : Nat) (s : State) : Keeps s (execFinishPkt i s) :=
  packetRow_keeps (fun _ _ h => (finishSeat_canon ..).trans h) (fun _ _ h => (finishPool_canon ..).trans h) fun _ h => h

theorem execRdataPkt_keeps (i g : Nat) (s : State) : Keeps s (execRdataPkt i g s) := by
  refine packetRow_keeps (fun _ d h => rdataSeat_canonical i g _ d h) (fun _ _ h => (takeArrive_canon s i).trans h) fun d h => ?_
  split
  · exact (inboundAnswer_canon s i _).trans h
  · exact h

theorem execAckPkt_keeps (i : Nat) (s : State) : Keeps s (execAckPkt i s) :=
  packetRow_keeps (fun _ _ h => (settleOut_canon ..).trans ((takeArrive_canon s i).trans h)) (fun _ _ h => (takeArrive_canon s i).trans h)
    fun _ h => (inboundAnswer_canon s i _).trans h

theorem execNackPkt_keeps (i : Nat) (s : State) : Keeps s (execNackPkt i s) :=
  packetRow_keeps (fun _ _ h => (nackSeat_canon ..).trans h) (fun _ _ h => (takeArrive_canon s i).trans h)
    fun _ h => (inboundAnswer_canon s i _).trans h

theorem execStartMsg_keeps (i : Nat) (s : State) : Keeps s (execStartMsg i s) :=
  packetRow_keeps (fun _ _ h => (modCox_canon ..).trans ((takeArrive_canon s i).trans h)) (fun _ _ h => (takeArrive_canon s i).trans h)
    fun _ h => (takeArrive_canon s i).trans h

theorem execFinishRelease_keeps (pool : Bool) (n : Nat) (i : Nat) (s : State) : Keeps s (execFinishRelease pool n i s) := by
  unfold execFinishRelease
  dsimp only
  repeat' split
  all_goals simp only [keeps_next, releasePool_canon, releaseSeat_canon, modPool_canon, modSeat_canon, implies_true, imp_self]

theorem execControlMsg_keeps (op : CtlOp) (s : State) : Keeps s (execControlMsg op s) := by
  unfold execControlMsg
  dsimp only
  split
  · refine (keeps_next _ _).mpr fun h => ?_
    split
    · exact (canon_foldl _ _ _ fun _ _ => dropFinishes_canon ..).trans h
    · exact h
  · simp only [keeps_next, State.canon, wakeHalf_hide, memoryless_has, imp_self]
  · simp only [keeps_next, State.canon, takeMap_hide, memoryless_has, imp_self]
  · exact keeps_self s

theorem execRouterForward_keeps (n : NodeIx) (p : NodePort) (v : VcIx) (o : NodePort) (ecc : Nat) (s : State) :
    Keeps s (execRouterForward n p v o ecc s) := by
  unfold execRouterForward
  dsimp only
  split
  · exact keeps_self s
  split
  · exact keeps_self s
  split
  · simp only [keeps_ite, keeps_next, passFlit_canon, imp_self, ite_self]
  split
  · simp only [keeps_next, State.canon, discarded_hide, putSource_canon, imp_self, memoryless_has]
  split
  · simp only [keeps_ite, keeps_next, enterMesh_canon, imp_self, ite_self]
  split
  · next hm =>
    rw [keeps_next]
    split at hm
    · cases hm
    split at hm
    · exact (atOwnSeat_canon _ _ _ _ _ _ _ hm).trans
    split at hm
    · exact (atSeam_canon _ _ _ _ _ _ _ _ hm).trans
    · cases hm
  · simp only [keeps_ite, keeps_next, passFlit_canon, imp_self, ite_self]

theorem execFeedStart_keeps (f : FeedIx) (desc : Option (BitVec 256)) (data : List Granule) (s : State) :
    Keeps s (execFeedStart f desc data s) := by
  unfold execFeedStart
  dsimp only
  refine keeps_if (keeps_self s) (keeps_if (keeps_if (keeps_self s) ?_) ?_)
  · simp only [keeps_next, State.canon, modFeed_hide, noteHeld_hide, memoryless_has, imp_self]
  · simp only [keeps_next, State.canon, modFeed_hide, memoryless_has]
    intro h
    repeat' split
    · exact h
    · exact h
    · exact h
    · exact feedMove_canonical _ _ _ _ h

/-! ## All commands -/

/-- The commands whose frame holds no seat, no pool and no host memory come last: their frame is their proof. -/
theorem exec_keeps (c : Instr) (s : State) : Keeps s (exec c s) := by
  cases c with
  | shardLoad src img => exact execShardLoad_keeps src img s
  | generationSwitch src => exact execGenerationSwitch_keeps src s
  | evict src => exact execEvict_keeps src s
  | cancel src => exact execCancel_keeps src s
  | weighEnough src => exact execWeighEnough_keeps src s
  | fenceSeat src => exact execFenceSeat_keeps src s
  | telemetry src ok => exact execTelemetry_keeps src ok s
  | logRead src ok => exact execLogRead_keeps src ok s
  | attest src ok fl => exact execAttest_keeps src ok fl s
  | debugToken src img => exact execDebugToken_keeps src img s
  | snivanReady => exact execSnivanReady_keeps s
  | wstDiagGo w val => exact execWstDiagGo_keeps w val s
  | registerWrite off size val => exact execRegisterWrite_keeps off size val s
  | seatWindowAccess w off wr => exact execSeatWindowAccess_keeps w off wr s
  | bar2Access off len wr prot => exact execBar2Access_keeps off len wr prot s
  | functionLevelReset => exact execFunctionLevelReset_keeps s
  | perstAssert => exact execPerstAssert_keeps s
  | resetAssert ns => exact execResetAssert_keeps ns s
  | pwrgdDeassert g ns => exact execPwrgdDeassert_keeps g ns s
  | haltAssert ns => exact execHaltAssert_keeps ns s
  | thermtrip q tj => exact execThermtrip_keeps q tj s
  | clkReflost => exact execClkReflost_keeps s
  | clkUnlock d => exact execClkUnlock_keeps d s
  | mgmtWatchdog puf => exact execMgmtWatchdog_keeps puf s
  | railsAndClocks bad => exact execRailsAndClocks_keeps bad s
  | crossingCalibration base lats d => exact execCrossingCalibration_keeps base lats d s
  | dramTraining bad => exact execDramTraining_keeps bad s
  | seatSelfTest bad => exact execSeatSelfTest_keeps bad s
  | fillAndGrade => exact execFillAndGrade_keeps s
  | haltSymbol => exact execHaltSymbol_keeps s
  | descriptorPresent w => exact execDescriptorPresent_keeps w s
  | queueHoldEnd w => exact execQueueHoldEnd_keeps w s
  | loopIteration w => exact execLoopIteration_keeps w s
  | bload w => exact execBload_keeps w s
  | aload w => exact execAload_keeps w s
  | diag w => exact execDiag_keeps w s
  | product w => exact execProduct_keeps w s
  | drain w => exact execDrain_keeps w s
  | mxUnitStart w u => exact execMxUnitStart_keeps w u s
  | passStart w => exact execPassStart_keeps w s
  | mov w => exact execMov_keeps w s
  | vadd w => exact execVadd_keeps w s
  | vsub w => exact execVsub_keeps w s
  | vmul w => exact execVmul_keeps w s
  | fma w => exact execFma_keeps w s
  | vmin w => exact execVmin_keeps w s
  | vmax w => exact execVmax_keeps w s
  | vabs w => exact execVabs_keeps w s
  | vneg w => exact execVneg_keeps w s
  | cmp w => exact execCmp_keeps w s
  | sel w => exact execSel_keeps w s
  | vand w => exact execVand_keeps w s
  | vor w => exact execVor_keeps w s
  | vxor w => exact execVxor_keeps w s
  | shift w => exact execShift_keeps w s
  | cvt w => exact execCvt_keeps w s
  | curve w => exact execCurve_keeps w s
  | ctload w => exact execCtload_keeps w s
  | reduce w => exact execReduce_keeps w s
  | topk w => exact execTopk_keeps w s
  | compress w => exact execCompress_keeps w s
  | expand w => exact execExpand_keeps w s
  | gather w => exact execGather_keeps w s
  | rand w => exact execRand_keeps w s
  | quantize w => exact execQuantize_keeps w s
  | dequantize w => exact execDequantize_keeps w s
  | vload w => exact execVload_keeps w s
  | vstore w => exact execVstore_keeps w s
  | veStart w => exact execVeStart_keeps w s
  | send w e => exact execSend_keeps w e s
  | get w e => exact execGet_keeps w e s
  | word w e => exact execWord_keeps w e s
  | finish w e => exact execFinish_keeps w e s
  | rset w e => exact execRset_keeps w e s
  | engineStart w e => exact execEngineStart_keeps w e s
  | catchCond w => exact execCatchCond_keeps w s
  | catchSatisfied w held => exact execCatchSatisfied_keeps w held s
  | acquire w => exact execAcquire_keeps w s
  | release w e => exact execRelease_keeps w e s
  | releaseComplete w e => exact execReleaseComplete_keeps w e s
  | loop w => exact execLoop_keeps w s
  | nop w => exact execNop_keeps w s
  | cset w => exact execCset_keeps w s
  | cadd w => exact execCadd_keeps w s
  | csub w => exact execCsub_keeps w s
  | cmul w => exact execCmul_keeps w s
  | cand w => exact execCand_keeps w s
  | cshr w => exact execCshr_keeps w s
  | cid w => exact execCid_keeps w s
  | cmpset w => exact execCmpset_keeps w s
  | endPlan w => exact execEndPlan_keeps w s
  | descriptorComplete w idx => exact execDescriptorComplete_keeps w idx s
  | planFinished w => exact execPlanFinished_keeps w s
  | refreshAccrual w => exact execRefreshAccrual_keeps w s
  | refreshOperation w b ahead => exact execRefreshOperation_keeps w b ahead s
  | forcedRefresh w c => exact execForcedRefresh_keeps w c s
  | forcedRefreshEnd w => exact execForcedRefreshEnd_keeps w s
  | sidePortTransfer w ahead => exact execSidePortTransfer_keeps w ahead s
  | scrubTile w => exact execScrubTile_keeps w s
  | dramSample q t => exact execDramSample_keeps q t s
  | junctionSample q tj => exact execJunctionSample_keeps q tj s
  | powerStateEntry k => exact execPowerStateEntry_keeps k s
  | wakeComplete unit => exact execWakeComplete_keeps unit s
  | segmentPowerDown h g => exact execSegmentPowerDown_keeps h g s
  | segmentClose h g => exact execSegmentClose_keeps h g s
  | segmentWake h g => exact execSegmentWake_keeps h g s
  | segmentReady h g => exact execSegmentReady_keeps h g s
  | preload r h w => exact execPreload_keeps r h w s
  | heatDispatch r h => exact execHeatDispatch_keeps r h s
  | coreFill w => exact execCoreFill_keeps w s
  | heatStart w => exact execHeatStart_keeps w s
  | heatComplete r h => exact execHeatComplete_keeps r h s
  | heatAbort r h => exact execHeatAbort_keeps r h s
  | heatAbandon r h => exact execHeatAbandon_keeps r h s
  | heatWatchdog r h => exact execHeatWatchdog_keeps r h s
  | seatLastLogged w => exact execSeatLastLogged_keeps w s
  | completionPost r => exact execCompletionPost_keeps r s
  | writePkt k g => exact execWritePkt_keeps k g s
  | wordPkt k => exact execWordPkt_keeps k s
  | finishPkt k => exact execFinishPkt_keeps k s
  | finishRelease pool n k => exact execFinishRelease_keeps pool n k s
  | readPkt k => exact execReadPkt_keeps k s
  | rdataPkt k g => exact execRdataPkt_keeps k g s
  | ackPkt k => exact execAckPkt_keeps k s
  | nackPkt k => exact execNackPkt_keeps k s
  | startMsg k => exact execStartMsg_keeps k s
  | controlMsg op => exact execControlMsg_keeps op s
  | routerForward n p v o ecc => exact execRouterForward_keeps n p v o ecc s
  | seatMapReassign q => exact execSeatMapReassign_keeps q s
  | recordLogged k => exact execRecordLogged_keeps k s
  | recordHandling => exact execRecordHandling_keeps s
  | snivanHandler puf => exact execSnivanHandler_keeps puf s
  | loadSegment img => exact execLoadSegment_keeps img s
  | loadComplete => exact execLoadComplete_keeps s
  | feedStart f desc data => exact execFeedStart_keeps f desc data s
  | openSession _ | closeSession _ | contextCreate _ | tileRepair _ _ | graphSubmit _ | graphRelease _ | run _ | faultClearContext _
  | faultClearWeighEnough _ | powerState _ | setStep _ | timeRole _ | fwUpdate _ _ _ | publisherEnrolment _ _ _
  | certificateRenewal _ _ _ | fwActivate _ | submissionDoorbell _ _ | commandRead _ _ | completionDoorbell _ _ | feedDoorbell _ _
  | feedResume _ _ | ringEnable _ | ringDisable _ | clkTimeLoad _ | clkTimeLoRead | fabPortRetrain _ _ | fabPortRetrainFull _ _
  | fabPortEnWrite _ _ | recoveryGo _ | eventsClear _ | ackSeqWrite _ | perstDeassert | configurationRequest _ _ | resetRelease _ _ _
  | pwrgdAssert _ | haltDeassert _ | limitAssert _ | limitDeassert _ | fabricTrainingEnd | enumTimer | enumFrame _ | i3cWrite _ | i3cRead
  | sustainedDroop _ | powerCapMeasure _ _ _ _ | stepChange _ | stepChangeEnd _ | railSettled _ | timeSync | powerRequestTimeout _
  | autoPaddle _ | wakeRequest _ | heatReady _ _ | timeDependence _ _ _ | classFree _ | msixInterrupt _ | crossingRecentre _ _
  | blockZeroFill _ | feedEnd _ | portSignalDetect _ | portTrainingStep _ _ _ | portRetrain _ _ | sequencedFrame _ | controlFrame _
  | controlFrameTimer _ | replayTimeout _ | pairHoldTimeout _ | fabricEgress _ | fabricArrival _ | fabricAnswer _ | fabricGiveUp _
  | readReissue _ | timeSampleLoss | rsCodeword _ _ | idleFrame _ | droopStretching _ _ | ftagRelease _ | ideKm | tapInstruction _
  | dynamicAddress _ =>
    exact keeps_of_leaves (exec_leaves _ s) (by simp [touches])

end Sys2Proof.Machine
end

section
open Sys2Proof Sys2Proof.Machine

/-- Settles O58: a step is a tick, which writes no memory, or the command in front, and each command keeps the form. -/
theorem stepKeepsCanonicalMemories : Obligations.StepKeepsCanonicalMemories := by
  intro s t hs ht
  unfold step at ht
  split at ht
  · cases ht
    exact (congrArg State.memoriesCanonical (tick_hide s (ps := memoryless) (by decide) (by decide))).trans hs
  · exact exec_keeps _ _ t ht hs

end

section
/-!
SUPPORT. Packets that write (05 R147, R148, 07 R238): the row that WRITE shares between seats and pools, one lemma per way it ends, and what a
granule and a word leave of the seat or the pool that takes them.
-/
namespace Sys2Proof.Machine
open Host (Outcome)

/-! ## The row of a packet -/

section
variable {s : State} {i ty : Nat} {d : Deliv} {seat pool : Nat → Deliv → State} {fabric : Deliv → State}

theorem packetRow_seat {w : Nat} (h : Arrives s i ty (.seat w) d) : packetRow ty i s seat pool fabric = .next (seat w d) := by
  obtain ⟨ha, ht, hd⟩ := h
  simp [packetRow, ha, ht, hd]

theorem packetRow_pool {hf : Nat} (h : Arrives s i ty (.pool hf) d) : packetRow ty i s seat pool fabric = .next (pool hf d) := by
  obtain ⟨ha, ht, hd⟩ := h
  simp [packetRow, ha, ht, hd]

end

/-! ## The ways of a WRITE -/

section
variable {s stale : State} {i g : Nat} {d : Deliv} {live wait : Bool} {bad : Option (State × Nat)} {put : Granule → State}

theorem writeRow_dropped {a : Reply} (hv : d.verdict = some a) :
    writeRow s i g d live stale bad wait put = if d.full then answered s i d a else s := by
  simp [writeRow, hv]

variable (hv : d.verdict = none)
include hv

theorem writeRow_waits (hw : wait = true) : writeRow s i g d live stale bad wait put = s := by
  simp [writeRow, hv, hw]

variable (hw : wait = false)
include hw

theorem writeRow_stale (hl : live = false) : writeRow s i g d live stale bad wait put = dropping stale i d .stale := by
  simp [writeRow, hv, hw, hl, dropPkt, dropping]

theorem writeRow_refused (hl : live = true) (hf : d.wrote = []) {u : State} {c : Nat} (hb : bad = some (u, c)) :
    writeRow s i g d live stale bad wait put = dropping u i d (.refuse c) := by
  simp [writeRow, hv, hw, hl, hf, hb, dropPkt, dropping]

theorem writeRow_writes (hl : live = true) (hb : d.wrote = [] → bad = none) (hg : g < pLen d.pkt.hdr.toNat) (hn : g ∉ d.wrote) {y : Granule}
    (hy : d.pkt.data[g]? = some y) : writeRow s i g d live stale bad wait put = writing (put y) i g d := by
  have hbad : (if d.wrote = [] then bad else none) = none := ite_eq_right_iff.mpr hb
  simp [writeRow, hv, hw, hl, hbad, hn, hg, hy, wroteGranule, writing]

end

/-! ## A seat's memories and counters -/

theorem seatSpan_iff (sp o n al : Nat) : seatSpan sp o n al = true ↔ InSeat sp o n al := by
  simp [seatSpan, InSeat]

theorem seatRefusal_address {x : Seat} {h o n al : Nat} (hs : ¬ InSeat (pSpace h) o n al) : seatRefusal x h o n al = some nkAddress :=
  if_pos (Bool.eq_false_iff.mpr fun e => hs ((seatSpan_iff ..).mp e))

theorem seatRefusal_page {x : Seat} {h o n al : Nat} (hs : InSeat (pSpace h) o n al) (h2 : pSpace h = 2) (hp : pageBusy x o n = true) :
    seatRefusal x h o n al = some nkPage := by
  rw [seatRefusal, if_neg (by simp [(seatSpan_iff ..).mpr hs]), if_pos ⟨h2, hp⟩]

theorem seatRefusal_none {x : Seat} {h o n al : Nat} (hs : InSeat (pSpace h) o n al) (hp : pSpace h = 2 → pageBusy x o n = false) :
    seatRefusal x h o n al = none := by
  rw [seatRefusal, if_neg (by simp [(seatSpan_iff ..).mpr hs]), if_neg fun h2 => by simp [hp h2.1] at h2]

/-- Outside its memories a write changes of a seat only what its units have torn of the bytes they read. -/
theorem seatWrite_eq (x : Seat) (sp o : Nat) (bs : List Byte) :
    seatWrite x sp o bs =
      { x with core := (seatWrite x sp o bs).core, desc := (seatWrite x sp o bs).desc,
               mxa := { x.mxa with cur := (seatWrite x sp o bs).mxa.cur }, vec := { x.vec with cur := (seatWrite x sp o bs).vec.cur } } := by
  unfold seatWrite
  split <;> rfl

theorem seatWrite_core (x : Seat) {sp : Nat} (o : Nat) (bs : List Byte) (h : sp = 1) :
    StoresAt x.core (seatWrite x sp o bs).core o bs ∧ (seatWrite x sp o bs).desc = x.desc := by
  rw [seatWrite, if_pos h]
  exact ⟨storesAt_mwrites _ _ _, rfl⟩

theorem seatWrite_desc (x : Seat) {sp : Nat} (o : Nat) (bs : List Byte) (h : sp = 2) :
    StoresAt x.desc (seatWrite x sp o bs).desc o bs ∧ (seatWrite x sp o bs).core = x.core := by
  rw [seatWrite, if_neg (by omega)]
  exact ⟨storesAt_mwrites _ _ _, rfl⟩

theorem lnd_count (l : Lnd) (n : Nat) (m : Word) : Counted l { l.count n with granules := m } n 1 := by
  refine ⟨fun k => ?_, rfl⟩
  split
  case isTrue hk => subst hk; exact tget_tset_self _ _ _ _
  case isFalse hk => exact tget_tset_ne _ _ _ hk

/-- One counter or flag word set, and no other (07 R238). -/
theorem lnd_setWord (l : Lnd) {n : Nat} (v : Word) (hn : n % 4 = 0) :
    ∀ o, o % 4 = 0 → (l.setWord n v).word o = if o = n then v else l.word o := by
  intro o ho
  unfold Lnd.setWord Lnd.word
  by_cases hn8 : n % 8 = 0 <;> by_cases ho8 : o % 8 = 0 <;> simp only [hn8, ho8, if_true, if_false, Lnd.note]
  · by_cases e : o = n
    · simp [e]
    · rw [if_neg e, tget_tset_ne _ _ _ (by omega)]
  · rw [if_neg (by omega)]
  · rw [if_neg (by omega)]
  · by_cases e : o = n
    · simp [e]
    · rw [if_neg e, tget_tset_ne _ _ _ (by omega)]

theorem otherSeats_modSeat (s : State) (w : Nat) (f : Seat → Seat) : OtherSeats s (modSeat s w f) w := fun _ hv =>
  seatOf_modSeat_ne s f hv

theorem otherPools_modPool (s : State) (h : Nat) (f : Pool → Pool) : OtherPools s (modPool s h f) h := fun _ hk =>
  poolOf_modPool_ne s f hk

theorem poolOf_latchDeps (s : State) (h : Nat) : poolOf (latchDeps s) h = poolOf s h := rfl

theorem otherPools_countPool (s : State) (h n : Nat) : OtherPools s (countPool s h n) h := fun k hk => by
  rw [countPool, poolOf_latchDeps, poolOf_modPool_ne _ _ hk]

theorem otherSeats_setSeatWord (s : State) (w o : Nat) (v : Word) : OtherSeats s (setSeatWord s w o v) w := fun k hk => by
  rw [setSeatWord, seatOf_latchDeps, seatOf_modSeat_ne _ _ hk]

theorem otherPools_setPoolWord (s : State) (h o : Nat) (v : Word) : OtherPools s (setPoolWord s h o v) h := fun k hk => by
  rw [setPoolWord, poolOf_latchDeps, poolOf_modPool_ne _ _ hk]

theorem poolOf_setPoolWord (s : State) (h o : Nat) (v : Word) :
    poolOf (setPoolWord s h o v) h = { poolOf s h with lnd := (poolOf s h).lnd.setWord o v } := by
  rw [setPoolWord, poolOf_latchDeps, poolOf_modPool_self]

theorem lnd_setPoolWord (s : State) (h o : Nat) (v : Word) : (poolOf (setPoolWord s h o v) h).lnd = (poolOf s h).lnd.setWord o v := by
  rw [poolOf_setPoolWord]

/-- The state after a granule of a WRITE at seat `w` with header `h` has been stored and counted. -/
def seatTook (s : State) (w h g : Nat) (y : Granule) : State :=
  let s1 := modSeat s w fun x => seatWrite x (pSpace h) (pOff h + 64 * g) (bytesOf y.toNat 64)
  if pLcen h then countSeat s1 w (pLctr h) else s1

theorem seatTook_frame (s : State) (w h g : Nat) (y : Granule) :
    (seatTook s w h g y).noc = s.noc ∧ (seatTook s w h g y).flt = s.flt ∧ OtherSeats s (seatTook s w h g y) w := by
  unfold seatTook
  split
  · exact ⟨rfl, rfl, fun v hv => by rw [countSeat, seatOf_latchDeps, seatOf_modSeat_ne _ _ hv, seatOf_modSeat_ne _ _ hv]⟩
  · exact ⟨rfl, rfl, otherSeats_modSeat _ _ _⟩

/-- The seat that took a granule: the write, and the landing counters. -/
theorem seatOf_seatTook (s : State) (w h g : Nat) (y : Granule) :
    seatOf (seatTook s w h g y) w =
      { seatWrite (seatOf s w) (pSpace h) (pOff h + 64 * g) (bytesOf y.toNat 64) with lnd := (seatOf (seatTook s w h g y) w).lnd } ∧
    (pLcen h = true → Counted (seatOf s w).lnd (seatOf (seatTook s w h g y) w).lnd (pLctr h) 1) ∧
    (pLcen h = false → (seatOf (seatTook s w h g y) w).lnd = (seatOf s w).lnd) := by
  have hl : (seatWrite (seatOf s w) (pSpace h) (pOff h + 64 * g) (bytesOf y.toNat 64)).lnd = (seatOf s w).lnd := by rw [seatWrite_eq]
  cases hc : pLcen h
  · have e : seatOf (seatTook s w h g y) w = seatWrite (seatOf s w) (pSpace h) (pOff h + 64 * g) (bytesOf y.toNat 64) := by
      simp [seatTook, hc]
    rw [e]
    exact ⟨rfl, fun hn => by simp at hn, fun _ => hl⟩
  · simp only [seatTook, hc, if_true, countSeat, seatOf_latchDeps, seatOf_modSeat_self, hl, true_and]
    exact ⟨fun _ => lnd_count _ _ _, fun hn => by simp at hn⟩

/-- The state after a granule of a WRITE at the pool of half `hf` with header `h` has been stored and counted. -/
def poolTook (s : State) (hf h g : Nat) (y : Granule) : State :=
  let s1 := poolWrite s hf (pOff h + 64 * g) (bytesOf y.toNat 64)
  if pLcen h then countPool s1 hf (pLctr h) else s1

theorem poolTook_frame (s : State) (hf h g : Nat) (y : Granule) :
    (poolTook s hf h g y).noc = s.noc ∧ (poolTook s hf h g y).flt = s.flt ∧ OtherPools s (poolTook s hf h g y) hf ∧
      (poolTook s hf h g y).seats = s.seats := by
  unfold poolTook
  split
  · exact ⟨rfl, rfl, fun k hk => (otherPools_countPool _ hf _ k hk).trans (otherPools_modPool s hf _ k hk), rfl⟩
  · exact ⟨rfl, rfl, otherPools_modPool _ _ _, rfl⟩

theorem poolOf_poolTook (s : State) (hf h g : Nat) (y : Granule) :
    poolOf (poolTook s hf h g y) hf = { poolOf s hf with mem := mwrites (poolOf s hf).mem (pOff h + 64 * g) (bytesOf y.toNat 64),
                                                         lnd := if pLcen h then (poolOf s hf).lnd.count (pLctr h) else (poolOf s hf).lnd } := by
  unfold poolTook
  split <;> simp [countPool, poolWrite, poolOf_latchDeps]

/-! ## WRITE at a seat -/

section
variable {s : State} {i w : Nat} {d : Deliv}

/-- The state and the code with which a WRITE is refused whole at a seat. -/
def seatBad (s : State) (w h : Nat) : Option (State × Nat) :=
  (if pLen h = 0 ∨ (pLcen h = true ∧ 63 < pLctr h) then some nkAddress else seatRefusal (seatOf s w) h (pOff h) (64 * pLen h) 64).map
    fun c => (countRefusal s w (pSpace h) c, c)

theorem exec_writePkt_seat (h : Arrives s i tyWrite (.seat w) d) (g : Nat) :
    exec (.writePkt i g) s = .next (writeRow s i g d (liveAt s w (pEpoch d.pkt.hdr.toNat)) (staleSeat s w) (seatBad s w d.pkt.hdr.toNat)
      (pSpace d.pkt.hdr.toNat == 1 && (seatOf s w).cox.filling) (seatTook s w d.pkt.hdr.toNat g)) :=
  packetRow_seat h

/-- The whole WRITE with header `h` lies in a seat's memory, and its counter is one of a seat's (05 R147, R148, 09 R294). -/
def Lands (h : Nat) : Prop := InSeat (pSpace h) (pOff h) (64 * pLen h) 64 ∧ pLen h ≠ 0 ∧ (pLcen h = true → pLctr h ≤ 63)

theorem seatBad_none {h : Nat} (hl : Lands h) (hp : pSpace h = 2 → pageBusy (seatOf s w) (pOff h) (64 * pLen h) = false) :
    seatBad s w h = none := by
  obtain ⟨hs, hn, hc⟩ := hl
  rw [seatBad, if_neg (by rintro (h0 | ⟨h1, h2⟩); exacts [hn h0, absurd (hc h1) (by omega)]), seatRefusal_none hs hp]
  rfl

theorem seatBad_page {h : Nat} (hl : Lands h) (h2 : pSpace h = 2) (hp : pageBusy (seatOf s w) (pOff h) (64 * pLen h) = true) :
    seatBad s w h = some (modCox s w fun c => { c with pageRefused := satInc c.pageRefused }, nkPage) := by
  obtain ⟨hs, hn, hc⟩ := hl
  rw [seatBad, if_neg (by rintro (h0 | ⟨h1, h3⟩); exacts [hn h0, absurd (hc h1) (by omega)]), seatRefusal_page hs h2 hp]
  rfl

theorem seatBad_address {h : Nat} (hl : ¬ Lands h) : seatBad s w h = some (countRefusal s w (pSpace h) nkAddress, nkAddress) := by
  have hr : (if pLen h = 0 ∨ (pLcen h = true ∧ 63 < pLctr h) then some nkAddress
      else seatRefusal (seatOf s w) h (pOff h) (64 * pLen h) 64) = some nkAddress := by
    split
    · rfl
    · next hc =>
      refine seatRefusal_address fun hs => hl ⟨hs, fun h0 => hc (.inl h0), fun h1 => ?_⟩
      by_contra h3
      exact hc (.inr ⟨h1, by omega⟩)
  rw [seatBad, hr]
  rfl

/-- An address that no memory of the seat holds is counted where it names the store (05 R151). -/
theorem countRefusal_address (s : State) (w sp : Nat) :
    (countRefusal s w sp nkAddress).noc = s.noc ∧ OtherSeats s (countRefusal s w sp nkAddress) w ∧
      seatOf (countRefusal s w sp nkAddress) w =
        { seatOf s w with wst := { (seatOf s w).wst with refused := if sp = 0 then satInc (seatOf s w).wst.refused else (seatOf s w).wst.refused } } := by
  rw [countRefusal, if_neg (by decide)]
  split
  · exact ⟨rfl, otherSeats_modSeat _ _ _, seatOf_modSeat_self _ _ _⟩
  · exact ⟨rfl, fun _ _ => rfl, rfl⟩

end

/-! ## WRITE at a pool -/

section
variable {s : State} {i hf : Nat} {d : Deliv}

/-- The state and the code with which a WRITE is refused whole at a pool. -/
def poolBad (s : State) (hf h : Nat) : Option (State × Nat) :=
  if 64 * pLen h = 0 ∨ pOff h % 64 ≠ 0 ∨ poolWindow < pOff h + 64 * pLen h then some (s, nkAddress)
  else if spanOpen (poolOf s hf) (pOff h) (64 * pLen h) = false then some (asleepAt s hf, nkAsleep) else none

theorem exec_writePkt_pool (h : Arrives s i tyWrite (.pool hf) d) (g : Nat) :
    exec (.writePkt i g) s = .next (writeRow s i g d (liveAt s (poolTable hf) (pEpoch d.pkt.hdr.toNat)) (staleElse s)
      (poolBad s hf d.pkt.hdr.toNat) false (poolTook s hf d.pkt.hdr.toNat g)) :=
  packetRow_pool h

/-- The whole WRITE with header `h` lies below a pool's counter window (05 R181). -/
def PoolFits (h : Nat) : Prop := pOff h % 64 = 0 ∧ pLen h ≠ 0 ∧ pOff h + 64 * pLen h ≤ 0x50000000

theorem poolFits_iff (h : Nat) : PoolFits h ↔ ¬ (64 * pLen h = 0 ∨ pOff h % 64 ≠ 0 ∨ poolWindow < pOff h + 64 * pLen h) := by
  unfold PoolFits poolWindow
  omega

theorem poolBad_address {h : Nat} (hn : ¬ PoolFits h) : poolBad s hf h = some (s, nkAddress) :=
  if_pos (by_contra fun hc => hn ((poolFits_iff h).mpr hc))

theorem poolBad_asleep {h : Nat} (hl : PoolFits h) (ho : spanOpen (poolOf s hf) (pOff h) (64 * pLen h) = false) :
    poolBad s hf h = some (asleepAt s hf, nkAsleep) := by
  rw [poolBad, if_neg ((poolFits_iff h).mp hl), if_pos ho]

theorem poolBad_none {h : Nat} (hl : PoolFits h) (ho : spanOpen (poolOf s hf) (pOff h) (64 * pLen h) = true) : poolBad s hf h = none := by
  rw [poolBad, if_neg ((poolFits_iff h).mp hl), if_neg (by simp [ho])]

end

/-! ## WORD -/

theorem bytesOf_mod (v n : Nat) : bytesOf (v % 256 ^ n) n = bytesOf v n := by
  induction n generalizing v with
  | zero => rfl
  | succ n ih =>
    have hb : BitVec.ofNat 8 (v % 256 ^ (n + 1)) = BitVec.ofNat 8 v := by
      refine BitVec.eq_of_toNat_eq ?_
      rw [BitVec.toNat_ofNat, BitVec.toNat_ofNat]
      exact Nat.mod_mod_of_dvd v ⟨256 ^ n, by rw [Nat.pow_succ, Nat.mul_comm]⟩
    rw [bytesOf, bytesOf, hb, Nat.pow_succ, Nat.mul_comm (256 ^ n) 256, Nat.mod_mul_right_div_self, ih]

theorem bytesOf_word (v : Nat) : bytesOf (BitVec.ofNat 32 v).toNat 4 = bytesOf v 4 := by
  rw [BitVec.toNat_ofNat]
  exact bytesOf_mod v 4

section
variable {s : State} {i : Nat} {d : Deliv}

theorem exec_wordPkt_seat {w : Nat} (h : Arrives s i tyWord (.seat w) d) : exec (.wordPkt i) s = .next (wordSeat s i w d) :=
  packetRow_seat h

theorem exec_wordPkt_pool {hf : Nat} (h : Arrives s i tyWord (.pool hf) d) : exec (.wordPkt i) s = .next (wordPool s i hf d) :=
  packetRow_pool h

theorem wordSeat_stores {w : Nat} (hl : liveAt s w (pEpoch d.pkt.hdr.toNat) = true)
    (hs : InSeat (pSpace d.pkt.hdr.toNat) (pOff d.pkt.hdr.toNat) 4 4) (hf : pSpace d.pkt.hdr.toNat = 1 → (seatOf s w).cox.filling = false)
    (hp : pSpace d.pkt.hdr.toNat = 2 → pageBusy (seatOf s w) (pOff d.pkt.hdr.toNat) 4 = false) :
    wordSeat s i w d = answered (modSeat s w fun x =>
      seatWrite x (pSpace d.pkt.hdr.toNat) (pOff d.pkt.hdr.toNat) (bytesOf (BitVec.ofNat 32 (pWord d.pkt.hdr.toNat)).toNat 4)) i d .done := by
  have h4 : pSpace d.pkt.hdr.toNat ≠ 4 := by
    obtain ⟨-, ⟨h1, -⟩ | ⟨h2, -⟩⟩ := hs <;> omega
  unfold wordSeat
  dsimp only
  rw [if_neg (fun hc => by simp [hf hc.1] at hc), if_neg (by simp [hl]), if_neg (fun hc => h4 hc.1), seatRefusal_none hs hp, bytesOf_word]

theorem wordSeat_sets {w : Nat} (hl : liveAt s w (pEpoch d.pkt.hdr.toNat) = true) (h4 : pSpace d.pkt.hdr.toNat = 4)
    (ho : pOff d.pkt.hdr.toNat % 4 = 0) (hb : pOff d.pkt.hdr.toNat < 0x200) :
    wordSeat s i w d = answered (setSeatWord s w (pOff d.pkt.hdr.toNat) (w32 (pWord d.pkt.hdr.toNat))) i d .done := by
  unfold wordSeat
  dsimp only
  rw [if_neg (by omega), if_neg (by simp [hl]), if_pos ⟨h4, ho, hb⟩]

theorem wordPool_sets {hf : Nat} (hl : liveAt s (poolTable hf) (pEpoch d.pkt.hdr.toNat) = true) (hlo : 0x50000000 ≤ pOff d.pkt.hdr.toNat)
    (hhi : pOff d.pkt.hdr.toNat < 0x50000800) (ho : pOff d.pkt.hdr.toNat % 4 = 0) :
    wordPool s i hf d = answered (setPoolWord s hf (pOff d.pkt.hdr.toNat - 0x50000000) (w32 (pWord d.pkt.hdr.toNat))) i d .done := by
  unfold wordPool
  dsimp only
  rw [if_neg (by simp [hl]), if_neg (by unfold poolWindow poolEnd; omega)]

theorem wordPool_refuses {hf : Nat} (hl : liveAt s (poolTable hf) (pEpoch d.pkt.hdr.toNat) = true)
    (hlo : pOff d.pkt.hdr.toNat < 0x50000000) : wordPool s i hf d = answered s i d (.refuse 1) := by
  unfold wordPool
  dsimp only
  rw [if_neg (by simp [hl]), if_pos (.inl hlo)]

end

end Sys2Proof.Machine
end

section
open Sys2Proof Sys2Proof.Machine

/-- Settles O15: each way of a WRITE by its lemma of the shared row, and the granule or word that is taken by the seat or the pool it leaves. -/
theorem writesLand : Obligations.WritesLand := by
  unfold Obligations.WritesLand
  refine ⟨fun s i g w d ha => ?_, fun s i g hf d ha hv => ?_, fun s i d => ⟨fun w ha hl => ⟨fun hs hf hp => ?_, fun h4 ho hb => ?_⟩,
      fun hf ha hl => ⟨fun hlo hhi ho => ?_, fun hlo => ?_⟩⟩⟩
  · rw [exec_writePkt_seat ha]
    refine ⟨fun a hv => congrArg _ (writeRow_dropped hv), fun hv h1 hf => congrArg _ (writeRow_waits hv (by simp [h1, hf])), fun hv hf => ?_⟩
    have hw : (pSpace d.pkt.hdr.toNat == 1 && (seatOf s w).cox.filling) = false := by
      by_cases h1 : pSpace d.pkt.hdr.toNat = 1
      · simp [h1, hf h1]
      · simp [h1]
    refine ⟨fun y hl hlands hp hg hn hy => ?_, fun hl => congrArg _ (writeRow_stale hv hw hl), fun hl hlands he => ?_, fun hl hlands he h2 hp => ?_⟩
    · obtain ⟨hnoc, hflt, hother⟩ := seatTook_frame s w d.pkt.hdr.toNat g y
      obtain ⟨hx, hc, hnc⟩ := seatOf_seatTook s w d.pkt.hdr.toNat g y
      refine ⟨_, congrArg _ (writeRow_writes hv hw hl (fun he => seatBad_none hlands (hp he)) hg hn hy), hnoc, hflt, hother, fun h1 => ?_,
          fun h2 => ?_,
        hc, hnc, ?_⟩
      · rw [hx]
        exact seatWrite_core _ _ _ h1
      · rw [hx]
        exact seatWrite_desc _ _ _ h2
      · rw [hx, seatWrite_eq]
    · exact ⟨_, congrArg _ (writeRow_refused hv hw hl he (seatBad_address hlands)), countRefusal_address s w _⟩
    · exact ⟨_, congrArg _ (writeRow_refused hv hw hl he (seatBad_page hlands h2 hp)), rfl, otherSeats_modSeat _ _ _, seatOf_modSeat_self _ _ _⟩
  · rw [exec_writePkt_pool ha]
    refine ⟨fun y hl hfit ho hg hn hy => ?_, fun hl hfit he ho => congrArg _ (writeRow_refused hv rfl hl he (poolBad_asleep hfit ho)),
      fun hl hfit he => congrArg _ (writeRow_refused hv rfl hl he (poolBad_address hfit)), fun hl => congrArg _ (writeRow_stale hv rfl hl)⟩
    obtain ⟨hnoc, hflt, hother, hseats⟩ := poolTook_frame s hf d.pkt.hdr.toNat g y
    refine ⟨_, congrArg _ (writeRow_writes hv rfl hl (fun he => poolBad_none hfit (ho he)) hg hn hy), hnoc, hflt, hother, hseats, ?_, fun hc => ?_,
      fun hc => ?_, ?_⟩ <;> rw [poolOf_poolTook]
    · exact storesAt_mwrites _ _ _
    · rw [if_pos hc]
      exact lnd_count _ _ _
    · exact if_neg (by simp [hc])
  · refine ⟨_, (exec_wordPkt_seat ha).trans (congrArg _ (wordSeat_stores hl hs hf hp)), rfl, otherSeats_modSeat _ _ _, fun h1 => ?_, fun h2 => ?_,
      ?_⟩ <;>
      rw [seatOf_modSeat_self]
    · exact seatWrite_core _ _ _ h1
    · exact seatWrite_desc _ _ _ h2
    · exact seatWrite_eq _ _ _ _
  · refine ⟨_, (exec_wordPkt_seat ha).trans (congrArg _ (wordSeat_sets hl h4 ho hb)), rfl, otherSeats_setSeatWord _ _ _ _, ?_, ?_⟩ <;>
      rw [setSeatWord, seatOf_latchDeps, seatOf_modSeat_self]
    exact lnd_setWord _ _ ho
  · have h4 : (pOff d.pkt.hdr.toNat - 0x50000000) % 4 = 0 := by omega
    refine ⟨_, (exec_wordPkt_pool ha).trans (congrArg _ (wordPool_sets hl hlo hhi ho)), rfl, otherPools_setPoolWord _ _ _ _, rfl, ?_,
      poolOf_setPoolWord _ _ _ _ |>.trans ?_⟩
    · rw [lnd_setPoolWord]
      exact lnd_setWord _ _ h4
    · rw [lnd_setPoolWord]
  · exact (exec_wordPkt_pool ha).trans (congrArg _ (wordPool_refuses hl hlo))

end

section
/-!
SUPPORT. Refresh (05 R168-R175): the debts of a seat's banks, a forced refresh and its end. Pool segments (05 R179-R182): one segment's bits and
bytes.
-/
namespace Sys2Proof.Machine
open Host (Outcome)

/-! ## The debts of all banks -/

/-- A change of the first `n` keys, each to a value of its own. -/
theorem tget_foldl_tset {α : Type} [DecidableEq α] (d : α) (f : Nat → α) (t : Tbl α) (n k : Nat) :
    tget d ((List.range n).foldl (fun t b => tset d t b (f b)) t) k = if k < n then f k else tget d t k := by
  induction n with
  | zero => rfl
  | succ n ih =>
    rw [List.range_succ, List.foldl_append, List.foldl_cons, List.foldl_nil]
    by_cases hk : k = n
    · simp [hk]
    · rw [tget_tset_ne _ _ _ hk, ih]
      have : k < n + 1 ↔ k < n := by omega
      simp [this]

/-- Of a seat's weight store an accrual changes only the debts and its instant. -/
theorem accrueAll_spec (t : Wst) (a : Nat) :
    ∃ d, accrueAll t a = { t with debt := d, accrued := a + 1 } ∧ ∀ b, b < 32 → tget 0 d b = tget 0 t.debt b + 16 :=
  ⟨_, accrueAll.eq_1 t a, fun b hb => by rw [tget_foldl_tset, if_pos hb]⟩

theorem debt_refreshAll (t : Wst) {b : Nat} (hb : b < 32) : tget 0 (refreshAll t).debt b = tget 0 t.debt b - 8 := by
  rw [refreshAll, tget_foldl_tset, if_pos hb]

theorem mustRefresh_iff (x : Seat) : mustRefresh x = true ↔ ∃ b, b < 32 ∧ 128 ≤ debtOf x b := by
  simp [mustRefresh]

theorem refreshes_iff (s : State) (w : Nat) : refreshes s w = true ↔ halfEasy s (halfOf w) = false ∧ halfBoated s (halfOf w) = false := by
  simp [refreshes]

/-- Between instants on the crew's phase lies one interval (05 R168). -/
theorem dueAccrual_next {t : Wst} {p a : Nat} (ha : t.accrued = a + 1) (hp : a % accrualTicks t.hot = p % accrualTicks t.hot) :
    dueAccrual t p = a + accrualTicks t.hot := by
  have hg : 0 < accrualTicks t.hot := by unfold accrualTicks; split <;> decide
  have hmod : (a + accrualTicks t.hot - p % accrualTicks t.hot) % accrualTicks t.hot = 0 := by
    have ha' : a + accrualTicks t.hot - p % accrualTicks t.hot = accrualTicks t.hot * (a / accrualTicks t.hot + 1) := by
      have := Nat.div_add_mod a (accrualTicks t.hot)
      rw [Nat.mul_add_one]
      omega
    rw [ha', Nat.mul_mod_right]
  rw [dueAccrual, if_neg (by omega), nextAccrual, ha, Nat.add_sub_cancel, hmod]
  rfl

section
variable {s : State} {w : SeatIx}

theorem exec_refreshAccrual_stays (h : mustRefresh (seatOf s w.val) = true ∨
    s.clk.ticks < dueAccrual (seatOf s w.val).wst ((domOf s (crewOf w.val)).accrual.getD s.clk.ticks)) :
    exec (.refreshAccrual w) s = .next s :=
  if_pos (h.elim .inl fun h => .inr (.inr h))

theorem exec_refreshAccrual_accrues (hr : refreshes s w.val = true) (hd : ∀ b, b < 32 → debtOf (seatOf s w.val) b < 128) {p due : Nat}
    (hp : (domOf s (crewOf w.val)).accrual.getD s.clk.ticks = p) (hdue : dueAccrual (seatOf s w.val).wst p = due) (ht : due ≤ s.clk.ticks) :
    ∃ d, (∀ b, b < 32 → tget 0 d b = debtOf (seatOf s w.val) b + 16) ∧
      exec (.refreshAccrual w) s = .next (putSeat (modDom s (crewOf w.val) fun m => { m with accrual := some p }) w.val
        { seatOf s w.val with wst := { (seatOf s w.val).wst with debt := d, accrued := due + 1 } }) := by
  subst hp hdue
  obtain ⟨d, heq, hdebt⟩ := accrueAll_spec (seatOf s w.val).wst
    (dueAccrual (seatOf s w.val).wst ((domOf s (crewOf w.val)).accrual.getD s.clk.ticks))
  refine ⟨d, hdebt, ?_⟩
  rw [← heq]
  refine if_neg ?_
  rintro (hm | hn | hl)
  · obtain ⟨b, hb, hge⟩ := (mustRefresh_iff _).mp hm
    exact absurd (hd b hb) (by omega)
  · simp [hr] at hn
  · omega

theorem exec_refreshOperation_works {b : BankIx} {ahead : Nat} (hd : 0 < debtOf (seatOf s w.val) b.val)
    (hf : (seatOf s w.val).wst.forcing = none) (hr : refreshes s w.val = true) (hs : restSlot (seatOf s w.val) b.val ahead 225 = true) :
    exec (.refreshOperation w b ahead) s = .next (modWst s w.val fun t =>
      { t with debt := tset 0 t.debt b.val (tget 0 t.debt b.val - 1), ops := satInc t.ops }) :=
  if_pos ⟨hd, hf, hr, hs⟩

theorem exec_forcedRefresh_begins {c : Nat} (hm : mustRefresh (seatOf s w.val) = true) (hf : (seatOf s w.val).wst.forcing = none)
    (hr : refreshes s w.val = true) (hc : clocked s w.val = true) (hh : hardPending s (crewOf w.val) = false) (hp : c % 2 = 0)
    (hle : (seatOf s w.val).cox.cycle ≤ c) :
    exec (.forcedRefresh w c) s = .next (modWst s w.val fun t => { t with forcing := some c, forced := satInc t.forced }) :=
  if_pos ⟨hm, hf, hr, hc, hh, hp, hle⟩

end

/-! ## The end of a forced refresh -/

/-- A walking cox held up for `n` cycles from core cycle `c`: its cycle goes on after them, and its beat on by the cycles it walked to `c` (05
R174). -/
theorem cox_late_walking {x : Cox} (c n : Nat) (h : x.state = .walking) :
    (x.late c n).cycle = c + n ∧ (x.late c n).heldRefresh = satAdd x.heldRefresh n ∧ (x.late c n).ctr = x.ctr ∧ (x.late c n).next = x.next ∧
      (x.late c n).done = x.done ∧ (x.late c n).beat = if x.held.isSome then x.beat else x.beat + (c - x.cycle) := by
  unfold Cox.late
  rw [if_neg (not_not_intro h)]
  exact ⟨rfl, rfl, rfl, rfl, rfl, rfl⟩

/-- The seat after a forced refresh begun in core cycle `c` has halted it for `n` cycles. -/
def afterForced (x : Seat) (c n : Nat) : Seat :=
  { x with wst := refreshAll x.wst, cox := x.cox.late c n, mxa := x.mxa.late c n, vec := x.vec.late c n, dma := x.dma.late c n,
           net := x.net.late c n }

theorem exec_forcedRefreshEnd_of {s : State} {w : SeatIx} {c : Nat} (h : (seatOf s w.val).wst.forcing = some c) :
    exec (.forcedRefreshEnd w) s =
      .next (putSeat s w.val (afterForced (seatOf s w.val) c (haltCycles (domOf s (crewOf w.val)).step))) := by
  show execForcedRefreshEnd w s = _
  rw [execForcedRefreshEnd, h]
  rfl

/-! ## A segment of a pool -/

theorem mread_mclear (m : Mem) (a n b : Nat) : mread (mclear m a n) b = if a ≤ b ∧ b < a + n then 0 else mread m b := by
  have h := tfind_filter_key (fun k => decide (k < a) || decide (a + n ≤ k)) m b
  rw [mread, tget, mclear, h]
  by_cases hb : a ≤ b ∧ b < a + n
  · rw [if_pos hb, if_neg (by simp; omega)]
    rfl
  · rw [if_neg hb, if_pos (by simp; omega)]
    rfl

/-- `q` is the pool `p` outside segment `g`: its counters, and the bits of every other segment. -/
def SegmentOnly (p q : Pool) (g : Nat) : Prop :=
  q.lnd = p.lnd ∧ ∀ k, k < 20 → k ≠ g → q.on.getLsbD k = p.on.getLsbD k ∧ q.ready.getLsbD k = p.ready.getLsbD k ∧
    q.closing.getLsbD k = p.closing.getLsbD k

theorem setBit_other {n : Nat} (x : BitVec n) {i j : Nat} (h : j ≠ i) : (setBit x i).getLsbD j = x.getLsbD j := by
  simp [getLsbD_setBit, Ne.symm h]

theorem clrBit_other {n : Nat} (x : BitVec n) {i j : Nat} (h : j ≠ i) : (clrBit x i).getLsbD j = x.getLsbD j := by
  simp [getLsbD_clrBit, Ne.symm h]

theorem setBit_self {n : Nat} (x : BitVec n) {i : Nat} (h : i < n) : (setBit x i).getLsbD i = true := by
  simp [getLsbD_setBit, h]

theorem clrBit_self {n : Nat} (x : BitVec n) (i : Nat) : (clrBit x i).getLsbD i = false := by
  simp [getLsbD_clrBit]

theorem segOf_of_mem {g a : Nat} (h : 0x4000000 * g ≤ a ∧ a < 0x4000000 * g + 0x4000000) : segOf a = g := by
  unfold segOf
  omega

/-- What a segment that begins to close leaves (05 R180). -/
def segClosing (g now : Nat) (p : Pool) : Pool := { p with closing := setBit p.closing g, closeAt := tput p.closeAt g now }

/-- A segment closed (05 R180, R182). -/
def segClosed (g now : Nat) (p : Pool) : Pool :=
  { p with closing := clrBit p.closing g, on := clrBit p.on g, ready := clrBit p.ready g, closeAt := tdel p.closeAt g,
           mem := mclear p.mem (0x4000000 * g) 0x4000000,
           timeouts := if tget 0 p.closeAt g + 10000 ≤ now then satInc p.timeouts else p.timeouts }

/-- A segment woken (05 R181). -/
def segWoken (g : Nat) (p : Pool) : Pool := { p with on := setBit p.on g, mem := mclear p.mem (0x4000000 * g) 0x4000000 }

/-- A segment that serves (05 R181). -/
def segServing (g : Nat) (p : Pool) : Pool := { p with ready := setBit p.ready g }

theorem segClosing_only (p : Pool) (g now : Nat) : SegmentOnly p (segClosing g now p) g :=
  ⟨rfl, fun _ _ hk => ⟨rfl, rfl, setBit_other _ hk⟩⟩

theorem segClosed_only (p : Pool) (g now : Nat) : SegmentOnly p (segClosed g now p) g :=
  ⟨rfl, fun _ _ hk => ⟨clrBit_other _ hk, clrBit_other _ hk, clrBit_other _ hk⟩⟩

theorem segWoken_only (p : Pool) (g : Nat) : SegmentOnly p (segWoken g p) g := ⟨rfl, fun _ _ hk => ⟨setBit_other _ hk, rfl, rfl⟩⟩

theorem segServing_only (p : Pool) (g : Nat) : SegmentOnly p (segServing g p) g := ⟨rfl, fun _ _ hk => ⟨rfl, setBit_other _ hk, rfl⟩⟩

/-- A closed segment serves no address of its own. -/
theorem segClosed_shut (p : Pool) (g now : Nat) {a : Nat} (ha : segOf a = g) : segOpen (segClosed g now p) a = false := by
  simp [segOpen, ha, segClosed, clrBit_self]

theorem segServing_open {p : Pool} {g : Nat} (hon : p.on.getLsbD g = true) (hg : g < 20) {a : Nat} (ha : segOf a = g) :
    segOpen (segServing g p) a = true := by
  simp [segOpen, ha, segServing, hon, setBit_self _ hg, hg]

section
variable {s : State} {h : HalfIx} {g : SegIx}

theorem exec_segmentPowerDown_begins (hf : s.glb.fw = .ready) (hp : poolRuns s h.val = true) (hr : (poolOf s h.val).ready.getLsbD g.val = true)
    (hc : (poolOf s h.val).closing.getLsbD g.val = false) (hg : graphInSeg s h.val g.val = false) :
    exec (.segmentPowerDown h g) s = .next (modPool s h.val (segClosing g.val s.clk.ticks)) :=
  if_pos ⟨hf, hp, hr, hc, hg⟩

theorem exec_segmentPowerDown_stays (hg : graphInSeg s h.val g.val = true) : exec (.segmentPowerDown h g) s = .next s :=
  if_neg fun hc => by simp [hg] at hc

theorem exec_segmentClose_closes (hc : (poolOf s h.val).closing.getLsbD g.val = true) (hg : graphInSeg s h.val g.val = false) :
    exec (.segmentClose h g) s = .next (modPool s h.val (segClosed g.val s.clk.ticks)) :=
  if_pos (by rw [hc, hg]; rfl)

theorem exec_segmentClose_stays (hg : graphInSeg s h.val g.val = true) : exec (.segmentClose h g) s = .next s :=
  if_neg (by simp [hg])

theorem exec_segmentWake_wakes (hf : s.glb.fw = .ready) (hp : poolRuns s h.val = true) (ho : (poolOf s h.val).on.getLsbD g.val = false)
    (hd : (poolOf s h.val).dead.getLsbD g.val = false) : exec (.segmentWake h g) s = .next (modPool s h.val (segWoken g.val)) :=
  if_pos ⟨hf, hp, ho, hd⟩

theorem exec_segmentReady_serves (ho : (poolOf s h.val).on.getLsbD g.val = true) :
    exec (.segmentReady h g) s = .next (modPool s h.val (segServing g.val)) :=
  if_pos ho

end

end Sys2Proof.Machine
end

section
open Sys2Proof Sys2Proof.Machine

/-- Settles O21: each command's two ways, the debts bank by bank, and the segments' bits and bytes. -/
theorem refreshAndSegments : Obligations.RefreshAndSegments := by
  unfold Obligations.RefreshAndSegments
  constructor
  · intro s w x p due gap he hb
    have hr : refreshes s w.val = true := (refreshes_iff _ _).mpr ⟨he, hb⟩
    refine ⟨fun a ha hp => dueAccrual_next ha hp, fun hlt => exec_refreshAccrual_stays (.inr hlt), fun hdue hd => ?_, fun b ahead h0 hf hs => ?_,
      fun c hm hf hc hh hp hle => ⟨exec_refreshAccrual_stays (.inl ((mustRefresh_iff _).mpr hm)),
        exec_forcedRefresh_begins ((mustRefresh_iff _).mpr hm) hf hr hc hh hp hle⟩, fun c hf hst hle => ?_⟩
    · obtain ⟨d, hdebt, heq⟩ := exec_refreshAccrual_accrues hr hd rfl rfl hdue
      refine ⟨_, heq, ?_, ?_⟩ <;> rw [seatOf_putSeat_self]
      exact hdebt
    · refine ⟨_, exec_refreshOperation_works h0 hf hr hs, ?_, fun k hk => ?_, ?_⟩ <;> rw [modWst, seatOf_modSeat_self]
      · exact tget_tset_self _ _ _ _
      · exact tget_tset_ne _ _ _ hk
      · rfl
    · obtain ⟨hcycle, hheld, hctr, hnext, hdone, hbeat⟩ := cox_late_walking c (haltCycles (domOf s (crewOf w.val)).step) hst
      refine ⟨_, exec_forcedRefreshEnd_of hf, by rw [seatOf_putSeat_self], ?_⟩
      rw [seatOf_putSeat_self]
      refine ⟨rfl, fun b hb32 => debt_refreshAll _ hb32, hcycle, hheld, hctr, hnext, hdone, rfl, rfl, rfl, rfl, rfl, rfl, fun hn => ?_,
          fun hn => ?_⟩
      · exact hbeat.trans (if_pos (Option.isSome_iff_ne_none.mpr hn))
      · exact hbeat.trans (if_neg (by simp [x, hn]))
  · intro s h g p inSeg only
    have honly (f : Pool → Pool) (ho : SegmentOnly p (f p) g.val) : only (modPool s h.val f) := by
      obtain ⟨hl, hk⟩ := ho
      refine ⟨rfl, otherPools_modPool s _ f, ?_, ?_⟩ <;> rw [poolOf_modPool_self]
      · exact hl
      · exact hk
    refine ⟨fun hf hp hr hc => ⟨fun hg => ⟨_, exec_segmentPowerDown_begins hf hp hr hc hg, honly _ (segClosing_only _ _ _), ?_⟩,
        exec_segmentPowerDown_stays⟩, fun _ hg => exec_segmentClose_stays hg,
      fun hc hg => ⟨_, exec_segmentClose_closes hc hg, honly _ (segClosed_only _ _ _), ?_⟩,
      fun hf hp ho hd => ⟨_, exec_segmentWake_wakes hf hp ho hd, honly _ (segWoken_only _ _), ?_⟩,
      fun ho => ⟨_, exec_segmentReady_serves ho, honly _ (segServing_only _ _), ?_⟩⟩ <;> rw [poolOf_modPool_self]
    · exact ⟨setBit_self _ g.isLt, rfl, rfl⟩
    · refine ⟨clrBit_self _ _, clrBit_self _ _, clrBit_self _ _, fun a ha => ⟨segClosed_shut _ _ _ (segOf_of_mem ha), ?_⟩, fun a ha => ?_, rfl⟩
      · exact (mread_mclear _ _ _ _).trans (if_pos ha)
      · exact (mread_mclear _ _ _ _).trans (if_neg ha)
    · exact ⟨setBit_self _ g.isLt, rfl, fun a ha => (mread_mclear _ _ _ _).trans (if_pos ha), fun a ha => (mread_mclear _ _ _ _).trans (if_neg ha)⟩
    · exact ⟨rfl, fun a ha => segServing_open ho g.isLt (segOf_of_mem ha)⟩

end

section
/-!
SUPPORT. The side port (05 R176): which piece of work comes next, and what each kind of work leaves of the seat; a crew's DRAM sample.
-/
namespace Sys2Proof.Machine
open Host (Outcome)

/-! ## The choice of work -/

/-- The first place at which a property holds. -/
theorem findIdx_some {α : Type} {p : α → Bool} {l : List α} {i : Nat} (h : findIdx p l = some i) :
    (∃ a, l[i]? = some a ∧ p a = true) ∧ ∀ j b, l[j]? = some b → p b = true → i ≤ j := by
  induction l generalizing i with
  | nil => cases h
  | cons a l ih =>
    unfold findIdx at h
    split at h
    case isTrue ha => exact Option.some.inj h ▸ ⟨⟨a, rfl, ha⟩, fun _ _ _ _ => Nat.zero_le _⟩
    case isFalse ha =>
      obtain ⟨k, hk, rfl⟩ := Option.map_eq_some_iff.mp h
      obtain ⟨hex, hmin⟩ := ih hk
      refine ⟨hex, fun j b hj hb => ?_⟩
      cases j with
      | zero => exact absurd (Option.some.inj hj ▸ hb) ha
      | succ j => exact Nat.succ_le_succ (hmin j b hj hb)

theorem findIdx_none {α : Type} {p : α → Bool} {l : List α} (h : findIdx p l = none) : ∀ b ∈ l, p b = false := by
  induction l with
  | nil => exact fun _ hb => absurd hb List.not_mem_nil
  | cons a l ih =>
    unfold findIdx at h
    split at h
    case isTrue => cases h
    case isFalse ha =>
      exact List.forall_mem_cons.mpr ⟨Bool.eq_false_iff.mpr ha, ih (Option.map_eq_none_iff.mp h)⟩

/-- The oldest work of rank `r` that may start. -/
def firstOfRank (x : Seat) (ahead r : Nat) : Option Nat := findIdx (fun k => workRank k == r && workMay x ahead k) x.wst.work

section
variable {x : Seat} {ahead i r : Nat}

theorem firstOfRank_none (h : firstOfRank x ahead r = none) {j : Nat} {k : SideWork} (hj : x.wst.work[j]? = some k)
    (hm : workMay x ahead k = true) : workRank k ≠ r := fun hr => by
  have := findIdx_none h k (List.mem_of_getElem? hj)
  simp [hr, hm] at this

/-- Where no work of a lower rank may start, the first of a rank is the choice of R176. -/
theorem firstOfRank_some (h : firstOfRank x ahead r = some i)
    (hlow : ∀ (j : Nat) (k : SideWork), x.wst.work[j]? = some k → workMay x ahead k = true → r ≤ workRank k) :
    ∃ k, x.wst.work[i]? = some k ∧ workMay x ahead k = true ∧
      ∀ (j : Nat) (k' : SideWork), x.wst.work[j]? = some k' → workMay x ahead k' = true →
        workRank k < workRank k' ∨ workRank k = workRank k' ∧ i ≤ j := by
  obtain ⟨⟨k, hk, hp⟩, hmin⟩ := findIdx_some h
  simp only [Bool.and_eq_true, beq_iff_eq] at hp hmin
  obtain ⟨rfl, hmay⟩ := hp
  refine ⟨k, hk, hmay, fun j k' hj hm => ?_⟩
  rcases Nat.lt_or_eq_of_le (hlow j k' hj hm) with hlt | heq
  · exact .inl hlt
  · exact .inr ⟨heq, hmin j k' hj ⟨heq.symm, hm⟩⟩

theorem nextWork_first (h : nextWork x ahead = some i) :
    ∃ k, x.wst.work[i]? = some k ∧ workMay x ahead k = true ∧
      ∀ (j : Nat) (k' : SideWork), x.wst.work[j]? = some k' → workMay x ahead k' = true →
        workRank k < workRank k' ∨ workRank k = workRank k' ∧ i ≤ j := by
  change (match firstOfRank x ahead 0 with
    | some i => some i
    | none => match firstOfRank x ahead 1 with
      | some i => some i
      | none => firstOfRank x ahead 2) = some i at h
  split at h
  next i0 h0 =>
    exact firstOfRank_some (h0.trans h) fun _ _ _ _ => Nat.zero_le _
  next h0 =>
    split at h
    next i1 h1 =>
      exact firstOfRank_some (h1.trans h) fun j k hj hm => Nat.one_le_iff_ne_zero.mpr (firstOfRank_none h0 hj hm)
    next h1 =>
      refine firstOfRank_some h fun j k hj hm => ?_
      have n0 := firstOfRank_none h0 hj hm
      have n1 := firstOfRank_none h1 hj hm
      omega

end

/-! ## A store -/

theorem mem_of_mem_dropAt {α : Type} {a : α} {l : List α} {i : Nat} (h : a ∈ dropAt l i) : a ∈ l := by
  induction l generalizing i with
  | nil => exact h
  | cons b l ih =>
    cases i with
    | zero => exact List.mem_cons_of_mem _ h
    | succ i =>
      rcases List.mem_cons.mp h with rfl | h
      · exact List.mem_cons_self
      · exact List.mem_cons_of_mem _ (ih h)

/-- A store outside every tile that is being scrubbed leaves the work as it is. -/
theorem scrubYields_outside {g : Nat} {t : Wst} (h : ∀ f k, .scrub f k ∈ t.work → g < f ∨ f + 35 ≤ g) : scrubYields g t = t := by
  unfold scrubYields
  split
  next f k hf =>
    have hin := List.find?_some hf
    have hout := h f k (List.mem_of_find?_eq_some hf)
    simp only [decide_eq_true_eq] at hin
    omega
  next => rfl

/-- Of the units, a store touches only the load that may be reading the granule. -/
theorem tornLoad_eq (x : Seat) (g : Nat) : tornLoad x g = { x with mxa := (tornLoad x g).mxa } := by
  unfold tornLoad
  dsimp only
  repeat' split
  all_goals rfl

theorem storeWrite_spec (x : Seat) (g : Nat) (d : Granule) :
    StoresAt x.store (storeWrite x g d).store (64 * g) (bytesOf d.toNat 64) ∧ (storeWrite x g d).core = x.core ∧
      (storeWrite x g d).desc = x.desc ∧ (storeWrite x g d).cox = x.cox ∧ (storeWrite x g d).wst = scrubYields g x.wst := by
  unfold storeWrite
  rw [tornLoad_eq]
  exact ⟨storesAt_mwrites _ _ _, rfl, rfl, rfl, rfl⟩

theorem bytesOf_zero (n : Nat) : bytesOf 0 n = List.replicate n 0 := by
  induction n with
  | zero => rfl
  | succ n ih => rw [bytesOf, Nat.zero_div, ih]; rfl

theorem bytesOf_zeroGranule : bytesOf (0 : Granule).toNat 64 = List.replicate 64 0 := by
  rw [show (0 : Granule).toNat = 0 from BitVec.toNat_zero, bytesOf_zero]

/-! ## The kinds of work -/

/-- The seat with its piece of work `i` taken. -/
def workTaken (x : Seat) (i : Nat) : Seat := { x with wst := { x.wst with work := dropAt x.wst.work i } }

theorem restFill_eq (x : Seat) (f n : Nat) :
    restFill x f n = { x with wst := { x.wst with work := (if n ≤ 1 then [] else [.fill (f + 1) (n - 1)]) ++ x.wst.work } } := by
  unfold restFill
  split <;> rfl

/-- The state after the piece of work `k`, in place `i` of those of seat `w`, has been taken (05 R176). -/
def afterWork (s : State) (w i : Nat) : SideWork → State
  | .write g d => putSeat s w (storeWrite (workTaken (seatOf s w) i) g d)
  | .fill f n => putSeat s w (storeWrite (restFill (workTaken (seatOf s w) i) f n) f 0)
  | .diag g => diagRead (putSeat s w (workTaken (seatOf s w) i)) w g
  | .scrub f k =>
    if k + 1 < 35 then
      putSeat s w { seatOf s w with wst := { (seatOf s w).wst with work := dropAt (seatOf s w).wst.work i ++ [.scrub f (k + 1)] } }
    else scrubEnd (putSeat s w (workTaken (seatOf s w) i)) w f

section
variable {s : State} {w : SeatIx} {ahead i : Nat} (hr : refreshes s w.val = true) (hn : nextWork (seatOf s w.val) ahead = some i)
include hr hn

theorem exec_sidePort_of {k : SideWork} (hk : (seatOf s w.val).wst.work[i]? = some k) :
    exec (.sidePortTransfer w ahead) s = .next (afterWork s w.val i k) := by
  show execSidePortTransfer w ahead s = _
  unfold execSidePortTransfer
  dsimp only
  rw [if_neg (by simp [hr]), hn]
  dsimp only
  rw [hk]
  cases k with
  | write g d => simp [afterWork, modWst, modSeat, workTaken]
  | fill f n => simp [afterWork, modWst, modSeat, workTaken]
  | diag g => rfl
  | scrub f k =>
    dsimp only [afterWork]
    split
    · simp [modWst, modSeat]
    · rfl

theorem exec_sidePort_write {g : Nat} {d : Granule} (hk : (seatOf s w.val).wst.work[i]? = some (.write g d)) :
    exec (.sidePortTransfer w ahead) s = .next (putSeat s w.val (storeWrite (workTaken (seatOf s w.val) i) g d)) :=
  exec_sidePort_of hr hn hk

theorem exec_sidePort_fill {f n : Nat} (hk : (seatOf s w.val).wst.work[i]? = some (.fill f n)) :
    exec (.sidePortTransfer w ahead) s = .next (putSeat s w.val (storeWrite (restFill (workTaken (seatOf s w.val) i) f n) f 0)) :=
  exec_sidePort_of hr hn hk

theorem exec_sidePort_diag {g : Nat} (hk : (seatOf s w.val).wst.work[i]? = some (.diag g)) :
    exec (.sidePortTransfer w ahead) s = .next (diagRead (putSeat s w.val (workTaken (seatOf s w.val) i)) w.val g) :=
  exec_sidePort_of hr hn hk

theorem exec_sidePort_scrub {f k : Nat} (hk : (seatOf s w.val).wst.work[i]? = some (.scrub f k)) (hlt : k < 34) :
    exec (.sidePortTransfer w ahead) s = .next (putSeat s w.val { seatOf s w.val with wst := { (seatOf s w.val).wst with
      work := dropAt (seatOf s w.val).wst.work i ++ [.scrub f (k + 1)] } }) :=
  (exec_sidePort_of hr hn hk).trans (congrArg _ (if_pos (by omega)))

theorem exec_sidePort_scrubEnd {f k : Nat} (hk : (seatOf s w.val).wst.work[i]? = some (.scrub f k)) (hle : 34 ≤ k) :
    exec (.sidePortTransfer w ahead) s = .next (scrubEnd (putSeat s w.val (workTaken (seatOf s w.val) i)) w.val f) :=
  (exec_sidePort_of hr hn hk).trans (congrArg _ (if_neg (by omega)))

end

/-! ## A diagnostic read and the end of a scrub -/

section
variable (s : State) (w : Nat) (x : Seat)

theorem diagRead_shown {g : Nat} (hu : s.sec.unlocked = true) (hs : s.sec.scope.getLsbD 1 = true) (hg : g < 98304) :
    diagRead (putSeat s w x) w g = putSeat s w { x with wst := { x.wst with diagDone := true, diagData := mgran x.store g } } := by
  simp [diagRead, hu, hs, hg, modWst, modSeat]

theorem diagRead_refused {g : Nat} (h : s.sec.unlocked = false ∨ s.sec.scope.getLsbD 1 = false) :
    diagRead (putSeat s w x) w g = putSeat s w { x with wst := { x.wst with diagDone := true, diagData := BitVec.allOnes 512,
                                                                             diagRefused := satInc x.wst.diagRefused } } := by
  have hn : ((putSeat s w x).sec.unlocked && (putSeat s w x).sec.scope.getLsbD 1) = false := Bool.and_eq_false_iff.mpr h
  rw [diagRead, hn, if_neg Bool.false_ne_true, modWst, modSeat, seatOf_putSeat_self, putSeat_putSeat]

/-- The scrubber's place moves; the work and the counts of weak tiles stay. -/
theorem scrubNext_leaves (t : Wst) (f : Nat) : (scrubNext t f).work = t.work ∧ (scrubNext t f).weak = t.weak := by
  unfold scrubNext
  split <;> exact ⟨rfl, rfl⟩

theorem scrubEnd_good {f : Nat} (h : tileCrc (mslice x.store (64 * f) 2240) kindWeight =
      BitVec.ofNat 32 (tileStored (mslice x.store (64 * f) 2240) kindWeight)) :
    scrubEnd (putSeat s w x) w f = putSeat s w { x with wst := scrubNext x.wst f } := by
  simp [scrubEnd, h, modWst, modSeat]

/-- A scrub that finds a weak tile counts it and puts one record on the fault path (05 R178). -/
theorem scrubEnd_weak {f : Nat} (h : tileCrc (mslice x.store (64 * f) 2240) kindWeight ≠
      BitVec.ofNat 32 (tileStored (mslice x.store (64 * f) 2240) kindWeight)) :
    ∃ r : Record, scrubEnd (putSeat s w x) w f =
        report (putSeat s w { x with wst := { scrubNext x.wst f with weak := satInc (scrubNext x.wst f).weak, weakLast := f } }) r ∧
      r.code = 0x0201 ∧ r.kind = 4 ∧ r.detail = detail 0 0 0 f (tileTag (mslice x.store (64 * f) 2240) kindWeight) := by
  simp only [scrubEnd, seatOf_putSeat_self, beq_eq_false_iff_ne.mpr h, modWst, modSeat, putSeat_putSeat]
  exact ⟨_, rfl, rfl, rfl, rfl⟩

end

/-! ## The scrubber's next tile and a DRAM sample -/

theorem scrubTarget_of {t : Wst} {f : Nat} (h : t.extents.find? (fun e => decide (t.scrubAt ≤ e)) = some f ∨
    t.extents.find? (fun e => decide (t.scrubAt ≤ e)) = none ∧ t.extents.head? = some f) : scrubTarget t = some f := by
  unfold scrubTarget
  rcases h with h | ⟨h, hh⟩
  · rw [h]
  · rw [h, hh]

theorem exec_scrubTile_begins {s : State} {w : SeatIx} {f : Nat} (he : (seatOf s w.val).wst.scrubEn = true)
    (hb : ∀ k ∈ (seatOf s w.val).wst.work, workRank k ≠ 2)
    (ht : (seatOf s w.val).wst.scrubTick = 0 ∨ (seatOf s w.val).wst.scrubTick + 6399 ≤ s.clk.ticks)
    (hf : scrubTarget (seatOf s w.val).wst = some f) :
    exec (.scrubTile w) s = .next (modWst s w.val fun t =>
      { t with scrubAt := f, work := t.work ++ [.scrub f 0], scrubTick := s.clk.ticks + 1 }) := by
  show execScrubTile w s = _
  unfold execScrubTile
  dsimp only
  rw [if_pos ⟨he, by simpa using hb, ht⟩, hf]

/-- One change, by the clocks, of the weight store of each of some seats from `base` on. -/
def storesFrom (base : Nat) (f : Clk → Wst → Wst) (l : List Nat) (s : State) : State := l.foldl (fun s p => modWst s (base + p) (f s.clk)) s

theorem clk_storesFrom (base : Nat) (f : Clk → Wst → Wst) (l : List Nat) (s : State) : (storesFrom base f l s).clk = s.clk := by
  induction l generalizing s with
  | nil => rfl
  | cons p l ih => exact ih _

theorem seatOf_storesFrom (base n : Nat) (f : Clk → Wst → Wst) (s : State) (w : Nat) :
    seatOf (storesFrom base f (List.range n) s) w =
      if base ≤ w ∧ w < base + n then { seatOf s w with wst := f s.clk (seatOf s w).wst } else seatOf s w := by
  induction n with
  | zero => exact (if_neg (by omega)).symm
  | succ n ih =>
    have hlast : storesFrom base f (List.range (n + 1)) s =
        modWst (storesFrom base f (List.range n) s) (base + n) (f s.clk) := by
      rw [storesFrom, List.range_succ, List.foldl_append, List.foldl_cons, List.foldl_nil, ← storesFrom, clk_storesFrom]
    rw [hlast]
    by_cases hw : w = base + n
    · subst hw
      rw [modWst, seatOf_modSeat_self, ih, if_neg (by omega), if_pos (by omega)]
    · rw [modWst, seatOf_modSeat_ne _ _ hw, ih]
      have hiff : (base ≤ w ∧ w < base + (n + 1)) ↔ (base ≤ w ∧ w < base + n) := by omega
      simp only [hiff]

/-- What a DRAM sample of `t` degrees on crew `q` makes of a seat's refresh interval, by the clocks. -/
def sampledHot (q : Nat) (t : Int) (k : Clk) (x : Wst) : Wst := setHot x (tget ({} : Dom) k.dom q).accrual k.ticks t

theorem exec_dramSample (q : CrewIx) (c : Byte) (s : State) : exec (.dramSample q c) s =
    .next (storesFrom (q.val * 24) (sampledHot q.val c.toInt) (List.range 24) (modDom s q.val fun m => { m with tdram := c })) := rfl

theorem domOf_storesFrom (base : Nat) (f : Clk → Wst → Wst) (l : List Nat) (s : State) (d : Nat) :
    domOf (storesFrom base f l s) d = domOf s d := by
  rw [domOf, clk_storesFrom, domOf]

theorem setHot_eq (x : Wst) (phase : Option Nat) (now : Nat) (t : Int) : setHot x phase now t =
    { x with hot := if 85 < t then true else if t ≤ 82 then false else x.hot, accrued := (setHot x phase now t).accrued } := rfl

end Sys2Proof.Machine
end

section
open Sys2Proof Sys2Proof.Machine

/-- Settles O22: the choice by `nextWork_first`, each kind of work by the seat it leaves, and the crew's seats one by one. -/
theorem sidePort : Obligations.SidePort := by
  unfold Obligations.SidePort
  constructor
  · intro s w ahead i x hr hn
    refine ⟨nextWork_first hn, fun g d hk => ?_, fun f n hk => ?_, fun g hk => ?_, fun f k hk => ⟨exec_sidePort_scrub hr hn hk, fun hle => ?_⟩⟩
    · obtain ⟨hst, hco, hde, hcx, hws⟩ := storeWrite_spec (workTaken x i) g d
      refine ⟨_, exec_sidePort_write hr hn hk, by rw [seatOf_putSeat_self], ?_⟩
      rw [seatOf_putSeat_self]
      exact ⟨hst, hco, hde, hcx, fun hout => hws.trans (scrubYields_outside fun f k h => hout f k (mem_of_mem_dropAt h))⟩
    · obtain ⟨hst, hco, -, hcx, hws⟩ := storeWrite_spec (restFill (workTaken x i) f n) f 0
      refine ⟨_, exec_sidePort_fill hr hn hk, by rw [seatOf_putSeat_self], ?_⟩
      rw [seatOf_putSeat_self]
      rw [restFill_eq] at hst hco hcx hws ⊢
      refine ⟨bytesOf_zeroGranule ▸ hst, hco, hcx, fun hout => hws.trans (scrubYields_outside fun e k h => hout e k ?_)⟩
      rcases List.mem_append.mp h with h | h
      · split at h <;> simp at h
      · exact mem_of_mem_dropAt h
    · exact ⟨_, exec_sidePort_diag hr hn hk, diagRead_shown s w.val (workTaken x i), diagRead_refused s w.val (workTaken x i)⟩
    · refine ⟨_, exec_sidePort_scrubEnd hr hn hk hle, ?_⟩
      obtain ⟨hwork, hweak⟩ := scrubNext_leaves (workTaken x i).wst f
      by_cases hc : tileCrc (mslice x.store (64 * f) 2240) kindWeight = BitVec.ofNat 32 (tileStored (mslice x.store (64 * f) 2240) kindWeight)
      · rw [scrubEnd_good s w.val (workTaken x i) hc, seatOf_putSeat_self]
        exact ⟨rfl, hwork, fun _ => ⟨rfl, hweak⟩, fun hn => absurd hc hn⟩
      · obtain ⟨r, hrep, hcode, hkind, hdet⟩ := scrubEnd_weak s w.val (workTaken x i) hc
        have hseat : seatOf (scrubEnd (putSeat s w.val (workTaken x i)) w.val f) w.val = _ :=
          (congrArg (seatOf · w.val) hrep).trans (seatOf_putSeat_self _ _ _)
        rw [hseat]
        exact ⟨rfl, hwork, fun h => absurd h hc, fun _ => ⟨congrArg satInc hweak, rfl, r, congrArg (fun u => u.flt.path) hrep, hcode, hkind, hdet⟩⟩
  · intro s
    refine ⟨fun w f he hb ht hf => exec_scrubTile_begins he hb ht (scrubTarget_of hf),
      fun w v => ⟨fun hv hd => if_pos ⟨hv, hd⟩, fun h => if_neg fun ⟨hv, hd⟩ => h.elim (fun h0 => Bool.false_ne_true (h0.symm.trans hv))
        fun h1 => Bool.false_ne_true (hd.symm.trans h1)⟩, fun q c => ?_⟩
    refine ⟨_, exec_dramSample q c s, ?_, fun d hd => ?_, fun w => ?_⟩
    · rw [domOf_storesFrom, domOf_modDom_self]
    · rw [domOf_storesFrom, domOf_modDom_ne _ _ hd]
    · rw [seatOf_storesFrom]
      have hiff : (q.val * 24 ≤ w ∧ w < q.val * 24 + 24) ↔ crewOf w = q.val := by unfold crewOf; omega
      by_cases hw : crewOf w = q.val
      · rw [if_pos (hiff.mpr hw), if_pos hw, sampledHot, setHot_eq]
        rfl
      · rw [if_neg (mt hiff.mp hw), if_neg hw]
        rfl

end

section
/-!
SUPPORT. BAR2 (13 R408): the two shapes of an access, and one lemma per way that an access of a half's pool ends.
-/
namespace Sys2Proof.Machine
open Host (Outcome)

/-- An access inside one granule below the counter window. -/
def Bar2Granule (o len : Nat) : Prop := o + len ≤ 0x50000000 ∧ 0 < len ∧ o / 64 = (o + len - 1) / 64

/-- An access of one counter or flag word. -/
def Bar2Word (o len : Nat) : Prop := 0x50000000 ≤ o ∧ o + len ≤ 0x50000800 ∧ len = 4 ∧ o % 4 = 0

theorem bar2Granule_iff (o len : Nat) :
    (decide (o + len ≤ poolWindow) && decide (0 < len) && decide (o / 64 = (o + len - 1) / 64)) = true ↔ Bar2Granule o len := by
  simp [Bar2Granule, poolWindow, and_assoc]

theorem bar2Word_iff (o len : Nat) :
    (decide (poolWindow ≤ o) && decide (o + len ≤ poolEnd) && len == 4 && o % 4 == 0) = true ↔ Bar2Word o len := by
  simp [Bar2Word, poolWindow, poolEnd, and_assoc]

theorem Bar2Granule.not_word {o len : Nat} (h : Bar2Granule o len) : ¬ Bar2Word o len := fun hw => by
  obtain ⟨h1, h2, -⟩ := h
  obtain ⟨h3, -⟩ := hw
  omega

section
variable {s : State} {h o len : Nat}

theorem bar2Pool_elsewhere (hg : ¬ Bar2Granule o len) (hw : ¬ Bar2Word o len) (wr : Option Mem) :
    bar2Pool s h o len wr = badAccess (if wr.isNone then bar2Refuse s else s) :=
  if_pos ⟨Bool.eq_false_iff.mpr (mt (bar2Granule_iff o len).mp hg), Bool.eq_false_iff.mpr (mt (bar2Word_iff o len).mp hw)⟩

/-- An access of one of the two shapes goes on to the half. -/
theorem bar2Pool_shaped (hs : Bar2Granule o len ∨ Bar2Word o len) :
    ¬ ((decide (o + len ≤ poolWindow) && decide (0 < len) && decide (o / 64 = (o + len - 1) / 64)) = false ∧
      (decide (poolWindow ≤ o) && decide (o + len ≤ poolEnd) && len == 4 && o % 4 == 0) = false) := fun ⟨hg, hw⟩ =>
  hs.elim (fun h => Bool.eq_false_iff.mp hg ((bar2Granule_iff o len).mpr h)) fun h => Bool.eq_false_iff.mp hw ((bar2Word_iff o len).mpr h)

theorem bar2Pool_held (hs : Bar2Granule o len ∨ Bar2Word o len) (he : halfEasy s h = true) (wr : Option Mem) :
    bar2Pool s h o len wr = noteHeld (modPool s h fun p => { p with bar2Held := p.bar2Held ++ [(o, len, wr)] }) h := by
  unfold bar2Pool
  dsimp only
  rw [if_neg (bar2Pool_shaped hs), if_pos he]

variable (he : halfEasy s h = false)
include he

/-- A read of a segment that does not serve (05 R181). -/
theorem bar2Pool_asleep_read (hg : Bar2Granule o len) (hs : segOpen (poolOf s h) o = false) : bar2Pool s h o len none = bar2Refuse s := by
  unfold bar2Pool
  dsimp only
  rw [if_neg (bar2Pool_shaped (.inl hg)), if_neg (Bool.eq_false_iff.mp he), if_pos (by rw [(bar2Granule_iff o len).mpr hg, hs]; simp)]

/-- A write to a segment that does not serve (05 R181). -/
theorem bar2Pool_asleep_write (hg : Bar2Granule o len) (hs : segOpen (poolOf s h) o = false) (d : Mem) :
    bar2Pool s h o len (some d) = modPool s h fun p => { p with bar2Dropped := satInc p.bar2Dropped } := by
  unfold bar2Pool
  dsimp only
  rw [if_neg (bar2Pool_shaped (.inl hg)), if_neg (Bool.eq_false_iff.mp he), if_pos (by rw [(bar2Granule_iff o len).mpr hg, hs]; simp)]

variable (hb : halfBoated s h = false)
include hb

section
variable (hg : Bar2Granule o len) (hs : segOpen (poolOf s h) o = true)
include hg hs

theorem bar2Pool_granule_read : bar2Pool s h o len none = bar2Answer s (mrd (poolOf s h).mem o len) := by
  unfold bar2Pool
  dsimp only
  rw [if_neg (bar2Pool_shaped (.inl hg)), if_neg (Bool.eq_false_iff.mp he), if_neg (by rw [hb, hs]; simp),
    if_neg (mt (bar2Word_iff o len).mp hg.not_word)]

theorem bar2Pool_granule_write (d : Mem) : bar2Pool s h o len (some d) = poolWrite s h o (mbytes d 0 len) := by
  unfold bar2Pool
  dsimp only
  rw [if_neg (bar2Pool_shaped (.inl hg)), if_neg (Bool.eq_false_iff.mp he), if_neg (by rw [hb, hs]; simp),
    if_neg (mt (bar2Word_iff o len).mp hg.not_word)]

end

section
variable (hw : Bar2Word o len)
include hw

omit he in
/-- A word access meets no segment. -/
theorem bar2Pool_word_on : ¬ (halfBoated s h || ((decide (o + len ≤ poolWindow) && decide (0 < len) && decide (o / 64 = (o + len - 1) / 64)) &&
    !segOpen (poolOf s h) o)) = true := by
  rw [hb, Bool.eq_false_iff.mpr (mt (bar2Granule_iff o len).mp fun hg => hg.not_word hw)]
  exact Bool.false_ne_true

theorem bar2Pool_word_read : bar2Pool s h o len none = bar2Answer s ((poolOf s h).lnd.word (o - 0x50000000)).toNat := by
  unfold bar2Pool
  dsimp only
  rw [if_neg (bar2Pool_shaped (.inr hw)), if_neg (Bool.eq_false_iff.mp he), if_neg (bar2Pool_word_on hb hw),
    if_pos ((bar2Word_iff o len).mpr hw)]

theorem bar2Pool_word_write (d : Mem) : bar2Pool s h o len (some d) = setPoolWord s h (o - 0x50000000) (mword d 0) := by
  unfold bar2Pool
  dsimp only
  rw [if_neg (bar2Pool_shaped (.inr hw)), if_neg (Bool.eq_false_iff.mp he), if_neg (bar2Pool_word_on hb hw),
    if_pos ((bar2Word_iff o len).mpr hw)]

end

end

/-- An access that a half in Easy holds changes the pool's queue, and the wake it brings (09 R299, 12 R390). -/
theorem bar2Held_state (s : State) {h : Nat} (he : halfEasy s h = true) (a : Nat × Nat × Option Mem) :
    let t := noteHeld (modPool s h fun p => { p with bar2Held := p.bar2Held ++ [a] }) h
    poolOf t h = { poolOf s h with bar2Held := (poolOf s h).bar2Held ++ [a] } ∧ OtherPools s t h ∧ t.glb = s.glb ∧
      tget false t.pwr.waking h = true ∧ t.noc.seamHeld = satInc s.noc.seamHeld := by
  intro t
  have hhide : t.hide [.pwr, .noc] = (modPool s h fun p => { p with bar2Held := p.bar2Held ++ [a] }).hide [.pwr, .noc] :=
    noteHeld_hide _ _ (by decide) (by decide)
  have hpools : t.pools = (modPool s h fun p => { p with bar2Held := p.bar2Held ++ [a] }).pools := pools_eq_of_hide hhide (by decide)
  have hglb : t.glb = (modPool s h fun p => { p with bar2Held := p.bar2Held ++ [a] }).glb := glb_eq_of_hide hhide (by decide)
  obtain ⟨hheld, hwake, -⟩ := noteHeld_holds (s := modPool s h fun p => { p with bar2Held := p.bar2Held ++ [a] }) he
  refine ⟨?_, fun k hk => ?_, hglb, hwake, hheld⟩
  · rw [poolOf, hpools]
    exact poolOf_modPool_self s h _
  · rw [poolOf, hpools]
    exact poolOf_modPool_ne s _ hk

theorem mrd_lt (m : Mem) (a n : Nat) : mrd m a n < 256 ^ n := by
  induction n generalizing a with
  | zero => exact Nat.one_pos
  | succ n ih =>
    have h1 := ih (a + 1)
    have h2 := (mread m a).isLt
    rw [mrd, Nat.pow_succ]
    omega

/-- A granule's bytes fit the register they are shown in. -/
theorem bar2Data_granule (m : Mem) {o len : Nat} (h : Bar2Granule o len) : (BitVec.ofNat 4096 (mrd m o len)).toNat = mrd m o len := by
  obtain ⟨-, hl, hg⟩ := h
  have hlen : len ≤ 512 := by omega
  refine (BitVec.toNat_ofNat _ _).trans (Nat.mod_eq_of_lt (Nat.lt_of_lt_of_le (mrd_lt m o len) ?_))
  calc 256 ^ len ≤ 256 ^ 512 := Nat.pow_le_pow_right (by omega) hlen
    _ = 2 ^ 4096 := by rw [show (256 : Nat) = 2 ^ 8 from rfl, ← Nat.pow_mul]

theorem bar2Answer_word (s : State) (v : Word) : (bar2Answer s v.toNat).glb.bar2Data.toNat = v.toNat :=
  (BitVec.toNat_ofNat _ _).trans (Nat.mod_eq_of_lt (Nat.lt_of_lt_of_le v.isLt (Nat.pow_le_pow_right (by omega) (by omega))))

theorem bar2Answer_pools (s : State) (v : Nat) : (bar2Answer s v).pools = s.pools := rfl

theorem exec_bar2Access_bad {s : State} {off len : Nat} {prot : Bool} (hi : s.sec.ide = true) (hp : prot = false) (wr : Option Mem) :
    exec (.bar2Access off len wr prot) s = .next (badAccess s) :=
  if_pos ⟨hi, hp⟩

theorem exec_bar2Access_pool {s : State} {off len : Nat} {prot : Bool} (hp : s.sec.ide = false ∨ prot = true) (ho : off < 0x100000000)
    (wr : Option Mem) :
    exec (.bar2Access off len wr prot) s = .next (bar2Pool s (off / 0x80000000) (off % 0x80000000) len wr) := by
  show execBar2Access off len wr prot s = _
  rw [execBar2Access, if_neg, if_neg (by omega)]
  rintro ⟨hi, hn⟩
  rcases hp with h | h
  · rw [h] at hi; cases hi
  · rw [h] at hn; cases hn

end Sys2Proof.Machine
end

section
open Sys2Proof Sys2Proof.Machine

/-- Settles O34: each way of `bar2Pool` by its lemma, and the state that it leaves. -/
theorem bar2 : Obligations.Bar2 := by
  unfold Obligations.Bar2
  intro s off len prot
  refine ⟨fun hi hp wr => exec_bar2Access_bad hi hp wr, fun hp ho => ?_⟩
  have hx (wr : Option Mem) := exec_bar2Access_pool (s := s) (len := len) hp ho wr
  refine ⟨fun hg hw wr => ?_, fun hs he wr => ?_, fun hg he hb hs => ⟨?_, fun d => ?_⟩, fun hg he hs => ⟨?_, fun d => ?_⟩,
    fun hw he hb => ⟨?_, fun d => ?_⟩⟩
  · refine ⟨_, (hx wr).trans (congrArg _ (bar2Pool_elsewhere hg hw wr)), ?_⟩
    cases wr
    · exact ⟨rfl, rfl, fun _ => rfl⟩
    · exact ⟨rfl, rfl, fun h => by cases h⟩
  · exact ⟨_, (hx wr).trans (congrArg _ (bar2Pool_held hs he wr)), bar2Held_state s he _⟩
  · exact ⟨_, (hx none).trans (congrArg _ (bar2Pool_granule_read he hb hg hs)), rfl, bar2Data_granule _ hg, rfl, rfl⟩
  · refine ⟨_, (hx (some d)).trans (congrArg _ (bar2Pool_granule_write he hb hg hs d)), ?_, ?_, otherPools_modPool _ _ _, rfl, rfl⟩ <;>
      rw [poolWrite, poolOf_modPool_self]
    exact storesAt_mwrites _ _ _
  · exact ⟨_, (hx none).trans (congrArg _ (bar2Pool_asleep_read he hg hs)), rfl, rfl⟩
  · exact (hx (some d)).trans (congrArg _ (bar2Pool_asleep_write he hg hs d))
  · exact ⟨_, (hx none).trans (congrArg _ (bar2Pool_word_read he hb hw)), rfl, bar2Answer_word s _, bar2Answer_pools s _⟩
  · have h4 : (off % 0x80000000 - 0x50000000) % 4 = 0 := by
      obtain ⟨h1, -, -, h2⟩ := hw
      omega
    refine ⟨_, (hx (some d)).trans (congrArg _ (bar2Pool_word_write he hb hw d)), ?_, otherPools_setPoolWord _ _ _ _, ?_⟩
    · rw [poolOf_setPoolWord]
    · rw [lnd_setPoolWord]
      exact lnd_setWord _ _ h4

end

section
/-!
SUPPORT. Registers (13 R403-R407): which register an offset of BAR0 reads and writes, and the access that reaches it.
-/
namespace Sys2Proof.Machine
open Host (Outcome)

/-! ## The blocks of BAR0 -/

section
variable {s : State} {off : Nat} (h4 : off % 4 = 0)
include h4

theorem bar0Read_glb (hx : off < 0x1000) : bar0Read s off = glbRead s off := by
  rw [bar0Read, if_neg (by omega), if_neg (by omega), if_neg (by omega), if_pos (by omega)]

theorem bar0Read_recovery (hr : s.glb.fw = .recovery) (hlo : 0x700000 ≤ off) (hhi : off < 0x800000) :
    bar0Read s off = some (mrd s.glb.recWin (off - 0x700000) 4) := by
  rw [bar0Read, if_neg (by omega), if_neg (by omega), if_neg (by omega), if_neg (by omega), if_pos hr,
    if_pos (by simp [isRecoveryWin, hlo, hhi])]

variable (hr : s.glb.fw ≠ .recovery)
include hr

theorem bar0Read_cq (hlo : 0x100000 ≤ off) (hhi : off < 0x200000) : bar0Read s off = cqRead s (off - 0x100000) := by
  rw [bar0Read, if_neg (by omega), if_neg (by omega), if_neg (by omega), if_neg (by omega), if_neg hr, if_pos hhi]

theorem bar0Read_flt (hlo : 0x300000 ≤ off) (hhi : off < 0x400000) : bar0Read s off = fltRead s (off - 0x300000) := by
  rw [bar0Read, if_neg (by omega), if_neg (by omega), if_neg (by omega), if_neg (by omega), if_neg hr, if_neg (by omega), if_neg (by omega),
    if_pos hhi]

theorem bar0Read_clk (hlo : 0x400000 ≤ off) (hhi : off < 0x500000) : bar0Read s off = clkRead s (off - 0x400000) := by
  rw [bar0Read, if_neg (by omega), if_neg (by omega), if_neg (by omega), if_neg (by omega), if_neg hr, if_neg (by omega), if_neg (by omega),
    if_neg (by omega), if_pos hhi]

end

theorem bar0Write_glb {off : Nat} (s : State) (v : Word) (h : off < 0x100000) : bar0Write s off v = glbWrite s off v := if_pos h

theorem bar0Write_cq {off : Nat} (s : State) (v : Word) (hlo : 0x100000 ≤ off) (hhi : off < 0x200000) :
    bar0Write s off v = cqWrite s (off - 0x100000) v := by
  rw [bar0Write, if_neg (by omega), if_pos hhi]

theorem bar0Write_clk {off : Nat} (s : State) (v : Word) (hlo : 0x400000 ≤ off) (hhi : off < 0x500000) :
    bar0Write s off v = clkWrite s (off - 0x400000) v := by
  rw [bar0Write, if_neg (by omega), if_neg (by omega), if_neg (by omega), if_neg (by omega), if_pos hhi]

theorem bar0Write_ackSeq (s : State) (v : Word) : bar0Write s 0x300008 v = { s with flt := { s.flt with ackSeq := v } } := by
  rw [bar0Write, if_neg (by omega), if_neg (by omega), if_neg (by omega), if_pos (by omega), if_pos rfl]
  rfl

theorem cqRead_sq (s : State) {n k : Nat} (hn : n < 16) (hk : k < 0x80) : cqRead s (0x80 * n + k) = sqRead (sqOf s n) k := by
  rw [cqRead, if_pos (by omega), show (0x80 * n + k) / 0x80 = n by omega, show (0x80 * n + k) % 0x80 = k by omega]

theorem cqWrite_sq (s : State) (v : Word) {n k : Nat} (hn : n < 16) (hk : k < 0x80) : cqWrite s (0x80 * n + k) v = sqWrite s n k v := by
  rw [cqWrite, if_pos (by omega), show (0x80 * n + k) / 0x80 = n by omega, show (0x80 * n + k) % 0x80 = k by omega]

section
variable {s : State} {n : Nat} (v : Word)

theorem sqWrite_baseLo (h : (sqOf s n).enable = false) : sqWrite s n 0 v = modSq s n fun q => { q with baseLo := (v >>> 12).setWidth 20 } := by
  show modSq s n (fun q => if (sqOf s n).enable then q else { q with baseLo := (v >>> 12).setWidth 20 }) = _
  simp only [h, Bool.false_eq_true, if_false]

theorem sqWrite_baseHi (h : (sqOf s n).enable = false) : sqWrite s n 4 v = modSq s n fun q => { q with baseHi := v } := by
  show modSq s n (fun q => if (sqOf s n).enable then q else { q with baseHi := v }) = _
  simp only [h, Bool.false_eq_true, if_false]

/-- An enabled ring keeps its base (13 R410). -/
theorem sqWrite_keeps (h : (sqOf s n).enable = true) : sqOf (sqWrite s n 0 v) n = sqOf s n := by
  show sqOf (modSq s n fun q => if (sqOf s n).enable then q else _) n = _
  rw [sqOf_modSq_self, if_pos h]

end

/-! ## Accesses -/

theorem aligned_of_bar0Read {s : State} {off v : Nat} (h : bar0Read s off = some v) : off % 4 = 0 := by
  by_contra h4
  rw [bar0Read, if_pos h4] at h
  cases h

/-- A register answers an access of a word. -/
theorem bar0Bad_register {s : State} {off v : Nat} (h : bar0Read s off = some v) : bar0Bad s off 4 = false := by
  simp [bar0Bad, h, aligned_of_bar0Read h]

theorem bar0Bad_of {s : State} {off size : Nat} (hm : isMsix off size = false) (h : size ≠ 4 ∨ off % 4 ≠ 0 ∨ bar0Read s off = none) :
    bar0Bad s off size = true := by
  rcases h with h | h | h <;> simp [bar0Bad, hm, h]

theorem isMsix_out {off size : Nat} (h1 : off < 0x1000 ∨ 0x2008 ≤ off) : isMsix off size = false := by
  have ha : ¬ (0x1000 ≤ off ∧ off < 0x1400) := by omega
  have hb : ¬ (0x2000 ≤ off ∧ off < 0x2008) := by omega
  simp only [isMsix, decide_eq_false ha, decide_eq_false hb, Bool.or_self, Bool.false_and]

section
variable {s : State} {off : Nat}

theorem exec_registerWrite_bad {size : Nat} (hb : bar0Bad s off size = true) (v : BitVec 64) :
    exec (.registerWrite off size (some v)) s = .next (badAccess s) := by
  show execRegisterWrite off size (some v) s = _
  rw [execRegisterWrite, if_pos hb]

theorem exec_registerRead_bad {size : Nat} (hb : bar0Bad s off size = true) :
    exec (.registerWrite off size none) s = .next (badAccess { s with glb := { s.glb with readData := 0 } }) := by
  show execRegisterWrite off size none s = _
  rw [execRegisterWrite, registerRead, if_pos hb]

variable {v : Nat} (h : bar0Read s off = some v)
include h

theorem registerRead_of : registerRead s off 4 = match windowOf off with
    | some p => wakeWindow { s with glb := { s.glb with readData := BitVec.ofNat 32 v } } p.1
    | none => { s with glb := { s.glb with readData := BitVec.ofNat 32 v } } := by
  rw [registerRead, if_neg (by simp [bar0Bad_register h]), h]
  rfl

theorem exec_registerRead_of (hw : windowOf off = none) :
    exec (.registerWrite off 4 none) s = .next { s with glb := { s.glb with readData := BitVec.ofNat 32 v } } := by
  show Outcome.next (registerRead s off 4) = _
  rw [registerRead_of h, hw]

theorem exec_windowRead_of {w o : Nat} (hw : windowOf off = some (w, o)) :
    exec (.registerWrite off 4 none) s = .next (wakeWindow { s with glb := { s.glb with readData := BitVec.ofNat 32 v } } w) := by
  show Outcome.next (registerRead s off 4) = _
  rw [registerRead_of h, hw]

variable (hm : isMsix off 4 = false)
include hm

theorem exec_registerWrite_put (x : BitVec 64) : exec (.registerWrite off 4 (some x)) s =
    .next (if s.glb.fw = .recovery ∧ isRecoveryWin off = true then
        { s with glb := { s.glb with recWin := mwr s.glb.recWin (off - 0x700000) 4 (x.setWidth 32).toNat } }
      else bar0Write s off (x.setWidth 32)) := by
  show execRegisterWrite off 4 (some x) s = _
  rw [execRegisterWrite, if_neg (by simp [bar0Bad_register h]), registerPut, if_neg (by simp [hm])]

theorem exec_registerWrite_of (hr : s.glb.fw ≠ .recovery) (x : BitVec 64) :
    exec (.registerWrite off 4 (some x)) s = .next (bar0Write s off (x.setWidth 32)) := by
  rw [exec_registerWrite_put h hm, if_neg fun hc => hr hc.1]

end

/-- A crew in Paddle begins to wake; nothing else changes (12 R390). -/
theorem wakeWindow_spec (s : State) (w : Nat) : (wakeWindow s w).glb = s.glb ∧ (wakeWindow s w).seats = s.seats ∧
    ((domOf s (crewOf w)).paddle = true → (domOf (wakeWindow s w) (crewOf w)).waking = true) ∧ OtherDoms s (wakeWindow s w) (crewOf w) := by
  unfold wakeWindow
  split
  · exact ⟨rfl, rfl, fun _ => by rw [domOf_modDom_self], fun d hd => domOf_modDom_ne s _ hd⟩
  · next hp => exact ⟨rfl, rfl, fun h => absurd h hp, fun _ _ => rfl⟩

theorem wakeWindow_awake {s : State} {w : Nat} (h : (domOf s (crewOf w)).paddle = false) : wakeWindow s w = s :=
  if_neg (by simp [h])

/-! ## A register's own write -/

section
variable {s : State} (hr : s.glb.fw ≠ .recovery) (x : BitVec 64)

include hr in
theorem exec_glbWrite {off v : Nat} (h4 : off % 4 = 0) (hx : off < 0x1000) (hg : glbRead s off = some v) :
    exec (.registerWrite off 4 (some x)) s = .next (glbWrite s off (x.setWidth 32)) := by
  rw [exec_registerWrite_of ((bar0Read_glb h4 hx).trans hg) (isMsix_out (.inl hx)) hr, bar0Write_glb s _ (by omega)]

include hr in
theorem exec_clkWrite {o v : Nat} (h4 : o % 4 = 0) (ho : o < 0x100000) (hg : clkRead s o = some v) :
    exec (.registerWrite (0x400000 + o) 4 (some x)) s = .next (clkWrite s o (x.setWidth 32)) := by
  have hread : bar0Read s (0x400000 + o) = some v :=
    (bar0Read_clk (by omega) hr (by omega) (by omega)).trans (by rw [Nat.add_sub_cancel_left, hg])
  rw [exec_registerWrite_of hread (isMsix_out (.inr (by omega))) hr, bar0Write_clk s _ (by omega) (by omega), Nat.add_sub_cancel_left]

include hr in
theorem exec_sqWrite {r : RingIx} {k v off : Nat} (h4 : k % 4 = 0) (hk : k < 0x80) (hg : sqRead (sqOf s r.val) k = some v)
    (ho : off = 0x100000 + (0x80 * r.val + k)) :
    exec (.registerWrite off 4 (some x)) s = .next (sqWrite s r.val k (x.setWidth 32)) := by
  subst ho
  have hlt := r.isLt
  have hread : bar0Read s (0x100000 + (0x80 * r.val + k)) = some v :=
    (bar0Read_cq (by omega) hr (by omega) (by omega)).trans (by rw [Nat.add_sub_cancel_left, cqRead_sq s hlt hk, hg])
  rw [exec_registerWrite_of hread (isMsix_out (.inr (by omega))) hr, bar0Write_cq s _ (by omega) (by omega), Nat.add_sub_cancel_left,
    cqWrite_sq s _ hlt hk]

include hr in
theorem exec_ackSeqRegister :
    exec (.registerWrite 0x300008 4 (some x)) s = .next { s with flt := { s.flt with ackSeq := x.setWidth 32 } } := by
  have hread : bar0Read s 0x300008 = some s.flt.ackSeq.toNat := (bar0Read_flt (by omega) hr (by omega) (by omega)).trans rfl
  rw [exec_registerWrite_of hread (isMsix_out (.inr (by omega))) hr, bar0Write_ackSeq]

theorem exec_recoveryWrite (hrec : s.glb.fw = .recovery) {k : Nat} (hk : k < 0x40000) :
    exec (.registerWrite (0x700000 + 4 * k) 4 (some x)) s =
      .next { s with glb := { s.glb with recWin := mwrites s.glb.recWin (4 * k) (bytesOf (x.setWidth 32).toNat 4) } } := by
  rw [exec_registerWrite_put (bar0Read_recovery (by omega) hrec (by omega) (by omega)) (isMsix_out (.inr (by omega))),
    if_pos ⟨hrec, decide_eq_true (by omega)⟩, Nat.add_sub_cancel_left, mwr]

end

/-! ## A seat's window (05 R154) -/

theorem winByte_of (x : Seat) {o : Nat} (h4 : o % 4 = 0) (hlt : o < 1024) : winByte x o = 1024 * x.winBase.toNat + o := by
  unfold winByte
  omega

/-- Byte `a` begins a word of the memory that a seat's window shows. -/
def WindowHolds (x : Seat) (a : Nat) : Prop := (x.winSpace = 1 ∧ a + 4 ≤ 0x60000) ∨ (x.winSpace = 2 ∧ a + 4 ≤ 0x10000)

theorem windowHolds_span {x : Seat} {a : Nat} (h4 : a % 4 = 0) (h : WindowHolds x a) : seatSpan x.winSpace.toNat a 4 4 = true := by
  rw [seatSpan_iff]
  rcases h with ⟨h1, ha⟩ | ⟨h2, ha⟩
  · exact ⟨h4, .inl ⟨by rw [h1]; rfl, ha⟩⟩
  · exact ⟨h4, .inr ⟨by rw [h2]; rfl, ha⟩⟩

section
variable {s : State} {w : SeatIx} {off a : Nat} (h4 : off % 4 = 0) (hlt : off < 1024) (hd : (seatOf s w.val).disabled = false)
  (hp : (domOf s (crewOf w.val)).paddle = false) (ha : 1024 * (seatOf s w.val).winBase.toNat + off = a)
include h4 hlt hp

theorem exec_windowWrite (v : Word) : exec (.seatWindowAccess w off (some v)) s = .next (windowWrite s w.val off v) := by
  show execSeatWindowAccess w off (some v) s = _
  unfold execSeatWindowAccess
  rw [if_neg (by omega), wakeWindow_awake hp]

include hd ha

theorem exec_windowRead (hh : ¬ ((seatOf s w.val).winSpace = 1 ∧ (seatOf s w.val).cox.filling = true)) (hm : WindowHolds (seatOf s w.val) a) :
    exec (.seatWindowAccess w off none) s = .next { s with glb := { s.glb with
      readData := BitVec.ofNat 32 (mrd (if (seatOf s w.val).winSpace = 1 then (seatOf s w.val).core else (seatOf s w.val).desc) a 4) } } := by
  show execSeatWindowAccess w off none s = _
  unfold execSeatWindowAccess
  dsimp only
  rw [if_neg (by omega), if_neg fun hc => hh ⟨hc.2.2.1, hc.2.1⟩, wakeWindow_awake hp, hd, winRead, winByte_of _ h4 hlt, ha,
    if_pos (windowHolds_span (by omega) hm)]
  rfl

theorem exec_windowRead_waits (hm : WindowHolds (seatOf s w.val) a) (hsp : (seatOf s w.val).winSpace = 1)
    (hf : (seatOf s w.val).cox.filling = true) :
    exec (.seatWindowAccess w off none) s = .next (modSeat s w.val fun x => { x with winWait := x.winWait ++ [(a, none)] }) := by
  have hspan := windowHolds_span (by omega) hm
  rw [hsp] at hspan
  show execSeatWindowAccess w off none s = _
  unfold execSeatWindowAccess
  dsimp only
  rw [if_neg (by omega), winByte_of _ h4 hlt, ha, if_pos ⟨hd, hf, hsp, hspan⟩, wakeWindow_awake hp, modSeat, winByte_of _ h4 hlt, ha]
  rfl

end

section
variable {s : State} {w off a : Nat} (hd : (seatOf s w).disabled = false) (hb : halfBoated s (halfOf w) = false) (v : Word)
include hd hb

theorem windowWrite_store (hs : (seatOf s w).winSpace = 0) : windowWrite s w off v = countRefusal s w 0 nkAddress := by
  unfold windowWrite
  dsimp only
  rw [if_neg (by simp [hd, hb]), if_pos (by rw [hs]; rfl)]

variable (h4 : off % 4 = 0) (hlt : off < 1024) (ha : 1024 * (seatOf s w).winBase.toNat + off = a) (hm : WindowHolds (seatOf s w) a)
include h4 hlt ha hm

/-- A write to a byte that the window shows. -/
theorem windowWrite_of : windowWrite s w off v =
    if (seatOf s w).winSpace.toNat = 1 ∧ (seatOf s w).cox.filling = true then
      modSeat s w fun x => { x with winWait := x.winWait ++ [(a, some v)] }
    else if (seatOf s w).winSpace.toNat = 2 ∧ pageBusy (seatOf s w) a 4 = true then
      modCox s w fun c => { c with pageRefused := satInc c.pageRefused }
    else modSeat s w fun x => seatWrite x (seatOf s w).winSpace.toNat a (bytesOf v.toNat 4) := by
  have hsp : (seatOf s w).winSpace.toNat ≠ 0 := by
    rcases hm with ⟨h1, -⟩ | ⟨h2, -⟩
    · simp [h1]
    · simp [h2]
  unfold windowWrite
  dsimp only
  rw [if_neg (by simp [hd, hb]), if_neg hsp, winByte_of _ h4 hlt, ha, if_neg (by rw [windowHolds_span (by omega) hm]; simp)]

theorem windowWrite_waits (hs : (seatOf s w).winSpace = 1) (hf : (seatOf s w).cox.filling = true) :
    windowWrite s w off v = modSeat s w fun x => { x with winWait := x.winWait ++ [(a, some v)] } := by
  rw [windowWrite_of hd hb v h4 hlt ha hm, if_pos ⟨by rw [hs]; rfl, hf⟩]

theorem windowWrite_core (hs : (seatOf s w).winSpace = 1) (hf : (seatOf s w).cox.filling = false) :
    windowWrite s w off v = modSeat s w fun x => seatWrite x 1 a (bytesOf v.toNat 4) := by
  rw [windowWrite_of hd hb v h4 hlt ha hm, hs, if_neg (by simp [hf]), if_neg (by simp)]
  rfl

theorem windowWrite_desc (hs : (seatOf s w).winSpace = 2) (hf : pageBusy (seatOf s w) a 4 = false) :
    windowWrite s w off v = modSeat s w fun x => seatWrite x 2 a (bytesOf v.toNat 4) := by
  rw [windowWrite_of hd hb v h4 hlt ha hm, hs, if_neg (by simp), if_neg (by simp [hf])]
  rfl

theorem windowWrite_page (hs : (seatOf s w).winSpace = 2) (hf : pageBusy (seatOf s w) a 4 = true) :
    windowWrite s w off v = modCox s w fun c => { c with pageRefused := satInc c.pageRefused } := by
  rw [windowWrite_of hd hb v h4 hlt ha hm, hs, if_neg (by simp), if_pos ⟨rfl, hf⟩]

end

end Sys2Proof.Machine
end

section
/-!
SUPPORT. TELEMETRY (13 R421): a block's bytes, and the whole blocks that fit a buffer. The I3C port and the TAP (14 R443, R451, 16 R489).
-/
namespace Sys2Proof.Machine
open Host (Outcome)

/-! ## Bytes of numbers -/

theorem take_bytesOf (v : Nat) {m n : Nat} (h : m ≤ n) : (bytesOf v n).take m = bytesOf v m := by
  induction m generalizing v n with
  | zero => rfl
  | succ m ih =>
    obtain ⟨n, rfl⟩ : ∃ k, n = k + 1 := ⟨n - 1, by omega⟩
    rw [bytesOf, bytesOf, List.take_succ_cons, ih _ (by omega)]

/-- The number whose bytes these are, the first the least. -/
def numberOf (bs : List Byte) : Nat := bs.foldr (fun b n => b.toNat + 256 * n) 0

theorem numberOf_lt (bs : List Byte) : numberOf bs < 256 ^ bs.length := by
  induction bs with
  | nil => exact Nat.one_pos
  | cons b bs ih =>
    have hb := b.isLt
    rw [List.length_cons, Nat.pow_succ]
    show b.toNat + 256 * numberOf bs < _
    omega

theorem numberOf_byte (bs : List Byte) {k : Nat} {b : Byte} (h : bs[k]? = some b) : cb (numberOf bs) k 1 = b.toNat := by
  have hshift (n : Nat) : cb n k 1 = n / 256 ^ k % 256 := by
    rw [cb, fld, Nat.shiftRight_eq_div_pow, Nat.pow_mul]
    rfl
  rw [hshift]
  clear hshift
  induction bs generalizing k with
  | nil => cases h
  | cons a bs ih =>
    have ha := a.isLt
    show (a.toNat + 256 * numberOf bs) / 256 ^ k % 256 = _
    cases k with
    | zero =>
      rw [← Option.some.inj h]
      omega
    | succ k =>
      rw [Nat.pow_succ, Nat.mul_comm (256 ^ k) 256, ← Nat.div_div_eq_div_mul, show (a.toNat + 256 * numberOf bs) / 256 = numberOf bs by omega]
      exact ih h

/-! ## Telemetry -/

/-- Of pieces of four bytes laid one behind the other, the `k`th. -/
theorem take_drop_flatMap {α : Type} {f : α → List Byte} (hf : ∀ a, (f a).length = 4) {l : List α} {k : Nat} {a : α} (h : l[k]? = some a) :
    ((l.flatMap f).drop (4 * k)).take 4 = f a := by
  induction l generalizing k with
  | nil => cases h
  | cons b l ih =>
    rw [List.flatMap_cons]
    cases k with
    | zero => rw [← Option.some.inj h, Nat.mul_zero, List.drop_zero, List.take_append_of_le_length (by rw [hf]),
        List.take_of_length_le (by rw [hf])]
    | succ k => rw [Nat.mul_succ, Nat.add_comm, ← List.drop_drop, List.drop_left' (hf b), ih h]

theorem length_flatMap_words {α : Type} {f : α → List Byte} (hf : ∀ a, (f a).length = 4) (l : List α) : (l.flatMap f).length = 4 * l.length := by
  simp [List.length_flatMap, hf, Nat.mul_comm]

/-- The registers of a block, a word each. -/
def teleWords (s : State) (b : Nat × Nat) : List Byte :=
  (List.range (b.2 / 4)).flatMap fun k => bytesOf ((bar0Read s (b.1 + 4 * k)).getD 0) 4

theorem teleBlock_eq (s : State) (b : Nat × Nat) : teleBlock s b = (bytesOf b.1 4 ++ bytesOf b.2 4) ++ teleWords s b := rfl

theorem length_teleHeader (b : Nat × Nat) : (bytesOf b.1 4 ++ bytesOf b.2 4).length = 8 := by
  rw [List.length_append, length_bytesOf, length_bytesOf]

theorem teleBlocks_words : ∀ b ∈ teleBlocks, 4 * (b.2 / 4) = b.2 := by decide

section
variable {s : State} {b : Nat × Nat} (hb : b ∈ teleBlocks)
include hb

theorem length_teleBlock : (teleBlock s b).length = b.2 + 8 := by
  rw [teleBlock_eq, List.length_append, length_teleHeader, teleWords, length_flatMap_words fun _ => length_bytesOf _ _, List.length_range,
    teleBlocks_words b hb, Nat.add_comm]

theorem teleBlock_word {k : Nat} (hk : 4 * k < b.2) :
    ((teleBlock s b).drop (8 + 4 * k)).take 4 = bytesOf ((bar0Read s (b.1 + 4 * k)).getD 0) 4 := by
  rw [teleBlock_eq, ← List.drop_drop, List.drop_left' (length_teleHeader b)]
  refine take_drop_flatMap (fun _ => length_bytesOf _ _) (List.getElem?_range ?_)
  have := teleBlocks_words b hb
  omega

end

/-- The bytes of blocks one behind the other. -/
def teleBytes (s : State) (l : List (Nat × Nat)) : List Byte := l.flatMap (teleBlock s)

section
variable {s : State} {l : List (Nat × Nat)} (hl : ∀ b ∈ l, b ∈ teleBlocks)
include hl

/-- A buffer that takes all the blocks takes them. -/
theorem teleFit_all {room : Nat} (h : (teleBytes s l).length ≤ room) : teleFit s room l = (teleBytes s l, true) := by
  induction l generalizing room with
  | nil => rfl
  | cons b l ih =>
    obtain ⟨hb, hl⟩ := List.forall_mem_cons.mp hl
    rw [teleBytes, List.flatMap_cons, List.length_append, length_teleBlock hb] at h
    rw [teleFit, if_neg (by omega), ih hl (by rw [teleBytes]; omega)]
    rfl

/-- A buffer that takes not all takes the first of them, as many as it holds. -/
theorem teleFit_some {room : Nat} (h : room < (teleBytes s l).length) :
    ∃ m, m <+: l ∧ m ≠ l ∧ (teleBytes s m).length ≤ room ∧ teleFit s room l = (teleBytes s m, false) := by
  induction l generalizing room with
  | nil => exact absurd h (Nat.not_lt_zero _)
  | cons b l ih =>
    obtain ⟨hb, hl⟩ := List.forall_mem_cons.mp hl
    rw [teleBytes, List.flatMap_cons, List.length_append, length_teleBlock hb] at h
    rw [teleFit]
    split
    case isTrue => exact ⟨[], List.nil_prefix, List.cons_ne_nil _ _ |>.symm, Nat.zero_le _, rfl⟩
    case isFalse hroom =>
      obtain ⟨m, hpre, hne, hlen, heq⟩ := ih hl (room := room - (b.2 + 8)) (by rw [teleBytes]; omega)
      refine ⟨b :: m, (List.cons_prefix_cons).mpr ⟨rfl, hpre⟩, fun e => hne (List.cons.inj e).2, ?_, by rw [heq]; rfl⟩
      rw [teleBytes] at hlen
      rw [teleBytes, List.flatMap_cons, List.length_append, length_teleBlock hb]
      omega

end

/-- The blocks that a mask names. -/
def teleNamed (mask : Nat) : List (Nat × Nat) := ((teleBlocks.zipIdx).filter fun p => bit mask p.2).map (·.1)

theorem teleNamed_mem (mask : Nat) : ∀ b ∈ teleNamed mask, b ∈ teleBlocks := fun b hb => by
  obtain ⟨p, hp, rfl⟩ := List.mem_map.mp hb
  exact List.fst_mem_of_mem_zipIdx (List.mem_filter.mp hp).1

section
variable {s : State} {src : SrcIx} {c : Nat} {ok : Bool} (h : commandOf s src.val 0x40 = some c)
include h

theorem exec_telemetry_bad (hm : 127 < cb c 0x10 2) : Answers (exec (.telemetry src ok) s) s src c stBadParameter 0 := by
  show commandRow s src.val 0x40 _ = _
  rw [commandRow_of h, if_pos hm]

variable (hm : cb c 0x10 2 ≤ 127)
include hm

theorem exec_telemetry_unwritable (hs : src.val ≠ 16) : Answers (exec (.telemetry src false) s) s src c stHostAccess 0 := by
  show commandRow s src.val 0x40 _ = _
  rw [commandRow_of h, if_neg (by omega), if_pos ⟨rfl, hs⟩]

variable (hok : ok = true ∨ src.val = 16)
include hok

theorem exec_telemetry_gives : exec (.telemetry src ok) s =
    .next (answer (writeBuffer s src.val (cb c 0x18 8) (teleFit s (cb c 0x20 4) (teleNamed (cb c 0x10 2))).1) src.val c
      (if (teleFit s (cb c 0x20 4) (teleNamed (cb c 0x10 2))).2 then stSuccess else stBadParameter)
      (teleFit s (cb c 0x20 4) (teleNamed (cb c 0x10 2))).1.length) := by
  have e : execTelemetry src ok s = _ := commandRow_of h
  dsimp only at e
  rw [if_neg (by omega), if_neg fun hn => by rcases hok with hk | hk; exacts [absurd (hk.symm.trans hn.1) (by decide), hn.2 hk]] at e
  exact e

theorem exec_telemetry_all (hf : (teleBytes s (teleNamed (cb c 0x10 2))).length ≤ cb c 0x20 4) :
    Answers (exec (.telemetry src ok) s) (writeBuffer s src.val (cb c 0x18 8) (teleBytes s (teleNamed (cb c 0x10 2)))) src c stSuccess
      (teleBytes s (teleNamed (cb c 0x10 2))).length := by
  have e := exec_telemetry_gives h hm hok
  rw [teleFit_all (teleNamed_mem _) hf] at e
  exact e

theorem exec_telemetry_some (hf : cb c 0x20 4 < (teleBytes s (teleNamed (cb c 0x10 2))).length) :
    ∃ m, m <+: teleNamed (cb c 0x10 2) ∧ m ≠ teleNamed (cb c 0x10 2) ∧ (teleBytes s m).length ≤ cb c 0x20 4 ∧
      Answers (exec (.telemetry src ok) s) (writeBuffer s src.val (cb c 0x18 8) (teleBytes s m)) src c stBadParameter (teleBytes s m).length := by
  have e := exec_telemetry_gives h hm hok
  obtain ⟨m, hpre, hne, hlen, heq⟩ := teleFit_some (teleNamed_mem _) hf
  rw [heq] at e
  exact ⟨m, hpre, hne, hlen, e⟩

end

/-! ## The I3C port -/

section
variable {s : State}

theorem i3cAnswers_iff : i3cAnswers s = true ↔ s.pins.i3cAddr ≠ none ∧ s.glb.fw = .ready := by
  simp [i3cAnswers, Option.isSome_iff_ne_none]

/-- The port with the last reply given up (14 R443). -/
def i3cCleared (s : State) : State := { s with cq := { s.cq with i3cReply := none, i3cData := [] } }

theorem exec_i3cWrite_takes {data : List Byte} (hl : data.length = 64) (ha : i3cAnswers s = true) (hc : (sqOf s 16).cur = none) :
    exec (.i3cWrite data) s = .next (readCommand (i3cCleared s) 16 (BitVec.ofNat 512 (numberOf data))) :=
  if_pos ⟨ha, hl, hc⟩

theorem exec_i3cWrite_mute (ha : ¬ i3cAnswers s = true) (data : List Byte) : exec (.i3cWrite data) s = .next s :=
  if_neg fun h => ha h.1

theorem exec_i3cRead_mute (ha : ¬ i3cAnswers s = true) : exec .i3cRead s = .next s := by
  show execI3cRead s = _
  rw [execI3cRead, Bool.eq_false_iff.mpr ha]

/-- What the port gives for the reply `r` (13 R415, 14 R443): its one or two slots, then the data. -/
def i3cGiven (s : State) (r : BitVec 512) : List Byte :=
  let head := bytesOf r.toNat (if bit r.toNat 2 then 64 else 32)
  head ++ mbytes s.cq.i3cData 0 (4096 - head.length)

theorem exec_i3cRead_gives (ha : i3cAnswers s = true) {r : BitVec 512} (hr : s.cq.i3cReply = some r) :
    exec .i3cRead s = .next { s with cq := { s.cq with i3cReply := none, i3cOut := i3cGiven s r } } := by
  show execI3cRead s = _
  rw [execI3cRead, ha, hr]
  rfl

theorem length_i3cGiven (s : State) (r : BitVec 512) : (i3cGiven s r).length = 4096 := by
  rw [i3cGiven, List.length_append, length_mbytes, length_bytesOf]
  split <;> rfl

theorem take_i3cGiven (s : State) (r : BitVec 512) {n : Nat} (hn : n ≤ if bit r.toNat 2 then 64 else 32) :
    (i3cGiven s r).take n = bytesOf r.toNat n := by
  rw [i3cGiven, List.take_append_of_le_length (by rw [length_bytesOf]; exact hn), take_bytesOf _ hn]

theorem readCommand_takes {src : Nat} {c : BitVec 512} (h : readRefusal (sqOf s src) src c.toNat = none) :
    readCommand s src c = modSq s src fun q => { q with cur := some c } := by
  rw [readCommand, h]

theorem readCommand_refuses {src st : Nat} {c : BitVec 512} (h : readRefusal (sqOf s src) src c.toNat = some st) :
    readCommand s src c = answer s src c.toNat st 0 := by
  rw [readCommand, h]

end

theorem toNat_numberOf {bs : List Byte} (h : bs.length = 64) : (BitVec.ofNat 512 (numberOf bs)).toNat = numberOf bs := by
  have hlt := numberOf_lt bs
  rw [h] at hlt
  refine (BitVec.toNat_ofNat _ _).trans (Nat.mod_eq_of_lt (Nat.lt_of_lt_of_eq hlt ?_))
  rw [show (256 : Nat) = 2 ^ 8 from rfl, ← Nat.pow_mul]

/-! ## The TAP -/

theorem idcode_bit (i : Nat) : idcode.getLsbD i = if i < 1 then (1 : BitVec 1).getLsbD i else
    (Config.idStepping ++ (0x2300 : BitVec 16) ++ Config.jedecCode).getLsbD (i - 1) := BitVec.getLsbD_append

theorem idcode_low : idcode.getLsbD 0 = true := (idcode_bit 0).trans rfl

theorem idcode_part : (idcode >>> 12).setWidth 16 = (0x2300 : BitVec 16) := by
  refine BitVec.eq_of_getLsbD_eq fun i hi => ?_
  rw [BitVec.getLsbD_setWidth, BitVec.getLsbD_ushiftRight, idcode_bit, if_neg (by omega), BitVec.getLsbD_append, if_neg (by omega),
    BitVec.getLsbD_append, if_pos (by omega), show 12 + i - 1 - 11 = i by omega, decide_eq_true hi, Bool.true_and]
/-- The boundary instructions are free only in reset with both supplies good (14 R451). -/
theorem boundaryFree_iff (s : State) :
    boundaryFree s = true ↔ s.pins.reset = true ∧ s.pins.pwrgd.getLsbD 0 = true ∧ s.pins.pwrgd.getLsbD 2 = true := by
  rw [boundaryFree, Bool.and_eq_true, Bool.and_eq_true, and_assoc]

theorem tapLoads_extest (s : State) (h : s.pins.reset = true ∧ s.pins.pwrgd.getLsbD 0 = true ∧ s.pins.pwrgd.getLsbD 2 = true) :
    tapLoads s .extest = .extest :=
  if_pos ((boundaryFree_iff s).mpr h)

theorem tapLoads_extest_bypass (s : State)
    (h : s.pins.reset = false ∨ s.pins.pwrgd.getLsbD 0 = false ∨ s.pins.pwrgd.getLsbD 2 = false) : tapLoads s .extest = .bypass := by
  refine if_neg fun hf => ?_
  obtain ⟨hr, h0, h2⟩ := (boundaryFree_iff s).mp hf
  rcases h with h | h | h
  · exact Bool.false_ne_true (h.symm.trans hr)
  · exact Bool.false_ne_true (h.symm.trans h0)
  · exact Bool.false_ne_true (h.symm.trans h2)

theorem tapLoads_other (s : State) (n : Nat) :
    tapLoads s (.other n) = if s.sec.unlocked = true ∧ s.sec.scope.getLsbD 0 = true then .other n else .bypass := by
  simp only [tapLoads, Bool.and_eq_true]

end Sys2Proof.Machine
end

section
open Sys2Proof Sys2Proof.Machine

/-- Settles O45: each access by the lemma of its register, window or port, and TELEMETRY by the blocks that fit. -/
theorem registersAndPorts : Obligations.RegistersAndPorts := by
  unfold Obligations.RegistersAndPorts
  refine ⟨fun s => ⟨fun off size hm h => ⟨exec_registerWrite_bad (bar0Bad_of hm h), exec_registerRead_bad (bar0Bad_of hm h)⟩,
    fun off v hv hw => exec_registerRead_of hv hw, fun off v w o hv hw => ?_, fun hr v => ?_, fun hr v k hk => exec_recoveryWrite v hr hk,
    fun w off => ?_, fun src c hc hs => ⟨exec_telemetry_bad hc, fun hm => ⟨exec_telemetry_unwritable hc hm hs, fun hf => ?_, fun hf => ?_⟩⟩,
    fun src c ok hc hs hm hf => ?_, fun b hb => ⟨length_teleBlock hb, ?_, fun k hk => teleBlock_word hb hk⟩⟩, fun s => ?_⟩
  · obtain ⟨hglb, hseats, hwake, hother⟩ := wakeWindow_spec { s with glb := { s.glb with readData := BitVec.ofNat 32 v } } w
    exact ⟨_, exec_windowRead_of hv hw, hglb, hseats, hwake, hother⟩
  · refine ⟨exec_glbWrite hr v (by omega) (by omega) rfl, exec_glbWrite hr v (by omega) (by omega) rfl, exec_ackSeqRegister hr v,
      exec_clkWrite hr v (o := 0x10) (by omega) (by omega) rfl, exec_clkWrite hr v (o := 0x14) (by omega) (by omega) rfl,
      exec_clkWrite hr v (o := 0x40) (by omega) (by omega) rfl, exec_clkWrite hr v (o := 0x100) (by omega) (by omega) rfl,
      exec_clkWrite hr v (o := 0) (by omega) (by omega) rfl, exec_glbWrite hr v (by omega) (by omega) rfl, fun r hoff => ⟨?_, ?_⟩, fun r hon => ?_⟩
    · exact (exec_sqWrite hr v (k := 0) (by omega) (by omega) rfl (by omega)).trans (congrArg _ (sqWrite_baseLo _ hoff))
    · exact (exec_sqWrite hr v (k := 4) (by omega) (by omega) rfl (by omega)).trans (congrArg _ (sqWrite_baseHi _ hoff))
    · exact ⟨_, exec_sqWrite hr v (k := 0) (by omega) (by omega) rfl (by omega), sqWrite_keeps _ hon⟩
  · intro x a inMem held h4 hlt hd hp
    have hw (v : Word) := exec_windowWrite h4 hlt hp v
    refine ⟨fun hm hh => exec_windowRead h4 hlt hd hp rfl hh hm, fun hm hh => exec_windowRead_waits h4 hlt hd hp rfl hm hh.1 hh.2, fun hb v =>
      ⟨fun hm hh => (hw v).trans (congrArg _ (windowWrite_waits hd hb v h4 hlt rfl hm hh.1 hh.2)), fun hm hs hf => ?_, fun hm hs hf => ?_,
        fun hm hs hf => (hw v).trans (congrArg _ (windowWrite_page hd hb v h4 hlt rfl hm hs hf)),
        fun hs => (hw v).trans (congrArg _ (windowWrite_store hd hb v hs))⟩⟩
    · refine ⟨_, (hw v).trans (congrArg _ (windowWrite_core hd hb v h4 hlt rfl hm hs hf)), ?_, ?_, otherSeats_modSeat _ _ _⟩ <;>
        rw [seatOf_modSeat_self]
      · exact (seatWrite_core _ _ _ rfl).1
      · exact (seatWrite_core _ _ _ rfl).2
    · refine ⟨_, (hw v).trans (congrArg _ (windowWrite_desc hd hb v h4 hlt rfl hm hs hf)), ?_, ?_, otherSeats_modSeat _ _ _⟩ <;>
        rw [seatOf_modSeat_self]
      · exact (seatWrite_desc _ _ _ rfl).1
      · exact (seatWrite_desc _ _ _ rfl).2
  · exact ⟨_, exec_telemetry_all hc hm (.inl rfl) hf, by rw [writeBuffer, if_neg hs], by rw [writeBuffer, if_neg hs]; exact storesAt_mwrites _ _ _⟩
  · obtain ⟨m, hpre, hne, hlen, he⟩ := exec_telemetry_some hc hm (.inl rfl) hf
    exact ⟨m, hpre, hne, hlen, _, he, by rw [writeBuffer, if_neg hs], by rw [writeBuffer, if_neg hs]; exact storesAt_mwrites _ _ _⟩
  · refine ⟨_, exec_telemetry_all hc hm (.inr hs) hf, by rw [writeBuffer, if_pos hs], fun k b hk => ?_⟩
    rw [writeBuffer, if_pos hs, ← (storesAt_mwrites [] 0 _).1 k b hk, Nat.zero_add]
    rfl
  · rw [teleBlock_eq, List.take_left' (length_teleHeader b)]
  · have hmute (h : s.pins.i3cAddr = none ∨ s.glb.fw ≠ .ready) : ¬ i3cAnswers s = true := fun ha => by
      obtain ⟨h1, h2⟩ := i3cAnswers_iff.mp ha
      exact h.elim h1 fun h => h h2
    refine ⟨fun a => ⟨fun h => if_neg (by simp [h]), fun h => if_pos h⟩, fun data hl ha hf hc => ?_,
      fun h => ⟨exec_i3cWrite_mute (hmute h), exec_i3cRead_mute (hmute h)⟩, fun r ha hf hr => ?_, fun ir => ?_,
      fun h => congrArg _ (if_pos h), fun h => congrArg _ (if_neg h)⟩
    · have he := exec_i3cWrite_takes hl (i3cAnswers_iff.mpr ⟨ha, hf⟩) hc
      refine ⟨BitVec.ofNat 512 (numberOf data), fun k b hk => ?_, fun hn => he.trans (congrArg _ (readCommand_takes hn)),
        fun st hs => he.trans (congrArg _ (readCommand_refuses hs))⟩
      rw [toNat_numberOf hl]
      exact numberOf_byte data hk
    · refine ⟨_, exec_i3cRead_gives (i3cAnswers_iff.mpr ⟨ha, hf⟩) hr, rfl, length_i3cGiven s r, rfl, take_i3cGiven s r ?_,
        fun hb => take_i3cGiven s r (by simp [hb])⟩
      split <;> omega
    · refine ⟨_, rfl, rfl, ?_, ?_, ?_, ?_⟩
      · rintro (rfl | rfl | rfl) <;> rfl
      · rintro rfl
        exact ⟨fun h1 h2 h3 => tapLoads_extest s ⟨h1, h2, h3⟩, tapLoads_extest_bypass s⟩
      · rintro n rfl
        exact tapLoads_other s n
      · rintro rfl
        exact ⟨idcode_low, idcode_part⟩

end
